-- ==== Sys2Proof/Word.lean ====
section
/-! DEFINITION. The machine words of the Eomir Cimer and the two plain containers the model keeps
its sparse state in: finite maps keyed by natural numbers, and byte strings. -/

namespace Sys2Proof

/-- One byte (R12). -/
abbrev Byte := BitVec 8

/-- A 64-bit scalar register or global address (R109, R118). -/
abbrev Word := BitVec 64

/-- A 128-bit instruction word (R121). -/
abbrev InstrWord := BitVec 128

/-- A 256-bit tile descriptor (R128). -/
abbrev Descr := BitVec 256

/-- A string of bytes, lowest address first (R12). -/
abbrev Bytes := List Byte

/-- A finite map from natural numbers, kept sorted by key with no repeats. -/
abbrev Map (α : Type) := List (Nat × α)

/-- The entry at a key, where there is one. -/
def Map.get? {α : Type} : Map α → Nat → Option α
  | [], _ => none
  | (k, v) :: m, i => if i = k then some v else Map.get? m i

/-- The entry at a key, with a value for a key that has none. -/
def Map.getD {α : Type} (m : Map α) (i : Nat) (d : α) : α := (Map.get? m i).getD d

/-- Writes an entry, keeping the keys sorted. -/
def Map.put {α : Type} : Map α → Nat → α → Map α
  | [], i, v => [(i, v)]
  | (k, w) :: m, i, v =>
    if i < k then (i, v) :: (k, w) :: m
    else if i = k then (i, v) :: m
    else (k, w) :: Map.put m i v

/-- Removes an entry. -/
def Map.erase {α : Type} : Map α → Nat → Map α
  | [], _ => []
  | (k, w) :: m, i => if i = k then m else (k, w) :: Map.erase m i

/-- Whether a key has an entry. -/
def Map.has {α : Type} (m : Map α) (i : Nat) : Bool := (Map.get? m i).isSome

/-- Applies a function to every entry. -/
def Map.mapVals {α β : Type} (f : Nat → α → β) (m : Map α) : Map β :=
  m.map fun e => (e.1, f e.1 e.2)

/-- Keeps the entries that pass a test. -/
def Map.keep {α : Type} (p : Nat → α → Bool) (m : Map α) : Map α :=
  m.filter fun e => p e.1 e.2

/-- The entries' values. -/
def Map.vals {α : Type} (m : Map α) : List α := m.map Prod.snd

/-- The keys. -/
def Map.keys {α : Type} (m : Map α) : List Nat := m.map Prod.fst

end Sys2Proof
end

