-- ==== Sys2Proof/Syntax.lean ====
section
/-! DEFINITION. The commands of the block: one constructor of `Instr` for each row of
spec/opcode_table.json, and the operands the rows carry. The rows are host commands (a command
packet taken from a ring or a management session), instructions that a hardware thread issues,
packets that arrive on a Palex port, and events inside the module or at its pins. -/

namespace Sys2Proof

/-- A hardware thread: its array and its index there (R111). -/
structure ThreadId where
  array : Nat
  index : Nat
  deriving DecidableEq, Repr

/-- The fields of an instruction of majors 0x01 to 0x04 (R121, R123). -/
structure ScalarWord where
  pred : BitVec 3 := 0
  pneg : Bool := false
  rsvdHi : BitVec 7 := 0
  immb : Bool := false
  var : BitVec 4 := 0
  sd : BitVec 5 := 0
  sa : BitVec 5 := 0
  sb : BitVec 5 := 0
  pd : BitVec 3 := 0
  rsvdLo : BitVec 14 := 0
  imm : Word := 0
  deriving DecidableEq, Repr

/-- The fields of an instruction of majors 0x10 and above (R121, R122). -/
structure TileWord where
  pred : BitVec 3 := 0
  pneg : Bool := false
  cg : BitVec 3 := 0
  rmode : BitVec 2 := 0
  ovfIeee : Bool := false
  recBit : Bool := false
  noTrap : Bool := false
  var : BitVec 4 := 0
  d : BitVec 4 := 0
  a : BitVec 4 := 0
  b : BitVec 4 := 0
  c : BitVec 4 := 0
  s1 : BitVec 5 := 0
  s2 : BitVec 5 := 0
  s3 : BitVec 5 := 0
  rsvd : BitVec 1 := 0
  imm : Word := 0
  deriving DecidableEq, Repr

/-- The header of a command packet (R329), with the ring that carries it. Where
`session` is not 0, a management session of that number carries it instead (R438). -/
structure CmdHeader where
  ring : Nat
  session : Nat := 0
  ctxId : BitVec 16
  ringId : BitVec 16
  paramLength : BitVec 16
  sequence : BitVec 32 := 0
  reserved : BitVec 32 := 0
  hostTime : Word := 0
  txnId : Word := 0
  deriving DecidableEq, Repr

/-- What a read on the host's bus gives the device: bytes, or an error completion or a completion
timeout (R325, R486). -/
inductive BusData where
  | bytes (data : Bytes)
  | error
  deriving DecidableEq, Repr

/-- A Palex packet (R258): its header's fields but for `PKT_TYPE`, which is the row's own, and its payload. `flags76` is
`PKT_FLAGS`[7:6]. Packets name whole 16-byte units (R259); `span` is the part of the payload that a store of fewer bytes
writes, first byte and end, for which R258 has no field (notes/assumptions/22.md). -/
structure Packet where
  vc : Nat
  resent : Bool := false
  select : Bool := false
  byTag : Bool := false
  flags76 : Nat := 0
  length : Nat
  srcDevice : Nat
  dstDevice : Nat
  srcIncarnation : Nat
  dstIncarnation : Nat
  ctxId : Nat
  ctxGeneration : Nat
  address : Word
  time : Word := 0
  tag : Nat
  hops : Nat := 0
  operation : Nat := 0
  status : Nat := 0
  operand : Word := 0
  payload : Bytes := []
  span : Option (Nat × Nat) := none
  deriving DecidableEq, Repr

/-- A flit: the fields of `FLIT_HDR`, of which `low` is [7:0], its fifteen slots, and what the receiver's FEC and CRC
made of it (R254, R255). -/
structure Flit where
  kind : Nat := 0
  low : Nat := 0
  slots : Bytes := []
  seq : Nat
  ackSeq : Nat := 0
  ackValid : Bool := false
  nak : Bool := false
  fecCorrected : Bool := false
  crcGood : Bool := true
  deriving DecidableEq, Repr

/-- The body of a management `OPEN` message (R437). -/
structure OpenMessage where
  opAlg : Nat
  reserved : Nat := 0
  operatorKey : Bytes
  nonce : Bytes
  kemCt : Bytes
  signature : Bytes
  deriving DecidableEq, Repr

/-- A management datagram of an open session (R436), with its decrypted body and the tag that
came with it. -/
structure Datagram where
  session : Nat
  sequence : Nat
  fragOffset : Nat := 0
  messageLength : Nat
  lastFragment : Bool := true
  tag : BitVec 128
  body : Bytes
  deriving DecidableEq, Repr

/-- The commands of the block, one constructor for each row of spec/opcode_table.json. -/
inductive Instr where
  /-- Host command that does nothing and completes with DONE (R334) -/
  | nop (h : CmdHeader) (p : Bytes)
  /-- Context-0 command that reports which arrays, ports and rings made no progress over a window of twice PERIOD_US (R341) -/
  | heartbeat (h : CmdHeader) (p : Bytes)
  /-- Writes one consistent 64-byte capability descriptor snapshot to OUT_ADDR (R8) -/
  | queryCaps (h : CmdHeader) (p : Bytes)
  /-- Clears each pending attention class whose sequence is at or before ACK_SEQ, and reports the pending masks before and after (R342) -/
  | ackAttention (h : CmdHeader) (p : Bytes)
  /-- Writes attention log entries or fault records to OUT_ADDR (R342) -/
  | queryFault (h : CmdHeader) (p : Bytes)
  /-- Writes a range of one unit's 48-bit event counters, each with its sticky bit, to OUT_ADDR (R344) -/
  | readCounters (h : CmdHeader) (p : Bytes)
  /-- Returns device time and SYNC_STATE in the reply RESULT (R334) -/
  | timeRead (h : CmdHeader) (p : Bytes)
  /-- Creates a context with its class, limits, quotas, model and save area, or refuses it (R349) -/
  | ctxCreate (h : CmdHeader) (p : Bytes)
  /-- Puts a context in DRAINING; once the drain ends the ID becomes UNUSED with an advanced generation (R351) -/
  | ctxDestroy (h : CmdHeader) (p : Bytes)
  /-- Drains a context and returns it to ACTIVE under a new generation, keeping its class, quotas, model and rings (R351) -/
  | ctxReset (h : CmdHeader) (p : Bytes)
  /-- Suspends a context at its pre-emption points; completes once the context is SUSPENDED (R351) -/
  | ctxSuspend (h : CmdHeader) (p : Bytes)
  /-- Queues a host-suspended context for re-admission; completes once it is ACTIVE (R351) -/
  | ctxResume (h : CmdHeader) (p : Bytes)
  /-- Writes a 256-byte context snapshot record to OUT_ADDR (R352) -/
  | ctxQuery (h : CmdHeader) (p : Bytes)
  /-- Binds a ring to a target context and resets its indices (R324) -/
  | ringBind (h : CmdHeader) (p : Bytes)
  /-- Moves a bound or stopped ring to DRAINING; ring 0 and the carrying ring are refused (R324) -/
  | ringUnbind (h : CmdHeader) (p : Bytes)
  /-- Maps whole zeroed pages of a class and access into the issuing context, all or nothing (R217) -/
  | memMap (h : CmdHeader) (p : Bytes)
  /-- Unmaps pages, first waiting for any repair in progress to end (R221) -/
  | memUnmap (h : CmdHeader) (p : Bytes)
  /-- Pins or releases cellar granules against CELLAR_PIN_LIMIT (R225) -/
  | memPin (h : CmdHeader) (p : Bytes)
  /-- Applies a placement hint, or a repair retry, to a range of pages (R226) -/
  | memHint (h : CmdHeader) (p : Bytes)
  /-- Copies bytes between local memory and host or local memory (R338) -/
  | memCopy (h : CmdHeader) (p : Bytes)
  /-- Fills a local range with a repeated 8-byte pattern (R338) -/
  | memFill (h : CmdHeader) (p : Bytes)
  /-- Sets the selected quota fields of a context, subject to the pool and cellar capacity checks (R229) -/
  | poolQuota (h : CmdHeader) (p : Bytes)
  /-- Writes or removes a provenance record naming clean sources for a range (R239) -/
  | provenanceSet (h : CmdHeader) (p : Bytes)
  /-- Loads model data from the host or the fabric into pinned pool pages (R354) -/
  | modelLoad (h : CmdHeader) (p : Bytes)
  /-- Releases the resident model's pool pages and returns the model state to NONE (R355) -/
  | modelEvict (h : CmdHeader) (p : Bytes)
  /-- Verifies a signed loan record, unwraps its weight key and makes the loan present (R422) -/
  | loanPresent (h : CmdHeader) (p : Bytes)
  /-- Unmaps and zeroes every bound page, then discards the loan's key (R423) -/
  | loanRevoke (h : CmdHeader) (p : Bytes)
  /-- Checks a launch's parameters and structures and submits its threads for admission (R340) -/
  | launch (h : CmdHeader) (p : Bytes)
  /-- Runs a host-formed serving batch exactly as a LAUNCH with no timetable or training table (R364) -/
  | batchSubmit (h : CmdHeader) (p : Bytes)
  /-- Ring command that completes when every earlier command on its ring has its final reply (R343) -/
  | fenceCommand (h : CmdHeader) (p : Bytes)
  /-- Held until the step's commit point, then exchanges the clean flag over a group and reports the combined outcome (R200) -/
  | stepCommit (h : CmdHeader) (p : Bytes)
  /-- Marks a step's guard ABANDONED, or completes with a code set by the guard's state (R202) -/
  | stepAbandon (h : CmdHeader) (p : Bytes)
  /-- Queries, enables, disables or retrains a Palex port and stores its rate and width settings (R282) -/
  | portState (h : CmdHeader) (p : Bytes)
  /-- Replaces destination routes or a context's broadcast set, wholly or not at all (R284) -/
  | routeSet (h : CmdHeader) (p : Bytes)
  /-- Defines, redefines or deletes a group of the issuing context (R289) -/
  | groupDefine (h : CmdHeader) (p : Bytes)
  /-- Builds, appends to or seals a re-sharding plan (R311) -/
  | permutePlan (h : CmdHeader) (p : Bytes)
  /-- Sets the fabric timeout of the module default or of one context (R285) -/
  | timeoutSet (h : CmdHeader) (p : Bytes)
  /-- Takes a copy-on-write snapshot of ranges and streams it to the twin's mirror or to storage (R402) -/
  | ckptBegin (h : CmdHeader) (p : Bytes)
  /-- Reads a CURRENT mirror entry from the twin and writes it as an image to storage (R405) -/
  | ckptDrain (h : CmdHeader) (p : Bytes)
  /-- Writes a checkpoint from the mirror or from storage back into the owner context's ranges (R407) -/
  | ckptRestore (h : CmdHeader) (p : Bytes)
  /-- Queries, pairs, unpairs or discards mirror entries of the twin pair (R400) -/
  | twinState (h : CmdHeader) (p : Bytes)
  /-- Starts the adoption of a spare by a survivor and re-owns the former module's entries to it (R408) -/
  | twinAdopt (h : CmdHeader) (p : Bytes)
  /-- Writes a quote signed by the identity key over a nonce and the measurements (R428) -/
  | attest (h : CmdHeader) (p : Bytes)
  /-- Writes the manufacture certificate or the Strongroom record to OUT_ADDR (R417) -/
  | identityRead (h : CmdHeader) (p : Bytes)
  /-- Opens a transaction with a kind and a timeout (R385) -/
  | txnBegin (h : CmdHeader) (p : Bytes)
  /-- Checks every staged command against the state at commit, then applies all of them or none (R387) -/
  | txnCommit (h : CmdHeader) (p : Bytes)
  /-- Discards the staged commands of an open transaction (R388) -/
  | txnAbort (h : CmdHeader) (p : Bytes)
  /-- Returns the recorded state of a transaction (R388) -/
  | txnQuery (h : CmdHeader) (p : Bytes)
  /-- Stages a chunk of a firmware or configuration image and verifies the image at its last chunk (R441) -/
  | fwStage (h : CmdHeader) (p : Bytes)
  /-- Staged command that, at commit, copies the verified image into the fallback slot and switches to it (R443) -/
  | fwActivate (h : CmdHeader) (p : Bytes)
  /-- Staged command that, at commit, verifies and applies the staged configuration blob (R447) -/
  | cfgWrite (h : CmdHeader) (p : Bytes)
  /-- Logged operator read of a debug space in plaintext (R464) -/
  | debugRead (h : CmdHeader) (p : Bytes)
  /-- Logged operator write that acts as an ordinary write to a debug space (R464) -/
  | debugWrite (h : CmdHeader) (p : Bytes)
  /-- Takes trace buffer frames from the pool and starts recording the selected sources (R465) -/
  | traceStart (h : CmdHeader) (p : Bytes)
  /-- Ends the trace, reports records written and dropped, and optionally releases the buffer (R465) -/
  | traceStop (h : CmdHeader) (p : Bytes)
  /-- Returns Catalogue entries and optionally unpins entries up to a given accession (R450) -/
  | logRead (h : CmdHeader) (p : Bytes)
  /-- Clears the selected counters and their sticky bits and logs their old values (R392) -/
  | ctrClear (h : CmdHeader) (p : Bytes)
  /-- Sets the input power cap (R458) -/
  | powerCap (h : CmdHeader) (p : Bytes)
  /-- Writes its reply and a pinned entry, then starts a MODULE reset within 10 ms (R466) -/
  | resetModule (h : CmdHeader) (p : Bytes)
  /-- Staged test of the arrays and memories that resets the health rates on a pass (R398) -/
  | probationTest (h : CmdHeader) (p : Bytes)
  /-- 8-byte write of CMD_TAIL and REPLY_HEAD for a ring; an out-of-range value stops the ring (R326) -/
  | doorbell (ring width : Nat) (value : Word)
  /-- Write of 1 that makes hardware start filling the fault mailbox without the Steward (R332) -/
  | snapshotReq (value : BitVec 32)
  /-- The mailbox is filled; hardware stamps SNAPSHOT_TIME, advances SNAPSHOT_SEQ and clears BUSY (R332) -/
  | snapshotComplete
  /-- Stops an array, traps the threads whose instructions hold it and starts its self-check (R378) -/
  | arrayReset (key : Byte) (target : BitVec 16)
  /-- Retires a pseudo-channel and starts copying its lines into relocation frames (R237) -/
  | channelReset (key : Byte) (target : BitVec 16)
  /-- Clears a port's link state, replay buffer and keys, and retrains it (R375) -/
  | portReset (key : Byte) (target : BitVec 16)
  /-- Snapshots, silences and resets the chip, keeping the always-on state and the attic in self-refresh (R379) -/
  | chipReset (key : Byte) (target : BitVec 16)
  /-- Write to a BAR0 register that has no row of its own, such as a ring table field or a BAR2 window register (R325) -/
  | registerWrite (offset width : Nat) (value : Word)
  /-- 4-byte read of the low half of DEVICE_TIME that latches the high half (R323) -/
  | deviceTimeLowRead
  /-- Host read through the BAR2 window onto the device range (R337) -/
  | bar2Read (offset len : Nat)
  /-- Posted host write through the BAR2 window onto the device range (R337) -/
  | bar2Write (offset : Nat) (data : Bytes)
  /-- Assertion of PERST#, a PCIe conventional reset that maps to the CHIP domain (R470) -/
  | perstAssert
  /-- PCIe hot reset, mapped to the CHIP domain (R320) -/
  | hotReset
  /-- PCIe Function Level Reset, mapped to the CHIP domain with the link kept up (R320) -/
  | functionLevelReset
  /-- PCIe link disable, mapped to the CHIP domain (R320) -/
  | linkDisable
  /-- The Steward takes the next command of a bound ring once its entries and a reply entry are available, checks it and starts it (R327) -/
  | commandTake (ring : Nat) (entries : BusData)
  /-- A draining or stopped ring becomes UNBOUND once every command it took has its final reply (R324) -/
  | ringDrainComplete (ring : Nat)
  /-- A bus read for a command arrives, or ends in an error completion or completion timeout (R486) -/
  | dmaReadCompletion (handle : Nat) (data : BusData)
  /-- Every 1 ms the Steward increments STEWARD_BEAT (R322) -/
  | stewardBeatTick
  /-- Scalar 64-bit wrapping add (R125) -/
  | add (t : ThreadId) (w : ScalarWord)
  /-- Scalar 64-bit wrapping subtract (R125) -/
  | sub (t : ThreadId) (w : ScalarWord)
  /-- Scalar 64-bit wrapping multiply (R125) -/
  | mul (t : ThreadId) (w : ScalarWord)
  /-- High 64 bits of the unsigned 128-bit product (R125) -/
  | mulhu (t : ThreadId) (w : ScalarWord)
  /-- Scalar bitwise AND (R125) -/
  | and (t : ThreadId) (w : ScalarWord)
  /-- Scalar bitwise OR (R125) -/
  | or (t : ThreadId) (w : ScalarWord)
  /-- Scalar bitwise XOR (R125) -/
  | xor (t : ThreadId) (w : ScalarWord)
  /-- Shift left, with the count taken modulo 64 (R125) -/
  | shl (t : ThreadId) (w : ScalarWord)
  /-- Logical shift right (R125) -/
  | shr (t : ThreadId) (w : ScalarWord)
  /-- Arithmetic shift right (R125) -/
  | sra (t : ThreadId) (w : ScalarWord)
  /-- Signed minimum (R125) -/
  | min (t : ThreadId) (w : ScalarWord)
  /-- Signed maximum (R125) -/
  | max (t : ThreadId) (w : ScalarWord)
  /-- Copies SB or IMM to SD (R125) -/
  | mov (t : ThreadId) (w : ScalarWord)
  /-- Sets PD when the operands are equal (R125) -/
  | cmpeq (t : ThreadId) (w : ScalarWord)
  /-- Sets PD when the operands differ (R125) -/
  | cmpne (t : ThreadId) (w : ScalarWord)
  /-- Signed less-than compare into PD (R125) -/
  | cmplt (t : ThreadId) (w : ScalarWord)
  /-- Unsigned less-than compare into PD (R125) -/
  | cmpltu (t : ThreadId) (w : ScalarWord)
  /-- Signed less-or-equal compare into PD (R125) -/
  | cmple (t : ThreadId) (w : ScalarWord)
  /-- Unsigned less-or-equal compare into PD (R125) -/
  | cmpleu (t : ThreadId) (w : ScalarWord)
  /-- Predicate AND into PD (R124) -/
  | pand (t : ThreadId) (w : ScalarWord)
  /-- Predicate OR into PD (R124) -/
  | por (t : ThreadId) (w : ScalarWord)
  /-- Predicate XOR into PD (R124) -/
  | pxor (t : ThreadId) (w : ScalarWord)
  /-- Predicate NOT into PD (R124) -/
  | pnot (t : ThreadId) (w : ScalarWord)
  /-- Zero-extending scalar load, local or over Palex (R126) -/
  | ld (t : ThreadId) (w : ScalarWord)
  /-- Sign-extending scalar load (R126) -/
  | lds (t : ThreadId) (w : ScalarWord)
  /-- Scalar store of the low bytes of SB (R126) -/
  | st (t : ThreadId) (w : ScalarWord)
  /-- 8-byte atomic operation that returns the old value (R126) -/
  | atom (t : ThreadId) (w : ScalarWord)
  /-- PC-relative branch (R127) -/
  | br (t : ThreadId) (w : ScalarWord)
  /-- Branch that writes the return address to SD (R127) -/
  | call (t : ThreadId) (w : ScalarWord)
  /-- Jump to the address in SA (R127) -/
  | jmp (t : ThreadId) (w : ScalarWord)
  /-- Ends the thread once all of its tile instructions are complete (R127) -/
  | exit (t : ThreadId) (w : ScalarWord)
  /-- Loads a 256-bit tile descriptor from memory (R483) -/
  | dld (t : ThreadId) (w : ScalarWord)
  /-- Stores a tile descriptor to memory (R483) -/
  | dst (t : ThreadId) (w : ScalarWord)
  /-- Writes one descriptor field (R483) -/
  | dset (t : ThreadId) (w : ScalarWord)
  /-- Reads one descriptor field into a scalar register (R483) -/
  | dget (t : ThreadId) (w : ScalarWord)
  /-- Copies a special value into a scalar register (R111) -/
  | sread (t : ThreadId) (w : ScalarWord)
  /-- Copies the bits of a tile from anywhere into a local tile (R135) -/
  | tld (t : ThreadId) (w : TileWord)
  /-- Copies the bits of a local tile to any module, or to the broadcast set (R135) -/
  | tst (t : ThreadId) (w : TileWord)
  /-- Copies the bits of a tile between any modules through the issuing module (R135) -/
  | tcp (t : ThreadId) (w : TileWord)
  /-- Matrix multiply D = A·B, folded into passes and computed in the reference order (R130) -/
  | mma (t : ThreadId) (w : TileWord)
  /-- Backward product that forms dX and dW on an array pair (R132) -/
  | mmab (t : ThreadId) (w : TileWord)
  /-- Element-wise A + B with a single rounding (R133) -/
  | vopAdd (t : ThreadId) (w : TileWord)
  /-- Element-wise A − B (R133) -/
  | vopSub (t : ThreadId) (w : TileWord)
  /-- Element-wise A × B (R133) -/
  | vopMul (t : ThreadId) (w : TileWord)
  /-- Element-wise maximum (R133) -/
  | vopMax (t : ThreadId) (w : TileWord)
  /-- Element-wise minimum (R133) -/
  | vopMin (t : ThreadId) (w : TileWord)
  /-- Element-wise A × the binary64 scalar in S1 (R133) -/
  | vopScale (t : ThreadId) (w : TileWord)
  /-- Element-wise absolute value (R133) -/
  | vopAbs (t : ThreadId) (w : TileWord)
  /-- Element-wise negation (R133) -/
  | vopNeg (t : ThreadId) (w : TileWord)
  /-- Element-wise A × B + C with one rounding (R133) -/
  | vopFma (t : ThreadId) (w : TileWord)
  /-- Element-wise ReLU (R133) -/
  | actRelu (t : ThreadId) (w : TileWord)
  /-- Element-wise exact GELU, correctly rounded (R133) -/
  | actGelu (t : ThreadId) (w : TileWord)
  /-- Element-wise SiLU (R133) -/
  | actSilu (t : ThreadId) (w : TileWord)
  /-- Element-wise e^A (R133) -/
  | actExp (t : ThreadId) (w : TileWord)
  /-- Element-wise tanh (R133) -/
  | actTanh (t : ThreadId) (w : TileWord)
  /-- Element-wise sigmoid (R133) -/
  | actSigmoid (t : ThreadId) (w : TileWord)
  /-- Element-wise reciprocal (R133) -/
  | actRecip (t : ThreadId) (w : TileWord)
  /-- Element-wise reciprocal square root of |A| (R133) -/
  | actRsqrt (t : ThreadId) (w : TileWord)
  /-- Converts a tile into the destination format, optionally in place (R134) -/
  | cvt (t : ThreadId) (w : TileWord)
  /-- Opens a statistics tag slot and binds it to a free tag unit if one exists (R158) -/
  | stagOpen (t : ThreadId) (w : TileWord)
  /-- Closes a tag slot; its record is written once its contributions have entered (R158) -/
  | stagClose (t : ThreadId) (w : TileWord)
  /-- Keeps a tile in the Pantry under a key, spilling older entries, filling to the attic or downgrading (R181) -/
  | stash (t : ThreadId) (w : TileWord)
  /-- Copies a stash entry back into a tile and frees the entry (R184) -/
  | unstash (t : ThreadId) (w : TileWord)
  /-- Branches to a recompute block when the key's entry was downgraded (R183) -/
  | recomp (t : ThreadId) (w : TileWord)
  /-- Guarded optimizer step that writes masters, moments and a working-copy slot (R203) -/
  | update (t : ThreadId) (w : TileWord)
  /-- Adds a bfloat16 gradient contribution of one micro-batch to a bucket segment in the Stair (R190) -/
  | bktAdd (t : ThreadId) (w : TileWord)
  /-- Resolves a versioned tile and returns its version in S1 (R196) -/
  | verRead (t : ThreadId) (w : TileWord)
  /-- Acquire: waits until a local semaphore's count is at least n, then subtracts n (R143) -/
  | semWait (t : ThreadId) (w : TileWord)
  /-- Release: waits for the masked groups, then adds n to a semaphore on any module or the broadcast set (R140) -/
  | semPost (t : ThreadId) (w : TileWord)
  /-- Initialises a local semaphore with the issuing context as owner (R140) -/
  | semInit (t : ThreadId) (w : TileWord)
  /-- Waits for the masked completion groups and earlier stores, reports conditions and optionally flushes the instruction cache (R140) -/
  | fence (t : ThreadId) (w : TileWord)
  /-- Waits for the masked groups, then arrives at a context barrier (R145) -/
  | barrier (t : ThreadId) (w : TileWord)
  /-- Ends the current timetable slot and enters the next one through its gate (R147) -/
  | slot (t : ThreadId) (w : TileWord)
  /-- Collective that gives every member the reference-order reduction of all members' A (R295) -/
  | allReduce (t : ThreadId) (w : TileWord)
  /-- Collective that gives member i rows block i of the reduction (R293) -/
  | reduceScatter (t : ThreadId) (w : TileWord)
  /-- Collective that gives every member all members' A in logical order (R293) -/
  | allGather (t : ThreadId) (w : TileWord)
  /-- Collective that gives the ROOT member the reduction (R293) -/
  | reduce (t : ThreadId) (w : TileWord)
  /-- Collective that gives every member the ROOT member's A (R293) -/
  | broadcast (t : ThreadId) (w : TileWord)
  /-- Collective in which each member sends row block j of its A to member j (R293) -/
  | allToAll (t : ThreadId) (w : TileWord)
  /-- Collective that runs a sealed re-sharding plan piece by piece (R312) -/
  | permute (t : ThreadId) (w : TileWord)
  /-- Claims a first-writer-wins slot and fills it if the claim wins (R316) -/
  | fwwPut (t : ThreadId) (w : TileWord)
  /-- Collective that completes when every member has arrived (R299) -/
  | groupBarrier (t : ThreadId) (w : TileWord)
  /-- A tile instruction completes, leaves its completion group, frees its queue entry and writes its status record (R136) -/
  | tileInstructionComplete (t : ThreadId) (id : Nat)
  /-- The last byte of a pass's stationary block arrives, passes ECC and the landing half becomes landed (R26) -/
  | landingFillComplete (array : Nat)
  /-- EPOCH_CLEAR rises and a waiting front enters its top row (R31) -/
  | frontEntry (array cycles : Nat)
  /-- A pass whose landing half is landed streams its first row (R27) -/
  | passStart (array cycles : Nat)
  /-- A pass's column-foot nodes reach the carry stack and, after the last k-block, the output elements are written (R39) -/
  | passDrain (array : Nat)
  /-- After ARRAY_IDLE_US with no pass ready, the Lodge power-gates an array (R456) -/
  | arrayPowerGate (array : Nat)
  /-- A gated array finishes waking, and the pass waiting on it may start (R53) -/
  | arrayWake (array cycles : Nat)
  /-- An uncorrectable error in array state is detected and hardware starts an ARRAY reset (R367) -/
  | arrayInternalError (array : Nat)
  /-- A reset array's self-check ends; the array returns to service or leaves it (R378) -/
  | arraySelfCheckDone (array : Nat) (passed : Bool)
  /-- An uncorrectable error in Steward memory or the Curator tables is detected and hardware starts a CHIP reset (R367) -/
  | chipInternalError
  /-- A free tag unit becomes available and is bound to an open but unbound slot (R157) -/
  | tagUnitBind (array ctx slot cycles : Nat)
  /-- The closing tag's record is written once all of its contributions have entered, and its unit is released (R168) -/
  | tagRecordWrite (array ctx slot : Nat)
  /-- A stash entry's copy is written, and the entry becomes HELD_CELLAR or HELD_ATTIC (R185) -/
  | stashFillComplete (ctx : Nat) (key : Word) (cycles : Nat)
  /-- A spilling entry's copy reaches the attic and its cellar charge is released (R185) -/
  | pantrySpillComplete (ctx : Nat) (key : Word)
  /-- A waiting BKT_ADD starts once NEXT_MB reaches its micro-batch index (R190) -/
  | bktAddStart (t : ThreadId) (id cycles : Nat)
  /-- All roots and segment records of a folding bucket are written, and the bucket becomes REDUCING or DONE (R192) -/
  | bucketFoldComplete (ctx bucket : Nat)
  /-- A bucket reduction ends, the bucket becomes DONE or FAILED, and DONE_SEM is posted (R192) -/
  | bucketReductionEnd (ctx bucket : Nat)
  /-- A versioned read resolves its slot, after any wait for step p, and becomes a reader (R194) -/
  | versionedReadBind (t : ThreadId) (id cycles : Nat)
  /-- An UPDATE whose guard is resolved and whose slot has no readers starts, or completes as STEP_NOT_CLEAN (R203) -/
  | updateStart (t : ThreadId) (id guardCycles readerCycles : Nat)
  /-- The step's launch reaches its commit point, so the held STEP_COMMIT sends the module's clean flag (R200) -/
  | commitPointReached (ctx : Nat) (step : Word)
  /-- A held SEM_WAIT succeeds when the count reaches n, or fails when the owner is suspended or gone (R143) -/
  | semWaitComplete (t : ThreadId) (cycles : Nat)
  /-- Every thread of the launch on the module has passed the end of the slot; the end is stamped and POST_SEM is posted (R147) -/
  | slotEnd (launch : Nat)
  /-- The slot gate's wait on WAIT_SEM ends; the start is stamped and threads enter the slot (R147) -/
  | slotGateOpen (launch cycles : Nat)
  /-- Every thread of the launch on the module is EXITED or TRAPPED with its tile work complete, and the reply is written (R155) -/
  | launchComplete (launch : Nat)
  /-- The Steward admits the next waiting command once its threads and spilled pages are available (R357) -/
  | admission
  /-- A displaced or resumed context is re-admitted in admission order (R357) -/
  | contextReadmission (ctx : Nat)
  /-- The suspending context's state is saved, and the context becomes SUSPENDED (R360) -/
  | suspendSaveComplete (ctx : Nat)
  /-- A re-admitted context's state is restored; it becomes ACTIVE and its withdrawn packets are sent (R363) -/
  | contextRestoreComplete (ctx : Nat)
  /-- A draining context's threads, packets and requests are finished; pages are unmapped and the generation advances (R383) -/
  | contextDrainComplete (ctx : Nat)
  /-- A drain still incomplete 1 ms after its command was taken is forced (R383) -/
  | drainForce (ctx : Nat)
  /-- Background zeroing of a released frame finishes, and the frame becomes free (R384) -/
  | frameZeroed (frames : Nat)
  /-- The line-by-line switch of a granule between its attic and cellar copies finishes (R224) -/
  | granuleSwitchComplete (granule : Nat)
  /-- A victim page's bytes reach the spill buffer, its frame is released and the page becomes SPILLED (R220) -/
  | pageSpillComplete (page : Nat)
  /-- A spilled page's bytes are read back into a new frame, or the return fails (R230) -/
  | pageReturnComplete (page : Nat) (ok : Bool)
  /-- A HOST source's read for repair returns the line or fails (R241) -/
  | repairHostReadDone (line : Nat) (data : BusData)
  /-- The repair budget of a line runs out and the line becomes LOST (R241) -/
  | repairBudgetExpiry (line : Nat)
  /-- A retired row's lines are copied into relocation slots, and later accesses are redirected there (R236) -/
  | rowRetirementComplete (row cycles : Nat)
  /-- Every line of a retired pseudo-channel has been copied into relocation frames (R237) -/
  | channelCopyComplete (channel : Nat)
  /-- Patrol scrub reads attic and cellar on its schedule and completes a pass (R235) -/
  | scrubPass (cellar : Bool)
  /-- Every 10 s the Lodge wakes an attic in self-refresh to clear the scrub backlog (R235) -/
  | scrubWake
  /-- After ATTIC_IDLE_US with no access, a stack enters self-refresh (R457) -/
  | atticSelfRefreshEntry (stack : Nat)
  /-- An access waiting on a stack in self-refresh proceeds once the stack exits it (R457) -/
  | atticSelfRefreshExit (stack cycles : Nat)
  /-- Signal on at least four lanes moves a DOWN port to TRAINING (R250) -/
  | signalDetected (port lanes : Nat)
  /-- Signal lost during training returns the port to DOWN (R250) -/
  | signalLost (port : Nat)
  /-- No width locked within 50 ms returns the port to DOWN (R250) -/
  | trainingTimeout (port : Nat)
  /-- Flit lock at a permitted width moves the port to KEYING (R250) -/
  | flitLock (port : Nat) (lanes : BitVec 16) (neighbourRate : Nat)
  /-- A neighbour's nonce and confirmation tag are received and checked, deriving the link keys or failing the port (R265) -/
  | keyConfirmation (port : Nat) (nonce : Bytes) (device incarnation neighbourPort : Nat) (tag : BitVec 128)
  /-- Loss of lock on an active lane moves the port to RETRAINING (R250) -/
  | lossOfLock (port : Nat)
  /-- 64 replays within 1 ms move the port to RETRAINING (R250) -/
  | replayLimit (port : Nat)
  /-- No success within 500 µs of RETRAINING drops the port to TRAINING (R250) -/
  | retrainTimeout (port : Nat)
  /-- Eight frame authentication failures within 1 ms put the port in FAILED (R250) -/
  | authFailureLimit (port : Nat)
  /-- A data flit is received, FEC-corrected and CRC-checked, then accepted in sequence or discarded with a NAK (R255) -/
  | dataFlitRx (port : Nat) (f : Flit)
  /-- A control flit delivers acknowledgements, NAKs and credit returns (R254) -/
  | controlFlitRx (port : Nat) (f : Flit) (credits : List Nat)
  /-- If no flit leaves within 64 flit times of a good data flit, a control flit carries the acknowledgement (R256) -/
  | ackTimer (port : Nat)
  /-- A frame's tag slot arrives; its tag is verified and its packets are delivered, or it is discarded with a NAK (R264) -/
  | encryptionFrameRx (port : Nat) (slots : Bytes) (tag : BitVec 128)
  /-- The transmitter closes a frame with its tag slot after 32 flits or when no packet is ready (R264) -/
  | frameClose (port : Nat)
  /-- The transmitter sends an idle flit at least once in every 2,048 flits (R249) -/
  | idleFlitInsert (port : Nat)
  /-- Received remote read request: checked and answered with data, a refusal or a violation answer (R271) -/
  | readReq (port : Nat) (k : Packet)
  /-- Received read response completing the matching outstanding request by tag (R273) -/
  | readRsp (port : Nat) (k : Packet)
  /-- Received remote write: checked, applied in 16-byte units and acknowledged (R271) -/
  | writeReq (port : Nat) (k : Packet)
  /-- Received write acknowledgement completing an outstanding write (R135) -/
  | writeAck (port : Nat) (k : Packet)
  /-- Received atomic request carried out on 8 bytes at the receiver (R271) -/
  | atomicReq (port : Nat) (k : Packet)
  /-- Received atomic response returning the old value (R126) -/
  | atomicRsp (port : Nat) (k : Packet)
  /-- Received semaphore post, applied, discarded or saturated (R144) -/
  | semPostPacket (port : Nat) (k : Packet)
  /-- Received acknowledgement of a semaphore post (R140) -/
  | semAck (port : Nat) (k : Packet)
  /-- Received repair read, answered with the line or a refusal (R242) -/
  | repairRead (port : Nat) (k : Packet)
  /-- Received repair response that supplies the line or moves repair to the next source (R241) -/
  | repairRsp (port : Nat) (k : Packet)
  /-- Received HELLO: records the sender's incarnation and answers with its own (R268) -/
  | hello (port : Nat) (k : Packet)
  /-- Received HELLO response that records the neighbour's incarnation and releases waiting requests (R268) -/
  | helloRsp (port : Nat) (k : Packet)
  /-- Received retirement of a (context, generation) pair, recorded for dropping later packets (R270) -/
  | genRetire (port : Nat) (k : Packet)
  /-- Received time sync request answered with TIME_RSP carrying t2, t3 and the forward correction (R279) -/
  | timeSync (port : Nat) (k : Packet)
  /-- Received time response from which the sender forms the link delay and offset and steers its clock (R279) -/
  | timeRsp (port : Nat) (k : Packet)
  /-- Every 1 ms a module sends TIME_SYNC on each ACTIVE port (R279) -/
  | timeSyncTimer
  /-- An outstanding request's fabric timeout expires; its unit ends with PEER_TIMEOUT and the tag is retired (R274) -/
  | fabricTimeout (tag : Nat)
  /-- A flow whose port has left ACTIVE moves to another port and resends its reads and writes (R275) -/
  | flowMove (dest vc : Nat)
  /-- Received collective DATA placed into scratch or D and combined in tree order (R307) -/
  | collData (port : Nat) (k : Packet)
  /-- Received collective RESULT roots or gathered rows written into D (R307) -/
  | collResult (port : Nat) (k : Packet)
  /-- Received acknowledgement of placed pieces; when all are acknowledged the collective may complete (R307) -/
  | pieceAck (port : Nat) (k : Packet)
  /-- Received READY allowing the sender to send data to that member (R307) -/
  | ready (port : Nat) (k : Packet)
  /-- Received arrival at a GROUP_BARRIER (R307) -/
  | arrive (port : Nat) (k : Packet)
  /-- Received one round of a STEP_COMMIT flag exchange (R304) -/
  | flag (port : Nat) (k : Packet)
  /-- Received collective probe answered at once with the member's epoch and collective state (R308) -/
  | probe (port : Nat) (k : Packet)
  /-- Received probe answer that restarts the probe interval or ends the collective (R308) -/
  | probeRsp (port : Nat) (k : Packet)
  /-- Each PROBE_INTERVAL the CE probes every member it still awaits (R302) -/
  | probeInterval (coll : Nat)
  /-- Received slot claim that wins if the slot is EMPTY and loses otherwise (R316) -/
  | fwwClaim (port : Nat) (k : Packet)
  /-- Received claim result; a winner sends its data and a loser completes with FWW_LOST (R316) -/
  | fwwClaimRsp (port : Nat) (k : Packet)
  /-- Received slot data written or dropped by claim number; the last write makes the slot FILLED (R316) -/
  | fwwData (port : Nat) (k : Packet)
  /-- Received acknowledgement of slot data, accepted or dropped as late (R317) -/
  | fwwDataAck (port : Nat) (k : Packet)
  /-- A slot CLAIMED for twice the fabric timeout returns to EMPTY (R317) -/
  | fwwClaimExpiry (addr : Nat)
  /-- Received pairing offer with MIRROR_GIB, pairing the modules when both agree (R399) -/
  | pairOffer (port : Nat) (k : Packet)
  /-- Received notice of unpairing that makes the module SINGLE (R399) -/
  | unpair (port : Nat) (k : Packet)
  /-- Received snapshot data written into the holder's mirror at the given offset (R403) -/
  | snapData (port : Nat) (k : Packet)
  /-- Received snapshot acknowledgement that advances the owner's stream (R404) -/
  | snapAck (port : Nat) (k : Packet)
  /-- Received entry fields that make INCOMING the CURRENT entry (R401) -/
  | snapCommit (port : Nat) (k : Packet)
  /-- Received mirror read for drain, restore or repair, served from a CURRENT entry (R405) -/
  | mirrorRead (port : Nat) (k : Packet)
  /-- Received mirror data or refusal for a drain, restore or repair (R405) -/
  | mirrorData (port : Nat) (k : Packet)
  /-- Received mirror directory sent after every HELLO (R413) -/
  | dirSync (port : Nat) (k : Packet)
  /-- Received adopted entries and last-drained record at the spare (R408) -/
  | adopt (port : Nat) (k : Packet)
  /-- A page not yet streamed has been copied to a staging frame, so the write waiting on it proceeds (R403) -/
  | cowCopyComplete (page cycles : Nat)
  /-- P0 not ACTIVE to the twin or partner for TWIN_GRACE makes the pair SINGLE (R399) -/
  | twinGraceExpiry
  /-- The input capacitance is charged within range and bring-up starts (R461) -/
  | powerGood
  /-- The Strongroom reconstructs its keys or enters FAILED (R415) -/
  | keyReconstruction (ok : Bool)
  /-- The boot ROM verifies a firmware slot, or falls back to the other slot or to ROM recovery (R444) -/
  | firmwareVerified (slot0 slot1 : Bool)
  /-- The Foyer units pass their checks and the ports train; DEVICE_READY reads 1 with SERVICE_LEVEL 1 (R461) -/
  | foyerService (failedArrays failedStacks : List Nat)
  /-- Background checks end; the interleave is rewritten, ports retrain, the descriptor updates and attention class 2 is raised (R462) -/
  | fullService (failedArrays failedStacks : List Nat) (fp64 : Bool)
  /-- Input below 36 V for over 100 µs powers everything off, finishing MRAM writes first (R475) -/
  | inputUndervoltage
  /-- Input above 63 V powers the module off (R475) -/
  | inputOvervoltage
  /-- An input short opens the hot-swap switch until the input falls below 10 V (R476) -/
  | inputShort
  /-- Die sensor at 95 °C starts withholding passes until it falls below 90 °C (R459) -/
  | thermalThrottle (centi : Int)
  /-- Die sensor at 100 °C raises urgent attention and starts the 5 s shutdown countdown (R459) -/
  | thermalCountdown (centi : Int)
  /-- Still at or above 100 °C after 5 s, every domain except always-on is powered off (R459) -/
  | thermalShutdown (centi : Int)
  /-- The moisture sensor detects liquid and the module powers off all but the always-on domain (R478) -/
  | leakDetected
  /-- Every 1 s the Lodge saves device time to MRAM (R451) -/
  | timeSave
  /-- After 1 s without a locked source the Lodge holds the rate and reports SYNC_STATE 0 (R452) -/
  | syncLoss
  /-- Received IEEE 1588 message on the management port, timestamped and used by the servo (R453) -/
  | ptpMessage (offset : Int)
  /-- Received management OPEN, checked and answered with ACCEPT, deriving session keys (R437) -/
  | openSession (m : OpenMessage)
  /-- Received management COMMAND message carrying one command packet, executed in SEQUENCE order or answered from the stored reply (R438) -/
  | mgmtCommand (d : Datagram)
  /-- Received management CLOSE that ends a session (R439) -/
  | closeSession (session : Nat)
  /-- A message with a fragment missing 1 s after its first arrival is discarded (R436) -/
  | fragmentTimeout (session : Nat)
  /-- A session with no datagram for 60 s closes (R439) -/
  | sessionIdleTimeout (session : Nat)
  /-- Every TELEMETRY_PERIOD_MS the Lodge sends each open session a telemetry message (R460) -/
  | telemetry
  /-- Every 60 s the Lodge decays and updates the health rates and the score (R395) -/
  | healthUpdate
  /-- An open transaction not committed within its timeout becomes ABORTED (R385) -/
  | txnTimeout (txn : Word)
  /-- Device time reaches NOT_AFTER; bound launches are refused and the loan is revoked once none runs (R424) -/
  | loanExpiry (loan : Word)
  /-- Every 100 µs the input monitor samples 48 V voltage and current; the Lodge's 1 ms power average then starts, adjusts or ends the withholding of passes against the cap (R458) -/
  | inputMonitorSample (deciVolts milliAmps : Nat)
  /-- The hottest die sensor falls below 90 °C, or below 100 °C during a countdown, and withholding or the countdown ends (R459) -/
  | thermalThrottleEnd (centi : Int)
  /-- The host releases PERST#, ending the conventional reset; the boot ROM then verifies firmware within 1.0 s while configuration requests get retry status (R321) -/
  | perstDeassert
  /-- The Strongroom finishes signing a quote, writes it at OUT_ADDR, completes its ATTEST and starts the next queued request (R428) -/
  | quoteSigned
  /-- The firmware activation window closes after at most 50 ms; the commit replies, the new image is active and quotes are accepted again (R430) -/
  | commitWindowClose
  /-- A committed probation test ends within 60 s, sets OUTCOME, resets or keeps the health rates, and lets CTX_CREATE and MODEL_LOAD run again (R398) -/
  | probationTestDone (failed : Option (Nat × Nat))
  /-- A local MEM_COPY or MEM_FILL finishes writing its range at the memory's rate and writes its final reply (R338) -/
  | memCopyComplete (handle : Nat)
  /-- Each minute that the time source lags device time by more than 10 s, the Lodge writes a Catalogue entry (R451) -/
  | sourceBehindEntry
  deriving DecidableEq, Repr

end Sys2Proof
end

