-- ==== Sys2Proof/Decode.lean ====
section
/-! DEFINITION. The 128-bit instruction word (R121 to R124): its fields, its encoder, and the command that a thread
which issues it carries out. The opcode table gives no row any bits, so no word of the table spells a command. -/

namespace Sys2Proof

/-- The command spelled by a word of `nbits` bits: none, since no row of the table has bits. -/
def decodeTableWord (_nbits _w : Nat) : Option Instr := none

/-! ### Fields (R121 to R123) -/

/-- Bits from `lo` of a word, n of them. -/
def wordField (w : InstrWord) (lo n : Nat) : Nat := w.toNat / 2 ^ lo % 2 ^ n

/-- One bit of a word. -/
def wordFlag (w : InstrWord) (i : Nat) : Bool := wordField w i 1 = 1

/-- `MAJOR` (R121). -/
def wordMajor (w : InstrWord) : Nat := wordField w 120 8

/-- `MINOR` (R121). -/
def wordMinor (w : InstrWord) : Nat := wordField w 112 8

/-- One as a number where a flag is set. -/
def flagNum (b : Bool) : Nat := if b then 1 else 0

/-- The 128 bits of a scalar-group instruction (R121, R123). -/
def encodeScalar (w : ScalarWord) (major minor : Nat) : InstrWord :=
  BitVec.ofNat 128 (major * 2 ^ 120 + minor * 2 ^ 112 + w.pred.toNat * 2 ^ 109 + flagNum w.pneg * 2 ^ 108
    + w.rsvdHi.toNat * 2 ^ 101 + flagNum w.immb * 2 ^ 100 + w.var.toNat * 2 ^ 96 + w.sd.toNat * 2 ^ 91
    + w.sa.toNat * 2 ^ 86 + w.sb.toNat * 2 ^ 81 + w.pd.toNat * 2 ^ 78 + w.rsvdLo.toNat * 2 ^ 64
    + w.imm.toNat)

/-- The 128 bits of a tile-group instruction (R121, R122). -/
def encodeTile (w : TileWord) (major minor : Nat) : InstrWord :=
  BitVec.ofNat 128 (major * 2 ^ 120 + minor * 2 ^ 112 + w.pred.toNat * 2 ^ 109 + flagNum w.pneg * 2 ^ 108
    + w.cg.toNat * 2 ^ 105 + w.rmode.toNat * 2 ^ 103 + flagNum w.ovfIeee * 2 ^ 102 + flagNum w.recBit * 2 ^ 101
    + flagNum w.noTrap * 2 ^ 100 + w.var.toNat * 2 ^ 96 + w.d.toNat * 2 ^ 92 + w.a.toNat * 2 ^ 88
    + w.b.toNat * 2 ^ 84 + w.c.toNat * 2 ^ 80 + w.s1.toNat * 2 ^ 75 + w.s2.toNat * 2 ^ 70
    + w.s3.toNat * 2 ^ 65 + w.rsvd.toNat * 2 ^ 64 + w.imm.toNat)

/-- The fields of a word of majors 0x01 to 0x04 (R121, R123). -/
def parseScalar (w : InstrWord) : ScalarWord :=
  { pred := BitVec.ofNat 3 (wordField w 109 3), pneg := wordFlag w 108, rsvdHi := BitVec.ofNat 7 (wordField w 101 7)
    immb := wordFlag w 100, var := BitVec.ofNat 4 (wordField w 96 4), sd := BitVec.ofNat 5 (wordField w 91 5)
    sa := BitVec.ofNat 5 (wordField w 86 5), sb := BitVec.ofNat 5 (wordField w 81 5)
    pd := BitVec.ofNat 3 (wordField w 78 3), rsvdLo := BitVec.ofNat 14 (wordField w 64 14)
    imm := BitVec.ofNat 64 (wordField w 0 64) }

/-- The fields of a word of majors 0x10 and above (R121, R122). -/
def parseTile (w : InstrWord) : TileWord :=
  { pred := BitVec.ofNat 3 (wordField w 109 3), pneg := wordFlag w 108, cg := BitVec.ofNat 3 (wordField w 105 3)
    rmode := BitVec.ofNat 2 (wordField w 103 2), ovfIeee := wordFlag w 102, recBit := wordFlag w 101
    noTrap := wordFlag w 100, var := BitVec.ofNat 4 (wordField w 96 4), d := BitVec.ofNat 4 (wordField w 92 4)
    a := BitVec.ofNat 4 (wordField w 88 4), b := BitVec.ofNat 4 (wordField w 84 4)
    c := BitVec.ofNat 4 (wordField w 80 4), s1 := BitVec.ofNat 5 (wordField w 75 5)
    s2 := BitVec.ofNat 5 (wordField w 70 5), s3 := BitVec.ofNat 5 (wordField w 65 5)
    rsvd := BitVec.ofNat 1 (wordField w 64 1), imm := BitVec.ofNat 64 (wordField w 0 64) }

/-! ### The instructions that R124 lists -/

/-- The command of a listed scalar-group instruction (R124). -/
def scalarInstr (t : ThreadId) (w : ScalarWord) : Nat → Nat → Option Instr
  | 0x01, 0x00 => some (.add t w)
  | 0x01, 0x01 => some (.sub t w)
  | 0x01, 0x02 => some (.mul t w)
  | 0x01, 0x03 => some (.mulhu t w)
  | 0x01, 0x04 => some (.and t w)
  | 0x01, 0x05 => some (.or t w)
  | 0x01, 0x06 => some (.xor t w)
  | 0x01, 0x07 => some (.shl t w)
  | 0x01, 0x08 => some (.shr t w)
  | 0x01, 0x09 => some (.sra t w)
  | 0x01, 0x0A => some (.min t w)
  | 0x01, 0x0B => some (.max t w)
  | 0x01, 0x0C => some (.mov t w)
  | 0x01, 0x10 => some (.cmpeq t w)
  | 0x01, 0x11 => some (.cmpne t w)
  | 0x01, 0x12 => some (.cmplt t w)
  | 0x01, 0x13 => some (.cmpltu t w)
  | 0x01, 0x14 => some (.cmple t w)
  | 0x01, 0x15 => some (.cmpleu t w)
  | 0x01, 0x18 => some (.pand t w)
  | 0x01, 0x19 => some (.por t w)
  | 0x01, 0x1A => some (.pxor t w)
  | 0x01, 0x1B => some (.pnot t w)
  | 0x02, 0x00 => some (.ld t w)
  | 0x02, 0x01 => some (.lds t w)
  | 0x02, 0x02 => some (.st t w)
  | 0x02, 0x03 => some (.atom t w)
  | 0x03, 0x00 => some (.br t w)
  | 0x03, 0x01 => some (.call t w)
  | 0x03, 0x02 => some (.jmp t w)
  | 0x03, 0x03 => some (.exit t w)
  | 0x04, 0x00 => some (.dld t w)
  | 0x04, 0x01 => some (.dst t w)
  | 0x04, 0x02 => some (.dset t w)
  | 0x04, 0x03 => some (.dget t w)
  | 0x04, 0x04 => some (.sread t w)
  | _, _ => none

/-- The command of a listed tile-group instruction other than `COLL` (R124). -/
def tileInstr (t : ThreadId) (w : TileWord) : Nat → Nat → Option Instr
  | 0x10, 0x00 => some (.tld t w)
  | 0x10, 0x01 => some (.tst t w)
  | 0x10, 0x02 => some (.tcp t w)
  | 0x20, 0x00 => some (.mma t w)
  | 0x20, 0x01 => some (.mmab t w)
  | 0x30, 0x00 => some (.vopAdd t w)
  | 0x30, 0x01 => some (.vopSub t w)
  | 0x30, 0x02 => some (.vopMul t w)
  | 0x30, 0x03 => some (.vopMax t w)
  | 0x30, 0x04 => some (.vopMin t w)
  | 0x30, 0x05 => some (.vopScale t w)
  | 0x30, 0x06 => some (.vopAbs t w)
  | 0x30, 0x07 => some (.vopNeg t w)
  | 0x30, 0x08 => some (.vopFma t w)
  | 0x30, 0x10 => some (.actRelu t w)
  | 0x30, 0x11 => some (.actGelu t w)
  | 0x30, 0x12 => some (.actSilu t w)
  | 0x30, 0x13 => some (.actExp t w)
  | 0x30, 0x14 => some (.actTanh t w)
  | 0x30, 0x15 => some (.actSigmoid t w)
  | 0x30, 0x16 => some (.actRecip t w)
  | 0x30, 0x17 => some (.actRsqrt t w)
  | 0x30, 0x20 => some (.cvt t w)
  | 0x40, 0x00 => some (.stagOpen t w)
  | 0x40, 0x01 => some (.stagClose t w)
  | 0x50, 0x00 => some (.stash t w)
  | 0x50, 0x01 => some (.unstash t w)
  | 0x50, 0x02 => some (.recomp t w)
  | 0x50, 0x03 => some (.update t w)
  | 0x50, 0x04 => some (.bktAdd t w)
  | 0x50, 0x05 => some (.verRead t w)
  | 0x60, 0x00 => some (.semWait t w)
  | 0x60, 0x01 => some (.semPost t w)
  | 0x60, 0x02 => some (.semInit t w)
  | 0x60, 0x03 => some (.fence t w)
  | 0x60, 0x04 => some (.barrier t w)
  | 0x60, 0x05 => some (.slot t w)
  | _, _ => none

/-- The command of a `COLL`, by the operation code in `IMM`[23:16] (R291). -/
def collInstr (t : ThreadId) (w : TileWord) : Option Instr :=
  match w.imm.toNat / 2 ^ 16 % 2 ^ 8 with
  | 0x01 => some (.allReduce t w)
  | 0x02 => some (.reduceScatter t w)
  | 0x03 => some (.allGather t w)
  | 0x04 => some (.reduce t w)
  | 0x05 => some (.broadcast t w)
  | 0x06 => some (.allToAll t w)
  | 0x07 => some (.permute t w)
  | 0x08 => some (.fwwPut t w)
  | 0x09 => some (.groupBarrier t w)
  | _ => none

/-- Whether R124 lists the `MAJOR` and `MINOR` of a word. -/
def wordListed (w : InstrWord) : Bool :=
  let t : ThreadId := { array := 0, index := 0 }
  (scalarInstr t {} (wordMajor w) (wordMinor w)).isSome || (tileInstr t {} (wordMajor w) (wordMinor w)).isSome
    || (wordMajor w == 0x70 && wordMinor w == 0x00)

/-- The command that a thread carries out when it issues a word (R121 to R124): none where R124 lists no such
instruction, or R291 no such operation. -/
def decodeInstr (t : ThreadId) (w : InstrWord) : Option Instr :=
  let major := wordMajor w
  let minor := wordMinor w
  (scalarInstr t (parseScalar w) major minor).or
    ((tileInstr t (parseTile w) major minor).or
      (if major = 0x70 && minor = 0x00 then collInstr t (parseTile w) else none))

end Sys2Proof
end

