-- ==== Sys2Proof/Config.lean ====
section
/-! DEFINITION. What one module fixes and the spec leaves open, as constants with no body: free
values, the module's identity, and the cryptographic functions that the spec names by their public
standards and does not spell out. A statement that holds of the model holds for every choice of
them (notes/assumptions/1.md and 2.md). -/

namespace Sys2Proof

/-- The free values (notes/assumptions/1.md). Use number i of a step draws `freeValue i`; nothing
constrains it. -/
opaque Config.freeValue : Nat → Word

/-- A free string of bytes of a given length. -/
def Config.freeBytes (i n : Nat) : Bytes :=
  (List.range n).map fun k => (Config.freeValue (i + k)).setWidth 8

/-- The mantissa of a transcendental result whose leading bits the model's interval does not settle
(notes/assumptions/11.md): a function of the interval's ends. -/
opaque Config.hardCase : Nat → Nat → Nat

/-! ### Identity of the module (R322, R414, R416) -/

/-- The module serial number. -/
opaque Config.serial : BitVec 64
/-- The fleet order. -/
opaque Config.fleetId : BitVec 64
/-- The 31,584 bytes of the manufacture certificate (R416). -/
opaque Config.certificateByte : Nat → Byte
/-- SHA-256 of the boot ROM. -/
opaque Config.bootRomMeasurement : BitVec 256
/-- SHA-256 of the fleet owner's configuration signer key. -/
opaque Config.configSignerHash : BitVec 256

/-! ### Cryptography (R265, R414 to R445) -/

/-- SHA-256. -/
opaque Config.sha256 : Bytes → BitVec 256
/-- HKDF-SHA-256: input key, salt, information, output length. -/
opaque Config.hkdf : Bytes → Bytes → Bytes → Nat → Bytes
/-- AES-256-GCM tag: key, IV, additional authenticated data, ciphertext. -/
opaque Config.gcmTag : Bytes → Bytes → Bytes → Bytes → BitVec 128
/-- AES-256-GCM keystream applied to a text: key, IV, text. It is its own inverse. -/
opaque Config.gcmCrypt : Bytes → Bytes → Bytes → Bytes
/-- The CRC-48 of a flit's first 244 bytes (R254). -/
opaque Config.flitCrc : Bytes → BitVec 48
/-- The check bytes of the three interleaved Reed–Solomon codes over a flit's first 250 bytes (R254). -/
opaque Config.flitFec : Bytes → BitVec 48
/-- ML-KEM-1024 decapsulation of a ciphertext with the module's KEM key, where it succeeds. -/
opaque Config.decapsulate : Bytes → Option Bytes
/-- AES Key Wrap (RFC 3394) unwrapping: key-encryption key, wrapped key. -/
opaque Config.keyUnwrap : Bytes → Bytes → Option Bytes
/-- SLH-DSA verification: algorithm (1 SHA2-192f, 2 SHA2-256s), public key, message, signature. -/
opaque Config.verify : Nat → Bytes → Bytes → Bytes → Bool
/-- SLH-DSA verification against the root key whose hash the boot ROM holds. -/
opaque Config.verifyRoot : Bytes → Bytes → Bool
/-- A signature with the module's identity key. -/
opaque Config.identitySign : Bytes → Bytes
/-- The fleet link key, which only the Strongroom reads. -/
opaque Config.fleetLinkKey : Bytes
/-- Output of the AES-256 CTR_DRBG: draw number and length. -/
opaque Config.drbg : Nat → Nat → Bytes

end Sys2Proof
end

