-- ==== Sys2Proof/Machine/Bits.lean ====
section
/-! DEFINITION. Bit fields, little-endian bytes (R12), and memory as a sorted list of cells. -/

namespace Sys2Proof.Machine

/-- Bits [hi:lo] of a word as a number. -/
def bits {n : Nat} (w : BitVec n) (hi lo : Nat) : Nat := (w.toNat / 2 ^ lo) % 2 ^ (hi + 1 - lo)

/-- One bit of a number. -/
def bitOf (n i : Nat) : Bool := (n / 2 ^ i) % 2 = 1

/-- Bits [hi:lo] of a number. -/
def nbits (n hi lo : Nat) : Nat := (n / 2 ^ lo) % 2 ^ (hi + 1 - lo)

/-- One as a number where a test holds. -/
def b2n (b : Bool) : Nat := if b then 1 else 0

/-- A number as n bytes, lowest first (R12). -/
def le : Nat → Nat → Bytes
  | 0, _ => []
  | n + 1, v => BitVec.ofNat 8 v :: le n (v / 256)

/-- The number that bytes spell, lowest first (R12). -/
def leNat : Bytes → Nat
  | [] => 0
  | b :: bs => b.toNat + 256 * leNat bs

/-- A field of a packet, record or descriptor; bytes beyond the end read as zero. -/
def field (p : Bytes) (off size : Nat) : Nat := leNat ((p.drop off).take size)

/-- Zero bytes. -/
def zeros (n : Nat) : Bytes := List.replicate n 0

/-- A string cut or padded with zeros to a length. -/
def padTo (n : Nat) (bs : Bytes) : Bytes := (bs ++ zeros (n - bs.length)).take n

/-- Replaces bytes of a record from an offset. -/
def patch (bs : Bytes) (off : Nat) (new : Bytes) : Bytes :=
  bs.take off ++ new ++ bs.drop (off + new.length)

/-- The ASCII bytes of a text. -/
def ascii (t : String) : Bytes := t.toList.map fun c => BitVec.ofNat 8 c.toNat

/-- Sign extension of the low n bits of a number to an integer. -/
def sext (n v : Nat) : Int := if v % 2 ^ n < 2 ^ (n - 1) then v % 2 ^ n else (v % 2 ^ n : Int) - 2 ^ n

/-- A number held at its largest value. -/
def satTo (m n : Nat) : Nat := if m < n then m else n

/-- Ceiling of a quotient. -/
def ceilDiv (a b : Nat) : Nat := (a + b - 1) / b

/-- The least r from 0 with 2^r not below n. -/
def clog2 (n : Nat) : Nat := if n ≤ 1 then 0 else Nat.log2 (n - 1) + 1

/-- The numbers lo, lo + step, … below hi, at most `n` of them. -/
def countUp (lo step n : Nat) : List Nat := (List.range n).map fun i => lo + i * step

/-- Replaces an element of a list. -/
def setAt {α : Type} (l : List α) (i : Nat) (v : α) : List α := l.set i v

/-- Changes an element of a list. -/
def modAt {α : Type} (l : List α) (i : Nat) (f : α → α) : List α := l.modify i f

/-- Changes the entry of a map, where there is one. -/
def Map.modify {α : Type} (m : Map α) (k : Nat) (f : α → α) : Map α :=
  match Map.get? m k with
  | none => m
  | some v => Map.put m k (f v)

/-! ### Memory as cells -/

/-- What an address reads as: an address that is not listed reads as zero. -/
def cellRead : List Host.Cell → Nat → Byte
  | [], _ => 0
  | (a, b) :: m, x => if x = a then b else cellRead m x

/-- Lists a byte that is not zero, keeping addresses rising. -/
def cellPut : List Host.Cell → Nat → Byte → List Host.Cell
  | [], x, v => [(x, v)]
  | (a, b) :: m, x, v =>
    if x < a then (x, v) :: (a, b) :: m
    else if x = a then (x, v) :: m
    else (a, b) :: cellPut m x v

/-- Writes one byte: a zero takes the address off the list. -/
def cellWrite (m : List Host.Cell) (x : Nat) (v : Byte) : List Host.Cell :=
  if v = 0 then m.filter fun c => c.1 ≠ x else cellPut m x v

/-- Reads n bytes from an address. -/
def cellsRead (m : List Host.Cell) (a n : Nat) : Bytes :=
  (List.range n).map fun i => cellRead m (a + i)

/-- Writes bytes from an address. -/
def cellsWrite (m : List Host.Cell) (a : Nat) : Bytes → List Host.Cell
  | [] => m
  | b :: bs => cellsWrite (cellWrite m a b) (a + 1) bs

/-- Zeroes a range. -/
def cellsZero (m : List Host.Cell) (a n : Nat) : List Host.Cell :=
  m.filter fun c => !(a ≤ c.1 && c.1 < a + n)

/-- Addresses strictly rise and no listed byte is zero: equal memories are equal lists. -/
def cellsWf : List Host.Cell → Bool
  | [] => true
  | [(_, b)] => b ≠ 0
  | (a, b) :: (a', b') :: m => b ≠ 0 && a < a' && cellsWf ((a', b') :: m)

end Sys2Proof.Machine
end

