-- ==== Sys2Proof/Machine/State.lean ====
section
/-! DEFINITION. The state of one Eomir Cimer module: every register, record, queue, counter and
mode the spec names, as plain data, and the state at reset. The queue `pending` holds the commands
that wait to be carried out, first in, first out. -/

namespace Sys2Proof.Machine

/-- Why the block stops. -/
inductive Fault where
  /-- Raised by a tick of the idle block whose device time would pass the 64 bits that R394 says it
  never passes in service. Safe: the model stops where the spec gives no behaviour. -/
  | deviceTimeExhausted
  deriving DecidableEq, Repr

/-- Why a command has no meaning. -/
inductive Refusal where
  /-- Raised by an arm of `exec` whose command the model does not give a meaning to. Safe. -/
  | notModelled (mnemonic : String)
  deriving DecidableEq, Repr

/-- Completion codes (R335). -/
inductive Code where
  | done | doneDowngraded | doneNonfinite | queued | refusedCapacity | preempted | evicted
  | ownerSuspended | peerTimeout | shardVersionMismatch | weightLost | twinCopyLost | stepNotClean
  | busyRetry | txnReplayed | badPacket | notPermitted | unsupported | noSuchContext | contextReset
  deriving DecidableEq, Repr

/-- The three module variants (R1). -/
inductive Variant where
  | ec6480 | ec4864 | ec3240
  deriving DecidableEq, Repr

/-- A 48-bit event counter with its sticky saturation bit (R391). -/
structure Counter where
  value : Nat := 0
  sticky : Bool := false
  deriving DecidableEq, Repr

/-! ### Values inside the arithmetic units -/

/-- Cause codes of non-finite values (R99). -/
inductive Cause where
  | none | nanInput | infTimesZero | infMinusInf | overflow | poisonInput
  deriving DecidableEq, Repr

/-- A value inside the arithmetic units. `fin` is the sign, and a magnitude that lies in
[mant · 2^exp, (mant + 1) · 2^exp), equal to mant · 2^exp exactly when `sticky` is false. -/
inductive Num where
  | nan (cause : Cause)
  | inf (neg : Bool) (cause : Cause)
  | zero (neg : Bool)
  | fin (neg : Bool) (mant : Nat) (exp : Int) (sticky : Bool)
  deriving DecidableEq, Repr

/-- An entry of a carry stack (R92): a node's value, level and index. -/
structure Node where
  value : Num
  level : Nat
  index : Nat
  deriving DecidableEq, Repr

/-- A tile status record (R105). -/
structure TileRecord where
  flags : BitVec 3 := 0
  cause : Cause := .none
  firstRow : Nat := 0xFFFF
  firstCol : Nat := 0xFFFF
  count : Nat := 0
  deriving DecidableEq, Repr

/-! ### Threads -/

/-- Thread states (R112). -/
inductive ThreadState where
  | idle | running | waiting | suspended | trapped | exited
  deriving DecidableEq, Repr

/-- What a thread in `WAITING` waits for (R112), with what its instruction needs when it goes on. -/
inductive Wait where
  | fence (mask : Nat) (pred : Nat) (iflush : Bool)
  | semWait (addr : Word) (n : Nat) (pred : Nat) (noTrap : Bool)
  | semPost (addr : Word) (n : Nat) (mask : Nat) (pred : Nat) (noTrap : Bool) (sent : Bool)
      (awaited : List Nat) (failDevice : Nat)
  | barrier (index : Nat) (parts : Nat) (mask : Nat) (pred : Nat) (arrived : Bool)
  | slotEnd (pred : Nat) (noTrap : Bool)
  | slotGate (pred : Nat) (noTrap : Bool)
  | load (sd : Nat) (size : Nat) (offset : Nat) (signed : Bool) (tag : Nat)
  | atom (sd : Nat) (tag : Nat)
  | descLoad (td : Nat) (tag : Nat)
  | tileQueue
  | unitStall
  | exit
  | recomp (ctx : Nat) (key : Word) (block : Word)
  | memory (line : Nat)
  | stores
  deriving DecidableEq, Repr

/-- A completion group: the outstanding tile instructions and the condition slot with the order in
which its code came (R136, R137). -/
structure Group where
  count : Nat := 0
  cond : Option (Code × Nat) := none
  deriving DecidableEq, Repr

/-- Kinds of tile instruction (R124). -/
inductive TileKind where
  | tld | tst | tcp | mma | mmab
  | vop (minor : Nat) | act (minor : Nat) | cvt
  | stagOpen | stagClose | stash | unstash | recomp | update | bktAdd | verRead
  | coll (op : Nat)
  deriving DecidableEq, Repr

/-- Whether an instruction is an element-wise one, of `VOP`, `ACT` and `CVT` (R117). -/
def TileKind.isElem : TileKind → Bool
  | .vop _ | .act _ | .cvt => true
  | _ => false

/-- How far an outstanding tile instruction has come. -/
inductive OpPhase where
  | queued | running | finished
  deriving DecidableEq, Repr

/-- The fold of a matrix instruction between passes (R54, R92, R93): the passes started and drained, of
its own array and of an `MMAB`'s odd array (`aux`), the carry stacks by output element, the dY tiles in
the stream store (R47), the roots that wait for their MX block, the trees of squares by row and column
block (R166), and the status records formed so far. `poisoned` tells that a lost line was read, and `resumed` and
`auxResumed` that the instruction has resumed and has loaded no front on its array, or on the odd one, since (R54). -/
structure Fold where
  started : Nat := 0
  drained : Nat := 0
  auxStarted : Nat := 0
  auxDrained : Nat := 0
  carry : Map (List Node) := []
  stream : Map (List (List Num)) := []
  finals : Map Num := []
  squares : Map (Option Num) := []
  records : List TileRecord := [{}, {}]
  poisoned : Bool := false
  resumed : Bool := false
  auxResumed : Bool := false
  deriving DecidableEq, Repr

/-- A trap as its record holds it (R152). -/
structure Trap where
  kind : Nat
  code : Code
  address : Word := 0
  detail : Nat := 0
  deriving DecidableEq, Repr

/-- An outstanding tile instruction with the operand values captured at issue (R114, R115). `done` is what it has carried
out up to its last pre-emption point: 64 KiB units, or groups of rows (R149, R211); `params` the operands it read from
memory when it started (R205); `stop` the pass whose fetch failed, with its code and device (R28). -/
structure TileOp where
  id : Nat
  kind : TileKind
  pc : Word
  word : InstrWord
  cg : Nat
  rmode : BitVec 2 := 0
  ovfIeee : Bool := false
  recAddr : Option Word := none
  noTrap : Bool := false
  d : Descr := 0
  a : Descr := 0
  b : Descr := 0
  c : Descr := 0
  x : Descr := 0
  s1 : Word := 0
  s1Reg : Nat := 0
  s2 : Word := 0
  s3 : Word := 0
  imm : Word := 0
  phase : OpPhase := .queued
  contribs : List (Nat × Nat) := []
  cond : Option Code := none
  failDevice : Nat := 0xFFFF
  late : Option Trap := none
  awaited : List Nat := []
  fetched : Map Byte := []
  fetchedLost : List Nat := []
  bound : Option (Nat × Nat) := none
  reader : Bool := false
  fold : Fold := {}
  result : Word := 0
  records : List TileRecord := []
  issuedAt : Nat := 0
  done : Nat := 0
  params : Bytes := []
  stop : Option (Nat × Code × Nat) := none
  deriving DecidableEq, Repr

/-- A hardware thread (R109). `wait` and `word` are the instruction it waits in; `storesOut` the tags of
its scalar stores not yet acknowledged; `pendRegs` the results of `VER_READ` by group, which its next
`FENCE` on the group delivers (R196); `due` a trap found while it is `SUSPENDED`, with the address and word of its
instruction, which it takes when it runs again (R112). -/
structure Thread where
  state : ThreadState := .idle
  regs : Vector Word 32 := Vector.replicate 32 0
  descs : Vector Descr 16 := Vector.replicate 16 0
  preds : Vector Bool 8 := #v[true, false, false, false, false, false, false, false]
  pc : Word := 0
  cursor : Nat := 0
  groups : Vector Group 8 := Vector.replicate 8 {}
  nfSticky : BitVec 3 := 0
  condCode : Nat := 0
  slotIndex : BitVec 32 := 0xFFFFFFFF
  slotKind : Nat := 0
  slotStage : Nat := 0
  slotMicroBatch : Nat := 0
  launch : Nat := 0
  ctx : Nat := 0
  rank : Nat := 0
  wait : Option Wait := none
  word : InstrWord := 0
  ops : List TileOp := []
  storesOut : List Nat := []
  pendRegs : List (Nat × Nat × Word) := []
  due : Option (Word × InstrWord × Trap) := none
  deriving DecidableEq, Repr

/-- The gate of a launch's current slot (R147). -/
inductive Gate where
  | none | held | opened | failed (code : Code) | trapped (kind : Nat) (code : Code) (detail : Nat)
  deriving DecidableEq, Repr

/-- A `LAUNCH` or `BATCH_SUBMIT` that has been taken (R339, R364). -/
structure Launch where
  ctx : Nat
  gen : Nat
  handle : Nat
  entry : Word := 0
  mask : Word := 0
  threadsPerArray : Nat := 1
  policyContinue : Bool := false
  step : Word := 0
  argBlock : Word := 0
  timetable : Nat := 0
  slotCount : Nat := 0
  trapArea : Nat := 0
  trainTable : Nat := 0
  admitted : Bool := false
  arrays : List Nat := []
  threads : Nat := 0
  startTime : Nat := 0
  traps : Nat := 0
  firstTrap : Option (Nat × Nat × Nat × Trap) := none
  nf : BitVec 3 := 0
  dirty : Bool := false
  slot : Option Nat := none
  slotStarted : Option Nat := none
  slotInterrupted : Bool := false
  suspendedDuring : Bool := false
  gate : Gate := .none
  gateArrival : Nat := 0
  gateThread : Option ThreadId := none
  lastPassed : Option ThreadId := none
  takenAt : Nat := 0
  cls : Nat := 0
  admittedAt : Nat := 0
  suspendedNs : Nat := 0
  downgrades : Nat := 0
  deriving DecidableEq, Repr

/-! ### Arrays -/

/-- Whether an array serves (R371, R378, R463). -/
inductive ArrayService where
  | pending | serving | resetting | gone
  deriving DecidableEq, Repr

/-- States of a landing half (R26). -/
inductive HalfState where
  | free | filling | landed
  deriving DecidableEq, Repr

/-- Half of the landing: the thread, instruction and pass it serves, and the stationary block in it, as
rows of elements by reduction index, with the E8M0 scales of its MX blocks by rows of 32 (R24, R26, R29, R30). `asked` tells
that its fetch has been issued; `awaited` holds the tags of remote reads not yet answered, `fetched` and `fetchedLost` what
the others brought. -/
structure LandingHalf where
  state : HalfState := .free
  owner : Option (ThreadId × Nat × Nat) := none
  block : List (List Num) := []
  scales : List Bytes := []
  poisoned : Bool := false
  asked : Bool := false
  awaited : List Nat := []
  fetched : Map Byte := []
  fetchedLost : List Nat := []
  deriving DecidableEq, Repr

/-- A pass whose rows have entered an array and whose results have not drained (R23, R39). -/
structure Pass where
  owner : ThreadId
  op : Nat
  ctx : Nat
  number : Nat
  epoch : Bool
  rows : List (List Num)
  block : List (List Num)
  deriving DecidableEq, Repr

/-- One matrix array (R24 to R27, R53). `epoch` is the epoch that the next front takes, `fronted` the
pass whose front entered last, and `holder` the instruction in the middle of an m-chunk (R37), or the
`MMAB` that has the array (R50). The stationary registers S[0] and S[1] hold elements by reduction index, and `scales0` and
`scales1` are the leaf units' scale registers of the two epochs. -/
structure ArrayState where
  service : ArrayService := .pending
  asleep : Bool := false
  stationary0 : List (List Num) := []
  stationary1 : List (List Num) := []
  scales0 : List Bytes := []
  scales1 : List Bytes := []
  epoch : Bool := false
  halfA : LandingHalf := {}
  halfB : LandingHalf := {}
  fronted : Option (ThreadId × Nat × Nat) := none
  passes : List Pass := []
  holder : Option (ThreadId × Nat) := none
  lastProgress : Nat := 0
  lastPass : Nat := 0
  deriving DecidableEq, Repr

/-! ### Statistics -/

/-- States of a tag slot that is not `FREE` (R159). -/
inductive TagState where
  | opened | closing | saved
  deriving DecidableEq, Repr

/-- A statistics tag (R157 to R169). `roots` holds the contribution roots that have entered, in order,
and `held` those that wait for lower ones; a contribution that ended without completing is none
(R167). -/
structure Tag where
  array : Nat
  ctx : Nat
  slot : Nat
  state : TagState := .opened
  bound : Bool := false
  openTime : Nat := 0
  closeTime : Nat := 0
  issued : Nat := 0
  entered : Nat := 0
  elements : Nat := 0
  zeros : Nat := 0
  saturations : Nat := 0
  nonfinite : Nat := 0
  outHist : Map Nat := []
  rootHist : Map Nat := []
  roots : List (Option Num) := []
  held : Map (Option (Option Num)) := []
  incomplete : Bool := false
  countSaturated : Bool := false
  binSaturated : Bool := false
  closer : Option (ThreadId × Nat) := none
  deriving DecidableEq, Repr

/-! ### Contexts -/

/-- Context states (R347). -/
inductive CtxState where
  | unused | active | suspending | suspended | draining
  deriving DecidableEq, Repr

/-- Why a context is suspended (R352). -/
inductive SuspendCause where
  | none | host | displaced
  deriving DecidableEq, Repr

/-- A context's quotas (R229). -/
structure Quota where
  atticGuarantee : Nat := 0
  atticLimit : Nat := 0
  cellarPinLimit : Nat := 0
  pantryCellarLimit : Nat := 0
  pantryLimit : Nat := 0
  spillBase : Nat := 0
  spillLength : Nat := 0
  deriving DecidableEq, Repr

/-- An eviction notice (R231). -/
structure Notice where
  spilled : Nat := 0
  dropped : Nat := 0
  firstDropped : Nat := 0
  time : Nat := 0
  deriving DecidableEq, Repr

/-- A barrier that has arrivals (R145). -/
structure Barrier where
  participants : Nat
  arrivals : List ThreadId
  deriving DecidableEq, Repr

/-- A drain in progress (R382, R383). -/
structure Drain where
  destroy : Bool
  handle : Nat
  takenAt : Nat
  deriving DecidableEq, Repr

/-- A packet that waits to leave, with its type code and the thread that made it (R257, R372). -/
structure OutPacket where
  type : Nat
  packet : Packet
  thread : Option ThreadId := none
  since : Nat := 0
  deriving DecidableEq, Repr

/-- One context ID (R347 to R352). `withdrawn` holds the packets kept while it is suspended (R361), and `committedStep` is
the step of its latest `COMMITTED` guard (R198, R402). -/
structure Ctx where
  state : CtxState := .unused
  generation : Nat := 1
  cause : SuspendCause := .none
  priority : Nat := 0
  maxArrays : Nat := 0
  maxThreads : Nat := 0
  model : Word := 0
  quota : Quota := {}
  savePages : Nat := 0
  notice : Notice := {}
  preemptCount : Nat := 0
  lastPreempt : Nat := 0
  lastElapsed : Nat := 0
  lastQueued : Nat := 0
  lastSuspended : Nat := 0
  lastContended : Nat := 0
  lastSlowdown : Nat := 0
  totalElapsed : Nat := 0
  totalLost : Nat := 0
  latestStep : Option Nat := none
  committedStep : Nat := 0
  fabricTimeout : Option Nat := none
  broadcast : List Nat := []
  barriers : Map Barrier := []
  drain : Option Drain := none
  suspendedAt : Nat := 0
  admittedAt : Nat := 0
  pantryPeak : Nat := 0
  pantryDowngrades : Nat := 0
  resumeCmd : Option Nat := none
  resumeAt : Nat := 0
  displacedAt : Nat := 0
  restoring : Bool := false
  withdrawn : List OutPacket := []
  deriving DecidableEq, Repr

/-! ### Memory -/

/-- Who maps a page: a context, or the pool of the resident model (R217, R219). -/
inductive Owner where
  | ctx (id : Nat)
  | pool
  deriving DecidableEq, Repr

/-- States of a page that is not `UNMAPPED` (R220). `spilling` and `returning` are the copies under
way to and from the spill buffer. -/
inductive PageState where
  | resident | spilling | spilled | returning | dropped | loading
  deriving DecidableEq, Repr

/-- A 2 MiB page of the device range (R215 to R226). -/
structure Page where
  owner : Owner
  cls : Nat := 0
  rw : Bool := true
  state : PageState := .resident
  frame : Nat := 0
  hint : Nat := 0
  lastTouch : Nat := 0
  loan : Option Word := none
  spillSlot : Nat := 0
  deriving DecidableEq, Repr

/-- A 64 KiB granule that the Curator tracks (R222 to R226); `pins` are the contexts that pin it, `home` the slice that a
pin gave it. -/
structure Granule where
  slice : Option Nat := none
  dirty : Bool := false
  pins : List Nat := []
  lastTouch : Nat := 0
  touchedAt : Option Nat := none
  cold : Bool := false
  switchTo : Option (Option Nat) := none
  home : Option Nat := none
  deriving DecidableEq, Repr

/-- What the ECC makes of an error that stored bytes hold (R232 to R234). -/
inductive EccError where
  | correctable | uncorrectable
  deriving DecidableEq, Repr

/-- A write, or a post to a semaphore by a sequencer, that waits for the repair of its line (R243). -/
inductive LateWrite where
  | write (addr : Nat) (bytes : Bytes)
  | post (addr array count : Nat)
  deriving DecidableEq, Repr

/-- A provenance source (R238). -/
structure Source where
  kind : Nat
  device : Nat
  address : Nat
  deriving DecidableEq, Repr

/-- A provenance record with its stale granules (R238, R240). -/
structure Provenance where
  base : Nat
  length : Nat
  slotMatch : Bool
  region : Nat
  origin : Nat
  sources : List Source
  stale : List Nat := []
  deriving DecidableEq, Repr

/-- A line in `REPAIRING` (R241). -/
structure Repair where
  since : Nat
  next : Nat := 0
  sources : List Source := []
  tag : Option Nat := none
  hostRead : Bool := false
  step : Nat := 0
  retireRow : Option Nat := none
  deriving DecidableEq, Repr

/-- States of the resident model (R353). -/
inductive ModelState where
  | none | loading | resident
  deriving DecidableEq, Repr

/-- The Curator, the pool and the memory it serves. `bytes` is what each address of the device range
reads as, wherever the Curator keeps it (R214, R215). `eccErrors` holds the damaged 16-bit symbols of attic blocks of 64
bytes, by attic address ÷ 64, and `cellarErrors` the flipped bits of cellar words of 64 bits with their check bits, by local
address ÷ 8 (R232). `deferred` holds writes that wait for the repair of their line (R243), and `migrateUntil` the time at
which migration is within `MIGRATE_SHARE` again (R223). -/
structure Memory where
  bytes : List Host.Cell := []
  pages : Map Page := []
  granules : Map Granule := []
  eccErrors : Map (List Nat) := []
  cellarErrors : Map (List Nat) := []
  repairing : Map Repair := []
  lost : List Nat := []
  lostPages : Map (List Nat) := []
  provenance : List Provenance := []
  model : ModelState := .none
  modelId : Word := 0
  poolSequence : BitVec 16 := 0
  zeroing : Nat := 0
  relocated : List Nat := []
  retiringRows : List Nat := []
  rowErrors : Map (List Nat) := []
  channels : List Nat := []
  copyingChannels : List Nat := []
  channelErrors : Map (List Nat) := []
  channelFrames : Nat := 0
  relocationFullRaised : Bool := false
  stacksServing : List Nat := []
  selfRefresh : List Nat := []
  scrubbing : Bool := false
  mirrorTaken : Bool := false
  staging : List Nat := []
  deferred : List LateWrite := []
  migrateUntil : Nat := 0
  deriving DecidableEq, Repr

/-! ### Training support -/

/-- States of a stash entry that is not absent (R185). -/
inductive StashState where
  | filling | heldCellar | heldAttic | spilling | unstashing | downgraded
  deriving DecidableEq, Repr

/-- A Pantry entry (R180 to R185): the tile's bytes, its elements packed by rows and then its scales,
and the offsets of pieces whose source was lost (R244). `errors` holds the flipped bits of its words of 64 bits in the
cellar, by offset ÷ 8 (R232). -/
structure Stash where
  ctx : Nat
  key : Word
  state : StashState
  shape : Descr := 0
  data : Bytes := []
  lost : List Nat := []
  charge : Nat := 0
  order : Nat := 0
  inCellar : Bool := false
  owner : Option (ThreadId × Nat) := none
  launch : Nat := 0
  errors : Map (List Nat) := []
  deriving DecidableEq, Repr

/-- Bucket states (R192). -/
inductive BucketState where
  | empty | filling | folding | reducing | done | failed
  deriving DecidableEq, Repr

/-- A segment of a bucket (R188). `causes` holds, by plane and element, the cause codes of NaN nodes that the carry planes
hold where they are not `NAN_INPUT` (R99, R102, R191). -/
structure Segment where
  rows : Nat
  cols : Nat
  offset : Nat
  nextMb : Nat
  status : TileRecord := {}
  causes : Map Cause := []
  deriving DecidableEq, Repr

/-- A bucket (R187). `groupSize` is the members of its block's group at the `LAUNCH` (R301). -/
structure Bucket where
  state : BucketState := .empty
  segments : List Segment := []
  elementCount : Nat := 0
  mbFirst : Nat := 0
  mbCount : Nat := 1
  segTable : Nat := 0
  resultBase : Nat := 0
  carryBase : Nat := 0
  collBlock : Nat := 0
  doneSem : Nat := 0
  filled : Nat := 0
  failCode : Option Code := none
  reductionNf : BitVec 3 := 0
  groupSize : Nat := 0
  deriving DecidableEq, Repr

/-- States of a version slot (R193). -/
inductive SlotState where
  | empty | valid | writing
  deriving DecidableEq, Repr

/-- A version region (R193 to R197). -/
structure Region where
  entry : Nat
  lag : Nat := 0
  publish : Nat := 1
  base0 : Nat := 0
  base1 : Nat := 0
  length : Nat := 0
  state0 : SlotState := .empty
  state1 : SlotState := .empty
  step0 : Nat := 0
  step1 : Nat := 0
  readers0 : Nat := 0
  readers1 : Nat := 0
  published : Nat := 0
  deriving DecidableEq, Repr

/-- The training table in force for a context (R176 to R179). -/
structure Train where
  table : Nat
  launch : Option Nat := none
  step : Nat := 0
  bucketTable : Nat := 0
  regionTable : Nat := 0
  buckets : List Bucket := []
  regions : List Region := []
  deriving DecidableEq, Repr

/-- Guard states (R198). -/
inductive GuardState where
  | opened | committing | committed | abandoned
  deriving DecidableEq, Repr

/-- A guard record (R198, R200): the commands held with the groups they name, and the clean flag of a
launch that has ended (R199). -/
structure Guard where
  ctx : Nat
  step : Nat
  state : GuardState := .opened
  outcome : Option (Code × Nat × Nat) := none
  held : List (Nat × Nat) := []
  clean : Bool := true
  deriving DecidableEq, Repr

/-! ### Palex -/

/-- Port states (R250). -/
inductive PortState where
  | disabled | down | training | keying | active | retraining | failed
  deriving DecidableEq, Repr

/-- A Palex port (R246 to R266, R283). `lastFrame` is the packets that left in the last frame, `wire` the flits that left
last, and `replay` the flits that are not acknowledged, by `FLIT_SEQ`, exactly as they were sent (R255). `round` is what
the weighted round has left (R262). `rxSlots` holds the slots of accepted flits whose frame is not complete, `rxStream` the
packets of verified frames that are not yet taken (R264), and `creditsDue` the credits that are not yet returned (R261).
`nonceSent` and `confirmSent` are what the port sent in its last keying (R265), `leftActive` the time the port last left
`ACTIVE`, and `replayTimes` and `authTimes` the replays and authentication failures of the last 1 ms (R250). -/
structure Port where
  state : PortState := .disabled
  width : Nat := 0
  rate : Nat := 0
  laneMask : BitVec 16 := 0
  neighbourDevice : Nat := 0
  neighbourIncarnation : Nat := 0
  neighbourPort : Nat := 0
  failCause : Nat := 0
  lastChange : Nat := 0
  leftActive : Nat := 0
  maxRate : Nat := 0
  minWidth : Nat := 4
  planned : Bool := false
  oldWidth : Nat := 0
  oldRate : Nat := 0
  nextSeq : Nat := 0
  replay : List (Nat × Bytes) := []
  wire : List Bytes := []
  round : List Nat := [0, 0, 1, 4, 4, 2]
  rxSlots : Bytes := []
  rxStream : Bytes := []
  creditsDue : List Nat := [0, 0, 0, 0, 0, 0, 0, 0]
  nonceSent : Bytes := []
  confirmSent : Option (BitVec 128) := none
  lastRx : Nat := 1023
  nakSent : Bool := false
  ackDue : Bool := false
  credits : List Nat := [0, 0, 0, 0, 0, 0, 0, 0]
  queue : List OutPacket := []
  lastFrame : List OutPacket := []
  txFrames : Nat := 0
  rxFrames : Nat := 0
  localNonce : Bytes := []
  txKey : Bytes := []
  rxKey : Bytes := []
  txSalt : Bytes := []
  rxSalt : Bytes := []
  keyed : Bool := false
  helloDone : Bool := false
  syncDone : Bool := false
  sinceIdle : Nat := 0
  syncSent : Nat := 0
  lastProgress : Nat := 0
  replayTimes : List Nat := []
  authTimes : List Nat := []
  lastDelay : Int := 0
  lastOffset : Int := 0
  deriving DecidableEq, Repr

/-- The unit that issued a request (R274). -/
inductive ReqUnit where
  | load (t : ThreadId)
  | store (t : ThreadId) (pc : Word) (word : InstrWord)
  | post (t : ThreadId)
  | tileRead (t : ThreadId) (op : Nat)
  | tileWrite (t : ThreadId) (op : Nat)
  | repair (line : Nat)
  | modelLoad (handle : Nat)
  | device
  | probe (coll logical : Nat)
  | claim (coll : Nat)
  | drainWrite (handle : Nat)
  deriving DecidableEq, Repr

/-- A request that has no response yet (R259, R274). `port` is none while it waits for a route, for
`HELLO_RSP`, for a place among the 65,536 outstanding or for room for its response (R262); `owner` is the context whose
fabric timeout counts (R285). -/
structure Request where
  out : OutPacket
  unit : ReqUnit
  port : Option Nat := none
  timer : Option Nat := none
  timeoutUs : Nat := 500
  owner : Nat := 0
  deriving DecidableEq, Repr

/-- The fabric side of the module (R267 to R286). `waiting` holds requests that arrived at a port,
with their type codes, and wait for a line under repair (R243) or a page's return (R230). `unsent` holds packets other than
requests that wait for `HELLO_RSP` (R268) or for a port (R275), `helloed` the devices whose `HELLO_RSP` is awaited, and `retrained` the ports that the change to full service
has retrained (R253). -/
structure Fabric where
  ports : List Port := List.replicate 6 {}
  requests : Map Request := []
  nextTag : Nat := 1
  incarnations : Map Nat := []
  helloAt : Map Nat := []
  retired : Map (List (Nat × Nat)) := []
  routes : Map Nat := []
  flows : Map Nat := []
  timeoutUs : Nat := 500
  waiting : List (Nat × Nat × Packet) := []
  unsent : List OutPacket := []
  retrained : List Nat := []
  helloed : List Nat := []
  deriving DecidableEq, Repr

/-! ### Collectives -/

/-- A group (R287 to R289). -/
structure CollGroup where
  epoch : Nat
  members : List (Nat × Nat)
  runs : Nat
  own : Nat
  nextSeq : Nat := 0
  broken : Option Nat := none
  deriving DecidableEq, Repr

/-- A chunk of a re-sharding plan (R310). -/
structure Chunk where
  srcLogical : Nat
  dstLogical : Nat
  length : Nat
  srcAddress : Nat
  dstAddress : Nat
  deriving DecidableEq, Repr

/-- A re-sharding plan (R310, R311). -/
structure Plan where
  group : Nat
  epoch : Nat
  chunks : List Chunk := []
  sealed : Bool := false
  deriving DecidableEq, Repr

/-- What a collective belongs to (R298). -/
inductive CollUnit where
  | op (t : ThreadId) (id : Nat)
  | bucket (ctx index : Nat)
  | commit (ctx step : Nat)
  deriving DecidableEq, Repr

/-- A collective in progress on this module, or one that has ended and still answers probes
(R298 to R308). `stage` is 0 before it starts, 1 started, 2 complete, 3 ended with a condition (R308). A
stream has a key: the member that sends or receives it, or the chunk of a plan; a `RESULT` stream's is
higher by 65,536. `vec` is the vector of a bucket reduction, `got` the offsets and lengths that have
arrived of each stream, `inbox` the bytes that wait to be combined or placed, and `counted` the
contributions of a bucket's segments. -/
structure Coll where
  ctx : Nat
  group : Nat
  epoch : Nat
  kind : Nat
  matchKey : Nat
  bucket : Nat := 0
  unit : CollUnit
  op : Nat
  redop : Nat := 0
  nodeFormat : Nat := 0
  root : Nat := 0
  plan : Nat := 0
  planEpoch : Nat := 0
  block : Nat := 0
  doneSem : Word := 0
  scratch : Nat × Nat := (0, 0)
  slot : Word := 0
  d : Descr := 0
  a : Descr := 0
  usesD : Bool := false
  usesA : Bool := false
  vec : Option (Nat × Nat) := none
  stage : Nat := 1
  startTime : Nat := 0
  ready : List Nat := []
  sent : Map Nat := []
  acked : Map Nat := []
  got : Map (Map Nat) := []
  inbox : Map (Map Bytes) := []
  ackSent : Map Nat := []
  arrivals : List Nat := []
  flags : List (Nat × Nat × Bool) := []
  round : Nat := 0
  clean : Bool := true
  probed : Map Nat := []
  computed : Bool := false
  roots : List (List Num) := []
  nodeSats : Nat := 0
  poisoned : Bool := false
  wrote : Bool := false
  counted : List (Nat × Nat × Nat) := []
  staged : Map Bytes := []
  claim : Option Nat := none
  won : Bool := false
  lost : Bool := false
  failLogical : Nat := 0xFFFF
  code : Code := .done
  waitCounted : Bool := false
  nf : BitVec 3 := 0
  deriving DecidableEq, Repr

/-- A claimed first-writer-wins slot (R315 to R317). -/
structure Claim where
  ctx : Nat
  number : Nat
  since : Nat
  written : Nat := 0
  deriving DecidableEq, Repr

/-- The Collective Engine; `early` holds packets of collectives that the member has not reached (R307). -/
structure Collectives where
  groups : Map CollGroup := []
  plans : Map Plan := []
  active : Map Coll := []
  nextColl : Nat := 1
  early : List Packet := []
  claims : Map Claim := []
  deriving DecidableEq, Repr

/-! ### Host interface -/

/-- Ring states (R324). -/
inductive RingState where
  | unbound | bound | draining | stopped
  deriving DecidableEq, Repr

/-- An entry of the ring table (R325). -/
structure Ring where
  cmdBase : Nat := 0
  replyBase : Nat := 0
  cmdLog2 : Nat := 0
  replyLog2 : Nat := 0
  state : RingState := .unbound
  stopCause : Nat := 0
  boundCtx : Nat := 0
  cmdHead : BitVec 32 := 0
  replyTail : BitVec 32 := 0
  cmdTail : BitVec 32 := 0
  replyHead : BitVec 32 := 0
  outstanding : Nat := 0
  backlogSince : Nat := 0
  deriving DecidableEq, Repr

/-- What a command that has been taken and has no final reply waits for. -/
inductive Work where
  | fence
  | suspend (ctx : Nat)
  | resume (ctx : Nat)
  | drain (ctx : Nat)
  | launch (id : Nat)
  | commit (ctx : Nat) (step : Nat)
  | unmap (base len : Nat)
  | copyIn (dst len : Nat)
  | copy (src dst len : Nat) (dstHost : Bool)
  | fill (dst len : Nat) (pattern : Word)
  | loadHost (model : Word) (dst len : Nat) (loan : Bool)
  | loadFabric (model : Word) (src : Word) (dst len : Nat) (loan : Bool)
  | loan (length : Nat)
  | quote
  | ckptBegin
  | ckptDrain (awaited : List Nat)
  | ckptRestore (fromMirror : Bool)
  | commitTxn (txn : Word) (outAddr next : Nat)
  | activate
  | probation
  | debug (write : Bool) (params : Bytes)
  deriving DecidableEq, Repr

/-- A command that has been taken (R327, R329). `object` is what its Catalogue entry names (R448). A staged
command that a commit runs has the commit as its parent, with its stage index; `entries` are the commit's results
by stage index: the opcode, the code and the `RESULT` (R387). `data` is what a load's reads have brought, by
offset. -/
structure OutCmd where
  header : CmdHeader
  opcode : Nat
  ctx : Nat
  generation : Nat
  takenAt : Nat
  work : Work
  mgSequence : Nat := 0
  object : Option Nat := none
  parent : Option (Nat × Nat) := none
  entries : Map (Nat × Nat × Bytes) := []
  data : Map Bytes := []
  deriving DecidableEq, Repr

/-- An entry of the attention log (R342). -/
structure AttnEvent where
  seq : Nat
  cls : Nat
  level : Nat
  time : Nat
  accession : Nat
  detail : Nat
  deriving DecidableEq, Repr

/-- The host interface (R322 to R333). `bus` is what the device has written to the host's bus, by
bus address; `lastRead` is what the last read of a BAR returned and whether with the EP bit set or
with Unsupported Request status. -/
structure HostIf where
  bus : List Host.Cell := []
  rings : Map Ring := []
  commands : Map OutCmd := []
  nextHandle : Nat := 1
  timeLatch : BitVec 32 := 0
  snapshotBusy : Bool := false
  snapshotSeq : BitVec 16 := 0
  snapshotTime : Nat := 0
  snapshotCause : Nat := 0
  mailbox : Bytes := []
  resetBusy : Bool := false
  resetDomain : Nat := 0
  resetTarget : Nat := 0
  resetOrigin : Nat := 0
  resetCount : BitVec 16 := 0
  resetsWaiting : List (Nat × Nat × Nat) := []
  bar2Base : Nat := 0
  bar2Ctx : Nat := 0
  lastRead : Bytes := []
  lastPoisoned : Bool := false
  lastUnsupported : Bool := false
  readsWaiting : List (Nat × Nat) := []
  writesWaiting : List (Nat × Bytes) := []
  stewardBeat : BitVec 32 := 0
  beatTime : Nat := 0
  lastCmdTime : Nat := 0
  lastCmdRing : Nat := 0
  lastCmdOpcode : Nat := 0
  lastResetTime : Nat := 0
  perst : Bool := false
  deriving DecidableEq, Repr

/-! ### Twin -/

/-- Pair states (R399). -/
inductive PairState where
  | single | paired | adopting
  deriving DecidableEq, Repr

/-- States of a mirror entry (R400). -/
inductive SnapState where
  | empty | incoming | current | lost
  deriving DecidableEq, Repr

/-- A mirror directory entry (R400), with its range table (R402) and the loans of its ranges (R427). -/
structure MirrorEntry where
  ownerDevice : Nat := 0
  state : SnapState := .empty
  drained : Bool := false
  adopted : Bool := false
  ownerCtx : Nat := 0
  ckptId : Word := 0
  step : Nat := 0
  bytes : Nat := 0
  offset : Nat := 0
  beginTime : Nat := 0
  ranges : List (Nat × Nat) := []
  loans : List Word := []
  deriving DecidableEq, Repr

/-- A checkpoint stream in progress (R402 to R404). `left` holds the pages not yet streamed, in
order; `staged` holds the bytes of pages copied aside before a write, as cells. -/
structure Stream where
  handle : Nat
  ctx : Nat
  ckptId : Word
  toMirror : Bool
  toHost : Bool := false
  dst : Word := 0
  step : Nat
  beginTime : Nat
  ranges : List (Nat × Nat)
  left : List Nat
  sent : Nat := 0
  staged : Map (List Host.Cell) := []
  copying : List Nat := []
  complete : Bool := false
  deriving DecidableEq, Repr

/-- A drain or restore in progress against the twin's mirror (R405, R407). -/
structure MirrorJob where
  handle : Nat
  isDrain : Bool
  ckptId : Word
  ownerDevice : Nat
  toHost : Bool := false
  dst : Word := 0
  ctx : Nat := 0
  ranges : List (Nat × Nat) := []
  step : Nat := 0
  offset : Nat := 0
  size : Nat := 0
  data : Bytes := []
  deriving DecidableEq, Repr

/-- The Party Wall (R399 to R413). `peerDrained` is the twin's last drained checkpoint, as its directory told (R408,
R413), and `peerReady` whether it has taken its mirror reservation (R216, R402). -/
structure Twin where
  state : PairState := .single
  twinDevice : Nat := 0xFFFF
  mirrorGib : Nat := 0
  offered : Option (Nat × Nat) := none
  received : Option (Nat × Nat) := none
  adoptRole : Nat := 0
  adoptFormer : Nat := 0
  survivorCopied : Bool := false
  stateTime : Nat := 0
  lastDrainedId : Word := 0
  lastDrainedStep : Nat := 0
  peerDrained : Word × Nat := (0, 0)
  held : List MirrorEntry := [{}, {}]
  own : List MirrorEntry := [{}, {}]
  mirror : List Host.Cell := []
  stream : Option Stream := none
  jobs : List MirrorJob := []
  adoptedLost : Bool := false
  peerReady : Bool := true
  deriving DecidableEq, Repr

/-! ### Strongroom -/

/-- Strongroom states (R433). -/
inductive SrState where
  | reconstructing | ready | failed
  deriving DecidableEq, Repr

/-- A loan that is present (R420 to R424). `key` stands for K, which never leaves the Strongroom. -/
structure Loan where
  id : Word
  model : Word
  notBefore : Nat := 0
  notAfter : Nat := 0
  weightBytes : Nat := 0
  devices : List Nat := []
  digest : BitVec 256 := 0
  key : Bytes := []
  presenter : Nat := 0
  suppressed : Counter := {}
  deriving DecidableEq, Repr

/-- An attestation request (R428). -/
structure QuoteReq where
  handle : Nat
  nonce : Bytes
  ctx : Nat
  generation : Nat
  outAddr : Nat
  deriving DecidableEq, Repr

/-- The Strongroom (R414 to R433). -/
structure Strongroom where
  state : SrState := .reconstructing
  loans : List Loan := []
  quotes : List QuoteReq := []
  window : Bool := false
  debugAccesses : Nat := 0
  lastDebug : Nat := 0
  draws : Nat := 0
  deriving DecidableEq, Repr

/-! ### Lodge -/

/-- A Catalogue entry (R448). -/
structure CatEntry where
  accession : Nat
  time : Nat
  origin : Nat
  originIndex : Nat := 0
  pinned : Bool := false
  digest : Bool := false
  objectClass : Nat
  ctx : Nat := 0
  objectIndex : Nat := 0
  txn : Word := 0
  hostTime : Word := 0
  opcode : Nat := 0
  code : Nat := 0
  old : BitVec 256 := 0
  new : BitVec 256 := 0
  reserved : Bool := false
  deriving DecidableEq, Repr

/-- A fault record (R368). -/
structure FaultRec where
  seq : Nat
  unit : Nat
  domain : Nat := 0
  index : Nat := 0
  cause : Nat
  ctx : Nat := 0
  generation : Nat := 0
  incarnation : Nat
  time : Nat
  accession : Nat
  address : Word := 0
  detail : Nat := 0
  deriving DecidableEq, Repr

/-- A settable configuration (R446). Times are in the units of R446. -/
structure Settings where
  deviceId : Option Nat := none
  operatorKeys : List (BitVec 256) := []
  mgmtAddress : Bytes := []
  minFwVersion : Nat := 0
  timeSource : Nat := 3
  timeParents : List Nat := []
  ptpDomain : Nat := 0
  powerCapDefault : Nat := 1800
  arrayIdleUs : Nat := 20
  atticIdleUs : Nat := 1000
  telemetryMs : Nat := 1000
  promoteWindowUs : Nat := 100
  migrateShare : Nat := 10
  repairBudgetUs : Nat := 200
  queueLimit : Nat := 4096
  twinGraceS : Nat := 10
  deriving DecidableEq, Repr

/-- A firmware slot (R443). -/
structure FwSlot where
  version : Nat := 0
  digest : BitVec 256 := 0
  deriving DecidableEq, Repr

/-- A staged image (R441). -/
structure Staged where
  data : Bytes := []
  verified : Bool := false
  deriving DecidableEq, Repr

/-- A command of a session that arrived ahead of the next expected one (R438), or a message being
reassembled from its fragments (R436). -/
structure MgmtMessage where
  sequence : Nat
  length : Nat
  data : Map Byte := []
  arrived : Nat := 0
  deriving DecidableEq, Repr

/-- A management session (R437 to R439). `sent` keeps the messages sent: `SEQUENCE`, `MG_TYPE` and the message. -/
structure Session where
  id : Nat
  opened : Nat
  lastHeard : Nat
  keyHash : BitVec 256 := 0
  rxKey : Bytes := []
  txKey : Bytes := []
  rxSalt : Bytes := []
  txSalt : Bytes := []
  next : Nat := 1
  ahead : Map Bytes := []
  partials : Map MgmtMessage := []
  replies : List (Nat × Bytes) := []
  sent : List (Nat × Nat × Bytes) := []
  txSequence : Nat := 1
  deriving DecidableEq, Repr

/-- Transaction states (R388). -/
inductive TxnState where
  | opened | committed | aborted | void
  deriving DecidableEq, Repr

/-- A command staged in a transaction (R386). -/
structure StagedCmd where
  opcode : Nat
  header : CmdHeader
  params : Bytes
  deriving DecidableEq, Repr

/-- A transaction record (R385 to R390). -/
structure Txn where
  id : Word
  state : TxnState := .opened
  kind : Nat := 0
  origin : Nat := 0
  originIndex : Nat := 0
  staged : List StagedCmd := []
  failedIndex : Nat := 0xFFFF
  time : Nat := 0
  accession : Nat := 0
  timeoutMs : Nat := 10000
  committing : Bool := false
  deriving DecidableEq, Repr

/-- How far power and bring-up have come (R461, R475, R459). -/
inductive Phase where
  | off | keys | firmware | checking | foyer | full | recovery | shutdown
  deriving DecidableEq, Repr

/-- The trace (R465). -/
structure Trace where
  running : Bool := false
  sources : Nat := 0
  ports : Nat := 0
  arrays : Word := 0
  pages : Nat := 0
  buffer : Bytes := []
  written : Nat := 0
  dropped : Nat := 0
  deriving DecidableEq, Repr

/-- The Lodge: power, bring-up, time, Catalogue, health, firmware, configuration, sessions. `locked` and its counts
are the servo's over Palex, `ptpLocked` and its counts those of PTP (R452); `mgmtSent` keeps the messages sent outside
an open session, by session ID and type (R436, R437, R439); `withheld` tells that passes were withheld in the
telemetry period (R460), whose power samples `periodSum` and `periodCount` add up, in units of 0.1 mW; `inputLost` tells
that the 48 V input has been lost (R475). -/
structure Lodge where
  phase : Phase := .off
  inputShort : Bool := false
  inputLost : Bool := false
  leak : Bool := false
  time16 : Nat := 0
  rate16 : Int := 0
  timeSaved : Nat := 0
  syncState : Nat := 0
  goodExchanges : Nat := 0
  badExchanges : Nat := 0
  locked : Bool := false
  ptpGood : Nat := 0
  ptpBad : Nat := 0
  ptpLocked : Bool := false
  lastLocked : Nat := 0
  everLocked : Bool := false
  sourceBehind : Bool := false
  behindAt : Nat := 0
  incarnation : Nat := 1
  deviceId : Nat := 0xFFFF
  catalogue : List CatEntry := []
  nextAccession : Nat := 1
  nearFullRaised : Bool := false
  faults : List FaultRec := []
  nextFault : Nat := 1
  rates : List Nat := List.replicate 15 0
  events : List Nat := List.replicate 15 0
  evidence : Nat := 0
  observedSeconds : Nat := 0
  lastEventTime : Nat := 0
  lastProbation : Nat := 0
  probation : Nat := 0
  correctedBase : Int := 0
  replaysBase : Int := 0
  settings : Settings := {}
  cfgSequence : Nat := 0
  cfgDigest : BitVec 256 := 0
  cfgStored : Bytes := []
  cfgValid : Bool := false
  slots : List FwSlot := [{}, {}]
  activeSlot : Nat := 0
  stagedFw : Option Staged := none
  stagedCfg : Option Staged := none
  sessions : List Session := []
  nextSession : Nat := 1
  mgmtSent : List (Nat × Nat × Bytes) := []
  powerCap : Nat := 1800
  inputMv : Nat := 0
  inputSamples : List Nat := []
  periodSum : Nat := 0
  periodCount : Nat := 0
  withholding : Bool := false
  throttling : Bool := false
  withheld : Bool := false
  lastTelemetry : Nat := 0
  countdown : Option Nat := none
  trace : Trace := {}
  txns : List Txn := []
  deriving DecidableEq, Repr

/-! ### The module -/

/-- The state of one module, and the queue of commands that wait. -/
structure State where
  variant : Variant := .ec6480
  pending : List Instr := []
  counters : Map Counter := []
  -- descriptor and status (R8, R322)
  stewardRunning : Bool := false
  deviceReady : Bool := false
  serviceLevel : Nat := 0
  capsSequence : BitVec 16 := 0
  fp64Serving : Bool := false
  laneRate : Nat := 64
  permittedRate : Nat := 64
  -- attention (R331)
  attnSeq : BitVec 8 := 0
  attnPending : Map (Nat × BitVec 8) := []
  attnLog : List AttnEvent := []
  -- units
  host : HostIf := {}
  ctxs : Map Ctx := []
  launches : Map Launch := []
  admitting : List Nat := []
  nextLaunch : Nat := 1
  nextOp : Nat := 1
  nextOrder : Nat := 1
  threads : Map Thread := []
  arrays : List ArrayState := List.replicate 64 {}
  tags : List Tag := []
  memory : Memory := {}
  stashes : List Stash := []
  trains : Map Train := []
  guards : List Guard := []
  fabric : Fabric := {}
  coll : Collectives := {}
  twin : Twin := {}
  strongroom : Strongroom := {}
  lodge : Lodge := {}
  -- the model's own: the index of the next free value (notes/assumptions/1.md)
  freeIndex : Nat := 0
  deriving DecidableEq, Repr

/-- The module when its 48 V input has not yet come up: nothing is mapped, bound, created or
running, every register holds its reset value, and the queue is empty (R1, R322, R347, R461). -/
def State.reset : State := {}

end Sys2Proof.Machine
end

