-- ==== Sys2Proof/Machine/Ops.lean ====
section
/-! DEFINITION. The shared operations: what a variant fits, device time, changing one unit of the
state, free values, event counters (R391), Catalogue entries (R448, R449), attention (R331), fault
records (R367, R368), and reading and writing contexts, threads and arrays. -/

namespace Sys2Proof.Machine

/-! ### What a variant fits (R1, R8) -/

/-- Arrays fitted (R1). -/
def Variant.arrays : Variant → Nat
  | .ec6480 => 64 | .ec4864 => 48 | .ec3240 => 32
/-- HBM stacks fitted (R1). -/
def Variant.stacks : Variant → Nat
  | .ec6480 => 8 | .ec4864 => 6 | .ec3240 => 4
/-- Palex ports fitted (R1). -/
def Variant.ports : Variant → Nat
  | .ec3240 => 4 | _ => 6
/-- Whether the FP64 path is fitted (R1, R2). -/
def Variant.fp64 : Variant → Bool
  | .ec6480 => true | _ => false
/-- Whether the Party Wall is fitted (R1). -/
def Variant.partyWall : Variant → Bool
  | .ec3240 => false | _ => true
/-- `PART_CODE` (R8). -/
def Variant.partCode : Variant → Nat
  | .ec6480 => 0x6480 | .ec4864 => 0x4864 | .ec3240 => 0x3240

/-! ### Device time (R14, R451) and one-unit changes -/

/-- Device time in ns (R451). -/
def State.now (s : State) : Nat := s.lodge.time16 / 65536

/-- One cycle of the 25 MHz oscillator: device time advances by 40 ns and the servo's correction; with
the power off nothing moves (R451, notes/assumptions/3.md). -/
def tick (s : State) : Host.Outcome State Fault Refusal :=
  if s.lodge.phase = .off then .next s
  else
    let t := s.lodge.time16 + (2621440 + s.lodge.rate16).toNat
    if t / 65536 < 2 ^ 64 then .next { s with lodge := { s.lodge with time16 := t } }
    else .fault .deviceTimeExhausted

/-- Changes the host interface. -/
def State.modHost (s : State) (f : HostIf → HostIf) : State := { s with host := f s.host }
/-- Changes the Lodge. -/
def State.modLodge (s : State) (f : Lodge → Lodge) : State := { s with lodge := f s.lodge }
/-- Changes the memory. -/
def State.modMem (s : State) (f : Memory → Memory) : State := { s with memory := f s.memory }
/-- Changes the fabric side. -/
def State.modFabric (s : State) (f : Fabric → Fabric) : State := { s with fabric := f s.fabric }
/-- Changes the Collective Engine. -/
def State.modCe (s : State) (f : Collectives → Collectives) : State := { s with coll := f s.coll }
/-- Changes the Party Wall. -/
def State.modTwin (s : State) (f : Twin → Twin) : State := { s with twin := f s.twin }
/-- Changes the Strongroom. -/
def State.modSr (s : State) (f : Strongroom → Strongroom) : State := { s with strongroom := f s.strongroom }

/-- Draws n free values and gives the index of the first (notes/assumptions/1.md). -/
def State.free (s : State) (n : Nat) : Nat × State :=
  (s.freeIndex, { s with freeIndex := s.freeIndex + n })

/-- Draws a free number below a bound; 0 where the bound is 0. -/
def State.freeBelow (s : State) (n : Nat) : Nat × State :=
  let (i, s1) := s.free 1
  ((Config.freeValue i).toNat % max n 1, s1)

/-- 256 free bits, for a value that the spec leaves open. -/
def freeBits (i : Nat) : BitVec 256 :=
  (Config.freeValue i ++ Config.freeValue (i + 1)) ++ (Config.freeValue (i + 2) ++ Config.freeValue (i + 3))

/-- Draws n random bytes from the Strongroom's DRBG (R414). -/
def State.random (s : State) (n : Nat) : Bytes × State :=
  (padTo n (Config.drbg s.strongroom.draws n), s.modSr fun r => { r with draws := r.draws + 1 })

/-! ### The Catalogue (R448 to R450) -/

/-- Catalogue slots (R449). -/
def catalogueSlots : Nat := 2097152
/-- Slots that pinned entries may occupy (R449). -/
def cataloguePinned : Nat := 524288

/-- Pinned entries outside the slots reserved for records of unpinning. -/
def Lodge.pinnedCount (l : Lodge) : Nat := (l.catalogue.filter fun e => e.pinned && !e.reserved).length

/-- Whether an action that needs a pinned entry must be refused (R449). -/
def State.catalogueFull (s : State) : Bool := cataloguePinned ≤ s.lodge.pinnedCount

/-- Removes the oldest entry that may be overwritten (R449). -/
def dropOldest : List CatEntry → List CatEntry
  | [] => []
  | e :: es => if e.pinned then e :: dropOldest es else es

/-- Marks a class pending with a level (R331), and logs the event with the accession number of its
Catalogue entry (R342). -/
def State.mark (s : State) (cls level accession detail : Nat) : State :=
  { s with
    attnSeq := s.attnSeq + 1
    attnPending := Map.put s.attnPending cls (level, s.attnSeq + 1)
    attnLog := ({ seq := (s.attnSeq + 1).toNat, cls := cls, level := level, time := s.now,
                  accession := accession, detail := detail } :: s.attnLog).take 256 }

/-- Whether an object class is pinned (R449). -/
def pinnedClass (c : Nat) : Bool := c == 8 || c == 9 || c == 10 || c == 12 || c == 13 || c == 14

/-- An entry of the module's own that gives no values gets free ones: what it records as old and new is left open
(notes/assumptions/18.md). -/
def State.openValues (s : State) (e : CatEntry) : CatEntry × State :=
  if e.origin < 3 || e.old ≠ 0 || e.new ≠ 0 then (e, s)
  else
    let (i, s1) := s.free 8
    ({ e with old := freeBits i, new := freeBits (i + 4) }, s1)

/-- Writes a Catalogue entry: it takes the next accession number and the device time, and is pinned
where R449 says so. Passing 393,216 pinned entries raises attention class 4 once (R449). -/
def State.catalogue (s0 : State) (e0 : CatEntry) : State :=
  let (e, s) := s0.openValues e0
  let e' := { e with accession := s.lodge.nextAccession, time := s.now,
                     pinned := e.pinned || pinnedClass e.objectClass }
  let kept := if s.lodge.catalogue.length < catalogueSlots then s.lodge.catalogue
    else dropOldest s.lodge.catalogue
  let s1 := s.modLodge fun l =>
    { l with catalogue := kept ++ [e'], nextAccession := l.nextAccession + 1 }
  if 393216 < s1.lodge.pinnedCount && !s1.lodge.nearFullRaised then
    (s1.modLodge fun l => { l with nearFullRaised := true }).mark 4 2 s.lodge.nextAccession 0
  else s1

/-- The accession number of the latest Catalogue entry. -/
def State.lastAccession (s : State) : Nat := s.lodge.nextAccession - 1

/-- Raises attention for an event, which has a Catalogue entry of its own (R331, R342). Events of
class 7 are pinned (R449). -/
def State.raise (s : State) (cls level : Nat) (e : CatEntry) (detail : Nat := 0) : State :=
  let s1 := s.catalogue { e with pinned := e.pinned || cls == 7 }
  s1.mark cls level s1.lastAccession detail

/-- An entry by a hardware unit (origin 4, unit code of R368). -/
def unitEntry (unit objectClass objectIndex : Nat) (ctx : Nat := 0) : CatEntry :=
  { accession := 0, time := 0, origin := 4, originIndex := unit, objectClass := objectClass,
    ctx := ctx, objectIndex := objectIndex }

/-- An entry by the Lodge (origin 5). -/
def lodgeEntry (objectClass objectIndex : Nat) : CatEntry :=
  { accession := 0, time := 0, origin := 5, originIndex := 10, objectClass := objectClass,
    objectIndex := objectIndex }

/-! ### Event counters (R391) -/

/-- A counter: its unit in `READ_COUNTERS` numbering (R344) and its index there. Units 0x10 to 0x13
are counters that other records show (R370, R413, R433, R437). -/
abbrev CtrId := Nat × Nat

/-- The key of a counter. -/
def ctrKey (c : CtrId) (inst : Nat) : Nat := c.1 * 2 ^ 40 + inst * 2 ^ 16 + c.2

/-- Largest value of an event counter (R391). -/
def ctrMax : Nat := 2 ^ 48 - 1

/-- The value of a counter. -/
def State.counter (s : State) (c : CtrId) (inst : Nat) : Counter :=
  Map.getD s.counters (ctrKey c inst) {}

/-- The 8-byte form of a counter (R344). -/
def Counter.bytes (c : Counter) : Bytes := le 8 (c.value + (if c.sticky then 2 ^ 63 else 0))

/-- Adds to a counter, which saturates; the first saturation after a clear sets its sticky bit,
writes a Catalogue entry and raises attention class 8 (R391). -/
def State.count (s : State) (c : CtrId) (inst : Nat) (n : Nat := 1) : State :=
  if n = 0 then s
  else
    let k := ctrKey c inst
    let v := Map.getD s.counters k {}
    if v.value + n ≤ ctrMax then
      { s with counters := Map.put s.counters k { v with value := v.value + n } }
    else
      let s1 := { s with counters := Map.put s.counters k { value := ctrMax, sticky := true } }
      if v.sticky then s1 else s1.raise 8 1 (lodgeEntry 11 k)

/-- Adds to a counter of cycles the length of a wait that no operand of the command tells: a free value
(notes/assumptions/5.md). -/
def State.countFree (s : State) (c : CtrId) (inst : Nat) : State :=
  let (i, s1) := s.free 1
  s1.count c inst ((Config.freeValue i).toNat % 2 ^ 48)

def cPassesRun : CtrId := (0x01, 0)
def cSlabPasses : CtrId := (0x01, 1)
def cMacsIssued : CtrId := (0x01, 2)
def cZeroGatedMacs : CtrId := (0x01, 3)
def cFrontWait : CtrId := (0x01, 4)
def cPrefetchMiss : CtrId := (0x01, 5)
def cWakeWait : CtrId := (0x01, 6)
def cTransposedLoads : CtrId := (0x01, 7)
def cPoisonedLoads : CtrId := (0x01, 8)

def cInstrIssued : CtrId := (0x02, 0)
def cTileIssued : CtrId := (0x02, 1)
def cTileQueueFull : CtrId := (0x02, 2)
def cSemWait : CtrId := (0x02, 3)
def cOwnerSuspendedFails : CtrId := (0x02, 4)
def cSemPostDiscarded : CtrId := (0x02, 5)
def cSemCountSaturated : CtrId := (0x02, 6)
def cFoyerStall : CtrId := (0x02, 7)
def cTraps : CtrId := (0x02, 8)
def cTrapsSuppressed : CtrId := (0x02, 9)

def cStatContributions : CtrId := (0x03, 0)
def cStatRecords : CtrId := (0x03, 1)
def cTagUnitWait : CtrId := (0x03, 2)
def cPhaseRecords : CtrId := (0x03, 3)

def cStashes : CtrId := (0x04, 0)
def cStashDowngraded : CtrId := (0x04, 1)
def cStashWait : CtrId := (0x04, 2)
def cPantrySpills : CtrId := (0x04, 3)
def cPantrySpillBytes : CtrId := (0x04, 4)
def cPantryOrphaned : CtrId := (0x04, 5)
def cBktAdds : CtrId := (0x04, 6)
def cBktOrderWait : CtrId := (0x04, 7)
def cBucketsFolded : CtrId := (0x04, 8)
def cBucketsFailed : CtrId := (0x04, 9)
def cVersionWait : CtrId := (0x04, 10)
def cShardVersionMismatches : CtrId := (0x04, 11)
def cUpdatesRun : CtrId := (0x04, 12)
def cUpdatesNotClean : CtrId := (0x04, 13)
def cUpdateGuardWait : CtrId := (0x04, 14)
def cUpdateReaderWait : CtrId := (0x04, 15)
def cStepsCommitted : CtrId := (0x04, 16)
def cStepsAbandoned : CtrId := (0x04, 17)

def cPromotions : CtrId := (0x05, 0)
def cPromotionsSkipped : CtrId := (0x05, 1)
def cWritebacks : CtrId := (0x05, 2)
def cHintsIgnored : CtrId := (0x05, 3)
def cPagesSpilled : CtrId := (0x05, 4)
def cPagesDropped : CtrId := (0x05, 5)
def cPagesReturned : CtrId := (0x05, 6)
def cAtticCe : CtrId := (0x05, 7)
def cCellarCe : CtrId := (0x05, 8)
def cAtticUe : CtrId := (0x05, 9)
def cCellarUe : CtrId := (0x05, 10)
def cScrubPasses : CtrId := (0x05, 11)
def cRowsRetired : CtrId := (0x05, 12)
def cRelocationFull : CtrId := (0x05, 13)
def cRepairsDone : CtrId := (0x05, 14)
def cRepairSourceFails : CtrId := (0x05, 15)
def cLinesLost : CtrId := (0x05, 16)
def cLostLineReads : CtrId := (0x05, 17)
def cRepairWait : CtrId := (0x05, 18)
def cProvenanceStaled : CtrId := (0x05, 19)

def cFlitsTx : CtrId := (0x06, 0)
def cFlitsRx : CtrId := (0x06, 1)
def cFecCorrected : CtrId := (0x06, 2)
def cFlitCrcErrors : CtrId := (0x06, 3)
def cReplays : CtrId := (0x06, 4)
def cRetrains : CtrId := (0x06, 5)
def cKeyConfirmFails : CtrId := (0x06, 6)
def cGcmAuthFails : CtrId := (0x06, 7)
/-- `CREDIT_STALL_CYCLES` of a virtual channel. -/
def cCreditStall (vc : Nat) : CtrId := (0x06, 8 + vc)
def cStaleIncarnation : CtrId := (0x06, 16)
def cStaleGeneration : CtrId := (0x06, 17)
def cLateResponse : CtrId := (0x06, 18)
def cRemoteTimeouts : CtrId := (0x06, 19)
def cFlowMoves : CtrId := (0x06, 20)

def cMalformed : CtrId := (0x07, 0)
def cMisrouted : CtrId := (0x07, 1)
def cNoMapping : CtrId := (0x07, 2)
def cNotPeer : CtrId := (0x08, 0)
def cReadOnly : CtrId := (0x08, 1)

def cCollsStarted : CtrId := (0x09, 0)
def cCollsAuto : CtrId := (0x09, 1)
def cCollBytesSent : CtrId := (0x09, 2)
def cCollWaitNs : CtrId := (0x09, 3)
def cCollPeerTimeouts : CtrId := (0x09, 4)
def cCollLateDrops : CtrId := (0x09, 5)
def cCollEpochMismatch : CtrId := (0x09, 6)
def cCollMismatch : CtrId := (0x09, 7)
def cCollTagMissed : CtrId := (0x09, 8)
def cPermuteChunks : CtrId := (0x09, 9)
def cPermuteStaged : CtrId := (0x09, 10)
def cFwwWins : CtrId := (0x09, 11)
def cFwwLateDrops : CtrId := (0x09, 12)
def cFwwClaimsExpired : CtrId := (0x09, 13)

def cDoorbells : CtrId := (0x0A, 0)
def cDoorbellIgnored : CtrId := (0x0A, 1)
def cCommandsTaken : CtrId := (0x0A, 2)
def cRepliesWritten : CtrId := (0x0A, 3)
def cInterimSkipped : CtrId := (0x0A, 4)
def cRingStops : CtrId := (0x0A, 5)
def cDmaReadErrors : CtrId := (0x0A, 6)
def cBar2Violations : CtrId := (0x0A, 7)
def cBar2Poisoned : CtrId := (0x0A, 8)
def cSnapshots : CtrId := (0x0A, 9)
def cResetReqIgnored : CtrId := (0x0A, 10)

def cCkptsBegun : CtrId := (0x10, 0)
def cCkptsCompleted : CtrId := (0x10, 1)
def cCkptsAbandoned : CtrId := (0x10, 2)
def cMirrorBytesRx : CtrId := (0x10, 3)
def cCowCopies : CtrId := (0x10, 4)
def cCowWait : CtrId := (0x10, 5)
def cRestores : CtrId := (0x10, 6)
def cTwinCopiesLost : CtrId := (0x10, 7)

def cLoanPresents : CtrId := (0x11, 0)
def cLoanRefusals : CtrId := (0x11, 1)
def cLoanRevocations : CtrId := (0x11, 2)
def cTransfersSuppressed : CtrId := (0x11, 3)
def cBytesSuppressed : CtrId := (0x11, 4)
def cSealedChunkFails : CtrId := (0x11, 5)
def cQuotes : CtrId := (0x11, 6)
def cDebugAccesses : CtrId := (0x11, 7)

def cDrainsForced : CtrId := (0x12, 0)
def cDrainItemsForced : CtrId := (0x12, 1)
def cTxnCommitted : CtrId := (0x12, 2)
def cTxnAborted : CtrId := (0x12, 3)
def cTxnReplays : CtrId := (0x12, 4)

def cSessionsRefused : CtrId := (0x13, 0)

/-- The counters a unit holds for one instance, by index (R344); none for a unit not listed. -/
def unitCounters : Nat → Option Nat
  | 0x01 => some 9 | 0x02 => some 10 | 0x03 => some 4 | 0x04 => some 18 | 0x05 => some 20
  | 0x06 => some 21 | 0x07 => some 3 | 0x08 => some 2 | 0x09 => some 14 | 0x0A => some 11
  | _ => none

/-- The instances of a unit (R344). -/
def State.unitInstances (s : State) : Nat → Nat
  | 0x01 | 0x02 | 0x03 => s.variant.arrays
  | 0x06 | 0x07 => s.variant.ports
  | 0x08 => 16384
  | _ => 1

/-! ### Health events (R395) and fault records (R367, R368) -/

/-- The Lodge notes an event of a health class; it enters the rate at the next update (R395). -/
def State.healthEvent (s : State) (cls : Nat) : State :=
  s.modLodge fun l =>
    { l with events := modAt l.events cls (· + 1), lastEventTime := s.now }

/-- The health class of a fault cause (R395). -/
def healthClassOf : Nat → Option Nat
  | 0x0001 => some 0 | 0x0002 => some 1 | 0x0003 => some 2 | 0x0005 => some 4 | 0x0010 => some 6
  | 0x0011 => some 7 | 0x0030 => some 9 | 0x0031 => some 9 | 0x0041 => some 11 | 0x0050 => some 12
  | 0x0004 => some 14 | _ => none

/-- Writes a fault record with its Catalogue entry, and raises attention class 1 at level 2 (R367,
R368). The last 4,096 records are kept, newest first. -/
def State.fault (s : State) (cause unit index : Nat) (domain : Nat := 0) (ctx : Nat := 0)
    (address : Word := 0) (detail : Nat := 0) : State :=
  let s1 := s.raise 1 2 (unitEntry unit 16 s.lodge.nextFault ctx) detail
  let g := if ctx = 0 then 0 else (Map.getD s.ctxs ctx {}).generation
  let r : FaultRec :=
    { seq := s.lodge.nextFault, unit := unit, domain := domain, index := index, cause := cause,
      ctx := ctx, generation := g, incarnation := s.lodge.incarnation, time := s.now,
      accession := s1.lastAccession, address := address, detail := detail }
  let s2 := s1.modLodge fun l =>
    { l with faults := (r :: l.faults).take 4096, nextFault := l.nextFault + 1 }
  match healthClassOf cause with
  | some c => s2.healthEvent c
  | none => s2

/-- A fault record as bytes (R368). -/
def FaultRec.bytes (r : FaultRec) : Bytes :=
  le 4 r.seq ++ le 1 r.unit ++ le 1 r.domain ++ le 2 r.index ++ le 2 r.cause ++ le 2 r.ctx
    ++ le 2 r.generation ++ le 2 r.incarnation ++ le 8 r.time ++ le 8 r.accession
    ++ le 8 r.address.toNat ++ le 8 r.detail ++ zeros 16

/-- An entry of the Catalogue as bytes (R448). -/
def CatEntry.bytes (e : CatEntry) : Bytes :=
  le 8 e.accession ++ le 8 e.time ++ le 1 e.origin ++ le 1 (b2n e.pinned + 2 * b2n e.digest)
    ++ le 2 e.originIndex ++ le 2 e.objectClass ++ le 2 e.ctx ++ le 8 e.objectIndex
    ++ le 8 e.txn.toNat ++ le 8 e.hostTime.toNat ++ le 2 e.opcode ++ le 2 e.code ++ zeros 4
    ++ le 32 e.old.toNat ++ le 32 e.new.toNat ++ zeros 8

/-! ### Contexts -/

/-- A context ID's record (R347). -/
def State.ctx (s : State) (c : Nat) : Ctx := Map.getD s.ctxs c {}

/-- Changes a context's record. -/
def State.modCtx (s : State) (c : Nat) (f : Ctx → Ctx) : State :=
  { s with ctxs := Map.put s.ctxs c (f (s.ctx c)) }

/-- Whether a context ID exists, that is, is not `UNUSED`. Context 0 is the device. -/
def State.ctxExists (s : State) (c : Nat) : Bool := c == 0 || (s.ctx c).state != .unused

/-- The generation that replies and packets of a context carry; 0 for context 0. -/
def State.gen (s : State) (c : Nat) : Nat := if c = 0 then 0 else (s.ctx c).generation

/-- A context counts as suspended from its entry to `SUSPENDING` until its entry to `ACTIVE`
(R362). -/
def State.suspendedForSem (s : State) (c : Nat) : Bool :=
  (s.ctx c).state == .suspending || (s.ctx c).state == .suspended

/-! ### Threads and arrays -/

/-- The key of a thread. The threads of a suspended context are kept at indices from 64 on, so that their
places are free for others (R357, R360; notes/assumptions/28.md). -/
def threadKey (t : ThreadId) : Nat := t.index * 64 + t.array

/-- The thread at a key. -/
def keyThread (k : Nat) : ThreadId := { array := k % 64, index := k / 64 }

/-- A thread's state (R109). -/
def State.thread (s : State) (t : ThreadId) : Thread := Map.getD s.threads (threadKey t) {}

/-- Writes a thread's state. -/
def State.setThread (s : State) (t : ThreadId) (x : Thread) : State :=
  { s with threads := Map.put s.threads (threadKey t) x }

/-- Changes a thread's state. -/
def State.modThread (s : State) (t : ThreadId) (f : Thread → Thread) : State :=
  s.setThread t (f (s.thread t))

/-- An array's state. -/
def State.array (s : State) (a : Nat) : ArrayState := s.arrays.getD a {}

/-- Changes an array's state. -/
def State.modArray (s : State) (a : Nat) (f : ArrayState → ArrayState) : State :=
  { s with arrays := modAt s.arrays a f }

/-- Arrays in service: an array under reset stays in service (R378). -/
def State.arraysInService (s : State) : List Nat :=
  (List.range s.variant.arrays).filter fun a =>
    (s.array a).service == .serving || (s.array a).service == .resetting

/-- The threads of a launch. -/
def State.launchThreads (s : State) (l : Nat) : List ThreadId :=
  (s.threads.filter fun e => e.2.launch == l && e.2.state != .idle).map fun e => keyThread e.1

/-- The threads of a context that are not `IDLE`. -/
def State.ctxThreads (s : State) (c : Nat) : List ThreadId :=
  (s.threads.filter fun e => e.2.ctx == c && e.2.state != .idle).map fun e => keyThread e.1

/-- A launch's record. -/
def State.launch? (s : State) (l : Nat) : Option Launch := Map.get? s.launches l

/-- Changes a launch's record, where there is one. -/
def State.modLaunch (s : State) (l : Nat) (f : Launch → Launch) : State :=
  { s with launches := Map.modify s.launches l f }

/-- A tile instruction of a thread. -/
def State.op? (s : State) (t : ThreadId) (id : Nat) : Option TileOp :=
  (s.thread t).ops.find? fun o => o.id == id

/-- Changes a tile instruction of a thread. -/
def State.modOp (s : State) (t : ThreadId) (id : Nat) (f : TileOp → TileOp) : State :=
  s.modThread t fun x => { x with ops := x.ops.map fun o => if o.id == id then f o else o }

/-- The completion code's number (R335). -/
def Code.num : Code → Nat
  | .done => 0x0000 | .doneDowngraded => 0x0001 | .doneNonfinite => 0x0002
  | .queued => 0x0010 | .refusedCapacity => 0x0011 | .preempted => 0x0012 | .evicted => 0x0013
  | .ownerSuspended => 0x0020 | .peerTimeout => 0x0021 | .shardVersionMismatch => 0x0022
  | .weightLost => 0x0023 | .twinCopyLost => 0x0024 | .stepNotClean => 0x0025
  | .busyRetry => 0x0030 | .txnReplayed => 0x0031
  | .badPacket => 0x0040 | .notPermitted => 0x0041 | .unsupported => 0x0042
  | .noSuchContext => 0x0043 | .contextReset => 0x0044

/-- The stacks in service. -/
def State.stacksInService (s : State) : Nat := s.memory.stacksServing.length

/-! ### The trace (R465) -/

/-- Whether a record of a source and a unit is asked for: arrays and ports by their masks (R465). -/
def Trace.wants (t : Trace) (source unit : Nat) : Bool :=
  t.running && bitOf t.sources source
    && (if source = 1 || source = 2 then t.arrays.getLsbD unit else source ≠ 3 || bitOf t.ports unit)

/-- Adds a record to the trace buffer; one that finds it full is dropped and counted (R465). -/
def Trace.add (t : Trace) (b : Bytes) : Trace :=
  if t.buffer.length + 32 ≤ t.pages * 2097152 then { t with buffer := t.buffer ++ b, written := t.written + 1 }
  else { t with dropped := t.dropped + 1 }

/-- Writes a trace record of a source where a trace asks for it (R465). `unit` is the array or port, and 0 for other sources; the data's fields stand in the
order R465 names them (notes/assumptions/32.md). -/
def State.trace (s : State) (source unit ctx : Nat) (data : Bytes) : State :=
  if s.lodge.trace.wants source unit then
    s.modLodge fun l =>
      { l with trace := l.trace.add (le 8 s.now ++ le 1 source ++ le 1 unit ++ le 2 ctx ++ le 2 (s.gen ctx)
                 ++ zeros 2 ++ padTo 16 data) }
  else s

end Sys2Proof.Machine
end

