-- ==== Sys2Proof/Machine/Send.lean ====
section
/-! DEFINITION. Sending on the Palex fabric: packet headers (R258), request tags and timers (R259,
R268, R274), and the choice of a flow's port (R275). -/

namespace Sys2Proof.Machine

/-- A port's state record. -/
def State.port (s : State) (p : Nat) : Port := s.fabric.ports.getD p {}

/-- Changes a port. -/
def State.modPort (s : State) (p : Nat) (f : Port → Port) : State :=
  s.modFabric fun x => { x with ports := modAt x.ports p f }

/-- The ports whose state passes a test, in ascending order, among those fitted. -/
def State.portsWhere (s : State) (q : Port → Bool) : List Nat :=
  (List.range s.variant.ports).filter fun p => q (s.port p)

/-- Packet type codes (R260). -/
def tReadReq : Nat := 0x01
def tReadRsp : Nat := 0x02
def tWriteReq : Nat := 0x03
def tWriteAck : Nat := 0x04
def tAtomicReq : Nat := 0x05
def tAtomicRsp : Nat := 0x06
def tSemPost : Nat := 0x07
def tSemAck : Nat := 0x08
def tRepairRead : Nat := 0x09
def tRepairRsp : Nat := 0x0A
def tColl : Nat := 0x10
def tTwin : Nat := 0x18
def tHello : Nat := 0x20
def tHelloRsp : Nat := 0x21
def tGenRetire : Nat := 0x22
def tTimeSync : Nat := 0x23
def tTimeRsp : Nat := 0x24

/-- The virtual channel of a packet type (R260); none for a code that is not listed. -/
def vcOf : Nat → Option Nat
  | 0x01 => some 2 | 0x02 => some 1 | 0x03 => some 3 | 0x04 => some 1 | 0x05 => some 2
  | 0x06 => some 1 | 0x07 => some 2 | 0x08 => some 1 | 0x09 => some 2 | 0x0A => some 1
  | 0x10 => some 4 | 0x18 => some 5
  | 0x20 => some 0 | 0x21 => some 0 | 0x22 => some 0 | 0x23 => some 0 | 0x24 => some 0
  | _ => none

/-- Credits of a virtual channel that a receiver grants (R261). -/
def vcBuffer : Nat → Nat
  | 0 => 256 | 1 => 8192 | 2 => 2048 | 3 => 8192 | 4 => 8192 | 5 => 4096 | _ => 0

/-- Payload bytes that a packet carries (R257). -/
def payloadOf (type : Nat) (k : Packet) : Nat :=
  if type == tReadReq || type == tRepairRead then 0 else k.length

/-- Slots that a packet takes (R257). -/
def slotsOf (type : Nat) (k : Packet) : Nat := ceilDiv (48 + payloadOf type k) 16

/-! ### The header's bytes (R257, R258) -/

/-- `PKT_FLAGS` (R258). -/
def Packet.flags (k : Packet) : Nat :=
  k.vc % 8 + 8 * b2n k.resent + 16 * b2n k.select + 32 * b2n k.byTag + 64 * (k.flags76 % 4)

/-- The 48 bytes of a packet's header (R258). -/
def Packet.header (type : Nat) (k : Packet) : Bytes :=
  le 1 type ++ le 1 (Packet.flags k) ++ le 2 k.length ++ le 2 k.srcDevice ++ le 2 k.dstDevice ++ le 2 k.srcIncarnation
    ++ le 2 k.dstIncarnation ++ le 2 k.ctxId ++ le 2 k.ctxGeneration ++ le 8 k.address.toNat ++ le 8 k.time.toNat
    ++ le 4 k.tag ++ le 1 k.hops ++ le 1 k.operation ++ le 2 k.status ++ le 8 k.operand.toNat

/-- The slots of a packet: its header and its payload, in whole slots (R257). -/
def Packet.slots (type : Nat) (k : Packet) : Bytes :=
  Packet.header type k ++ padTo (16 * ceilDiv (payloadOf type k) 16) k.payload

/-- Reads a packet from the slots that begin with its header: its type, and its fields (R257, R258). -/
def Packet.parse (b : Bytes) : Nat × Packet :=
  let f := field b 1 1
  let type := field b 0 1
  let k : Packet :=
    { vc := f % 8, resent := bitOf f 3, select := bitOf f 4, byTag := bitOf f 5, flags76 := f / 64, length := field b 2 2
      srcDevice := field b 4 2, dstDevice := field b 6 2, srcIncarnation := field b 8 2, dstIncarnation := field b 0x0A 2
      ctxId := field b 0x0C 2, ctxGeneration := field b 0x0E 2, address := BitVec.ofNat 64 (field b 0x10 8)
      time := BitVec.ofNat 64 (field b 0x18 8), tag := field b 0x20 4, hops := field b 0x24 1, operation := field b 0x25 1
      status := field b 0x26 2, operand := BitVec.ofNat 64 (field b 0x28 8) }
  (type, { k with payload := (b.drop 48).take (payloadOf type k) })

/-- The oldest packet that the verified frames of a port have brought, once all of its slots are there (R257, R264). -/
def Port.front (x : Port) : Option (Nat × Packet) :=
  let r := Packet.parse x.rxStream
  if x.rxStream.length < 48 || x.rxStream.length < 16 * slotsOf r.1 r.2 then none else some r

/-- Takes the oldest packet out of a port's receive buffer: its slots become credits that are due (R261). -/
def Port.take (x : Port) : Port :=
  match x.front with
  | none => x
  | some r =>
    let n := slotsOf r.1 r.2
    { x with rxStream := x.rxStream.drop (16 * n), creditsDue := modAt x.creditsDue r.2.vc (· + n) }

/-- A packet of this module with its header (R258). -/
def State.packet (s : State) (type dst ctx : Nat) (addr : Word) (len tag : Nat)
    (operand : Word := 0) (payload : Bytes := []) (operation : Nat := 0) (status : Nat := 0) :
    Packet :=
  { vc := (vcOf type).getD 0, length := len, srcDevice := s.lodge.deviceId, dstDevice := dst,
    srcIncarnation := s.lodge.incarnation, dstIncarnation := Map.getD s.fabric.incarnations dst 0,
    ctxId := ctx, ctxGeneration := s.gen ctx, address := addr, time := BitVec.ofNat 64 s.now,
    tag := tag, operation := operation, status := status, operand := operand, payload := payload }

/-- A global address (R118). -/
def globalAddr (dev loc : Nat) : Word := BitVec.ofNat 64 (dev * 2 ^ 48 + loc % 2 ^ 48)

/-- The device part of a global address. -/
def devOf (a : Word) : Nat := a.toNat / 2 ^ 48
/-- The local part of a global address. -/
def locOf (a : Word) : Nat := a.toNat % 2 ^ 48

/-- Whether the module has a route to a device (R275, R284). -/
def State.hasRoute (s : State) (dst : Nat) : Bool := Map.getD s.fabric.routes dst 0 != 0

/-- A request to a device with no route ends at once with `PEER_TIMEOUT`, and is counted (R275, R286): it has no port,
and counts under port 0 (DESIGN CHOICE, notes/assumptions/50.md). -/
def State.noRoute (s : State) : State := s.count cRemoteTimeouts 0

/-- The key of a flow (R275). -/
def flowKey (dst vc : Nat) : Nat := dst * 8 + vc

/-- The port that R275 gives a flow: among the `ACTIVE` ports of the destination's mask, the one at
index (destination + VC) mod their number. -/
def State.choosePort (s : State) (dst vc : Nat) : Option Nat :=
  let m := Map.getD s.fabric.routes dst 0
  let ps := s.portsWhere (fun p => p.state == .active) |>.filter fun p => bitOf m p
  if ps.isEmpty then none else ps[(dst + vc) % ps.length]?

/-- Whether a port carries traffic now or after its retraining (R275). -/
def State.portUp (s : State) (p : Nat) : Bool := (s.port p).state == .active || (s.port p).state == .retraining

/-- Whether a device has no port that is `ACTIVE` or `RETRAINING` (R274). -/
def State.cutOff (s : State) (type dst : Nat) : Bool :=
  if type == tTwin then !s.portUp 0
  else !(List.range s.variant.ports).any fun p => s.portUp p && bitOf (Map.getD s.fabric.routes dst 0) p

/-- Whether a flow has an outstanding request (R275). -/
def State.flowBusy (s : State) (dst vc : Nat) : Bool :=
  s.fabric.requests.any fun r => r.2.port.isSome && r.2.out.packet.dstDevice = dst && r.2.out.packet.vc = vc

/-- Puts a flow on a port. -/
def State.setFlow (s : State) (dst vc p : Nat) : State :=
  s.modFabric fun f => { f with flows := Map.put f.flows (flowKey dst vc) p }

/-- Credits of a virtual channel that a port is short of. -/
def Port.shortOf (x : Port) (vc : Nat) : Bool :=
  (x.queue.find? fun o => o.packet.vc = vc).any fun o => x.credits.getD vc 0 < slotsOf o.type o.packet

/-- The wait of a channel's packet for credits ends: its cycles are counted (R261). -/
def State.endStall (s : State) (p vc : Nat) : State :=
  if (s.port p).state == .active && (s.port p).shortOf vc then s.countFree (cCreditStall vc) p else s

/-- A flow whose route has changed moves once it has no outstanding request, with what waits at its old port (R275); the
waits for credits that end there are counted (R261). -/
def State.settleFlow (s : State) (dst vc : Nat) : State :=
  match Map.get? s.fabric.flows (flowKey dst vc) with
  | none => s
  | some q =>
    if q < 8 || s.flowBusy dst vc then s
    else match s.choosePort dst vc with
      | none => s
      | some n =>
        let p := q % 8
        let mine := fun (o : OutPacket) => o.packet.dstDevice = dst && o.packet.vc = vc && o.type != tTwin
        let moved := if n = p then [] else (s.port p).queue.filter mine
        let s0 := if moved.isEmpty then s else s.endStall p vc
        let s1 := ((s0.setFlow dst vc n).count cFlowMoves p (b2n (n ≠ p))).modPort p fun x =>
          { x with queue := if n = p then x.queue else x.queue.filter fun o => !mine o }
        moved.foldl (fun (s : State) o => s.modPort n fun x => { x with queue := x.queue ++ [o] }) s1

/-- The port of a flow, assigned at its first packet; none while the flow's port is neither `ACTIVE` nor
`RETRAINING` (R275). A flow whose route changed is kept as its port + 8, and moves once it has no outstanding
request. -/
def State.flowPort (s0 : State) (dst vc : Nat) : Option (Nat × State) :=
  let s := s0.settleFlow dst vc
  match Map.get? s.fabric.flows (flowKey dst vc) with
  | some q => if s.portUp (q % 8) then some (q % 8, s) else none
  | none => (s.choosePort dst vc).map fun p => (p, s.setFlow dst vc p)

/-- Puts a packet in a port's queue. -/
def State.enqueue (s : State) (p : Nat) (o : OutPacket) : State :=
  s.modPort p fun x => { x with queue := x.queue ++ [{ o with since := s.now }] }

/-- Sends `HELLO` to a device where a flow to it has a port (R268). -/
def State.hello (s : State) (dst : Nat) : State :=
  match s.flowPort dst 0 with
  | none => s
  | some (p, s1) =>
    (s1.enqueue p { type := tHello, packet := s.packet tHello dst 0 (globalAddr dst 0) 0 0 }).modFabric fun f =>
      { f with helloed := if f.helloed.contains dst then f.helloed else f.helloed ++ [dst] }

/-- `HELLO` before the first packet to a device, unless its answer is already awaited (R268). -/
def State.helloFirst (s : State) (dst : Nat) : State := if s.fabric.helloed.contains dst then s else s.hello dst

/-- The time of a packet, and the incarnation held for its receiver where the packet names none, as
they are when it is sent (R258, R268). A response names its requester's incarnation (R269). -/
def State.stamp (s : State) (k : Packet) : Packet :=
  { k with time := BitVec.ofNat 64 s.now,
           dstIncarnation := if k.dstIncarnation = 0 then Map.getD s.fabric.incarnations k.dstDevice 0
             else k.dstIncarnation }

/-- Every flow whose route has changed moves where it may (R275). -/
def State.settleFlows (s : State) : State :=
  (s.fabric.flows.filter fun e => 8 ≤ e.2).foldl (fun (s : State) e => s.settleFlow (e.1 / 8) (e.1 % 8)) s

/-- The port of a packet: P0 for twin traffic (R403), otherwise its flow's port (R275). -/
def State.portFor (s : State) (type dst vc : Nat) : Option (Nat × State) :=
  if type == tTwin then (if s.portUp 0 then some (0, s) else none) else s.flowPort dst vc

/-- Requests that hold a place among the 65,536 outstanding (R259). -/
def State.inFlight (s : State) : Nat := (s.fabric.requests.filter fun r => r.2.port.isSome).length

/-- Changes an outstanding request. -/
def State.modRequest (s : State) (tag : Nat) (f : Request → Request) : State :=
  s.modFabric fun x => { x with requests := Map.modify x.requests tag f }

/-- Starts a request's timer where it has not started (R274). -/
def State.startTimer (s : State) (tag : Nat) : State :=
  s.modRequest tag fun r => { r with timer := some (r.timer.getD s.now) }

/-- Whether a request belongs to a checkpoint's transfer, which goes on while its context is suspended
(R404). -/
def ReqUnit.streams : ReqUnit → Bool
  | .drainWrite _ => true
  | _ => false

/-- Slots that the response to a request takes in the requester's receive path; none for a request that reserves none
(R262). -/
def responseSlots (type : Nat) (k : Packet) : Nat :=
  if type == tReadReq || type == tRepairRead then ceilDiv (48 + k.length) 16
  else if type == tAtomicReq || type == tSemPost then 3 else 0

/-- Slots of a port's response buffer that its outstanding requests have reserved (R262; per port: notes/assumptions/58.md). -/
def State.heldSlots (s : State) (p : Nat) : Nat :=
  ((s.fabric.requests.filter fun r => r.2.port == some p).map fun r => responseSlots r.2.out.type r.2.out.packet).sum

/-- Whether a port's receive path has room for the response to a request (R262). -/
def State.responseRoom (s : State) (p type : Nat) (k : Packet) : Bool :=
  responseSlots type k = 0 || s.heldSlots p + responseSlots type k ≤ vcBuffer 1

/-- Sends a request that waits, as far as R259, R262, R268, R275 and R361 allow: it waits for a place, for room for its
response, for the receiver's incarnation, for a port, or for its suspended context. -/
def State.sendRequest (s : State) (tag : Nat) : State :=
  match Map.get? s.fabric.requests tag with
  | none => s
  | some r =>
    let d := r.out.packet.dstDevice
    if r.port.isSome || 65536 ≤ s.inFlight || ((s.ctx r.out.packet.ctxId).state == .suspended && !r.unit.streams) then s
    else if !Map.has s.fabric.incarnations d then
      (s.helloFirst d).startTimer tag
    else match s.portFor r.out.type d r.out.packet.vc with
      | none => if s.cutOff r.out.type d then s.startTimer tag else s
      | some (p, s1) =>
        if !s1.responseRoom p r.out.type r.out.packet then s1
        else (s1.enqueue p { r.out with packet := s1.stamp { r.out.packet with dstIncarnation := 0 } }).modRequest tag fun x =>
          { x with port := some p }

/-- Sends a packet other than a request, which waits where no port or no incarnation is known. -/
def State.emit (s : State) (o : OutPacket) : State :=
  let d := o.packet.dstDevice
  if !Map.has s.fabric.incarnations d then
    (s.helloFirst d).modFabric fun f => { f with unsent := f.unsent ++ [o] }
  else match s.portFor o.type d o.packet.vc with
    | none => s.modFabric fun f => { f with unsent := f.unsent ++ [o] }
    | some (p, s1) => s1.enqueue p { o with packet := s1.stamp o.packet }

/-- Sends what can be sent of the requests and packets that wait. -/
def State.pump (s : State) : State :=
  let u := s.fabric.unsent
  let s1 := u.foldl State.emit (s.modFabric fun f => { f with unsent := [] })
  (Map.keys s1.fabric.requests).foldl State.sendRequest s1

/-- The first tag from a start that no outstanding request holds (R258). -/
def freshTag (m : Map Request) : Nat → Nat → Nat
  | 0, t => t
  | n + 1, t => if Map.has m t then freshTag m n ((t + 1) % 2 ^ 32) else t

/-- The fabric timeout of a context, in µs (R274, R285). -/
def State.timeoutOf (s : State) (ctx : Nat) : Nat :=
  ((s.ctx ctx).fabricTimeout).getD s.fabric.timeoutUs

/-- Issues a request of a unit (R259, R274) and gives its tag. `owner` is the context whose fabric
timeout counts, where it is not the packet's own (a repair read carries context 0: R241, R272). -/
def State.request (s : State) (type dst ctx : Nat) (addr : Word) (len : Nat) (unit : ReqUnit)
    (operand : Word := 0) (payload : Bytes := []) (operation : Nat := 0) (select byTag : Bool := false)
    (thread : Option ThreadId := none) (owner : Option Nat := none) (span : Option (Nat × Nat) := none) : Nat × State :=
  let tag := freshTag s.fabric.requests (s.fabric.requests.length + 1) s.fabric.nextTag
  let k := { s.packet type dst ctx addr len tag operand payload operation with
             select := select, byTag := byTag, span := span }
  let r : Request := { out := { type := type, packet := k, thread := thread, since := s.now },
                       unit := unit, timeoutUs := s.timeoutOf (owner.getD ctx), owner := owner.getD ctx }
  let s1 := s.modFabric fun f =>
    { f with requests := Map.put f.requests tag r, nextTag := (tag + 1) % 2 ^ 32 }
  (tag, s1.sendRequest tag)

/-- A packet that writes bytes at a local address, as whole 16-byte units: its address, its payload, and the part of it
that is written where that is not all (R259, notes/assumptions/22.md). -/
def wholeUnits (a : Nat) (bs : Bytes) : Nat × Bytes × Option (Nat × Nat) :=
  let lo := a % 16
  let n := 16 * ceilDiv (lo + bs.length) 16
  (a - lo, zeros lo ++ bs ++ zeros (n - lo - bs.length),
    if lo = 0 && n = bs.length then none else some (lo, lo + bs.length))

/-- Issues a `WRITE_REQ` of bytes that do not cross a 4 KiB boundary (R259) and gives its tag. -/
def State.writeRequest (s : State) (dst ctx a : Nat) (bs : Bytes) (unit : ReqUnit) (thread : Option ThreadId := none)
    : Nat × State :=
  let u := wholeUnits a bs
  s.request tWriteReq dst ctx (globalAddr dst u.1) u.2.1.length unit 0 u.2.1 (thread := thread) (span := u.2.2)

/-- Retires a request's tag (R274). -/
def State.retire (s : State) (tag : Nat) : State :=
  s.modFabric fun f => { f with requests := Map.erase f.requests tag }

/-- Answers a request: the response carries the requester's context, generation and tag, and the
requester's incarnation (R258, R269). -/
def State.respond (s : State) (type : Nat) (k : Packet) (len : Nat) (operand : Word := 0)
    (payload : Bytes := []) (status : Nat := 0) : State :=
  let r := { s.packet type k.srcDevice k.ctxId (globalAddr k.srcDevice 0) len k.tag operand payload 0
               status with
             ctxGeneration := k.ctxGeneration, dstIncarnation := k.srcIncarnation }
  s.emit { type := type, packet := r }

/-- Cuts a range into pieces that do not cross a 4 KiB boundary (R259): address and length of each. -/
def pieces : Nat → Nat → Nat → List (Nat × Nat)
  | 0, _, _ => []
  | fuel + 1, a, n =>
    if n = 0 then []
    else
      let m := min n (4096 - a % 4096)
      (a, m) :: pieces fuel (a + m) (n - m)

end Sys2Proof.Machine
end

