-- ==== Sys2Proof/Machine/Curator.lean ====
section
/-! DEFINITION. The Curator: pages and mappings (R214 to R221), reads and writes of the device range
with their effects on placement, provenance, loss and checkpoints (R222, R240, R244, R403), frames,
quotas and eviction (R216, R229, R231), errors and repair (R228, R232 to R243). -/

namespace Sys2Proof.Machine

/-- A page (R214). -/
def pageBytes : Nat := 2097152
/-- A granule (R215). -/
def granuleBytes : Nat := 65536
/-- A line (R234). -/
def lineBytes : Nat := 256
/-- The end of the device range (R214). -/
def deviceEnd : Nat := 0x400000000000

/-- The units of a size that a range touches. -/
def unitsOf (size a n : Nat) : List Nat :=
  if n = 0 then [] else countUp (a / size) 1 ((a + n - 1) / size + 1 - a / size)

/-- The page that holds a local address, where one is mapped, dropped or loading. -/
def State.page? (s : State) (a : Nat) : Option Page := Map.get? s.memory.pages (a / pageBytes)

/-- Changes a page. -/
def State.modPage (s : State) (i : Nat) (f : Page → Page) : State :=
  s.modMem fun m => { m with pages := Map.modify m.pages i f }

/-- Whether a page is mapped: a `DROPPED` page is not (R220), and a page being loaded is not
readable before its load completes (R354). -/
def Page.isMapped (p : Page) : Bool := p.state != .dropped && p.state != .loading

/-- Whether a page's bytes are away in the spill buffer or on their way (R220, R230). -/
def Page.isAway (p : Page) : Bool :=
  p.state == .spilled || p.state == .spilling || p.state == .returning

/-- Whether a context may read an address (R217, R219, R120). -/
def State.mayRead (s : State) (c a : Nat) : Bool :=
  a < deviceEnd && match s.page? a with
    | none => false
    | some p => p.isMapped && (p.owner == .ctx c || p.owner == .pool)

/-- Whether a context may write an address (R217, R219). -/
def State.mayWrite (s : State) (c a : Nat) : Bool :=
  a < deviceEnd && match s.page? a with
    | none => false
    | some p => p.isMapped && p.owner == .ctx c && p.rw

/-- Whether a context may read every byte of a range. -/
def State.canRead (s : State) (c a n : Nat) : Bool :=
  (unitsOf pageBytes a n).all fun i => s.mayRead c (i * pageBytes)

/-- Whether a context may write every byte of a range. -/
def State.canWrite (s : State) (c a n : Nat) : Bool :=
  (unitsOf pageBytes a n).all fun i => s.mayWrite c (i * pageBytes)

/-- Whether the context's own pages hold a range, pool pages left out. -/
def State.ownsRange (s : State) (c a n : Nat) : Bool :=
  a + n ≤ deviceEnd && (unitsOf pageBytes a n).all fun i =>
    match Map.get? s.memory.pages i with
    | none => false
    | some p => p.isMapped && p.owner == .ctx c

/-- The pages of a range that must be returned before an access (R230). -/
def State.awayPages (s : State) (a n : Nat) : List Nat :=
  (unitsOf pageBytes a n).filter fun i => (Map.get? s.memory.pages i).any Page.isAway

/-- The published hash: channel and offset in it, of an attic address with n channels in service (R228). -/
def atticChannel (a n : Nat) : Nat × Nat :=
  let line := a / 256
  let row := line / n
  let h := ((row % 256) ^^^ (row / 256 % 256)) ^^^ (row / 65536 % 128)
  (((line % n) + h) % n, row * 256 + a % 256)

/-- The DRAM row of an attic address: four lines of one channel (R236). -/
def State.rowOf (s : State) (attic : Nat) : Nat :=
  let c := atticChannel attic (32 * s.stacksInService)
  c.1 * 2 ^ 32 + c.2 / 1024

/-- The attic address of a local address in a mapped page (R228). -/
def State.atticAddr (s : State) (a : Nat) : Nat :=
  ((s.page? a).map fun p => p.frame).getD 0 * pageBytes + a % pageBytes

/-- Whether a line is served from the cellar (R215). -/
def State.inCellar (s : State) (l : Nat) : Bool :=
  (Map.getD s.memory.granules (l * lineBytes / granuleBytes) {}).slice.isSome

/-- The lines of a range whose row is being copied to the relocation area: accesses wait for it (R236). -/
def State.relocatingIn (s : State) (a n : Nat) : List Nat :=
  if s.memory.retiringRows.isEmpty then []
  else (unitsOf lineBytes a n).filter fun l =>
    !s.inCellar l && s.memory.retiringRows.contains (s.rowOf (s.atticAddr (l * lineBytes)))

/-- The lines of a range under repair (R241), or whose row is being copied (R236): accesses wait for them (R243). -/
def State.repairingIn (s : State) (a n : Nat) : List Nat :=
  ((Map.keys s.memory.repairing).filter fun l => a < (l + 1) * lineBytes && l * lineBytes < a + n) ++ s.relocatingIn a n

/-- Whether a line is `LOST`, by itself or with its page (R244). -/
def State.lineLost (s : State) (l : Nat) : Bool :=
  s.memory.lost.contains l ||
    match Map.get? s.memory.lostPages (l * lineBytes / pageBytes) with
    | none => false
    | some cleared => !cleared.contains l

/-- The `LOST` lines of a range (R244). -/
def State.lostIn (s : State) (a n : Nat) : List Nat :=
  if s.memory.lost.isEmpty && s.memory.lostPages.isEmpty then []
  else (unitsOf lineBytes a n).filter s.lineLost

/-! ### Reading and writing -/

/-- The bytes of a range of the device range. -/
def State.bytesAt (s : State) (a n : Nat) : Bytes := cellsRead s.memory.bytes a n

/-- Changes a granule's placement record. -/
def State.modGranule (s : State) (g : Nat) (f : Granule → Granule) : State :=
  s.modMem fun m => { m with granules := Map.put m.granules g (f (Map.getD m.granules g {})) }

/-- Stamps the last touch of a range's granules, at 1 µs resolution (R222). -/
def State.touch (s : State) (a n : Nat) : State :=
  (unitsOf granuleBytes a n).foldl
    (fun s g => s.modGranule g fun x => { x with lastTouch := s.now / 1000 }) s

/-- The last touch of a page: the latest of its granules (R222). -/
def State.pageTouch (s : State) (i : Nat) : Nat :=
  (countUp (i * 32) 1 32).foldl (fun t g => max t (Map.getD s.memory.granules g {}).lastTouch) 0

/-- Whether a stream still needs a page as it stands (R403). -/
def Stream.needs (t : Stream) (i : Nat) : Bool := t.left.contains i && !Map.has t.staged i

/-- The cells of one page. -/
def State.pageCells (s : State) (i : Nat) : List Host.Cell :=
  s.memory.bytes.filter fun c => c.1 / pageBytes == i

/-- The attic frames of the stacks in service (R1, R216). -/
def State.stackFrames (s : State) : Nat := s.stacksInService * 32768

/-- The charge of a Pantry entry in the attic, or on its way there (R180, R181). -/
def Stash.atticCharge (e : Stash) : Nat :=
  if e.state == .downgraded || (e.inCellar && e.state != .spilling) then 0 else e.charge

/-- The frames that a context's Pantry entries take in the attic: the entries lie side by side (R181, R229,
notes/assumptions/24.md). -/
def State.pantryFrames (s : State) (c : Nat) : Nat :=
  ceilDiv ((s.stashes.filter fun e => e.ctx == c).map Stash.atticCharge).sum pageBytes

/-- Frames that a context holds, Pantry included (R229, R352). -/
def State.framesHeld (s : State) (c : Nat) : Nat :=
  (s.memory.pages.filter fun e => e.2.owner == .ctx c && e.2.state != .dropped
      && e.2.state != .spilled && e.2.state != .spilling).length
    + s.pantryFrames c

/-- The mirror reservation in frames (R216): taken at the change to full service after a cold start. -/
def State.mirrorFrames (s : State) : Nat := if s.memory.mirrorTaken then s.twin.mirrorGib * 512 else 0

/-- The pool capacity in frames (R216). A retired channel may make it negative (R237). -/
def State.poolCapacity (s : State) : Int :=
  (s.stackFrames : Int) - s.stacksInService * 128 - s.mirrorFrames - s.stacksInService * 4
    - s.memory.channelFrames

/-- Save areas of all contexts (R350). -/
def State.savePages (s : State) : Nat :=
  (s.ctxs.map fun e => if e.2.state == .unused then 0 else e.2.savePages).sum

/-- The model charge: frames of pool pages (R219). -/
def State.modelCharge (s : State) : Nat :=
  (s.memory.pages.filter fun e => e.2.owner == .pool).length

/-- Frames in use: mapped pages, Pantry entries in the attic, save areas, the trace buffer and
checkpoint staging (R229, R350, R403, R465). -/
def State.framesUsed (s : State) : Nat :=
  (s.memory.pages.filter fun e => e.2.state != .dropped && e.2.state != .spilled
      && e.2.state != .spilling).length
    + (s.ctxs.map fun e => s.pantryFrames e.1).sum + s.savePages + s.lodge.trace.pages
    + s.memory.staging.length

/-- Frames that an allocation may take at once: free ones, and ones that still wait for zeroing
(R355). -/
def State.availableFrames (s : State) : Int := s.poolCapacity - s.framesUsed

/-- Free frames of the pool, as `CTX_QUERY` reports them: a released frame is free once it is zeroed
(R355, R384). -/
def State.freeFrames (s : State) : Nat := (s.availableFrames - s.memory.zeroing).toNat

/-- Before a write reaches a page that a checkpoint stream still needs, the page is copied aside
(R403). Where no frame is free the page streams before the write, so nothing is counted. -/
def State.copyOnWrite (s : State) (a n : Nat) : State :=
  match s.twin.stream with
  | none => s
  | some t =>
    ((unitsOf pageBytes a n).filter t.needs).foldl (fun s i =>
      let room := 0 < s.freeFrames
      let s1 := s.modTwin fun w =>
        { w with stream := w.stream.map fun t =>
            { t with staged := Map.put t.staged i (s.pageCells i)
                     copying := if room then i :: t.copying else t.copying } }
      if room then
        (s1.modMem fun m => { m with staging := i :: m.staging }).count cCowCopies 0
      else s1) s

/-- A write stales the provenance of the granules it touches, under `CLEAR_ON_WRITE` (R240). -/
def State.staleProvenance (s : State) (a n : Nat) : State :=
  let hit := fun (p : Provenance) => (unitsOf granuleBytes a n).filter fun g =>
    !p.slotMatch && p.base ≤ g * granuleBytes && g * granuleBytes < p.base + p.length
      && !p.stale.contains g
  let k := (s.memory.provenance.map fun p => (hit p).length).sum
  (s.modMem fun m => { m with provenance := m.provenance.map fun p =>
    { p with stale := p.stale ++ hit p } }).count cProvenanceStaled 0 k

/-- A write that covers all 256 bytes of a `LOST` line makes it ordinary (R244). -/
def State.clearLost (s : State) (a n : Nat) : State :=
  let full := (s.lostIn a n).filter fun l => a ≤ l * lineBytes && (l + 1) * lineBytes ≤ a + n
  if full.isEmpty then s
  else s.modMem fun m =>
    { m with lost := m.lost.filter fun l => !full.contains l
             lostPages := m.lostPages.map fun e =>
               (e.1, e.2 ++ full.filter fun l => l * lineBytes / pageBytes == e.1) }

/-- The blocks of 64 bytes of an attic line, by attic address ÷ 64, and the words of 64 bits of a line, by address ÷ 8. -/
def blocksOf (line : Nat) : List Nat := countUp (4 * line) 1 4
def wordsOf (line : Nat) : List Nat := countUp (32 * line) 1 32

/-- What the ECC makes of the errors in several of its units: one damaged symbol, or bit, of each is corrected, and two are
detected (R232). -/
def eccOf (errors : List (List Nat)) : Option EccError :=
  if errors.any fun e => 2 ≤ e.length then some .uncorrectable
  else if errors.any fun e => e.length = 1 then some .correctable else none

/-- The errors of an attic line and of a line in the cellar, as its ECC finds them (R232). -/
def State.atticError (s : State) (line : Nat) : Option EccError := eccOf ((blocksOf line).filterMap (Map.get? s.memory.eccErrors))
def State.cellarError (s : State) (l : Nat) : Option EccError := eccOf ((wordsOf l).filterMap (Map.get? s.memory.cellarErrors))

/-- The errors of an attic line, and of a line in the cellar, are gone. -/
def State.cleanAttic (s : State) (line : Nat) : State :=
  s.modMem fun m => { m with eccErrors := Map.keep (fun b _ => !(blocksOf line).contains b) m.eccErrors }
def State.cleanCellar (s : State) (l : Nat) : State :=
  s.modMem fun m => { m with cellarErrors := Map.keep (fun w _ => !(wordsOf l).contains w) m.cellarErrors }

/-- The lines of a range that hold errors no read has met. -/
def State.suspectLines (s : State) (a n : Nat) : List Nat :=
  if s.memory.eccErrors.isEmpty && s.memory.cellarErrors.isEmpty then []
  else (unitsOf lineBytes a n).filter fun l =>
    (s.cellarError l).isSome || (s.atticError (s.atticAddr (l * lineBytes) / lineBytes)).isSome

/-- A write of all 256 bytes of a line stores it afresh, so an error that its bytes held where it is stored now is
gone (R232). -/
def State.clearErrors (s : State) (a n : Nat) : State :=
  ((s.suspectLines a n).filter fun l => a ≤ l * lineBytes && (l + 1) * lineBytes ≤ a + n).foldl (fun s l =>
    if s.inCellar l then s.cleanCellar l else s.cleanAttic (s.atticAddr (l * lineBytes) / lineBytes)) s

/-- The bytes of the local memory are in their canonical form: addresses strictly rise and no zero byte is listed, so equal
memories are equal lists (notes/assumptions/9.md). -/
def Memory.wf (m : Memory) : Bool := cellsWf m.bytes

/-- The bytes of a range replaced, and nothing else. -/
def State.setBytes (s : State) (a : Nat) (bs : Bytes) : State :=
  s.modMem fun m => { m with bytes := cellsWrite m.bytes a bs }

/-- A write of bytes that meets no line under repair, with all that goes with it: checkpoint copies (R403), provenance
(R240), lost lines (R244), placement (R222) and, for a granule in the cellar, its dirty mark (R215). -/
def State.storeNow (s : State) (a : Nat) (bs : Bytes) : State :=
  let n := bs.length
  let s1 := ((((s.copyOnWrite a n).staleProvenance a n).clearLost a n).clearErrors a n).touch a n
  let s2 := (unitsOf granuleBytes a n).foldl
    (fun s g => s.modGranule g fun x => { x with dirty := x.dirty || x.slice.isSome }) s1
  s2.setBytes a bs

/-- A write of bytes to the device range by any unit other than a repair. The part of it that meets a line under repair is
applied after the repair ends (R243). -/
def State.store (s : State) (a : Nat) (bs : Bytes) : State :=
  if s.memory.repairing.isEmpty || (s.repairingIn a bs.length).isEmpty then s.storeNow a bs
  else (unitsOf lineBytes a bs.length).foldl (fun (s : State) l =>
    let b := max a (l * lineBytes)
    let part := (bs.drop (b - a)).take ((l + 1) * lineBytes - b)
    if Map.has s.memory.repairing l then s.modMem fun m => { m with deferred := m.deferred ++ [.write b part] }
    else s.storeNow b part) s

/-- A semaphore's fields (R141). -/
structure Sem where
  count : Nat
  owner : Nat
  gen : Nat
  deriving DecidableEq, Repr

/-- Reads a semaphore. -/
def State.sem (s : State) (a : Nat) : Sem :=
  let b := s.bytesAt a 8
  { count := field b 0 4, owner := field b 4 2, gen := field b 6 2 }

/-- Whether a semaphore's owner still stands: the context exists under the generation recorded. -/
def State.ownerStands (s : State) (m : Sem) : Bool :=
  (s.ctx m.owner).state != .unused && s.gen m.owner == m.gen

/-- Adds n to a semaphore whose line is not under repair (R144). `array` is the sequencer whose counters count it. -/
def State.semAddNow (s : State) (array a n : Nat) : State :=
  let m := s.sem a
  if m.owner = 0 || !s.ownerStands m then s.count cSemPostDiscarded array
  else if m.count + n ≤ 0xFFFFFFFF then s.storeNow a (le 4 (m.count + n))
  else (s.storeNow a (le 4 0xFFFFFFFF)).count cSemCountSaturated array

/-- Adds n to a semaphore (R144), after the repair of its line where one runs (R243). -/
def State.semAdd (s : State) (array a n : Nat) : State :=
  if Map.has s.memory.repairing (a / lineBytes) then s.modMem fun m => { m with deferred := m.deferred ++ [.post a array n] }
  else s.semAddNow array a n

/-- The address that a waiting write names. -/
def LateWrite.addr : LateWrite → Nat
  | .write a _ | .post a _ _ => a

/-- The writes of a line that waited for its repair are applied, in their order (R243). -/
def State.applyDeferred (s : State) (l : Nat) : State :=
  (s.memory.deferred.filter fun w => w.addr / lineBytes = l).foldl (fun (s : State) w => match w with
    | .write a bs => s.storeNow a bs
    | .post a array n => s.semAddNow array a n)
    (s.modMem fun m => { m with deferred := m.deferred.filter fun w => w.addr / lineBytes ≠ l })

/-- A line becomes `LOST`. A loss beyond 65,536 marks the line's page (R244). -/
def State.addLost (s : State) (l : Nat) : State :=
  let i := l * lineBytes / pageBytes
  s.modMem fun m =>
    if Map.has m.lostPages i then { m with lostPages := Map.modify m.lostPages i fun c => c.filter (· ≠ l) }
    else if m.lost.length < 65536 then { m with lost := m.lost ++ [l] }
    else { m with lostPages := Map.put m.lostPages i [] }

/-- Marks lines `LOST` as destination lines of a copy (R244, R245). -/
def State.markLost (s : State) (ls : List Nat) : State :=
  ls.foldl (fun (s : State) l => if s.lineLost l then s else (s.addLost l).count cLinesLost 0) s

/-! ### Cellar placement (R222 to R225) -/

/-- Whether a granule is in a slice, or on its way there. -/
def Granule.within (g : Granule) (a : Nat) : Bool := g.slice == some a || g.switchTo == some (some a)

/-- Granules in a slice, pinned ones included. -/
def State.sliceUse (s : State) (a : Nat) : Nat := (s.memory.granules.filter fun e => e.2.within a).length

/-- Granules in the cellar, or on their way there. -/
def State.cellarUse (s : State) : Nat :=
  (s.memory.granules.filter fun e => e.2.slice.isSome || e.2.switchTo.any (·.isSome)).length

/-- Cellar granules that Pantry entries take. -/
def State.pantryGranules (s : State) : Nat :=
  ceilDiv ((s.stashes.filter (·.inCellar)).map (·.charge)).sum granuleBytes

/-- The cache granule with the oldest last touch that a test admits; those hinted `COLD` come first
(R223, R226). A granule with a line under repair is left alone (R243). -/
def State.oldestCache (s : State) (ok : Nat → Bool) : Option Nat :=
  let cs := s.memory.granules.filter fun e =>
    e.2.slice.any ok && e.2.pins.isEmpty && e.2.switchTo.isNone && (s.repairingIn (e.1 * granuleBytes) granuleBytes).isEmpty
  let key := fun (g : Granule) => if g.cold then 0 else g.lastTouch + 1
  (cs.foldl (fun best e => match best with
    | none => some e
    | some b => if key e.2 < key b.2 then some e else some b) none).map (·.1)

/-- A granule leaves the cellar: its place there holds no error of it any more, nor does its frame hold an older one where
the granule was written back. -/
def State.forgetErrors (s : State) (g : Nat) (dirty : Bool) : State :=
  if s.memory.eccErrors.isEmpty && s.memory.cellarErrors.isEmpty then s
  else (unitsOf lineBytes (g * granuleBytes) granuleBytes).foldl (fun (s : State) l =>
    if dirty then (s.cleanCellar l).cleanAttic (s.atticAddr (l * lineBytes) / lineBytes) else s.cleanCellar l) s

/-- Takes a granule out of the cellar: a dirty one is written back to its frame (R223), which then holds no older error. -/
def State.evictGranule (s : State) (g : Nat) : State :=
  let x := Map.getD s.memory.granules g {}
  (((s.forgetErrors g x.dirty).modGranule g fun x => { x with slice := none, dirty := false, switchTo := none }).count
    cWritebacks 0 (b2n x.dirty)).trace 4 0 0 (le 8 (g * granuleBytes))

/-! ### Frames and eviction (R229 to R231) -/

/-- Whether a context runs: it has a `LAUNCH` or `BATCH_SUBMIT` admitted and unfinished, and is not
suspended (R229). -/
def State.ctxRunning (s : State) (c : Nat) : Bool :=
  (Map.vals s.launches).any (fun l => l.ctx == c && l.admitted) && (s.ctx c).state != .suspended

/-- The loans present whose weights a page may be bound to (R426). -/
def State.loanOf (s : State) (a : Nat) : Option Word := (s.page? a).bind (·.loan)

/-- The first slot of a context's spill buffer that no page uses, where one has room (R229). -/
def State.spillRoom (s : State) (c : Nat) : Option Nat :=
  let used := (s.memory.pages.filter fun e => e.2.owner == .ctx c && e.2.isAway).map (·.2.spillSlot)
  let n := (s.ctx c).quota.spillLength / pageBytes
  (List.range (min n (used.length + 1))).find? fun i => !used.contains i

/-- Whether a page may be evicted for a requester of a class (R229, R243, R427). -/
def State.evictable (s : State) (cls i : Nat) (p : Page) : Bool :=
  match p.owner with
  | .pool => false
  | .ctx c =>
    p.state == .resident && (p.cls == 1 || p.cls == 2)
      && (s.ctx c).quota.atticGuarantee < s.framesHeld c && !s.ctxRunning c
      && (s.ctx c).priority ≤ cls && (s.repairingIn (i * pageBytes) pageBytes).isEmpty
      && p.loan.isNone && (p.cls == 2 || (s.spillRoom c).isSome)

/-- The victim: the eligible page with the oldest last touch, ties to the lower address (R229). -/
def State.victim (s : State) (cls : Nat) : Option Nat :=
  ((s.memory.pages.filter fun e => s.evictable cls e.1 e.2).foldl (fun best e => match best with
    | none => some (e.1, s.pageTouch e.1)
    | some b => if s.pageTouch e.1 < b.2 then some (e.1, s.pageTouch e.1) else some b) none).map
      (·.1)

/-- A page is unmapped: its granules' records end, with their cellar copies, pins and hints (R225, R226). -/
def State.dropGranules (s : State) (i : Nat) : State :=
  s.modMem fun m => { m with granules := m.granules.filter fun e => e.1 / 32 != i }

/-- A page loses its frame: its granules leave the cellar, but their last touch, pins and hints stay (R215, R222, R225,
R226). -/
def State.emptyGranules (s : State) (i : Nat) : State :=
  ((s.memory.granules.filter fun e => e.1 / 32 == i && e.2.slice.isSome).foldl (fun (s : State) e =>
    s.forgetErrors e.1 e.2.dirty) s).modMem fun m => { m with granules := Map.mapVals (fun g x =>
    if g / 32 == i then { x with slice := none, dirty := false, switchTo := none, touchedAt := none } else x) m.granules }

/-- Every line of a page is ordinary: its bytes are gone (R220, R244). -/
def State.forgetLost (s : State) (i : Nat) : State :=
  s.modMem fun m =>
    { m with lost := m.lost.filter fun l => l * lineBytes / pageBytes != i, lostPages := Map.erase m.lostPages i }

/-- Evicts a page: a `DROPPABLE` page becomes `DROPPED`; a `SPILLABLE` page begins its copy to the
spill buffer, with its granules where they are until the copy has read them. Its owner's eviction notice grows (R220, R229, R231). -/
def State.evictPage (s : State) (i : Nat) : State :=
  match Map.get? s.memory.pages i with
  | none => s
  | some p =>
    match p.owner with
    | .pool => s
    | .ctx c =>
      let notice := fun (n : Notice) =>
        { n with time := if n.spilled + n.dropped = 0 then s.now else n.time }
      if p.cls == 2 then
        let s1 := ((s.modPage i fun p => { p with state := .dropped }).emptyGranules i).forgetLost i
        ((s1.modMem fun m => { m with bytes := cellsZero m.bytes (i * pageBytes) pageBytes }).modCtx c fun x =>
          { x with notice := { notice x.notice with
              dropped := x.notice.dropped + 1
              firstDropped := if x.notice.dropped = 0 then i * pageBytes
                else min x.notice.firstDropped (i * pageBytes) } }).count cPagesDropped 0
      else
        let slot := (s.spillRoom c).getD 0
        let s1 := s.modPage i fun p => { p with state := .spilling, spillSlot := slot }
        (s1.modCtx c fun x =>
          { x with notice := { notice x.notice with spilled := x.notice.spilled + 1 } }).count
            cPagesSpilled 0

/-- Makes n frames available to a requester of a class, evicting as R229 says; none where they
cannot be found, and then nothing is evicted. `fuel` bounds the victims by the pages mapped. -/
def State.makeRoom (s : State) (cls : Nat) (n : Nat) : Nat → Option State
  | 0 => if (n : Int) ≤ s.availableFrames then some s else none
  | fuel + 1 =>
    if (n : Int) ≤ s.availableFrames then some s
    else match s.victim cls with
      | none => none
      | some i => (s.evictPage i).makeRoom cls n fuel

/-- Allocates n frames for a requester (R229). Frames waiting for zeroing are taken where the free
ones do not reach (R355). -/
def State.allocate (s : State) (cls n : Nat) : Option State :=
  (s.makeRoom cls n s.memory.pages.length).map fun s1 =>
    s1.modMem fun m => { m with zeroing := m.zeroing - (n - s1.freeFrames) }

/-- The class an allocation for a context requests as: the context's own; 3 for context 0 and for
the device (R229). -/
def State.allocClass (s : State) (c : Nat) : Nat := if c = 0 then 3 else (s.ctx c).priority

/-- Allocates n frames for a context, within its `ATTIC_LIMIT` (R229). -/
def State.ctxAllocate (s : State) (c n : Nat) : Option State :=
  if n = 0 then some s
  else if (s.ctx c).quota.atticLimit < s.framesHeld c + n then none
  else s.allocate (s.allocClass c) n

/-- The lowest frame number from a start that no page uses. -/
def lowestFrame (used : List Nat) : Nat → Nat → Nat
  | 0, f => f
  | fuel + 1, f => if used.contains f then lowestFrame used fuel (f + 1) else f

/-- A frame for a page (notes/assumptions/15.md). -/
def State.takeFrame (s : State) : Nat :=
  let used := (s.memory.pages.filter fun e => e.2.state != .dropped && e.2.state != .spilled).map (·.2.frame)
  lowestFrame used (used.length + 1) 0

/-- Releases a page: its frame waits for zeroing, its lines are ordinary again, its pins, hints and cellar
copies end (R220, R221, R225, R226). Provenance records stay as `PROVENANCE_SET` left them (R238). -/
def State.unmapPage (s : State) (i : Nat) : State :=
  match Map.get? s.memory.pages i with
  | none => s
  | some p =>
    let held := p.state != .dropped && p.state != .spilled && p.state != .spilling
    (((s.copyOnWrite (i * pageBytes) pageBytes).dropGranules i).forgetLost i).modMem fun m =>
      { m with pages := Map.erase m.pages i
               bytes := cellsZero m.bytes (i * pageBytes) pageBytes
               deferred := m.deferred.filter fun w => w.addr / pageBytes != i
               repairing := m.repairing.filter fun e => e.1 * lineBytes / pageBytes != i
               zeroing := m.zeroing + b2n held }

/-- A frame is written afresh before a page uses it, so an error that it held is gone (R221, R232). -/
def State.freshFrame (s : State) (f : Nat) : State :=
  s.modMem fun m => { m with eccErrors := Map.keep (fun b _ => b * 64 / pageBytes != f) m.eccErrors }

/-- Whether a page's owner may hold another frame (R229). -/
def State.withinLimit (s : State) (p : Page) : Bool :=
  match p.owner with
  | .pool => true
  | .ctx c => s.framesHeld c < (s.ctx c).quota.atticLimit

/-- Begins the return of a spilled page: a frame is taken, within its owner's `ATTIC_LIMIT` (R229, R230). None where none can
be found. -/
def State.beginReturn (s : State) (cls i : Nat) : Option State :=
  match Map.get? s.memory.pages i with
  | none => some s
  | some p =>
    if p.state == .returning then some s
    else if !s.withinLimit p then none
    else (s.allocate cls 1).map fun s1 =>
      let s2 := if p.state == .spilling then s1.modMem fun m => { m with zeroing := m.zeroing + 1 } else s1
      (s2.freshFrame s2.takeFrame).modPage i fun p => { p with state := .returning, frame := s2.takeFrame }

/-- Begins the return of every page of a list, or of none (R230). -/
def State.beginReturns (s : State) (cls : Nat) (is : List Nat) : Option State :=
  is.foldl (fun o i => o.bind fun s => s.beginReturn cls i) (some s)

/-! ### Errors and repair (R232 to R243) -/

/-- Retires an attic row: its copy begins, unless the relocation area is full (R236). -/
def State.retireRow (s : State) (row : Nat) : State :=
  if s.memory.retiringRows.contains row || s.memory.relocated.contains row then s
  else if (s.memory.relocated.length + s.memory.retiringRows.length + 1) * 4
      ≤ 32768 * s.stacksInService then
    s.modMem fun m => { m with retiringRows := m.retiringRows ++ [row] }
  else
    let s1 := s.count cRelocationFull 0
    if s1.memory.relocationFullRaised then s1
    else (s1.modMem fun m => { m with relocationFullRaised := true }).fault 0x0004 4 (row / 2 ^ 32)

/-- A corrected error of a line: counted; a row's fourth within 24 h retires the row (R233). -/
def State.corrected (s : State) (cellar : Bool) (attic : Nat) : State :=
  if cellar then s.count cCellarCe 0
  else
    let row := s.rowOf attic
    let ts := s.now :: (Map.getD s.memory.rowErrors row []).filter fun t => s.now < t + 86400000000000
    let s1 := (s.modMem fun m => { m with rowErrors := Map.put m.rowErrors row ts }).count cAtticCe 0
    if 4 ≤ ts.length then s1.retireRow row else s1

/-- The version slot of a region that holds an address: its state and step (R193, R240). -/
def Region.slotAt (r : Region) (a : Nat) : Option (SlotState × Nat) :=
  if r.base0 ≤ a && a < r.base0 + r.length then some (r.state0, r.step0)
  else if r.base1 ≤ a && a < r.base1 + r.length then some (r.state1, r.step1)
  else none

/-- The sources that a line's provenance offers, in order, each with the line's own address at the
source, and the slot step under `SLOT_MATCH` (R238, R240, R241). -/
def State.sourcesOf (s : State) (l : Nat) : List Source × Nat :=
  let a := l * lineBytes
  match s.memory.provenance.find? fun p => p.base ≤ a && a < p.base + p.length with
  | none => ([], 0)
  | some p =>
    let there := p.sources.map fun x => { x with address := x.address + (a - p.base) }
    if p.slotMatch then
      let rs := ((s.page? a).bind fun q => match q.owner with
        | .ctx c => (Map.get? s.trains c).bind fun t => t.regions[p.region]?
        | .pool => none)
      match rs.bind fun r => r.slotAt a with
      | some (.valid, step) => (there, step)
      | _ => ([], 0)
    else if p.stale.contains (a / granuleBytes) then ([], 0) else (there, 0)

/-- Whether a `MEM_UNMAP` waits for a line's page. -/
def State.unmapWaits (s : State) (l : Nat) : Bool :=
  s.host.commands.any fun e => match e.2.work with
    | .unmap base len => base ≤ l * lineBytes && l * lineBytes < base + len
    | _ => false

/-- Threads that wait for a line go on: they issue again (R112, R243). Those whose page is about to be unmapped issue again
with the unmap (R221, `State.memoryReady`). -/
def State.wakeLine (s : State) (l : Nat) : State :=
  if s.unmapWaits l then s
  else { s with threads := Map.mapVals (fun _ x =>
      if x.wait == some (.memory l) && x.state == .waiting then
        { x with state := .running, wait := none } else x) s.threads }

/-- Whether anything may wait for a line: a thread, a command, a tile instruction, a collective or an access from outside. -/
def State.lineAwaited (s : State) (l : Nat) : Bool :=
  (Map.vals s.threads).any (fun x => x.wait == some (.memory l) || !x.ops.isEmpty) || !s.host.commands.isEmpty
    || !s.host.readsWaiting.isEmpty || !s.host.writesWaiting.isEmpty || !s.fabric.waiting.isEmpty
    || s.coll.active.any fun e => e.2.stage ≤ 1

/-- The repair of a line is over: the writes that waited are applied, its waiters go on, and their cycles are counted, where
there may be any a free number (R243, notes/assumptions/5.md). -/
def State.releaseLine (s0 : State) (l : Nat) : State :=
  ((if s0.lineAwaited l then s0.countFree cRepairWait 0 else s0).applyDeferred l).wakeLine l

/-- The context that owns a line's page, 0 for a pool page (R219). -/
def State.lineOwner (s : State) (l : Nat) : Nat :=
  match s.page? (l * lineBytes) with
  | some p => match p.owner with | .ctx c => c | .pool => 0
  | none => 0

/-- A repair ends in the loss of its line: counted, recorded, attention raised (R241, R244). -/
def State.loseLine (s : State) (l : Nat) : State :=
  let c := s.lineOwner l
  let s1 := (s.modMem fun m => { m with repairing := Map.erase m.repairing l }).addLost l
  ((s1.count cLinesLost 0).fault 0x0003 4 (l * lineBytes / pageBytes) 0 c
    (globalAddr s.lodge.deviceId (l * lineBytes))).releaseLine l

/-- Goes on with a repair: the next source is asked, or the line is lost (R241). A source with no route fails at once (R275);
`fuel` bounds those. -/
def State.repairGo (l : Nat) : Nat → State → State
  | 0, s => s
  | fuel + 1, s => match Map.get? s.memory.repairing l with
  | none => s
  | some r =>
    match r.sources[r.next]? with
    | none => s.loseLine l
    | some x =>
      let upd := fun (s : State) (f : Repair → Repair) =>
        s.modMem fun m => { m with repairing := Map.modify m.repairing l f }
      if x.kind == 2 && !s.hasRoute x.device then
        State.repairGo l fuel ((upd s.noRoute fun r => { r with next := r.next + 1, tag := none, hostRead := false }).count
          cRepairSourceFails 0)
      else if x.kind == 3 then upd s fun r => { r with next := r.next + 1, tag := none, hostRead := true }
      else if x.kind == 2 then
        let (tag, s1) := s.request tRepairRead x.device 0 (globalAddr x.device x.address) 256
          (.repair l) (BitVec.ofNat 64 r.step) (owner := some (s.lineOwner l))
        upd s1 fun r => { r with next := r.next + 1, tag := some tag, hostRead := false }
      else
        let (tag, s1) := s.request tTwin s.twin.twinDevice 0 (globalAddr s.twin.twinDevice x.address)
          0 (.repair l) 0 [] 0x06 (owner := some (s.lineOwner l))
        upd s1 fun r => { r with next := r.next + 1, tag := some tag, hostRead := false }

/-- Goes on with a repair. -/
def State.repairNext (s : State) (l : Nat) : State :=
  State.repairGo l (((Map.get? s.memory.repairing l).map (·.sources.length)).getD 0 + 1) s

/-- Starts the repair of a line, with its whole budget (R241). -/
def State.startRepair (s : State) (l : Nat) : State :=
  let (xs, step) := s.sourcesOf l
  (s.modMem fun m =>
    { m with repairing := Map.put m.repairing l { since := s.now, sources := xs, step := step } }).repairNext l

/-- A source failed, refused or timed out: counted, and the next one is tried (R241). -/
def State.repairFailed (s : State) (l : Nat) : State := (s.count cRepairSourceFails 0).repairNext l

/-- A source returned the line: it is written back, and its row is retired (R241). -/
def State.repairDone (s : State) (l : Nat) (bs : Bytes) : State :=
  let s1 := (s.setBytes (l * lineBytes) (padTo lineBytes bs)).modMem fun m =>
    { m with repairing := Map.erase m.repairing l, lost := m.lost.filter (· != l)
             lostPages := m.lostPages.map fun e =>
               if e.1 == l * lineBytes / pageBytes then (e.1, l :: e.2) else e }
  ((s1.count cRepairsDone 0).retireRow (s.rowOf (s.atticAddr (l * lineBytes)))).releaseLine l

/-- The code of the unit that a domain's `RESET_DONE` names (R368). -/
def resetUnit (domain : Nat) : Nat := match domain with
  | 1 => 1 | 2 => 4 | 3 => 5 | _ => 7

/-- The reset under way is over: it is counted, stamped and recorded (R333, R367, R368, R370). -/
def State.endReset (s : State) : State :=
  let h := s.host
  let s1 := s.modHost fun h =>
    { h with resetBusy := false, resetCount := h.resetCount + 1, lastResetTime := s.now }
  s1.fault 0x0040 (resetUnit h.resetDomain) h.resetTarget h.resetDomain 0 0
    (h.resetDomain + h.resetTarget * 2 ^ 8 + h.resetOrigin * 2 ^ 24)

/-- Pseudo-channels of the stacks in service (R228). -/
def State.channelCount (s : State) : Nat := 32 * s.stacksInService

/-- Whether a pseudo-channel is in service and not retired. -/
def State.channelStands (s : State) (ch : Nat) : Bool := ch < s.channelCount && !s.memory.channels.contains ch

/-- A `CHANNEL` reset, marked as under way, begins: the channel is retired, and 1,024 frames of the pool are taken for
its lines, evicting where that can be done. A fifth retirement fails, and the reset is over (R237). -/
def State.beginChannelReset (s : State) (ch : Nat) : State :=
  if 4 ≤ s.memory.channels.length then ((s.count cRelocationFull 0).fault 0x0004 4 ch 2).endReset
  else
    (((s.makeRoom 3 1024 s.memory.pages.length).getD s).modMem fun m =>
      { m with channels := m.channels ++ [ch], copyingChannels := m.copyingChannels ++ [ch]
               channelFrames := m.channelFrames + 1024 })

/-- A `CHANNEL` reset that the Curator asks for: it waits for the reset under way (R375, R380). -/
def State.retireChannel (s : State) (ch : Nat) : State :=
  if s.host.resetBusy then s.modHost fun h => { h with resetsWaiting := h.resetsWaiting ++ [(2, ch, 4)] }
  else if s.channelStands ch then
    (s.modHost fun h => { h with resetBusy := true, resetDomain := 2, resetTarget := ch, resetOrigin := 4 }).beginChannelReset
      ch
  else s

/-- An uncorrectable error of an attic line: counted and recorded; the channel's eighth within 24 h
asks for a `CHANNEL` reset (R234, R375). -/
def State.uncorrectable (s : State) (cellar : Bool) (l : Nat) : State :=
  let a := l * lineBytes
  let c := match (s.page? a).map (·.owner) with
    | some (.ctx c) => c
    | _ => 0
  if cellar then
    (s.count cCellarUe 0).fault 0x0002 3 0 0 c (globalAddr s.lodge.deviceId a)
  else
    let ch := (atticChannel (s.atticAddr a) (32 * s.stacksInService)).1
    let ts := s.now :: (Map.getD s.memory.channelErrors ch []).filter fun t =>
      s.now < t + 86400000000000
    let s1 := ((s.modMem fun m => { m with channelErrors := Map.put m.channelErrors ch ts }).count
      cAtticUe 0).fault 0x0001 4 ch 0 c (globalAddr s.lodge.deviceId a)
    if ts.length == 8 then s1.retireChannel ch else s1

/-- An uncorrectable error of an attic line whose frame is not mapped: counted, recorded and its row retired (R234). -/
def State.uncorrectableFrame (s : State) (attic : Nat) : State :=
  let ch := (atticChannel (attic * lineBytes) (32 * s.stacksInService)).1
  let ts := s.now :: (Map.getD s.memory.channelErrors ch []).filter fun t => s.now < t + 86400000000000
  let s1 := (((s.modMem fun m => { m with channelErrors := Map.put m.channelErrors ch ts }).count
    cAtticUe 0).fault 0x0001 4 ch).retireRow (s.rowOf (attic * lineBytes))
  if ts.length == 8 then s1.retireChannel ch else s1

/-- Errors in three or more symbols of a block are detected as the code happens to (R232): a free bit tells. Where they are
not, the block reads as free bytes from then on. -/
def State.settleWild (s : State) (local_ : Option Nat) (block : Nat) : State :=
  if (Map.getD s.memory.eccErrors block []).length < 3 then s
  else
    let (i, s1) := s.free 65
    if (Config.freeValue i).toNat % 2 = 1 then s1
    else
      let s2 := match local_ with
        | some a => s1.setBytes a (Config.freeBytes (i + 1) 64)
        | none => s1
      s2.modMem fun m => { m with eccErrors := Map.erase m.eccErrors block }

/-- The blocks of a line's frame whose errors may go undetected are settled, where the frame is read. -/
def State.settleLine (s : State) (l : Nat) : State :=
  (blocksOf (s.atticAddr (l * lineBytes) / lineBytes)).zipIdx.foldl (fun (s : State) b =>
    s.settleWild (some (l * lineBytes + 64 * b.2)) b.1) s

/-- An uncorrectable error of a line in the cellar (R241): a clean granule's line is read from its frame, and where that
is not possible the repair goes on to its sources. -/
def State.cellarRepair (s : State) (l : Nat) (dirty : Bool) : State :=
  let s1 := (s.uncorrectable true l).cleanCellar l
  if dirty then s1.startRepair l
  else
    let s2 := s1.settleLine l
    let attic := s2.atticAddr (l * lineBytes) / lineBytes
    match s2.atticError attic with
    | none => s2.count cRepairsDone 0
    | some .correctable => ((s2.corrected false (attic * lineBytes)).cleanAttic attic).count cRepairsDone 0
    | some .uncorrectable => ((s2.uncorrectable false l).cleanAttic attic).startRepair l

/-- What a read finds in one line: a corrected error is corrected; an uncorrectable one starts the
repair of R241 (R232 to R234). -/
def State.checkLine (s : State) (l : Nat) : State :=
  if s.lineLost l || Map.has s.memory.repairing l then s
  else if s.inCellar l then
    match s.cellarError l with
    | none => s
    | some .correctable => (s.corrected true 0).cleanCellar l
    | some .uncorrectable => s.cellarRepair l (Map.getD s.memory.granules (l * lineBytes / granuleBytes) {}).dirty
  else
    let s1 := s.settleLine l
    let attic := s1.atticAddr (l * lineBytes) / lineBytes
    match s1.atticError attic with
    | none => s1
    | some .correctable => (s1.corrected false (attic * lineBytes)).cleanAttic attic
    | some .uncorrectable => ((s1.uncorrectable false l).cleanAttic attic).startRepair l

/-- What a read of a range finds (R233, R234). -/
def State.checkRead (s : State) (a n : Nat) : State := (s.suspectLines a n).foldl State.checkLine s

/-- The local line that an attic line holds, where its frame is mapped. -/
def State.lineAt (s : State) (attic : Nat) : Option Nat :=
  (s.memory.pages.find? fun e => e.2.frame = attic * lineBytes / pageBytes && e.2.state != .dropped && e.2.state != .spilled).map
    fun e => e.1 * (pageBytes / lineBytes) + attic % (pageBytes / lineBytes)

/-- The Curator reads an attic line that holds an error (R233 to R237). The frame of a dirty granule's line is stale and is
never read (R215). -/
def State.scrubLine (s : State) (attic : Nat) : State :=
  let fix := fun (s : State) => (s.corrected false (attic * lineBytes)).cleanAttic attic
  match s.lineAt attic with
  | none =>
    let s1 := (blocksOf attic).foldl (fun (s : State) b => s.settleWild none b) s
    match s1.atticError attic with
    | none => s1
    | some .correctable => fix s1
    | some .uncorrectable => (s1.uncorrectableFrame attic).cleanAttic attic
  | some l =>
    if (Map.getD s.memory.granules (l * lineBytes / granuleBytes) {}).dirty then s
    else
      let s1 := s.settleLine l
      match s1.atticError attic with
      | none => s1
      | some .correctable => fix s1
      | some .uncorrectable =>
        let s2 := (s1.uncorrectable false l).cleanAttic attic
        if s2.lineLost l || Map.has s2.memory.repairing l then s2 else s2.startRepair l

/-- The attic lines that hold errors and pass a test. -/
def State.badLines (s : State) (ok : Nat → Bool) : List Nat :=
  (((Map.keys s.memory.eccErrors).map (· / 4)).eraseDups).filter ok

/-! ### Promotion (R223, R234) -/

/-- Makes room in the cellar by a granule's leaving: what its write-back reads is checked, and a line that comes under repair
keeps it where it is (R223, R234, R243). -/
def State.freeGranule (s : State) (v : Nat) : Bool × State :=
  let x := Map.getD s.memory.granules v {}
  let s1 := if x.dirty then s.checkRead (v * granuleBytes) granuleBytes else s
  if (s1.repairingIn (v * granuleBytes) granuleBytes).isEmpty then (true, s1.evictGranule v) else (false, s1)

/-- Migration in ns of the attic's bandwidth, 38 GB/s for each pseudo-channel in service, that `MIGRATE_SHARE` admits for a
number of bytes (R223, R237). -/
def State.migrateTime (s : State) (n : Nat) : Nat :=
  ceilDiv (n * 100) (38 * max 1 (32 * s.stacksInService) * max 1 s.lodge.settings.migrateShare)

/-- Whether migration is at its limit (R223): earlier promotions and write-backs still use up their share (DESIGN CHOICE,
notes/assumptions/57.md). -/
def State.migrateFull (s : State) : Bool := s.now < s.memory.migrateUntil

/-- Migration of bytes uses its share of the bandwidth. -/
def State.migrates (s : State) (n : Nat) : State :=
  s.modMem fun m => { m with migrateUntil := max m.migrateUntil s.now + s.migrateTime n }

/-- Starts a promotion of a granule into a slice, making room as R223 says; beyond `MIGRATE_SHARE` it is skipped and
counted. Where no granule can leave it does not happen (notes/assumptions/16.md). -/
def State.promote (s : State) (g a : Nat) : State :=
  let x := Map.getD s.memory.granules g {}
  if x.slice.isSome || x.switchTo.isSome then s
  else if s.migrateFull then s.count cPromotionsSkipped 0
  else
    let room := s.sliceUse a < 192 &&
      s.cellarUse + s.pantryGranules
        < 192 * s.arraysInService.length
    let victim := if room then none else (s.oldestCache (· == a)).or (s.oldestCache fun _ => true)
    let back := victim.any fun v => (Map.getD s.memory.granules v {}).dirty
    match if room then (true, s) else (victim.map s.freeGranule).getD (false, s) with
    | (false, s2) => s2
    | (true, s2) => ((s2.migrates (granuleBytes * (1 + b2n back))).modGranule g fun x => { x with switchTo := some (some a) }).trace
        4 0 0 (le 8 (g * granuleBytes))

/-- A counted touch of a range by an array: landing fills, streamed operand reads and tile movement.
The second within `PROMOTE_WINDOW` promotes the granule; reads hinted `STREAM` do not count (R223). -/
def State.countedTouch (s : State) (a n array : Nat) : State :=
  (unitsOf granuleBytes a n).foldl (fun s g =>
    let x := Map.getD s.memory.granules g {}
    let hint := ((s.page? (g * granuleBytes)).map fun p => p.hint).getD 0
    if hint == 3 || x.slice.isSome || x.switchTo.isSome then s
    else
      let within := x.touchedAt.any fun t => s.now ≤ t + s.lodge.settings.promoteWindowUs * 1000
      if within then (s.modGranule g fun x => { x with touchedAt := none }).promote g array
      else s.modGranule g fun x => { x with touchedAt := some s.now })
    (s.touch a n)

/-- Counts the reads of `LOST` lines of a range (R244). -/
def State.countLost (s : State) (a n : Nat) : State := s.count cLostLineReads 0 (s.lostIn a n).length

/-! ### Binding (R426, R427) -/

/-- The loan with an ID, where it is present. -/
def State.loan? (s : State) (id : Word) : Option Loan := s.strongroom.loans.find? fun l => l.id == id

/-- Whether a device lies outside the set of a loan; the set of a loan that is no longer present
admits none. -/
def State.outsideSet (s : State) (id : Word) (dev : Nat) : Bool :=
  !((s.loan? id).any fun l => l.devices.contains dev)

/-- The loan of a range whose set leaves out a device, where there is one (R427). -/
def State.suppressedBy (s : State) (a n dev : Nat) : Option Word :=
  (unitsOf pageBytes a n).findSome? fun i =>
    ((Map.get? s.memory.pages i).bind (·.loan)).filter fun id => s.outsideSet id dev

/-- Counts one suppressed transfer of n bytes (R427). -/
def State.countSuppressed (s : State) (id : Word) (n : Nat) : State :=
  ((s.count cTransfersSuppressed 0).count cBytesSuppressed 0 n).modSr fun r =>
    { r with loans := r.loans.map fun l => if l.id == id then
        { l with suppressed := { l.suppressed with
            value := min ctrMax (l.suppressed.value + 1)
            sticky := l.suppressed.sticky || l.suppressed.value == ctrMax } } else l }

/-- Binds the pages of a destination to the loan of the bytes that a copy wrote into them (R426). -/
def State.bind (s : State) (src n dst m : Nat) : State :=
  match (unitsOf pageBytes src n).findSome? fun i => (Map.get? s.memory.pages i).bind (·.loan) with
  | none => s
  | some id => (unitsOf pageBytes dst m).foldl
      (fun s i => s.modPage i fun p => { p with loan := some (p.loan.getD id) }) s

end Sys2Proof.Machine
end

