-- ==== Sys2Proof/Machine/Numbers.lean ====
section
/-! DEFINITION. Number formats (R57 to R64), values read from them (R58 to R61, R66), and every
conversion into them: rounding (R70, R71), stochastic rounding (R72, R73), ranges (R75, R76, R78),
E8M0 (R79) and MX blocks (R67). -/

namespace Sys2Proof.Machine

/-! ### Formats -/

/-- Exponent bits, fraction bits and bias of a floating-point format (R58); none for other codes. -/
def floatParams : Nat → Option (Nat × Nat × Nat)
  | 0x01 => some (11, 52, 1023) | 0x02 => some (8, 23, 127) | 0x03 => some (5, 10, 15)
  | 0x04 => some (8, 7, 127) | 0x05 | 0x07 => some (4, 3, 7) | 0x06 | 0x08 => some (5, 2, 15)
  | 0x09 => some (3, 2, 3) | 0x0A => some (2, 3, 1) | 0x0B => some (2, 1, 1)
  | 0x10 => some (8, 39, 127) | _ => none

/-- Element bits of a format (R57); 0 for a reserved code. -/
def elemBits : Nat → Nat
  | 0x01 => 64 | 0x02 => 32 | 0x03 | 0x04 => 16 | 0x05 | 0x06 | 0x07 | 0x08 => 8
  | 0x09 | 0x0A => 6 | 0x0B => 4 | 0x0C | 0x0D => 8 | 0x0E => 32 | 0x10 => 48 | 0x11 => 8 | _ => 0

/-- Whether a code names a format (R57). -/
def legalFormat (f : Nat) : Bool := elemBits f != 0

/-- Whether a format carries block scales (R64). -/
def isMx (f : Nat) : Bool := (0x07 ≤ f && f ≤ 0x0B) || f == 0x0D

/-- Whether a format may be an `MMA` input (R57). -/
def mmaInput (f : Nat) : Bool := 0x01 ≤ f && f ≤ 0x0D

/-- Whether a format is an integer format (R61, R106). -/
def isInt (f : Nat) : Bool := f == 0x0C || f == 0x0E

/-- Whether a format holds infinities (R59). -/
def hasInf (f : Nat) : Bool :=
  f == 0x01 || f == 0x02 || f == 0x03 || f == 0x04 || f == 0x06 || f == 0x08 || f == 0x10

/-- Whether a format is E4M3, plain or the element of an MX block. -/
def isE4m3 (f : Nat) : Bool := f == 0x05 || f == 0x07

/-! ### Values -/

/-- An integer as a value. -/
def Num.ofInt (i : Int) : Num := if i = 0 then .zero false else .fin (i < 0) i.natAbs 0 false

/-- The sign of a value. -/
def Num.neg? : Num → Bool
  | .nan _ => false
  | .inf n _ => n
  | .zero n => n
  | .fin n _ _ _ => n

/-- Whether a value is NaN or infinite. -/
def Num.nonfinite : Num → Bool
  | .nan _ => true
  | .inf _ _ => true
  | _ => false

/-- The cause code a value carries (R99). -/
def Num.cause : Num → Cause
  | .nan c => c
  | .inf _ c => c
  | _ => .none

/-- The negated value. -/
def Num.negate : Num → Num
  | .nan c => .nan c
  | .inf n c => .inf (!n) c
  | .zero n => .zero (!n)
  | .fin n m e s => .fin (!n) m e s

/-- The magnitude. -/
def Num.absolute : Num → Num
  | .nan c => .nan c
  | .inf _ c => .inf false c
  | .zero _ => .zero false
  | .fin _ m e s => .fin false m e s

/-- A value times 2^k, exactly. -/
def Num.scale2 (k : Int) : Num → Num
  | .fin n m e s => .fin n m (e + k) s
  | x => x

/-- ⌊log₂ |v|⌋ of a non-zero finite value (R84). -/
def Num.exponent : Num → Int
  | .fin _ m e _ => (Nat.log2 m : Int) + e
  | _ => 0

/-- A cause's code (R99). -/
def Cause.code : Cause → Nat
  | .none => 0 | .nanInput => 1 | .infTimesZero => 2 | .infMinusInf => 3 | .overflow => 4
  | .poisonInput => 5

/-- A cause's rank: the higher is kept where several meet (R99). -/
def Cause.rank : Cause → Nat
  | .none => 0 | .overflow => 1 | .infMinusInf => 2 | .infTimesZero => 3 | .nanInput => 4
  | .poisonInput => 5

/-- The cause of higher priority (R99). -/
def Cause.join (a b : Cause) : Cause := if a.rank < b.rank then b else a

/-! ### Reading elements -/

/-- The value that the bits of a floating-point element hold (R58, R59, R60). -/
def decodeFloat (f : Nat) (eb fb bias : Nat) (v : Nat) : Num :=
  let neg := bitOf v (eb + fb)
  let e := nbits v (eb + fb - 1) fb
  let m := v % 2 ^ fb
  let top := 2 ^ eb - 1
  if e = top && hasInf f then (if m = 0 then .inf neg .overflow else .nan .nanInput)
  else if isE4m3 f && e = top && m = 7 then .nan .nanInput
  else if e = 0 then
    (if m = 0 then .zero neg else .fin neg m (1 - (bias : Int) - fb) false)
  else .fin neg (2 ^ fb + m) ((e : Int) - bias - fb) false

/-- The value of an element of a format, before any block scale (R58 to R61, R64). -/
def decodeElem (f v : Nat) : Num :=
  match floatParams f with
  | some (eb, fb, bias) => decodeFloat f eb fb bias v
  | none =>
    if f = 0x0C then .ofInt (sext 8 v)
    else if f = 0x0D then (Num.ofInt (sext 8 v)).scale2 (-6)
    else if f = 0x0E then .ofInt (sext 32 v)
    else if v % 256 = 0xFF then .nan .nanInput
    else .fin false 1 ((v % 256 : Nat) - 127) false

/-- The value of an MX element under its block's scale byte (R64, R66). -/
def decodeMx (f v scale : Nat) : Num :=
  if scale = 0xFF then .nan .nanInput else (decodeElem f v).scale2 ((scale : Int) - 127)

/-! ### Rounding -/

/-- How a conversion rounds: the mode of `RMODE` and the word of stochastic rounding (R70, R72). -/
structure Rounding where
  mode : Nat := 0
  word : Nat := 0
  deriving DecidableEq, Repr

/-- A magnitude in units of 2^q, rounded under a mode: the multiple, and whether bits were lost
(R71, R73). -/
def roundAt (r : Rounding) (mant : Nat) (exp : Int) (sticky : Bool) (q : Int) : Nat × Bool :=
  if q ≤ exp then (mant * 2 ^ (exp - q).toNat, sticky)
  else
    let sh := (q - exp).toNat
    let c := mant / 2 ^ sh
    let low := mant % 2 ^ sh
    let up := match r.mode with
      | 0 => 2 ^ (sh - 1) < low || (low = 2 ^ (sh - 1) && (sticky || c % 2 = 1))
      | 2 => r.word < (if 32 ≤ sh then low / 2 ^ (sh - 32) else low * 2 ^ (32 - sh))
      | _ => false
    (if up then c + 1 else c, low ≠ 0 || sticky)

/-- Whether a magnitude lies above m · 2^e (R75). -/
def above (mant : Nat) (exp : Int) (sticky : Bool) (m : Nat) (e : Int) : Bool :=
  let k := min exp e
  let x := mant * 2 ^ (exp - k).toNat
  let y := m * 2 ^ (e - k).toNat
  y < x || (x = y && sticky)

/-- The largest finite value of a floating-point format as mantissa and exponent (R58). -/
def largest (f eb fb bias : Nat) : Nat × Int :=
  if isE4m3 f then (14, 5)
  else if hasInf f then (2 ^ (fb + 1) - 1, (2 ^ eb - 2 : Int) - bias - fb)
  else (2 ^ (fb + 1) - 1, (2 ^ eb - 1 : Int) - bias - fb)

/-- A converted element: its bits, whether the conversion was out of range (R75, R77), and the value
written, with the cause it takes (R104, R106). -/
structure Conv where
  bits : Nat
  oor : Bool := false
  value : Num
  deriving DecidableEq, Repr

/-- The canonical NaN of a floating-point format (R59). -/
def canonicalNan (f eb fb : Nat) : Nat :=
  if isE4m3 f then 0x7F else (2 ^ eb - 1) * 2 ^ fb + 2 ^ (fb - 1)

/-- A finite magnitude into a floating-point format: bits without sign, and whether it is out of
range, in which case the bits are those of the largest finite value (R71, R75, R78). -/
def roundFloat (r : Rounding) (f eb fb bias mant : Nat) (exp : Int) (sticky : Bool) : Nat × Bool :=
  let emin : Int := 1 - (bias : Int)
  let e := (Nat.log2 mant : Int) + exp
  let q := (if e < emin then emin else e) - fb
  let c := (roundAt r mant exp sticky q).1
  let (lm, le) := largest f eb fb bias
  let maxBits := (lm % 2 ^ fb) + (le + fb + bias).toNat * 2 ^ fb
  let ovf := if r.mode = 1 then above mant exp sticky lm le else above c q false lm le
  if ovf then (maxBits, true) else ((q - (emin - fb)).toNat * 2 ^ fb + c, false)

/-- A finite magnitude into an integer of a number of bits with 2^(-frac) units: the two's complement
bits and whether it is out of range (R71, R75). -/
def roundInt (r : Rounding) (n frac : Nat) (neg : Bool) (mant : Nat) (exp : Int) (sticky : Bool) :
    Nat × Bool :=
  let q : Int := -(frac : Int)
  let c := (roundAt r mant exp sticky q).1
  let lim := if neg then 2 ^ (n - 1) else 2 ^ (n - 1) - 1
  let ovf := if r.mode = 1 then above mant exp sticky lim q else lim < c
  let m := if ovf then lim else c
  (if neg then (2 ^ n - m) % 2 ^ n else m, ovf)

/-- Converts a value into a format that is not MX (R70 to R79). -/
def convert (r : Rounding) (ieee : Bool) (f : Nat) (x : Num) : Conv :=
  match floatParams f with
  | some (eb, fb, bias) =>
    let sign := fun (n : Bool) => if n then 2 ^ (eb + fb) else 0
    let infBits := (2 ^ eb - 1) * 2 ^ fb
    match x with
    | .nan c => { bits := canonicalNan f eb fb, value := .nan c }
    | .inf n c =>
      if hasInf f then { bits := sign n + infBits, value := .inf n c }
      else { bits := canonicalNan f eb fb, value := .nan c }
    | .zero n => { bits := sign n, value := .zero n }
    | .fin n m e s =>
      let (b, ovf) := roundFloat r f eb fb bias m e s
      if ovf && ieee && r.mode != 1 then
        if hasInf f then { bits := sign n + infBits, oor := true, value := .inf n .overflow }
        else { bits := canonicalNan f eb fb, oor := true, value := .nan .overflow }
      else { bits := sign n + b, oor := ovf, value := decodeFloat f eb fb bias (sign n + b) }
  | none =>
    if f = 0x0C || f = 0x0E then
      let n := if f = 0x0C then 8 else 32
      match x with
      | .nan c => { bits := 0, value := .nan c }
      | .inf g c => { bits := if g then 2 ^ (n - 1) else 2 ^ (n - 1) - 1, value := .inf g c }
      | .zero _ => { bits := 0, value := .zero false }
      | .fin g m e s =>
        let (b, ovf) := roundInt r n 0 g m e s
        { bits := b, oor := ovf, value := .ofInt (sext n b) }
    else
      match x with
      | .nan c => { bits := 0xFF, value := .nan c }
      | .inf _ c => { bits := 0xFF, value := .nan c }
      | .zero _ => { bits := 0, value := decodeElem 0x11 0 }
      | .fin _ m e s =>
        let k := (Nat.log2 m : Int) + e + 127
        let ovf := if r.mode = 1 then above m e s 1 127 else 254 < k
        let b := (max 0 (min 254 k)).toNat
        { bits := b, oor := ovf, value := decodeElem 0x11 b }

/-! ### MX blocks (R67) -/

/-- emax of an MX element format (R67). -/
def mxEmax : Nat → Int
  | 0x07 => 8 | 0x08 => 15 | 0x09 => 4 | 0x0A => 2 | 0x0B => 2 | _ => 0

/-- One element of an MX block whose source is divided by 2^X: saturated beyond its range (R67). -/
def convertMxElem (r : Rounding) (f : Nat) (k : Int) (x : Num) : Conv :=
  match floatParams f, x with
  | some (eb, fb, bias), .fin n m e s =>
    let sign := if n then 2 ^ (eb + fb) else 0
    let (b, ovf) := roundFloat r f eb fb bias m (e - k) s
    { bits := sign + b, oor := ovf, value := (decodeFloat f eb fb bias (sign + b)).scale2 k }
  | some (eb, fb, _), .zero n => { bits := if n then 2 ^ (eb + fb) else 0, value := .zero n }
  | none, .fin n m e s =>
    let (b, ovf) := roundInt r 8 6 n m (e - k) s
    { bits := b, oor := ovf, value := (decodeElem 0x0D b).scale2 k }
  | none, .zero _ => { bits := 0, value := .zero false }
  | _, x => { bits := 0, value := x }

/-- Encodes a block into an MX format: the scale byte and the elements, each under its own rounding
word (R67). Every element of a non-finite block takes the block's highest-priority cause (R104). -/
def encodeMxBlock (f : Nat) (xs : List (Rounding × Num)) : Nat × List Conv :=
  if xs.any fun x => x.2.nonfinite then
    let c := xs.foldl (fun c x => c.join x.2.cause) .none
    (0xFF, xs.map fun _ => { bits := 0, value := .nan c })
  else
    let es := xs.filterMap fun x => match x.2 with
      | .fin n m e s => some (Num.fin n m e s).exponent
      | _ => none
    match es with
    | [] => (0x7F, xs.map fun x => convertMxElem x.1 f 0 x.2)
    | e :: es =>
      let k := max (-127) (min 127 (es.foldl max e - mxEmax f))
      ((k + 127).toNat, xs.map fun x => convertMxElem x.1 f k x.2)

/-! ### Stochastic rounding words (R72) -/

/-- One round of Philox-4x32. -/
def philoxRound (x : Nat × Nat × Nat × Nat) (k0 k1 : Nat) : Nat × Nat × Nat × Nat :=
  let p0 := 0xD2511F53 * x.1
  let p1 := 0xCD9E8D57 * x.2.2.1
  ((p1 / 2 ^ 32) ^^^ x.2.1 ^^^ k0, p1 % 2 ^ 32, (p0 / 2 ^ 32) ^^^ x.2.2.2 ^^^ k1, p0 % 2 ^ 32)

/-- n rounds of Philox-4x32, the keys advancing (R72). -/
def philox : Nat → Nat × Nat × Nat × Nat → Nat → Nat → Nat × Nat × Nat × Nat
  | 0, x, _, _ => x
  | n + 1, x, k0, k1 =>
    philox n (philoxRound x k0 k1) ((k0 + 0x9E3779B9) % 2 ^ 32) ((k1 + 0xBB67AE85) % 2 ^ 32)

/-- The word drawn for an element (R72). -/
def srWord (step tag row col : Nat) : Nat :=
  let w := philox 10 (col / 4, row, tag, 0) (step % 2 ^ 32) (step / 2 ^ 32)
  match col % 4 with
  | 0 => w.1
  | 1 => w.2.1
  | 2 => w.2.2.1
  | _ => w.2.2.2

/-- The rounding of the element at (i, j) of an output tile: `base` is the `SR_BASE` register (R72). -/
def roundingAt (mode step tag base i j : Nat) : Rounding :=
  if mode = 2 then
    { mode := 2, word := srWord step tag ((base / 2 ^ 32 + i) % 2 ^ 32) ((base % 2 ^ 32 + j) % 2 ^ 32) }
  else { mode := mode }

end Sys2Proof.Machine
end

