-- ==== Sys2Proof/Machine/Reference.lean ====
section
/-! DEFINITION. The reference order: products (R83, R100), leaves (R86, R101), node combinations
(R87, R89, R102), carry stacks (R92), and the exact arithmetic that element-wise work rounds (R103). -/

namespace Sys2Proof.Machine

/-! ### Exact arithmetic -/

/-- A finite value as a signed integer in units of 2^k, exact where k is not above its exponent. -/
def Num.unitsAt (k : Int) : Num → Int
  | .fin n m e _ =>
    let v : Nat := if k ≤ e then m * 2 ^ (e - k).toNat else m / 2 ^ (k - e).toNat
    if n then -(v : Int) else v
  | _ => 0

/-- The exponent of a value's mantissa, or a default. -/
def Num.expD (d : Int) : Num → Int
  | .fin _ _ e _ => e
  | _ => d

/-- The exact sum of two finite values; −0 plus −0 is −0, and any other zero sum is +0 (R89). A sum
keeps the sticky mark of its operands. -/
def addFinite (a b : Num) : Num :=
  match a, b with
  | .zero x, .zero y => .zero (x && y)
  | .zero _, y => y
  | x, .zero _ => x
  | x, y =>
    let k := min (x.expD 0) (y.expD 0)
    let v := x.unitsAt k + y.unitsAt k
    let st := match x, y with
      | .fin _ _ _ s, .fin _ _ _ t => s || t
      | _, _ => false
    if v = 0 then .zero false else .fin (v < 0) v.natAbs k st

/-- The exact sum of two values, special ones included (R101 to R103). -/
def addExact (a b : Num) : Num :=
  match a, b with
  | .nan x, .nan y => .nan (x.join y)
  | .nan x, _ => .nan x
  | _, .nan y => .nan y
  | .inf x c, .inf y d => if x == y then .inf x (c.join d) else .nan .infMinusInf
  | .inf x c, _ => .inf x c
  | _, .inf y d => .inf y d
  | x, y => addFinite x y

/-- The exact product of two values (R83, R100). -/
def mulExact (a b : Num) : Num :=
  match a, b with
  | .nan x, .nan y => .nan (x.join y)
  | .nan x, _ => .nan x
  | _, .nan y => .nan y
  | .inf x _, .inf y _ => .inf (x != y) .overflow
  | .inf x _, .fin y _ _ _ => .inf (x != y) .overflow
  | .fin x _ _ _, .inf y _ => .inf (x != y) .overflow
  | .inf _ _, .zero _ => .nan .infTimesZero
  | .zero _, .inf _ _ => .nan .infTimesZero
  | .zero x, .zero y => .zero (x != y)
  | .zero x, .fin y _ _ _ => .zero (x != y)
  | .fin x _ _ _, .zero y => .zero (x != y)
  | .fin x m e s, .fin y n f t => .fin (x != y) (m * n) (e + f) (s || t)

/-- The bits kept of a quotient or root that has no finite expansion (notes/assumptions/11.md). -/
def workBits : Nat := 192

/-- The quotient of two finite non-zero values to `workBits` bits and a sticky mark. -/
def divFinite (x : Bool) (m : Nat) (e : Int) (y : Bool) (n : Nat) (f : Int) : Num :=
  let sh := workBits + Nat.log2 n
  let q := m * 2 ^ sh / n
  .fin (x != y) q (e - f - sh) (m * 2 ^ sh % n ≠ 0)

/-- The largest r with r² ≤ n, by bits from the top. -/
def isqrtAux (n : Nat) : Nat → Nat → Nat
  | 0, r => r
  | k + 1, r => let r' := r + 2 ^ k
    if r' * r' ≤ n then isqrtAux n k r' else isqrtAux n k r

/-- The integer square root. -/
def isqrt (n : Nat) : Nat := isqrtAux n (Nat.log2 n / 2 + 1) 0

/-- The square root of a positive finite value to at least `workBits` bits and a sticky mark. -/
def sqrtFinite (m : Nat) (e : Int) : Num :=
  let sh : Int := 2 * workBits + (if (e - 2 * workBits) % 2 = 0 then 0 else 1)
  let v := m * 2 ^ sh.toNat
  let r := isqrt v
  .fin false r ((e - sh) / 2) (r * r ≠ v)

/-! ### Node formats (R68, R89) -/

/-- A finite result rounded once, to nearest even, into a node format; beyond the largest finite
value it is infinite with cause `OVERFLOW` (R89). Format 0x0E saturates and says so (R87); its zero has no sign. -/
def roundNode (f : Nat) (x : Num) : Num × Nat :=
  match x with
  | .fin n m e s =>
    if f = 0x0E then
      let (b, ovf) := roundInt {} 32 0 n m e s
      (.ofInt (sext 32 b), b2n ovf)
    else
      match floatParams f with
      | some (eb, fb, bias) =>
        let (b, ovf) := roundFloat {} f eb fb bias m e s
        if ovf then (.inf n .overflow, 0)
        else (decodeFloat f eb fb bias ((if n then 2 ^ (eb + fb) else 0) + b), 0)
      | none => (x, 0)
  | .zero n => (.zero (n && f ≠ 0x0E), 0)
  | x => (x, 0)

/-- The combination of two present nodes (R89, R102), with the number of INT32 saturations (R87). -/
def combine (f : Nat) (a b : Num) : Num × Nat := roundNode f (addExact a b)

/-! ### Leaves (R86, R101) -/

/-- The window width of an accumulator (R86). -/
def window (f : Nat) : Nat := if f = 0x01 then 108 else 50

/-- The value of a leaf whose products are all finite (R86). An INT32 accumulator's zero has no sign (R68). -/
def finiteLeaf (f : Nat) (ps : List Num) : Num :=
  let es := ps.filterMap fun p => match p with
    | .fin n m e s => some (Num.fin n m e s).exponent
    | _ => none
  match es with
  | [] => .zero (f ≠ 0x0E && ps.all Num.neg?)
  | e :: es =>
    let unit := es.foldl max e - (window f : Int)
    let v : Int := (ps.map fun p => p.unitsAt unit).sum
    if v = 0 then .zero false else (roundNode f (.fin (v < 0) v.natAbs unit false)).1

/-- The value of a leaf from its products (R86, R101). -/
def leaf (f : Nat) (ps : List Num) : Num :=
  let nans := ps.filterMap fun p => match p with
    | .nan c => some c
    | _ => none
  match nans with
  | c :: cs => .nan (cs.foldl Cause.join c)
  | [] =>
    let infs := ps.filterMap fun p => match p with
      | .inf n _ => some n
      | _ => none
    match infs with
    | [] => finiteLeaf f ps
    | n :: ns => if ns.all (· == n) then .inf n .overflow else .nan .infMinusInf

/-! ### Carry stacks (R92) -/

/-- Pushes a node on a carry stack, whose head is its top, with the saturations met (R92). -/
def pushNode (f : Nat) : List Node → Node → List Node × Nat
  | [], n => ([n], 0)
  | l :: rest, n =>
    if l.level ≠ n.level || l.index % 2 ≠ 0 then (n :: l :: rest, 0)
    else
      let (v, k) := combine f l.value n.value
      let (st, k') := pushNode f rest { value := v, level := l.level + 1, index := l.index / 2 }
      (st, k + k')

/-- Folds a carry stack's remaining entries onto the last (R92). -/
def finishNodes (f : Nat) (acc : Num) : List Node → Num × Nat
  | [] => (acc, 0)
  | n :: rest =>
    let (v, k) := combine f n.value acc
    let (w, k') := finishNodes f v rest
    (w, k + k')

/-- The root that a carry stack gives; none where nothing was pushed (R92). -/
def finishStack (f : Nat) : List Node → Option (Num × Nat)
  | [] => none
  | n :: rest => some (finishNodes f n.value rest)

/-- The root of values pushed as leaves from an index (R88, R90), with the saturations met. -/
def treeRoot (f : Nat) (xs : List Num) : Option (Num × Nat) :=
  let r := xs.foldl (fun (a : List Node × Nat × Nat) x =>
    let (st, k) := pushNode f a.1 { value := x, level := 0, index := a.2.1 }
    (st, a.2.1 + 1, a.2.2 + k)) ([], 0, 0)
  (finishStack f r.1).map fun p => (p.1, p.2 + r.2.2)

/-- The products of a row slice and a column slice (R83). -/
def products (xs ys : List Num) : List Num := List.zipWith mulExact xs ys

/-- Cuts a list into leaves of 16 (R85). -/
def leaves16 : Nat → List Num → List (List Num)
  | 0, _ => []
  | n + 1, xs => if xs.isEmpty then [] else xs.take 16 :: leaves16 n (xs.drop 16)

/-- The node of a group of leaves of one dot product: a pass's result for one output element (R23,
R88). -/
def groupNode (f : Nat) (xs ys : List Num) : Option (Num × Nat) :=
  let ps := products xs ys
  treeRoot f ((leaves16 (ps.length / 16 + 1) ps).map (leaf f))

end Sys2Proof.Machine
end

