-- ==== Sys2Proof/Machine/Operands.lean ====
section
/-! DEFINITION. Operand forms: tile descriptors and where their elements lie (R62, R65, R128), the
checks of R129 and R130 to R135, reading a tile's values, encoding an output tile (R67, R76), and the
scalar operands and predicates of R121 to R123. -/

namespace Sys2Proof.Machine

/-! ### Descriptors (R128) -/

/-- A tile descriptor's fields (R128). A collective's part of a tile (R293) is a descriptor too: `rowOff` counts the stored
rows before its first, `blockOff` its first row's place in the first block that runs down columns (R65). -/
structure Desc where
  base : Word
  rows : Nat
  cols : Nat
  stride : Nat
  format : Nat
  layout : Nat
  xpose : Bool
  mxCols : Bool
  scaleBase : Nat
  versionTag : Nat
  statTag : Nat
  reserved : Bool
  rowOff : Nat := 0
  blockOff : Nat := 0
  deriving DecidableEq, Repr

/-- Reads a descriptor register (R128). -/
def Desc.parse (d : Descr) : Desc :=
  { base := d.setWidth 64
    rows := 16 * (bits d 75 64 + 1)
    cols := 16 * (bits d 87 76 + 1)
    stride := bits d 119 88
    format := bits d 127 120
    layout := bits d 131 128
    xpose := bits d 132 132 = 1
    mxCols := bits d 133 133 = 1
    scaleBase := bits d 183 136
    versionTag := bits d 199 184
    statTag := bits d 207 200
    reserved := bits d 135 134 ≠ 0 || bits d 255 208 ≠ 0 }

/-- Element bits. -/
def Desc.width (d : Desc) : Nat := elemBits d.format
/-- The device that holds the tile. -/
def Desc.dev (d : Desc) : Nat := devOf d.base
/-- The local address of stored element (0, 0). -/
def Desc.loc (d : Desc) : Nat := locOf d.base
/-- Stored rows (R128). -/
def Desc.storedRows (d : Desc) : Nat := if d.xpose then d.cols else d.rows
/-- Stored columns (R128). -/
def Desc.storedCols (d : Desc) : Nat := if d.xpose then d.rows else d.cols
/-- Bytes of a stored row (R62). -/
def Desc.rowBytes (d : Desc) : Nat := d.storedCols * d.width / 8
/-- Whether one stored row serves all rows (R129). -/
def Desc.broadcastRow (d : Desc) : Bool := d.stride = 0

/-- The ranges of the stored elements: one for each stored row in `ROW`, one for each block row in
`BLOCK16` (R128), and in a part that cuts block rows one for each stretch of 16 elements. -/
def Desc.elemRanges (d : Desc) : List (Nat × Nat) :=
  if d.stride = 0 then [(d.loc, d.rowBytes)]
  else if d.layout = 1 && d.rowOff % 16 = 0 && d.storedRows % 16 = 0 then
    (countUp (d.loc + d.rowOff / 16 * d.stride) d.stride (d.storedRows / 16)).map fun a => (a, 16 * d.rowBytes)
  else if d.layout = 1 then
    (countUp d.rowOff 1 d.storedRows).flatMap fun i => (List.range (d.storedCols / 16)).map fun q =>
      (d.loc + i / 16 * d.stride + q * 32 * d.width + i % 16 * 2 * d.width, 2 * d.width)
  else (countUp (d.loc + d.rowOff * d.stride) d.stride d.storedRows).map fun a => (a, d.rowBytes)

/-- Scale bytes of a tile (R65): blocks in a row times rows, or blocks down a column times columns. -/
def Desc.scaleBytes (d : Desc) : Nat :=
  if !isMx d.format then 0
  else if d.mxCols then ceilDiv (d.blockOff + d.rows) 32 * d.cols
  else (if d.stride = 0 then 1 else d.rows) * ceilDiv d.cols 32

/-- Every range a tile occupies, scales last. -/
def Desc.ranges (d : Desc) : List (Nat × Nat) :=
  d.elemRanges ++ (if d.scaleBytes = 0 then [] else [(d.scaleBase, d.scaleBytes)])

/-- The tile's stored bytes, scales included (R180). -/
def Desc.bytes (d : Desc) : Nat := (d.ranges.map (·.2)).sum

/-- Whether two ranges share a byte. -/
def rangesMeet (a b : Nat × Nat) : Bool := a.1 < b.1 + b.2 && b.1 < a.1 + a.2

/-- Whether two tiles share a byte of one module's range, wherever they lie. -/
def Desc.meets (x y : Desc) : Bool := x.ranges.any fun a => y.ranges.any (rangesMeet a)

/-- Whether two tiles share a byte of one module. -/
def Desc.overlaps (x y : Desc) : Bool := x.dev == y.dev && x.meets y

/-- Whether two tiles share a byte beside those that elements of both occupy. -/
def Desc.scalesMeet (x y : Desc) : Bool :=
  x.dev == y.dev
    && ((x.ranges.drop x.elemRanges.length).any (fun a => y.ranges.any (rangesMeet a))
      || (y.ranges.drop y.elemRanges.length).any fun a => x.elemRanges.any (rangesMeet a))

/-- The byte address and the bit in it where the stored element of logical (i, j) begins (R62, R128). -/
def Desc.elemPos (d : Desc) (i j : Nat) : Nat × Nat :=
  let (si, sj) := if d.xpose then (j, i) else (d.rowOff + i, j)
  let w := d.width
  if d.layout = 1 then
    let bit := (sj / 16) * 256 * w + (si % 16) * 16 * w + (sj % 16) * w
    (d.loc + (si / 16) * d.stride + bit / 8, bit % 8)
  else (d.loc + si * d.stride + sj * w / 8, sj * w % 8)

/-- The address of the scale byte of logical (i, j) (R65). -/
def Desc.scalePos (d : Desc) (i j : Nat) : Nat :=
  if d.mxCols then d.scaleBase + ((d.blockOff + i) / 32) * d.cols + j
  else d.scaleBase + (if d.stride = 0 then 0 else i) * ceilDiv d.cols 32 + j / 32

/-- The ranges of rows r to r + n and columns c to c + m of a whole tile; scales last. -/
def Desc.subRanges (d : Desc) (r n c m : Nat) : List (Nat × Nat) :=
  let (sr, sn, sc, sm) := if d.xpose then (c, m, r, n) else (r, n, c, m)
  let elems :=
    if d.layout = 1 then
      (countUp (sr / 16) 1 (sn / 16)).map fun b => (d.loc + b * d.stride + sc / 16 * 32 * d.width, sm / 16 * 32 * d.width)
    else (countUp sr 1 sn).map fun i => (d.loc + i * d.stride + sc * d.width / 8, sm * d.width / 8)
  let scales :=
    if !isMx d.format then []
    else if d.mxCols then (countUp (r / 32) 1 ((r + n - 1) / 32 + 1 - r / 32)).map fun b =>
      (d.scaleBase + b * d.cols + c, m)
    else (countUp r 1 n).map fun i => (d.scalePos i c, (c + m - 1) / 32 + 1 - c / 32)
  elems ++ scales

/-! ### Checks (R129, R151) -/

/-- What a use of a descriptor allows: as a destination, on another module or broadcast, a stride of
0, `XPOSE` = 1, and which formats: `ok` those that R57 allows in the use, `mx` whether an MX form is (R46), and `pair` those
that R69 and R132 pair with the instruction. -/
structure Use where
  num : Nat
  mx : Bool := true
  pair : Nat → Bool := fun _ => true
  dest : Bool := false
  remote : Bool := false
  broadcast : Bool := false
  zeroStride : Bool := false
  xpose : Bool := false
  ok : Nat → Bool

/-- The check of one descriptor (R129, R57, R46): operand and reason of the first breach found
(notes/assumptions/19.md for the order). A non-zero `MX_SCALE_BASE` or `MX_COLS` beside a format that is not MX is an MX
form that is not allowed, reason 7 (R129, R151; DEDUCED, notes/assumptions/53.md). `tagOpen` tells which statistics slots
are open. -/
def Desc.check (d : Desc) (u : Use) (dev : Nat) (tagOpen : Nat → Bool) : Option (Nat × Nat) :=
  let bad := fun (r : Nat) => some (u.num, r)
  if d.reserved then bad 6
  else if 1 < d.layout then bad 6
  else if !legalFormat d.format || !u.ok d.format then bad 1
  else if isMx d.format && !u.mx then bad 7
  else if !u.pair d.format then bad 2
  else if d.dev = 0xFFFF && !u.broadcast then bad 10
  else if d.dev ≠ dev && d.dev ≠ 0xFFFF && !u.remote then bad 10
  else if !isMx d.format && (d.scaleBase ≠ 0 || d.mxCols) then bad 7
  else if d.xpose && (!u.xpose || isMx d.format) then bad 7
  else if d.base.toNat % 16 ≠ 0 || d.stride % 16 ≠ 0 then bad 5
  else if d.stride = 0 &&
      (!u.zeroStride || d.layout = 1 || d.xpose || d.mxCols || d.rows ≠ 16) then bad 5
  else if d.stride ≠ 0 && d.stride < d.rowBytes then bad 5
  else if u.dest && d.layout = 1 && 16 < d.storedRows && d.stride < 16 * d.rowBytes then bad 5
  else if u.dest && d.statTag ≠ 0xFF && !tagOpen d.statTag then bad 9
  else none

/-- The first address of a range, page by page, that a test refuses. -/
def firstRefused (ok : Nat → Bool) (rs : List (Nat × Nat)) : Option Nat :=
  rs.findSome? fun r => ((unitsOf pageBytes r.1 r.2).find? fun i => !ok (i * pageBytes)).map fun i =>
    max r.1 (i * pageBytes)

/-- The first local address of a tile that a context may not read (R120). -/
def State.unreadable (s : State) (c : Nat) (d : Desc) : Option Nat := firstRefused (s.mayRead c) d.ranges

/-- The first local address of a tile that a context may not write (R120). -/
def State.unwritable (s : State) (c : Nat) (d : Desc) : Option Nat := firstRefused (s.mayWrite c) d.ranges

/-! ### Reading tiles -/

/-- The bits of an element, from a source of bytes. -/
def Desc.elemBitsAt (d : Desc) (get : Nat → Byte) (i j : Nat) : Nat :=
  let (a, b) := d.elemPos i j
  let n := ceilDiv (b + d.width) 8
  nbits (leNat ((List.range n).map fun k => get (a + k))) (b + d.width - 1) b

/-- Whether any byte of an element or of its scale lies in a lost line (R30, R244). -/
def Desc.elemLost (d : Desc) (lost : Nat → Bool) (i j : Nat) : Bool :=
  let (a, b) := d.elemPos i j
  lost a || lost (a + (b + d.width - 1) / 8) || (isMx d.format && lost (d.scalePos i j))

/-- The value of element (i, j): a lost one is NaN with cause `POISON_INPUT` (R30, R100). -/
def Desc.value (d : Desc) (get : Nat → Byte) (lost : Nat → Bool) (i j : Nat) : Num :=
  if d.elemLost lost i j then .nan .poisonInput
  else if isMx d.format then
    decodeMx d.format (d.elemBitsAt get i j) (get (d.scalePos i j)).toNat
  else decodeElem d.format (d.elemBitsAt get i j)

/-- A block of a tile's values: rows from r, columns from c. -/
def Desc.block (d : Desc) (get : Nat → Byte) (lost : Nat → Bool) (r n c m : Nat) : List (List Num) :=
  (List.range n).map fun i => (List.range m).map fun j => d.value get lost (r + i) (c + j)

/-- The local memory as a source of bytes, moved by `SLOT1_BASE` − `SLOT0_BASE` (R194). -/
def State.byteFrom (s : State) (shift : Int) (a : Nat) : Byte :=
  cellRead s.memory.bytes ((a : Int) + shift).toNat

/-- Which local addresses are lost, under the same move. -/
def State.lostFrom (s : State) (shift : Int) (a : Nat) : Bool :=
  s.lineLost (((a : Int) + shift).toNat / lineBytes)

/-- The raw bytes of a tile's ranges, in order. -/
def Desc.raw (d : Desc) (get : Nat → Byte) : Bytes :=
  d.ranges.flatMap fun r => (List.range r.2).map fun k => get (r.1 + k)

/-! ### Encoding output tiles -/

/-- Writes to memory: address and bytes. -/
abbrev Writes := List (Nat × Bytes)

/-- Packs elements of w bits, lowest first (R62). -/
def packBits (w : Nat) : List Nat → Nat
  | [] => 0
  | v :: vs => v % 2 ^ w + 2 ^ w * packBits w vs

/-- The writes of one row's elements from column c, in chunks of 16 (R62, R139). -/
def Desc.rowWrites (d : Desc) (i c : Nat) : Nat → List Nat → Writes
  | 0, _ => []
  | fuel + 1, vs =>
    if vs.isEmpty then []
    else ((d.elemPos i c).1, le (2 * d.width) (packBits d.width (vs.take 16)))
      :: d.rowWrites i (c + 16) fuel (vs.drop 16)

/-- Columns of a matrix of lists. -/
def transpose {α : Type} (m : Nat) (rows : List (List α)) : List (List α) :=
  (List.range m).map fun j => rows.filterMap fun r => r[j]?

/-- Cuts a list into groups of n. -/
def groupsOf {α : Type} (n : Nat) : Nat → List α → List (List α)
  | 0, _ => []
  | fuel + 1, xs => if xs.isEmpty then [] else xs.take n :: groupsOf n fuel (xs.drop n)

/-- An encoded block of an output tile, with the writes that store it. -/
structure Encoded where
  convs : List (List Conv)
  writes : Writes
  deriving DecidableEq, Repr

/-- Encodes rows from r and columns from c of an output tile (R67, R70 to R79). A block that crosses
the part's edges is none: parts begin and end at blocks of 32, or at the tile's edge. -/
def Desc.encode (d : Desc) (ieee : Bool) (rnd : Nat → Nat → Rounding) (r c : Nat)
    (vals : List (List Num)) : Encoded :=
  let tagged := vals.mapIdx fun i row => row.mapIdx fun j x => (rnd (r + i) (c + j), x)
  let n := vals.length
  let m := (vals.headD []).length
  let store := fun (convs : List (List Conv)) =>
    (convs.mapIdx fun i row => d.rowWrites (r + i) c (row.length / 16 + 1) (row.map (·.bits))).flatten
  if !isMx d.format then
    let convs := tagged.map fun row => row.map fun x => convert x.1 ieee d.format x.2
    { convs := convs, writes := store convs }
  else if d.mxCols then
    let cols := (transpose m tagged).map fun col => (groupsOf 32 (n / 32 + 1) col).map (encodeMxBlock d.format)
    let convs := transpose n (cols.map fun bs => (bs.map (·.2)).flatten)
    let scales := (cols.mapIdx fun j bs => bs.mapIdx fun b x =>
      (d.scalePos (r + 32 * b) (c + j), [BitVec.ofNat 8 x.1])).flatten
    { convs := convs, writes := store convs ++ scales }
  else
    let rows := tagged.map fun row => (groupsOf 32 (m / 32 + 1) row).map (encodeMxBlock d.format)
    let convs := rows.map fun bs => (bs.map (·.2)).flatten
    let scales := (rows.mapIdx fun i bs => bs.mapIdx fun b x =>
      (d.scalePos (r + i) (c + 32 * b), [BitVec.ofNat 8 x.1])).flatten
    { convs := convs, writes := store convs ++ scales }

/-- Puts a write in its place by address. -/
def insertWrite (w : Nat × Bytes) : Writes → Writes
  | [] => [w]
  | v :: vs => if w.1 ≤ v.1 then w :: v :: vs else v :: insertWrite w vs

/-- Writes sorted by address. -/
def sortWrites (ws : Writes) : Writes := ws.foldr insertWrite []

/-- Joins writes that follow each other without a gap. -/
def coalesce : Writes → Writes
  | [] => []
  | w :: ws => match coalesce ws with
    | [] => [w]
    | v :: vs => if w.1 + w.2.length = v.1 then (w.1, w.2 ++ v.2) :: vs else w :: v :: vs

/-- Carries out writes to the device range, each stretch without a gap as one write (R244). -/
def State.storeAll (s : State) (ws : Writes) : State :=
  (coalesce (sortWrites ws)).foldl (fun s w => s.store w.1 w.2) s

/-! ### Scalar operands (R109, R110, R123) -/

/-- A scalar register. -/
def Thread.reg (x : Thread) (r : BitVec 5) : Word := x.regs[r.toNat]'r.isLt

/-- Writes a scalar register. -/
def Thread.setReg (x : Thread) (r : BitVec 5) (v : Word) : Thread :=
  { x with regs := x.regs.set r.toNat v r.isLt }

/-- A predicate: p0 reads 1 (R110). -/
def Thread.pred (x : Thread) (p : BitVec 3) : Bool := p == 0 || x.preds[p.toNat]'p.isLt

/-- Writes a predicate: a write to p0 is ignored (R110). -/
def Thread.setPred (x : Thread) (p : BitVec 3) (v : Bool) : Thread :=
  if p = 0 then x else { x with preds := x.preds.set p.toNat v p.isLt }

/-- A descriptor register. -/
def Thread.descr (x : Thread) (t : BitVec 4) : Descr := x.descs[t.toNat]'t.isLt

/-- Writes a descriptor register. -/
def Thread.setDescr (x : Thread) (t : BitVec 4) (v : Descr) : Thread :=
  { x with descs := x.descs.set t.toNat v t.isLt }

/-- The second operand: SB, or `IMM` when `IMMB` is 1 (R123). -/
def secondOperand (w : ScalarWord) (x : Thread) : Word := if w.immb then w.imm else x.reg w.sb

/-- Whether the predicate test passes (R121). -/
def Thread.passes (x : Thread) (p : BitVec 3) (neg : Bool) : Bool := x.pred p != neg

end Sys2Proof.Machine
end

