-- ==== Sys2Proof/Machine/Flags.lean ====
section
/-! DEFINITION. The tile status record (R105 to R108): what a converted element adds to it, merging
records of parts of one tile, and its 16 bytes. -/

namespace Sys2Proof.Machine

/-- The value that classifies an element: the written value, and for an integer output the value before
conversion (R106). -/
def classified (f : Nat) (source : Num) (c : Conv) : Num := if isInt f then source else c.value

/-- The flags of one element: `NAN`, `POS_INF`, `NEG_INF` (R105). -/
def nfFlags : Num → BitVec 3
  | .nan _ => 1
  | .inf false _ => 2
  | .inf true _ => 4
  | _ => 0

/-- The largest `NF_COUNT` of a record (R105). -/
def nfCountMax : Nat := 16777216

/-- Adds the element at (i, j) to a record (R105, R107): the first non-finite element is the one of
smallest row-major position. `NF_COUNT` is held at its largest value. -/
def TileRecord.add (r : TileRecord) (i j : Nat) (v : Num) : TileRecord :=
  if !v.nonfinite then r
  else
    let first := r.count = 0 || i < r.firstRow || (i = r.firstRow && j < r.firstCol)
    { flags := r.flags ||| nfFlags v
      cause := if first then v.cause else r.cause
      firstRow := if first then i else r.firstRow
      firstCol := if first then j else r.firstCol
      count := satTo nfCountMax (r.count + 1) }

/-- Adds a block of elements whose first is at (i, j). -/
def TileRecord.addBlock (r : TileRecord) (f i j : Nat) (vals : List (List Num))
    (convs : List (List Conv)) : TileRecord :=
  let rows := List.zipWith (fun vs cs => List.zipWith (classified f) vs cs) vals convs
  (rows.zipIdx).foldl (fun r row => (row.1.zipIdx).foldl (fun r x =>
    r.add (i + row.2) (j + x.2) x.1) r) r

/-- Two records of disjoint parts of one tile, taken together (R107). -/
def TileRecord.merge (a b : TileRecord) : TileRecord :=
  if b.count = 0 then a
  else if a.count = 0 then b
  else
    let first := a.firstRow < b.firstRow || (a.firstRow = b.firstRow && a.firstCol ≤ b.firstCol)
    { flags := a.flags ||| b.flags
      cause := if first then a.cause else b.cause
      firstRow := if first then a.firstRow else b.firstRow
      firstCol := if first then a.firstCol else b.firstCol
      count := satTo nfCountMax (a.count + b.count) }

/-- The 16 bytes of a record (R105). -/
def TileRecord.bytes (r : TileRecord) : Bytes :=
  le 2 r.flags.toNat ++ le 1 r.cause.code ++ zeros 1 ++ le 2 r.firstRow ++ le 2 r.firstCol
    ++ le 4 r.count ++ zeros 4

end Sys2Proof.Machine
end

