-- ==== Sys2Proof/Machine/Stats.lean ====
section
/-! DEFINITION. Statistics tags (R157 to R169): what an element enters, contribution roots, and the
record. -/

namespace Sys2Proof.Machine

/-! ### Trees with absent leaves (R88, R89) -/

/-- The combination of two nodes that may be absent (R89). -/
def joinOpt (f : Nat) : Option Num → Option Num → Option Num
  | some a, some b => some (combine f a b).1
  | some a, none => some a
  | none, b => b

/-- One level of a tree. -/
def pairUp (f : Nat) : List (Option Num) → List (Option Num)
  | a :: b :: r => joinOpt f a b :: pairUp f r
  | r => r

/-- The levels of a tree, up to its root. -/
def levels (f : Nat) : Nat → List (Option Num) → Option Num
  | 0, xs => xs.headD none
  | n + 1, xs => levels f n (pairUp f xs)

/-- The root of a tree over leaves that may be absent, padded to a power of two (R88). -/
def optTree (f : Nat) (xs : List (Option Num)) : Option Num := levels f (clog2 xs.length) xs

/-! ### Finding tags -/

/-- Whether a tag is the one that a context's slot on an array names. -/
def Tag.is (x : Tag) (a c slot : Nat) : Bool := x.array == a && x.ctx == c && x.slot == slot

/-- The tag of a slot that is not `FREE` (R159). -/
def State.tag? (s : State) (a c slot : Nat) : Option Tag := s.tags.find? fun x => x.is a c slot

/-- Changes a tag. -/
def State.modTag (s : State) (a c slot : Nat) (f : Tag → Tag) : State :=
  { s with tags := s.tags.map fun x => if x.is a c slot then f x else x }

/-- Whether a slot is open for the check of R129. -/
def State.tagOpen (s : State) (a c slot : Nat) : Bool :=
  slot < 16 && (s.tag? a c slot).any fun x => x.state == .opened

/-- Tag units of an array that are bound (R157). -/
def State.unitsBound (s : State) (a : Nat) : Nat := (s.tags.filter fun x => x.array == a && x.bound).length

/-! ### Counts (R162 to R164, R169) -/

/-- Largest 48-bit count of a record (R169). -/
def statMax : Nat := 0xFFFFFFFFFFFF

/-- Adds one to a bin, which stops at 32 bits (R169). -/
def addBin (m : Map Nat) (b : Nat) : Map Nat × Bool :=
  let v := Map.getD m b 0
  if v < 0xFFFFFFFF then (Map.put m b (v + 1), false) else (m, true)

/-- The bin of a non-zero finite value (R163). -/
def binOf (x : Num) : Nat := (max 0 (min 255 (x.exponent + 127))).toNat

/-- Whether a value is finite and not zero. -/
def Num.binned : Num → Bool
  | .fin _ _ _ _ => true
  | _ => false

/-- Adds to a count of a tag, with saturation (R169). -/
def satCount (n k : Nat) : Nat × Bool := if n + k ≤ statMax then (n + k, false) else (statMax, true)

/-- Counts saturations of INT32 nodes (R87, R164, R169). -/
def Tag.addSats (x : Tag) (n : Nat) : Tag :=
  let (k, f) := satCount x.saturations n
  { x with saturations := k, countSaturated := x.countSaturated || f }

/-- Enters one element: its value before conversion, and what it became (R162 to R164). -/
def Tag.element (x : Tag) (f : Nat) (source : Num) (c : Conv) : Tag :=
  let (e, f1) := satCount x.elements 1
  let nf := (classified f source c).nonfinite
  let bin := !nf && c.value.binned
  let (n, f2) := satCount x.nonfinite (b2n nf)
  let (z, f3) := satCount x.zeros (b2n (!nf && !bin))
  let (k, f4) := satCount x.saturations (b2n c.oor)
  let (oh, g1) := if bin then addBin x.outHist (binOf c.value) else (x.outHist, false)
  let (rh, g2) := if source.binned then addBin x.rootHist (binOf source) else (x.rootHist, false)
  { x with elements := e, nonfinite := n, zeros := z, saturations := k, outHist := oh, rootHist := rh
           countSaturated := x.countSaturated || f1 || f2 || f3 || f4
           binSaturated := x.binSaturated || g1 || g2 }

/-- Enters a block of elements. -/
def Tag.block (x : Tag) (f : Nat) (vals : List (List Num)) (convs : List (List Conv)) : Tag :=
  (vals.zip convs).foldl (fun x r => (r.1.zip r.2).foldl (fun x e => x.element f e.1 e.2) x) x

/-! ### The sum of squares (R165 to R167) -/

/-- The leaf of an element (R165): absent where it is non-finite. -/
def squareLeaf (f : Nat) (source : Num) (c : Conv) : Option Num :=
  if (classified f source c).nonfinite then none
  else some (roundNode 0x01 (match c.value with
    | .zero _ => .zero false
    | v => mulExact v v)).1

/-- The trees over the columns of each 128-column block of a row that starts at a block's edge: the
block's number and its root (R166). -/
def rowSquares (f c : Nat) (vals : List Num) (convs : List Conv) : List (Nat × Option Num) :=
  (groupsOf 128 (vals.length / 128 + 1) (List.zipWith (squareLeaf f) vals convs)).mapIdx fun b xs =>
    (c / 128 + b, optTree 0x01 xs)

/-- The key of a row's root within a contribution: which contribution, column block and row. -/
def squareKey (k cb i : Nat) : Nat := k * 2 ^ 40 + cb * 2 ^ 20 + i

/-- Adds the row roots of a block at (r, c) of contribution k of an instruction. -/
def addSquares (m : Map (Option Num)) (k f r c : Nat) (vals : List (List Num))
    (convs : List (List Conv)) : Map (Option Num) :=
  ((vals.zip convs).zipIdx).foldl (fun m x => (rowSquares f c x.1.1 x.1.2).foldl (fun m b =>
    Map.put m (squareKey k b.1 (r + x.2)) b.2) m) m

/-- The root of contribution k from its rows' roots (R166). -/
def contributionRoot (m : Map (Option Num)) (k rows cols : Nat) : Option Num :=
  optTree 0x01 ((List.range (ceilDiv cols 128)).map fun cb =>
    optTree 0x01 ((List.range rows).map fun i => Map.getD m (squareKey k cb i) none))

/-- Lets the roots that are next in order enter (R167): n bounds them. -/
def Tag.drain (x : Tag) (now : Nat) : Nat → Tag × Nat
  | 0 => (x, 0)
  | n + 1 =>
    match Map.get? x.held x.entered with
    | none => (x, 0)
    | some r =>
      let y := { x with entered := x.entered + 1, roots := x.roots ++ [r.join], closeTime := now
                        held := Map.erase x.held x.entered }
      let (z, k) := y.drain now n
      (z, k + b2n r.isSome)

/-- A contribution has ended: its root enters once all lower ones have (R167). `root` is none where it
ended without completing. -/
def State.enterRoot (s : State) (a c slot index : Nat) (root : Option (Option Num)) : State :=
  match s.tag? a c slot with
  | none => s
  | some x =>
    let y := { x with held := Map.put x.held index root }
    let (z, k) := y.drain s.now y.held.length
    (s.modTag a c slot fun _ => z).count cStatContributions a k

/-- The index of the next contribution to a slot, taken at issue (R161). -/
def State.takeContribution (s : State) (a c slot : Nat) : Nat × State :=
  let i := ((s.tag? a c slot).map (·.issued)).getD 0
  (i, s.modTag a c slot fun x => { x with issued := i + 1 })

/-- The sum of squares of a tag (R167). -/
def Tag.sumSquares (x : Tag) : Num := (optTree 0x01 x.roots).getD (.zero false)

/-! ### The record (R168) -/

/-- The 2,112 bytes of a tag's record (R168). -/
def Tag.bytes (x : Tag) (gen dev : Nat) : Bytes :=
  let ss := convert {} false 0x01 x.sumSquares
  let inf := match x.sumSquares with
    | .inf _ _ => true
    | _ => false
  let flags := b2n x.binSaturated + 2 * b2n (x.countSaturated || 0xFFFFFFFF < x.issued) + 4 * b2n inf
    + 8 * b2n x.incomplete
  let hist := fun (m : Map Nat) => (List.range 256).flatMap fun b => le 4 (Map.getD m b 0)
  le 2 1 ++ le 1 x.slot ++ le 1 flags ++ le 1 x.array ++ le 1 0 ++ le 2 x.ctx ++ le 2 gen ++ le 2 dev
    ++ le 4 (min 0xFFFFFFFF x.issued) ++ le 8 x.openTime ++ le 8 x.closeTime ++ le 6 x.elements
    ++ le 6 x.zeros ++ le 6 x.saturations ++ le 6 x.nonfinite ++ le 8 ss.bits ++ hist x.outHist
    ++ hist x.rootHist

end Sys2Proof.Machine
end

