-- ==== Sys2Proof/Machine/Threads.lean ====
section
/-! DEFINITION. Threads: instruction words (R121 to R124), issue (R113, R119), traps (R150 to R154),
tile instructions in flight (R114, R136, R137), semaphores (R141 to R144), barriers (R145), and what a
waiting thread does when its wait ends (R140). -/

namespace Sys2Proof.Machine

/-! ### Instruction words (R121 to R123) -/

/-- The 128 bits of a scalar-group instruction (R121, R123). -/
abbrev scalarBits := encodeScalar

/-- The 128 bits of a tile-group instruction (R121, R122). -/
abbrev tileBits := encodeTile

/-- Which fields a scalar-group instruction uses; the rest must be zero (R124). -/
structure ScalarUse where
  sd : Nat := 0
  sa : Nat := 0
  sb : Nat := 0
  pd : Bool := false
  var : Nat := 0
  imm : Nat := 0
  choice : Bool := false
  deriving DecidableEq, Repr

/-- Whether a number has no bit outside a mask. -/
def within (v mask : Nat) : Bool := v &&& mask == v

/-- Whether a scalar-group instruction's unused fields are zero (R123, R124). With `choice`, `IMMB`
selects between SB and `IMM`, and the one not selected is unused. -/
def scalarLegal (w : ScalarWord) (u : ScalarUse) : Bool :=
  w.rsvdHi == 0 && w.rsvdLo == 0 && within w.sd.toNat u.sd && within w.sa.toNat u.sa
    && (u.pd || w.pd == 0) && within w.var.toNat u.var
    && (if u.choice then (if w.immb then w.sb == 0 else w.imm == 0 && within w.sb.toNat u.sb)
        else !w.immb && within w.sb.toNat u.sb && within w.imm.toNat u.imm)

/-- Which fields a tile-group instruction uses (R122, R124). `conv` stands for `RMODE`, `OVF_IEEE`,
`REC`, S2 and S3 of the seven converting instructions. -/
structure TileUse where
  d : Bool := false
  a : Bool := false
  b : Bool := false
  c : Bool := false
  s1 : Bool := false
  s3 : Bool := false
  conv : Bool := false
  group : Bool := true
  noTrap : Bool := true
  var : Nat := 0
  imm : Nat := 0
  deriving DecidableEq, Repr

/-- Whether a tile-group instruction's unused fields are zero (R122, R124). -/
def tileLegal (w : TileWord) (u : TileUse) : Bool :=
  w.rsvd == 0 && (u.d || w.d == 0) && (u.a || w.a == 0) && (u.b || w.b == 0) && (u.c || w.c == 0)
    && (u.s1 || w.s1 == 0) && (u.s3 || u.conv || w.s3 == 0)
    && (u.conv || (w.rmode == 0 && !w.ovfIeee && !w.recBit && w.s2 == 0))
    && (u.group || w.cg == 0) && (u.noTrap || !w.noTrap)
    && within w.var.toNat u.var && within w.imm.toNat u.imm

/-! ### Traps (R150 to R154) -/

/-- `ILLEGAL_INSTRUCTION` (R150). -/
def trIllegal : Trap := { kind := 1, code := .badPacket }
/-- `ILLEGAL_OPERAND` with an operand and a reason (R151). -/
def trOperand (operand reason : Nat) : Trap :=
  { kind := 2, code := .badPacket, detail := operand + 256 * reason }
/-- `MISALIGNED`. -/
def trMisaligned (a : Word) : Trap := { kind := 3, code := .badPacket, address := a }
/-- `ACCESS`. -/
def trAccess (a : Word) : Trap := { kind := 4, code := .notPermitted, address := a }
/-- `UNAVAILABLE`. -/
def trUnavailable : Trap := { kind := 5, code := .unsupported }
/-- `CONDITION` with its code; `PEER_TIMEOUT` names the peer (R152). -/
def trCondition (c : Code) (dev : Nat := 0) (a : Word := 0) : Trap :=
  { kind := 6, code := c, address := a, detail := if c == .peerTimeout then dev else 0 }
/-- `RESET` (R378). -/
def trReset : Trap := { kind := 7, code := .contextReset }

/-- Codes that make a step not clean (R199). -/
def Code.dirties (c : Code) : Bool :=
  c == .peerTimeout || c == .shardVersionMismatch || c == .weightLost || c == .twinCopyLost

/-- Withdraws a thread's arrivals at its context's barriers; a barrier left without arrivals is idle
(R145). -/
def State.withdrawArrivals (s : State) (t : ThreadId) (c : Nat) : State :=
  s.modCtx c fun x =>
    { x with barriers := (x.barriers.map fun b =>
        (b.1, { b.2 with arrivals := b.2.arrivals.filter (· != t) })).filter fun b =>
          !b.2.arrivals.isEmpty }

/-- The 64 bytes of a trap record (R152). -/
def trapBytes (s : State) (t : ThreadId) (x : Thread) (pc : Word) (word : InstrWord) (r : Trap) : Bytes :=
  le 1 r.kind ++ zeros 1 ++ le 2 r.code.num ++ le 2 t.array ++ le 1 (t.index % 64) ++ zeros 1 ++ le 8 s.now
    ++ le 8 pc.toNat ++ le 8 x.pc.toNat ++ le 16 word.toNat ++ le 8 r.address.toNat ++ le 2 x.ctx
    ++ le 2 (s.gen x.ctx) ++ le 4 r.detail

/-- Whether one trap comes before another as a launch's first (R154). -/
def trapBefore (a b : Nat × Nat × Nat) : Bool :=
  a.1 < b.1 || (a.1 == b.1 && (a.2.1 < b.2.1 || (a.2.1 == b.2.1 && a.2.2 < b.2.2)))

/-- The cycles of a wait that is over, where a counter counts them (R6, R114, R156): how many they were no operand
tells (notes/assumptions/5.md). -/
def State.countWait (s : State) (t : ThreadId) : State :=
  match (s.thread t).wait with
  | some (.semWait _ _ _ _) => s.countFree cSemWait t.array
  | some (.barrier _ _ _ _ _) => s.countFree cSemWait t.array
  | some (.slotEnd _ _) => s.countFree cSemWait t.array
  | some (.slotGate _ _) => s.countFree cSemWait t.array
  | some .tileQueue => s.countFree cTileQueueFull t.array
  | some .unitStall => s.countFree cFoyerStall t.array
  | _ => s

/-- One thread takes a trap: its record is written and it enters `TRAPPED` (R152). Only a thread that runs or waits
does (R112), so a launch has one record of a thread at most. It leaves its
barriers (R145) and interrupts a current slot (R147). A `LAUNCH_STOPPED`, which carries the code of the first trap, is
never the first trap itself (R151, R154). -/
def State.trapOne (s : State) (t : ThreadId) (pc : Word) (word : InstrWord) (r : Trap) : State :=
  let x := s.thread t
  match (if x.state == .running || x.state == .waiting then s.launch? x.launch else none) with
  | none => s
  | some l =>
    let s1 := (s.countWait t).store (l.trapArea + 64 * (64 * t.array + t.index % 64)) (trapBytes s t x pc word r)
    let s2 := (s1.modThread t fun x => { x with state := .trapped, wait := none }).withdrawArrivals t x.ctx
    let s3 := s2.modLaunch x.launch fun l =>
      let first := match l.firstTrap with
        | none => true
        | some f => r.kind ≠ 8 && trapBefore (s.now, t.array, t.index % 64) (f.1, f.2.1, f.2.2.1)
      { l with traps := l.traps + 1
               firstTrap := if first then some (s.now, t.array, t.index % 64, r) else l.firstTrap
               slotInterrupted := l.slotInterrupted || l.slot.isSome
               dirty := true }
    s3.count cTraps t.array

/-- A thread takes a trap; under `STOP` the launch's other threads that run or wait stop with it
(R153). A suspended thread takes it when it runs again, since R112 lets no `SUSPENDED` thread trap. No instruction
causes a `LAUNCH_STOPPED` or a `RESET`: the spec does not say what `FAULT_PC` and `INSTRUCTION` of such a record
hold, and here they are the thread's next `PC` and the word it last waited in (DESIGN CHOICE,
notes/assumptions/49.md). -/
def State.trap (s : State) (t : ThreadId) (pc : Word) (word : InstrWord) (r : Trap) : State :=
  let x := s.thread t
  let id := x.launch
  let s1 := s.trapOne t pc word r
  match s1.launch? id with
  | none => s1
  | some l =>
    if x.state == .suspended then s.modThread t fun x => { x with due := some (x.due.getD (pc, word, r)) }
    else if l.policyContinue || (x.state != .running && x.state != .waiting) then s1
    else
      let code := (l.firstTrap.map fun f => f.2.2.2.code).getD r.code
      (s1.launchThreads id).foldl (fun s u =>
        let y := s.thread u
        if y.state == .running || y.state == .waiting then
          s.trapOne u y.pc y.word { kind := 8, code := code }
        else s) s1

/-! ### Issue (R113, R119) -/

/-- The next instruction. -/
def State.advance (s : State) (t : ThreadId) : State := s.modThread t fun x => { x with pc := x.pc + 16 }

/-- A thread enters `WAITING` in an instruction (R112). -/
def State.waitFor (s : State) (t : ThreadId) (word : InstrWord) (w : Wait) : State :=
  s.modThread t fun x => { x with state := .waiting, wait := some w, word := word }

/-- A waiting thread runs again (R112). -/
def State.wake (s : State) (t : ThreadId) : State :=
  s.modThread t fun x => { x with state := .running, wait := none }

/-- What is wrong with a thread's fetch (R119, R120, R150). -/
def State.fetchTrap (s : State) (x : Thread) : Option Trap :=
  if devOf x.pc ≠ s.lodge.deviceId || x.pc.toNat % 16 ≠ 0 then some trIllegal
  else if !s.mayRead x.ctx (locOf x.pc) then some (trAccess x.pc)
  else none

/-- The 16 bytes that a thread's `PC` names, as an instruction word (R12, R121). -/
def State.wordAt (s : State) (x : Thread) : InstrWord := BitVec.ofNat 128 (leNat (s.bytesAt (locOf x.pc) 16))

/-- A thread issues an instruction (R113): the fetch is checked, then the unused fields, then the
predicate (R124); the body is what the instruction does. Bytes in memory whose `MAJOR` and `MINOR` are not listed trap
(R124), whatever the command; where memory holds another listed word than the command's, the instruction cache holds the
command's (R119, notes/assumptions/17.md). -/
def State.issue (s : State) (t : ThreadId) (word : InstrWord) (p : BitVec 3) (neg legal : Bool)
    (body : Thread → State → State) : State :=
  let x := s.thread t
  if x.state ≠ .running || (s.ctx x.ctx).state != .active then s
  else match s.fetchTrap x with
    | some r => s.trap t x.pc word r
    | none =>
      let s1 := s.count cInstrIssued t.array
      let m := s.wordAt x
      if !wordListed m then s1.trap t x.pc m trIllegal
      else if !legal then s1.trap t x.pc word trIllegal
      else if !x.passes p neg then s1.advance t
      else body x s1

/-- A scalar-group instruction issues. -/
def State.issueScalar (s : State) (t : ThreadId) (major minor : Nat) (w : ScalarWord) (u : ScalarUse)
    (body : Thread → State → State) : State :=
  s.issue t (scalarBits w major minor) w.pred w.pneg (scalarLegal w u) body

/-! ### Versioned readers (R195) -/

/-- Changes a version region's reader count. -/
def State.countReader (s : State) (c region slot : Nat) (up : Bool) : State :=
  let f := fun (n : Nat) => if up then n + 1 else n - 1
  { s with trains := Map.modify s.trains c fun t =>
      { t with regions := modAt t.regions region fun r =>
          if slot = 0 then { r with readers0 := f r.readers0 } else { r with readers1 := f r.readers1 } } }

/-- An instruction gives up its place as a reader (R195). -/
def State.dropReader (s : State) (t : ThreadId) (o : TileOp) : State :=
  match o.reader, o.bound with
  | true, some (r, k) =>
    (s.countReader (s.thread t).ctx r k false).modOp t o.id fun o => { o with reader := false }
  | _, _ => s

/-! ### Semaphores (R141 to R144) -/

/-- Whether a (device, context) pair belongs to a context's peer set (R272). -/
def State.isPeer (s : State) (ct dev c : Nat) : Bool :=
  (s.coll.groups.any fun g => g.1 / 4096 == ct && g.2.members.contains (dev, c))
    || (c == ct && (s.ctx ct).broadcast.contains dev)

/-- Counts a violation of a cause for a context or an arriving port (R277). -/
def State.violation (s : State) (cause inst : Nat) : State :=
  s.count (if cause ≤ 3 then (0x07, cause - 1) else (0x08, cause - 4)) inst

/-- The contexts that exist. -/
def State.liveCtxs (s : State) : Map Ctx := s.ctxs.filter fun e => e.2.state != .unused

/-- Whether a (device, context) pair is a peer of a context of the pool (R271). -/
def State.poolPeer (s : State) (dev c : Nat) : Bool := s.liveCtxs.any fun e => s.isPeer e.1 dev c

/-- The check of a semaphore on this module that a context names (R142): none where the access is
carried out; else the cause of R277 and the instance it counts under. Cause 0 is an address that lies in no page of
another context: outside every page, or in a page of the context itself that is dropped or read-only (R120). No port
brings a local post, so `NO_MAPPING`, which R277 counts per port, counts under port 0 (DESIGN CHOICE,
notes/assumptions/50.md). -/
def State.semRefused (s : State) (c a : Nat) : Option (Nat × Nat) :=
  match if a < deviceEnd then s.page? a else none with
  | none => some (0, 0)
  | some p => match p.owner with
    | .pool =>
      if !p.isMapped then some (3, 0)
      else if s.poolPeer s.lodge.deviceId c then some (5, 0) else some (4, 0)
    | .ctx ct =>
      if ct = c then (if p.isMapped && p.rw then none else some (0, 0))
      else if !p.isMapped then some (3, 0)
      else if !s.isPeer ct s.lodge.deviceId c then some (4, ct)
      else if !p.rw then some (5, ct) else none

/-- Whether a held wait fails (R143): the code with which it does. -/
def State.semFails (s : State) (c : Nat) (m : Sem) : Option Code :=
  if m.owner = c && s.ownerStands m then none
  else if !s.ownerStands m then some .noSuchContext
  else if s.suspendedForSem m.owner then some .ownerSuspended
  else none

/-! ### Conditions (R137) -/

/-- Notes for the step's flag that a launch met a code (R199). -/
def State.noteCode (s : State) (launch : Nat) (c : Code) : State :=
  if c.dirties then s.modLaunch launch fun l => { l with dirty := true } else s

/-- A waiting instruction ends with a condition: with `NOTRAP` its predicate is set and `COND_CODE`
receives the code, and the thread goes on; otherwise the thread traps (R143). -/
def State.failWait (s : State) (t : ThreadId) (pred : Nat) (noTrap : Bool) (c : Code) : State :=
  let x := s.thread t
  let s1 := (s.noteCode x.launch c).count cOwnerSuspendedFails t.array
    (b2n (c == .ownerSuspended || c == .noSuchContext))
  if noTrap then
    ((s1.countWait t).modThread t fun x =>
      { x.setPred (BitVec.ofNat 3 pred) true with condCode := c.num, state := .running, wait := none }).advance t
  else s1.trap t x.pc x.word (trCondition c)

/-! ### Waiting for groups (R140) -/

/-- Whether the masked groups and the earlier stores are complete (R140). -/
def Thread.maskDone (x : Thread) (mask : Nat) : Bool :=
  x.storesOut.isEmpty &&
    (List.range 8).all fun g => !bitOf mask g || (x.groups.toList.getD g {}).count == 0

/-- The first condition by completion order among the masked groups. -/
def Thread.firstCond (x : Thread) (mask : Nat) : Option (Code × Nat) :=
  (List.range 8).foldl (fun best g =>
    match (if bitOf mask g then (x.groups.toList.getD g {}).cond else none), best with
    | none, b => b
    | some c, none => some c
    | some c, some b => if c.2 < b.2 then some c else some b) none

/-- What a `FENCE` leaves once its wait is over (R140, R196): the code of the first condition, the
predicate, the masked slots cleared, and the results of `VER_READ` delivered. -/
def Thread.fenced (x : Thread) (mask pred : Nat) : Thread :=
  let hit := x.firstCond mask
  let y := { x.setPred (BitVec.ofNat 3 pred) hit.isSome with
    condCode := (hit.map fun c => c.1.num).getD x.condCode
    groups := Vector.ofFn fun g : Fin 8 =>
      let q := x.groups[g]
      if bitOf mask g then { q with cond := none } else q
    pendRegs := x.pendRegs.filter fun r => !bitOf mask r.1
    state := .running, wait := none, pc := x.pc + 16 }
  (x.pendRegs.filter fun r => bitOf mask r.1).foldl
    (fun y r => y.setReg (BitVec.ofNat 5 r.2.1) r.2.2) y

/-- An arrival at a barrier (R145); its release lets every participant go on. -/
def State.arrive (s : State) (t : ThreadId) (index parts pred : Nat) : State :=
  let x := s.thread t
  let b := Map.getD (s.ctx x.ctx).barriers index { participants := parts, arrivals := [] }
  if parts < 1 || 4096 < parts || b.participants ≠ parts then
    s.trap t x.pc x.word (trOperand 5 11)
  else
    let arr := b.arrivals ++ [t]
    if arr.length < parts then
      (s.modCtx x.ctx fun c => { c with barriers := Map.put c.barriers index { b with arrivals := arr } }).modThread
        t fun x => { x with wait := some (.barrier index parts 0 pred true) }
    else
      arr.foldl (fun s u =>
        let q := match (s.thread u).wait with
          | some (.barrier _ _ _ q _) => q
          | _ => pred
        (s.countWait u).modThread u fun y =>
          { y.setPred (BitVec.ofNat 3 q) false with
            state := .running, wait := none, pc := y.pc + 16 })
        (s.modCtx x.ctx fun c => { c with barriers := Map.erase c.barriers index })

/-- Counts a write or post by a context of this module that `semRefused` refuses as a violation (R276, R277). -/
def State.localViolation (s : State) (c a : Nat) (v : Nat × Nat) : State :=
  if v.1 ≠ 0 then s.violation v.1 v.2
  else if (s.page? a).any Page.isMapped then s.violation 5 c else s.violation 3 v.2

/-- A local post of n (R142, R144): one that fails its checks in a page of another context is
discarded and counted as a violation; a post outside every mapping, or to the poster's own read-only
page, is refused with `ACCESS` where it was not a broadcast (R120). -/
def State.postLocal (s : State) (t : ThreadId) (c a n : Nat) (broadcast : Bool) : State × Option Trap :=
  match s.semRefused c a with
  | none => (s.semAdd t.array a n, none)
  | some v =>
    if v.1 = 0 && !broadcast then (s, some (trAccess (globalAddr s.lodge.deviceId a)))
    else (s.localViolation c a v, none)

/-- The devices that a post or a store to a global address goes to (R118, R278). -/
def State.targets (s : State) (c : Nat) (a : Word) : List Nat :=
  if devOf a = 0xFFFF then (s.ctx c).broadcast else [devOf a]

/-- The earlier of two devices in a context's broadcast set; 0xFFFF stands for none (R278). -/
def State.firstFailed (s : State) (c d e : Nat) : Nat :=
  if d = 0xFFFF then e
  else
    let b := (s.ctx c).broadcast
    if b.idxOf e < b.idxOf d then e else d

/-- The state of a thread whose instruction is over: it runs on, or is taken for suspension at this instruction
boundary (R112, R149). -/
def State.goesOn (s : State) (c : Nat) : ThreadState :=
  if (s.ctx c).state == .suspending || (s.ctx c).state == .suspended then .suspended else .running

/-- A `SEM_POST` is over: with a member that timed out it ends with `PEER_TIMEOUT` (R278). A thread of a context that
is being suspended is taken then (R149). -/
def State.postEnd (s : State) (t : ThreadId) (pred : Nat) (noTrap : Bool) (failDevice : Nat) : State :=
  let x := s.thread t
  let go := s.goesOn x.ctx
  if failDevice = 0xFFFF then
    s.modThread t fun x =>
      { x.setPred (BitVec.ofNat 3 pred) false with state := go, wait := none, pc := x.pc + 16 }
  else
    let s1 := s.noteCode x.launch .peerTimeout
    if noTrap then
      let s2 := { s1 with nextOrder := s1.nextOrder + 1 }
      s2.modThread t fun x =>
        { x.setPred (BitVec.ofNat 3 pred) true with
          groups := x.groups.set 0 { x.groups[0] with
            cond := some (x.groups[0].cond.getD (.peerTimeout, s1.nextOrder)) }
          state := go, wait := none, pc := x.pc + 16 }
    else s1.trap t x.pc x.word (trCondition .peerTimeout failDevice)

/-- A `SEM_POST` whose groups are complete adds n at every target (R140, R142, R278). -/
def State.postStart (s : State) (t : ThreadId) (a : Word) (n pred : Nat) (noTrap : Bool) : State :=
  let x := s.thread t
  let r := (s.targets x.ctx a).foldl (fun (r : State × List Nat × Nat × Option Trap) d =>
    let (s, tags, bad, tr) := r
    if d = s.lodge.deviceId then
      let (s1, tr') := s.postLocal t x.ctx (locOf a) n (devOf a == 0xFFFF)
      (s1, tags, bad, tr.or tr')
    else if !s.hasRoute d then (s.noRoute, tags, s.firstFailed x.ctx bad d, tr)
    else
      let (tag, s1) := s.request tSemPost d x.ctx (globalAddr d (locOf a)) 0 (.post t)
        (BitVec.ofNat 64 n) (thread := some t)
      (s1, tags ++ [tag], bad, tr)) (s, [], 0xFFFF, none)
  match r with
  | (s1, _, _, some tr) => s1.trap t x.pc x.word tr
  | (s1, [], bad, none) => s1.postEnd t pred noTrap bad
  | (s1, tags, bad, none) =>
    s1.modThread t fun y => { y with wait := some (.semPost a n 0 pred noTrap true tags bad) }

/-! ### Timetables (R146, R147, R173, R174) -/

/-- A thread ends (R127): `EXITED`. -/
def State.exitThread (s : State) (t : ThreadId) : State :=
  (s.countWait t).modThread t fun x => { x with state := .exited, wait := none }

/-- A slot entry of a timetable (R146). -/
structure SlotEntry where
  kind : Nat
  stage : Nat
  microBatch : Nat
  entry : Word
  waitSem : Nat
  postSem : Word
  deriving DecidableEq, Repr

/-- Reads slot k's entry. -/
def State.slotEntry (s : State) (l : Launch) (k : Nat) : SlotEntry :=
  let b := s.bytesAt (l.timetable + 32 + 32 * k) 32
  { kind := field b 0 1, stage := field b 2 2, microBatch := field b 4 4,
    entry := BitVec.ofNat 64 (field b 8 8), waitSem := field b 16 8,
    postSem := BitVec.ofNat 64 (field b 24 8) }

/-- The trap of a timetable that breaks its layout, at the `SLOT` that reads slot k (R146, R118; for
`WAIT_SEM` and a broadcast `POST_SEM`, notes/assumptions/23.md). -/
def State.slotTrap (s : State) (l : Launch) (k : Nat) : Option Trap :=
  let a := l.timetable + 32 + 32 * k
  let h := s.bytesAt l.timetable 32
  let e := s.slotEntry l k
  if !s.canRead l.ctx l.timetable 32 then some (trAccess (globalAddr s.lodge.deviceId l.timetable))
  else if !s.canRead l.ctx a 32 then some (trAccess (globalAddr s.lodge.deviceId a))
  else if field h 0 2 ≠ 1 || field h 2 2 ≠ 0 || field h 8 24 ≠ 0 || field h 4 4 < 1 || 65536 < field h 4 4 then
    some (trOperand 6 12)
  else if 5 < e.kind || field (s.bytesAt a 32) 1 1 ≠ 0 || e.waitSem % 16 ≠ 0 || e.postSem.toNat % 16 ≠ 0 then
    some (trOperand 6 12)
  else if devOf e.postSem = 0xFFFF then some (trOperand 6 10)
  else if e.waitSem / 2 ^ 48 ≠ 0 && e.waitSem / 2 ^ 48 ≠ s.lodge.deviceId then some (trOperand 6 10)
  else none

/-- Whether a gate opened. -/
def Gate.isOpen : Gate → Bool
  | .opened => true
  | _ => false

/-- The local address of a slot's phase record (R173). -/
def Launch.phaseAddr (l : Launch) (k : Nat) : Nat := l.timetable + 32 + 32 * l.slotCount + 32 * k

/-- The trap of a phase record that the context's mappings do not let be written (R152, R173). -/
def State.phaseTrap (s : State) (l : Launch) : Trap :=
  trAccess (globalAddr s.lodge.deviceId (l.phaseAddr (l.slot.getD 0)))

/-- Writes the phase record of a launch's current slot (R173, R174); whether the context's mappings let it
be written. -/
def State.writePhase (s : State) (id : Nat) (ended : Bool) : Bool × State :=
  match s.launch? id with
  | none => (true, s)
  | some l =>
    let k := l.slot.getD 0
    let e := s.slotEntry l k
    let a := l.phaseAddr k
    let opened := l.gate.isOpen
    let start := if opened then l.slotStarted.getD 0 else 0
    let wait := if opened then min 0xFFFFFFFF (start - l.gateArrival) else 0
    if !s.canWrite l.ctx a 32 then (false, s)
    else (true, (s.store a (le 4 k ++ le 1 e.kind
      ++ le 1 (b2n opened + 2 * b2n ended + 4 * b2n l.suspendedDuring) ++ le 2 e.stage ++ le 8 start
      ++ le 8 (if ended then s.now else 0) ++ le 4 e.microBatch ++ le 4 wait)).count cPhaseRecords
        (l.arrays.headD 0))

/-- A thread enters slot k, whose gate has opened or has failed under R143 (R147). -/
def State.enterSlot (s : State) (t : ThreadId) (k : Nat) (e : SlotEntry) (pred : Nat) (failed : Option Code)
    : State :=
  let s1 := s.modThread t fun x =>
    { x with cursor := k + 1, slotIndex := BitVec.ofNat 32 k, slotKind := e.kind, slotStage := e.stage
             slotMicroBatch := e.microBatch }
  match failed with
  | some c => s1.failWait t pred true c
  | none =>
    let x := s1.thread t
    if e.entry ≠ 0 && (devOf e.entry ≠ s.lodge.deviceId || e.entry.toNat % 16 ≠ 0) then
      s1.trap t x.pc x.word (trAccess e.entry)
    else s1.modThread t fun x =>
      { x.setPred (BitVec.ofNat 3 pred) false with
        state := .running, wait := none, pc := if e.entry = 0 then x.pc + 16 else e.entry }

/-- A thread at the gate of slot k takes the gate's outcome (R147); it waits while the gate is held. -/
def State.passGate (s : State) (t : ThreadId) (k : Nat) (pred : Nat) (noTrap : Bool) : State :=
  let x := s.thread t
  match s.launch? x.launch with
  | none => s
  | some l =>
    let e := s.slotEntry l k
    match l.gate with
    | .opened => s.enterSlot t k e pred none
    | .failed c => if noTrap then s.enterSlot t k e pred (some c) else s.failWait t pred false c
    | .trapped kind code detail =>
      s.trap t x.pc x.word { kind := kind, code := code, detail := detail, address :=
        if kind = 4 then globalAddr s.lodge.deviceId (e.waitSem % 2 ^ 48) else 0 }
    | _ => s.modThread t fun x => { x with wait := some (.slotGate pred noTrap) }

/-- What a gate's `SEM_WAIT` finds (R142, R143, R147): the gate's new state, and the state with the count
reduced where it succeeds. -/
def State.tryGate (s : State) (l : Launch) (e : SlotEntry) : Gate × State :=
  let a := e.waitSem % 2 ^ 48
  let m := s.sem a
  if e.waitSem = 0 then (.opened, s)
  else if (s.semRefused l.ctx a).isSome then (.trapped 4 .notPermitted 0, s)
  else if m.owner = 0 then (.trapped 2 .badPacket (6 + 256 * 12), s)
  else match s.semFails l.ctx m with
    | some c => (.failed c, s)
    | none => if 1 ≤ m.count then (.opened, s.store a (le 4 (m.count - 1))) else (.held, s)

/-- A launch's gate has its outcome: an opened one stamps the slot's start and writes its record; then
every waiting thread takes the outcome (R147, R173). `cycles` is the wait of each, where it is known. -/
def State.settleGate (s : State) (id : Nat) (g : Gate) (cycles : Option Nat) : State :=
  let s1 := s.modLaunch id fun l =>
    { l with gate := g, slotStarted := if g.isOpen then some s.now else none, suspendedDuring := false }
  let (ok, s2) := if g.isOpen then s1.writePhase id false else (true, s1)
  let s3 := match ok, s2.launch? id with
    | false, some l => match l.gateThread with
      | some t =>
        let x := s2.thread t
        s2.trap t x.pc x.word (s2.phaseTrap l)
      | none => s2
    | _, _ => s2
  (s3.launchThreads id).foldl (fun s t =>
    match (s.thread t).wait with
    | some (.slotGate pred nt) =>
      let k := (((s.launch? id).bind (·.slot)).getD 0)
      ((match cycles with
        | some n => s.count cSemWait t.array n
        | none => s.countFree cSemWait t.array).modThread t fun x => { x with wait := none }).passGate t k pred nt
    | _ => s) s3

/-- A thread arrives at the gate of its next slot (R147); past the last slot it ends. -/
def State.arriveGate (s : State) (t : ThreadId) (pred : Nat) (noTrap : Bool) : State :=
  let x := s.thread t
  match s.launch? x.launch with
  | none => s
  | some l =>
    let k := x.cursor
    if l.slotCount ≤ k then s.exitThread t
    else match s.slotTrap l k with
      | some r => s.trap t x.pc x.word r
      | none =>
        if l.slot = some k && l.gate ≠ .none then s.passGate t k pred noTrap
        else
          let s1 := s.modLaunch x.launch fun l =>
            { l with slot := some k, gate := .held, gateThread := some t, slotInterrupted := false
                     lastPassed := none
                     gateArrival := if l.slot = some k then l.gateArrival else s.now }
          let (g, s2) := s1.tryGate l (s1.slotEntry l k)
          let s3 := s2.modThread t fun x => { x with wait := some (.slotGate pred noTrap) }
          if g = .held then s3 else s3.settleGate x.launch g (some 0)

/-- A thread in `SLOT` whose tile instructions are complete (R147), and whose stores are, since the slot's end is a
release (R139): it waits for the end of the current slot, or goes to the next one's gate; with no timetable it ends
(R146). -/
def State.slotStep (s : State) (t : ThreadId) : State :=
  let x := s.thread t
  match x.wait, s.launch? x.launch with
  | some (.slotEnd pred nt), some l =>
    if !x.ops.isEmpty || !x.storesOut.isEmpty then s
    else if l.timetable = 0 then s.exitThread t
    else if x.cursor ≠ 0 && l.slot = some x.slotIndex.toNat then
      s.modLaunch x.launch fun l => { l with lastPassed := some t }
    else ((s.countWait t).modThread t fun x => { x with wait := none }).arriveGate t pred nt
  | _, _ => s

/-- Whether a launch's current slot has ended (R147): every thread has passed its step 1 or is `EXITED`,
and none has trapped in it. -/
def State.slotOver (s : State) (id : Nat) : Bool :=
  match s.launch? id with
  | none => false
  | some l =>
    match l.slot with
    | none => false
    | some k =>
      !l.slotInterrupted && l.gate ≠ .held && l.gate ≠ .none && (s.launchThreads id).all fun t =>
        let x := s.thread t
        x.state == .exited || (x.state == .waiting && x.ops.isEmpty && x.storesOut.isEmpty && x.slotIndex.toNat == k
          && match x.wait with
            | some (.slotEnd _ _) => true
            | _ => false)

/-- A post by a unit of the module for a context: it fails silently where R142 discards it. -/
def State.unitPost (s : State) (c array : Nat) (a : Word) (n : Nat) : State :=
  if devOf a = s.lodge.deviceId then
    match s.semRefused c (locOf a) with
    | none => s.semAdd array (locOf a) n
    | some (cause, inst) => if cause = 0 then s else s.violation cause inst
  else if !s.hasRoute (devOf a) then s.noRoute
  else (s.request tSemPost (devOf a) c a 0 .device (BitVec.ofNat 64 n)).2

/-- The current slot of a launch ends (R147, R174): its end is stamped and `POST_SEM` posted; then every
waiting thread goes on. -/
def State.endSlot (s : State) (id : Nat) : State :=
  match s.launch? id with
  | none => s
  | some l =>
    let e := s.slotEntry l (l.slot.getD 0)
    let (ok, s1) := s.writePhase id true
    let s2 := match ok, l.lastPassed with
      | false, some t =>
        let x := s1.thread t
        s1.trap t x.pc x.word (s1.phaseTrap l)
      | _, _ => s1
    let s3 := if e.postSem = 0 then s2 else s2.unitPost l.ctx (l.arrays.headD 0) e.postSem 1
    let s4 := s3.modLaunch id fun l => { l with slot := none, gate := .none }
    (s4.launchThreads id).foldl (fun s t =>
      if (s.thread t).state == .waiting then s.slotStep t else s) s4

/-- The waits on semaphores of a context, and the gates, fail at the moment it enters `SUSPENDING`
(R143, R362). -/
def State.failWaiters (s : State) (c : Nat) : State :=
  let hit := fun (s : State) (own a : Nat) => (s.sem a).owner == c && own != c
  let s1 := (Map.keys s.threads).foldl (fun s k =>
    let t := keyThread k
    let x := s.thread t
    match x.state, x.wait with
    | .waiting, some (.semWait a _ pred nt) =>
      if hit s x.ctx (locOf a) then s.failWait t pred nt .ownerSuspended else s
    | _, _ => s) s
  (Map.keys s1.launches).foldl (fun s id =>
    match s.launch? id with
    | some l =>
      let e := s.slotEntry l (l.slot.getD 0)
      if l.gate = .held && hit s l.ctx (e.waitSem % 2 ^ 48) then
        s.settleGate id (.failed .ownerSuspended) none
      else s
    | none => s) s1

/-! ### What a waiting thread does next -/

/-- Looks at what a thread waits for, after one of its tile instructions or stores is complete
(R112, R114, R127, R140, R147). -/
def State.settle (s : State) (t : ThreadId) : State :=
  let x := s.thread t
  if x.state ≠ .waiting then s
  else match x.wait with
    | some (.fence mask pred _) => if x.maskDone mask then s.modThread t fun y => y.fenced mask pred else s
    | some (.semPost a n mask pred nt false _ _) =>
      if x.maskDone mask then s.postStart t a n pred nt else s
    | some (.barrier i n mask pred false) => if x.maskDone mask then s.arrive t i n pred else s
    | some .tileQueue => if x.ops.length < 8 then (s.countWait t).wake t else s
    | some .stores => if x.storesOut.isEmpty then s.wake t else s
    | some .exit => if x.ops.isEmpty then s.exitThread t else s
    | some (.slotEnd _ _) => s.slotStep t
    | _ => s

/-! ### Tile instructions in flight -/

/-- The priority of a recorded condition slot: the first code to come stays (R136). -/
def Group.note (g : Group) (c : Code) (order : Nat) : Group :=
  { g with cond := some (g.cond.getD (c, order)) }

/-- A tile instruction leaves its thread: its records are ORed into `NF_STICKY` and the launch, and
written where `REC` asks (R136); it leaves its group and its queue entry. -/
def State.leave (s : State) (t : ThreadId) (o : TileOp) : State :=
  let nf := o.records.foldl (fun f r => f ||| r.flags) (0 : BitVec 3)
  let s1 := (s.dropReader t o).modThread t fun x =>
    { x with ops := x.ops.filter fun p => p.id != o.id
             groups := x.groups.mapIdx fun g q => if g = o.cg then { q with count := q.count - 1 } else q
             nfSticky := x.nfSticky ||| nf }
  let s2 := s1.modLaunch (s.thread t).launch fun l => { l with nf := l.nf ||| nf }
  match o.recAddr with
  | none => s2
  | some a => (o.records.zipIdx).foldl (fun s r => s.store (locOf a + 16 * r.2) r.1.bytes) s2

/-- A tile instruction ends (R136, R137, R152): its condition enters its group's slot or traps its
thread, and a trap found on the way is taken; the conditions of a thread that has trapped are only
counted. -/
def State.opEnd (s : State) (t : ThreadId) (o : TileOp) : State :=
  let s1 := s.leave t o
  let x := s1.thread t
  let dead := x.state == .trapped
  let s2 := match o.cond with
    | none => s1
    | some c => s1.noteCode x.launch c
  let s3 := match o.late, o.cond with
    | some r, _ => if dead then s2.count cTrapsSuppressed t.array (b2n (r.kind == 6)) else s2.trap t o.pc o.word r
    | none, none => s2
    | none, some c =>
      if o.noTrap then
        (let s2 := s2.count cTrapsSuppressed t.array (b2n dead)
         { s2 with nextOrder := s2.nextOrder + 1 }).modThread t fun x =>
          { x with groups := x.groups.mapIdx fun g (q : Group) =>
              if g = o.cg then q.note c s2.nextOrder else q }
      else if dead then s2.count cTrapsSuppressed t.array
      else s2.trap t o.pc o.word (trCondition c o.failDevice)
  s3.settle t

/-- A contribution of an instruction that ends without completing is an absent leaf (R167). -/
def State.dropContribs (s : State) (t : ThreadId) (o : TileOp) : State :=
  o.contribs.foldl (fun s k => s.enterRoot t.array (s.thread t).ctx k.1 k.2 none) s

/-- A tile instruction takes a trap before it wrote anything. -/
def State.opTrap (s : State) (t : ThreadId) (o : TileOp) (r : Trap) : State :=
  (s.dropContribs t o).opEnd t { o with late := some r, cond := none, records := [] }

/-- A tile instruction of a thread that passes the checks of its kind enters the queue (R113, R114,
R136). -/
def State.enqueueOp (s : State) (t : ThreadId) (o : TileOp) : State :=
  let s1 := { s with nextOp := s.nextOp + 1 }
  ((s1.modThread t fun x =>
    { x with ops := x.ops ++ [{ o with id := s.nextOp, issuedAt := s.now }]
             groups := x.groups.mapIdx fun g q => if g = o.cg then { q with count := q.count + 1 } else q
             pc := x.pc + 16 }).count cTileIssued t.array).trace 2 t.array (s.thread t).ctx (le 8 o.pc.toNat)

/-- The instruction as its queue entry holds it, with the values it names captured at issue (R115). -/
def Thread.opOf (x : Thread) (w : TileWord) (kind : TileKind) (word : InstrWord) : TileOp :=
  { id := 0, kind := kind, pc := x.pc, word := word, cg := w.cg.toNat, rmode := w.rmode,
    ovfIeee := w.ovfIeee, recAddr := if w.recBit then some (x.reg w.s3) else none, noTrap := w.noTrap,
    d := x.descr w.d, a := x.descr w.a, b := x.descr w.b, c := x.descr w.c,
    s1 := x.reg w.s1, s1Reg := w.s1.toNat,
    s2 := if w.rmode = 2 then x.reg w.s2 else 0, s3 := x.reg w.s3, imm := w.imm }

/-- A tile-group instruction issues: with eight outstanding it waits (R114); otherwise its checks
either trap or queue it. `check` answers the trap of a breach, or the instruction and the state to queue
it in; `stall` tells whether it needs a unit that is fitted and not yet in service (R6). -/
def State.issueTile (s : State) (t : ThreadId) (major minor : Nat) (w : TileWord) (u : TileUse)
    (kind : TileKind) (check : Thread → TileOp → State → Except Trap (TileOp × State))
    (stall : TileOp → Bool := fun _ => false) : State :=
  let word := tileBits w major minor
  s.issue t word w.pred w.pneg (tileLegal w u) fun x s1 =>
    if 8 ≤ x.ops.length then s.waitFor t word .tileQueue
    else match check x (x.opOf w kind word) s1 with
      | .error r => s1.trap t x.pc word r
      | .ok (o, s2) => if stall o then s.waitFor t word .unitStall else s2.enqueueOp t o

/-- The checks that all converting instructions share: `RMODE` (R70, R484) and the record's address
(R136, R151). n is the number of records. -/
def State.checkConv (s : State) (x : Thread) (o : TileOp) (n : Nat) : Option Trap :=
  if o.rmode = 3 then some (trOperand 5 11)
  else match o.recAddr with
    | none => none
    | some a =>
      if devOf a ≠ s.lodge.deviceId then some (trOperand 5 10)
      else if a.toNat % 16 ≠ 0 then some (trOperand 5 5)
      else if !s.canWrite x.ctx (locOf a) (16 * n) then some (trAccess a)
      else none

/-- Runs checks in order: the first breach is the trap. -/
def firstTrap (cs : List (Option Trap)) : Option Trap := cs.findSome? id

/-- The trap of a descriptor breach. -/
def operandTrap : Option (Nat × Nat) → Option Trap := Option.map fun b => trOperand b.1 b.2

/-- The check of a descriptor of a thread's instruction (R129). -/
def State.checkDesc (s : State) (t : ThreadId) (x : Thread) (d : Desc) (u : Use) : Option Trap :=
  operandTrap (d.check u s.lodge.deviceId (s.tagOpen t.array x.ctx))

/-- The `ACCESS` trap of a tile on this module that the context may not read (R120). -/
def State.checkRead? (s : State) (x : Thread) (d : Desc) : Option Trap :=
  if d.dev = s.lodge.deviceId then
    (s.unreadable x.ctx d).map fun a => trAccess (globalAddr d.dev a)
  else none

/-- The `ACCESS` trap of a tile on this module that the context may not write (R120). -/
def State.checkWrite? (s : State) (x : Thread) (d : Desc) : Option Trap :=
  if d.dev = s.lodge.deviceId then
    (s.unwritable x.ctx d).map fun a => trAccess (globalAddr d.dev a)
  else none

end Sys2Proof.Machine
end

