-- ==== Sys2Proof/Machine/Versions.lean ====
section
/-! DEFINITION. Version regions and guards: which slot a versioned read uses (R193 to R196), the states
of a step's guard (R198), and the publishing of slots (R197). -/

namespace Sys2Proof.Machine

/-! ### Guards (R198) -/

/-- The guard record of a context's step. -/
def State.guard? (s : State) (c step : Nat) : Option Guard :=
  s.guards.find? fun g => g.ctx == c && g.step == step

/-- Changes a guard record. -/
def State.modGuard (s : State) (c step : Nat) (f : Guard → Guard) : State :=
  { s with guards := s.guards.map fun g => if g.ctx == c && g.step == step then f g else g }

/-- Whether a launch of a context's step runs on the module. -/
def State.stepRunning (s : State) (c step : Nat) : Bool :=
  (Map.vals s.launches).any fun l => l.ctx == c && l.admitted && l.step.toNat == step

/-- The records of a context whose launch has ended, oldest step first in order of step. -/
def State.endedGuards (s : State) (c : Nat) : List Nat :=
  (s.guards.filter fun g => g.ctx == c && !s.stepRunning c g.step).map (·.step)

/-- The smallest of a list of numbers. -/
def least : List Nat → Option Nat
  | [] => none
  | x :: xs => match least xs with
    | none => some x
    | some y => some (min x y)

/-- Makes a guard record; with four held, the oldest whose launch has ended is discarded (R198). -/
def State.makeGuard (s : State) (c step : Nat) (st : GuardState) : State :=
  let held := (s.guards.filter fun g => g.ctx == c).length
  let drop := if held < 4 then none else least (s.endedGuards c)
  { s with guards := (s.guards.filter fun g => !(g.ctx == c && some g.step == drop))
      ++ [{ ctx := c, step := step, state := st }] }

/-! ### Version regions (R193, R194) -/

/-- The version of a step: 1 to 65,535 (R193). -/
def versionOf (step : Nat) : Nat := step % 65535 + 1

/-- The regions in force for a context (R179). -/
def State.regions (s : State) (c : Nat) : List Region := ((Map.get? s.trains c).map (·.regions)).getD []

/-- How a set of ranges lies with respect to slot-0 ranges (R194). -/
inductive RegionFit where
  | outside
  | partly
  | inside (region : Nat)
  deriving DecidableEq, Repr

/-- Whether a range lies wholly in a slot-0 range. -/
def Region.holds (r : Region) (x : Nat × Nat) : Bool := r.base0 ≤ x.1 && x.1 + x.2 ≤ r.base0 + r.length

/-- Where the ranges of a tile lie (R194). -/
def regionFit (rs : List Region) (xs : List (Nat × Nat)) : RegionFit :=
  match rs.findIdx? fun r => xs.all r.holds with
  | some g => .inside g
  | none => if rs.any fun r => xs.any (rangesMeet (r.base0, r.length)) then .partly else .outside

/-- The `VALID` slots of a region, with their steps. -/
def Region.valid (r : Region) : List (Nat × Nat) :=
  (if r.state0 = .valid then [(0, r.step0)] else []) ++ (if r.state1 = .valid then [(1, r.step1)] else [])

/-- What a versioned read of a region finds (R194): it waits, ends with a mismatch, or uses a slot. -/
inductive Resolution where
  | waits
  | mismatch
  | slot (k : Nat)
  deriving DecidableEq, Repr

/-- The slot with the greatest step at or below p. -/
def newestUpTo (p : Int) (xs : List (Nat × Nat)) : Option (Nat × Nat) :=
  xs.foldl (fun best x => if (x.2 : Int) ≤ p then match best with
    | none => some x
    | some b => if b.2 < x.2 then some x else some b
    else best) none

/-- Resolves a versioned read by tag, or by the reader's step (R194). -/
def State.resolve (s : State) (c : Nat) (r : Region) (tag step : Nat) (byTag : Bool) : Resolution :=
  if byTag then
    match r.valid.find? fun x => versionOf x.2 == tag with
    | some x => .slot x.1
    | none => .mismatch
  else
    let p : Int := (step : Int) - 1 - r.lag
    let ready := r.valid.any (fun x => (x.2 : Int) == p) || p < 0
      || (s.guard? c p.toNat).any (fun g => g.state == .abandoned) || !s.stepRunning c p.toNat
    if !ready then .waits
    else match newestUpTo p r.valid with
      | some x => .slot x.1
      | none => .mismatch

/-- How far a read that uses a slot moves its addresses (R194). -/
def Region.shift (r : Region) (k : Nat) : Int := if k = 0 then 0 else (r.base1 : Int) - r.base0

/-- The move of an instruction's versioned read, once bound. -/
def State.shiftOf (s : State) (c : Nat) (o : TileOp) : Int :=
  match o.bound with
  | none => 0
  | some (g, k) => ((s.regions c)[g]?.map fun r => r.shift k).getD 0

/-- Changes a version region. -/
def State.modRegion (s : State) (c g : Nat) (f : Region → Region) : State :=
  { s with trains := Map.modify s.trains c fun t => { t with regions := modAt t.regions g f } }

/-- A slot state's code (R193). -/
def SlotState.code : SlotState → Nat
  | .empty => 0 | .valid => 1 | .writing => 2

/-- Writes a region's device-written fields back to the table (R179, R193). -/
def State.writeRegion (s : State) (c g : Nat) : State :=
  match Map.get? s.trains c with
  | none => s
  | some t => match t.regions[g]? with
    | none => s
    | some r =>
      let a := t.regionTable + 64 * g
      (s.store (a + 1) (le 1 (r.state0.code + 4 * r.state1.code))).store (a + 0x20)
        (le 8 r.step0 ++ le 8 r.step1)

/-! ### Binding an instruction's versioned read (R194, R195) -/

/-- The step of a thread's launch. -/
def State.stepOf (s : State) (x : Thread) : Nat := ((s.launch? x.launch).map fun l => l.step.toNat).getD 0

/-- The source descriptor of a selecting instruction (R194). -/
def TileOp.selected (o : TileOp) : Desc :=
  match o.kind with
  | .mma => Desc.parse o.b
  | .mmab => Desc.parse o.b
  | _ => Desc.parse o.a

/-- Whether an instruction is a selecting one (R194). -/
def TileKind.selects : TileKind → Bool
  | .mma | .mmab | .tld | .tcp | .verRead => true
  | _ => false

/-- Whether an instruction still waits for its versioned read to bind (R194). -/
def TileOp.unbound (o : TileOp) : Bool := o.reader && o.bound.isNone

/-- Tries to bind a versioned read on this module, at the start of an instruction's first fetch (R195). It becomes a reader, `VER_READ` excepted (R195,
R196); a mismatch is the instruction's condition. `reader` marks an instruction that reads a region;
it stays unbound while it waits. -/
def State.tryBind (s : State) (t : ThreadId) (o : TileOp) (g : Nat) : TileOp × State :=
  let x := s.thread t
  match (s.regions x.ctx)[g]? with
  | none => (o, s)
  | some r =>
    let tag := o.selected.versionTag
    match s.resolve x.ctx r tag (s.stepOf x) (tag ≠ 0) with
    | .waits => ({ o with reader := true }, s)
    | .mismatch =>
      ({ o with cond := some .shardVersionMismatch, reader := false }, s.count cShardVersionMismatches 0)
    | .slot k =>
      if o.kind = .verRead then
        ({ o with bound := some (g, k), reader := false
                  result := BitVec.ofNat 64 (versionOf (if k = 0 then r.step0 else r.step1)) }, s)
      else ({ o with bound := some (g, k), reader := true }, s.countReader x.ctx g k true)

/-- Where the source of a selecting instruction lies among the regions in force (R194); a launch with no
training table has none (R176). -/
def State.versionFit (s : State) (x : Thread) (d : Desc) : RegionFit :=
  if d.dev = s.lodge.deviceId && ((s.launch? x.launch).map (·.trainTable)).getD 0 ≠ 0 then
    regionFit (s.regions x.ctx) d.ranges
  else .outside

/-- Binds at issue what can be bound; the instruction waits for `VERSIONED_READ_BIND` otherwise. -/
def State.bindAtIssue (s : State) (t : ThreadId) (o : TileOp) : TileOp × State :=
  match s.versionFit (s.thread t) o.selected with
  | .inside g => s.tryBind t o g
  | _ => (o, s)

/-- The trap of a tile that lies partly in a slot-0 range (R194, R484). -/
def State.partialTrap (s : State) (x : Thread) (d : Desc) (operand : Nat) : Option Trap :=
  if s.versionFit x d = .partly then some (trOperand operand 11) else none

end Sys2Proof.Machine
end

