-- ==== Sys2Proof/Machine/Move.lean ====
section
/-! DEFINITION. Tile movement: `TLD`, `TST`, `TCP` (R135), the remote reads and writes of tiles (R259,
R278), lost lines (R244), suppressed transfers (R427) and loan binding (R426). -/

namespace Sys2Proof.Machine

/-! ### Sources -/

/-- Reads of local ranges meet what errors their lines hold (R233, R234); whether every line can then be
read (R243). -/
def State.sourcesReady (s : State) (rs : List (Nat × Nat)) : State × Bool :=
  let s1 := rs.foldl (fun s r => s.checkRead r.1 r.2) s
  (s1, rs.all fun r => (s1.repairingIn r.1 r.2).isEmpty)

/-- Whether no line of the ranges is under repair, so that writes to them can go on (R243). -/
def State.writable (s : State) (rs : List (Nat × Nat)) : Bool :=
  rs.all fun r => (s.repairingIn r.1 r.2).isEmpty

/-- The ranges of a local tile as its versioned read moves them. -/
def movedRanges (shift : Int) (rs : List (Nat × Nat)) : List (Nat × Nat) :=
  rs.map fun r => (((r.1 : Int) + shift).toNat, r.2)

/-- Where an instruction's byte of tile d comes from: this module's memory, or what its remote reads
brought. -/
def State.sourceByte (s : State) (o : TileOp) (d : Desc) (shift : Int) : Nat → Byte :=
  if d.dev = s.lodge.deviceId then s.byteFrom shift else fun a => Map.getD o.fetched a 0

/-- Which addresses of tile d are lost (R244). -/
def State.sourceLost (s : State) (o : TileOp) (d : Desc) (shift : Int) : Nat → Bool :=
  if d.dev = s.lodge.deviceId then s.lostFrom shift else fun a => o.fetchedLost.contains (a / lineBytes)

/-- Puts bytes that a remote read brought at their addresses. -/
def putBytes (m : Map Byte) (a : Nat) : Bytes → Map Byte
  | [] => m
  | b :: bs => putBytes (Map.put m a b) (a + 1) bs

/-- The whole 16-byte units that a range touches (R259). -/
def readUnits (r : Nat × Nat) : Nat × Nat := (r.1 - r.1 % 16, (r.1 + r.2 + 15) / 16 * 16 - (r.1 - r.1 % 16))

/-- Sends the read requests for ranges of a tile on another module (R259), and gives their tags. Those of a selecting
instruction's source carry `SELECT` with the descriptor's tag, or the launch's step (R194). -/
def State.requestRanges (s : State) (t : ThreadId) (o : TileOp) (id : Nat) (d : Desc) (rs : List (Nat × Nat)) :
    List Nat × State :=
  let x := s.thread t
  let units := rs.map readUnits
  let ps := units.flatMap fun r => pieces (r.2 / 4096 + 2) r.1 r.2
  let sel := o.kind.selects && o.selected == d
  let byTag := sel && d.versionTag ≠ 0
  let opd : Word := if byTag then BitVec.ofNat 64 d.versionTag
    else if sel then BitVec.ofNat 64 (s.stepOf x) else 0
  ps.foldl (fun (r : List Nat × State) p =>
    let (tag, s1) := r.2.request tReadReq d.dev x.ctx (globalAddr d.dev p.1) p.2
      (.tileRead t id) opd (select := sel) (byTag := byTag) (thread := some t)
    (r.1 ++ [tag], s1)) ([], s)

/-- Sends the read requests of a remote tile (R259). A device with no route ends the instruction at once
with `PEER_TIMEOUT` (R275). -/
def State.fetchTile (s : State) (t : ThreadId) (o : TileOp) (d : Desc) : TileOp × State :=
  if !s.hasRoute d.dev then ({ o with cond := some .peerTimeout, failDevice := d.dev }, s.noRoute)
  else
    let r := s.requestRanges t o s.nextOp d d.ranges
    ({ o with awaited := o.awaited ++ r.1 }, r.2)

/-! ### The copy -/

/-- One piece of a copy: where its first byte comes from, where it goes, its bytes, and whether its
source is lost. -/
structure CopyPiece where
  src : Nat
  dst : Nat
  data : Bytes
  lost : Bool
  deriving DecidableEq, Repr

/-- The pieces of a copy of tile a into tile d: chunks of 16 elements, then scale bytes (R135, R65). -/
def copyPieces (a d : Desc) (get : Nat → Byte) (lost : Nat → Bool) : List CopyPiece :=
  let chunks := (List.range d.rows).flatMap fun i => (List.range (d.cols / 16)).map fun q =>
    let js := countUp (16 * q) 1 16
    { src := (a.elemPos i (16 * q)).1, dst := (d.elemPos i (16 * q)).1
      data := le (2 * d.width) (packBits d.width (js.map fun j => a.elemBitsAt get i j))
      lost := js.any fun j => a.elemLost lost i j : CopyPiece }
  let scale := fun (i j : Nat) =>
    ({ src := a.scalePos i j, dst := d.scalePos i j, data := [get (a.scalePos i j)]
       lost := lost (a.scalePos i j) } : CopyPiece)
  let scales :=
    if !isMx d.format then []
    else if d.mxCols then (List.range (ceilDiv d.rows 32)).flatMap fun b =>
      (List.range d.cols).map fun j => scale (32 * b) j
    else (List.range d.rows).flatMap fun i =>
      (List.range (ceilDiv d.cols 32)).map fun b => scale i (32 * b)
  chunks ++ scales

/-- Puts a piece in its place by destination. -/
def insertPiece (p : CopyPiece) : List CopyPiece → List CopyPiece
  | [] => [p]
  | q :: qs => if p.dst ≤ q.dst then p :: q :: qs else q :: insertPiece p qs

/-- Pieces in ascending destination address (R149). -/
def sortPieces (ps : List CopyPiece) : List CopyPiece := ps.foldr insertPiece []

/-- Cuts pieces after n bytes: those before, and the rest. -/
def cutPieces : Nat → List CopyPiece → List CopyPiece × List CopyPiece
  | _, [] => ([], [])
  | n, p :: ps =>
    if n = 0 then ([], p :: ps)
    else
      let r := cutPieces (n - p.data.length) ps
      (p :: r.1, r.2)

/-- Bytes of the destination between two pre-emption points of a copy (R149, R211). -/
def copyStep : Nat := 65536

/-- The bytes of pieces. -/
def pieceBytes (ps : List CopyPiece) : Nat := (ps.map fun p => p.data.length).sum

/-- The lines that lost pieces write (R244). -/
def lostLines (ps : List CopyPiece) : List Nat :=
  (ps.filter (·.lost)).flatMap fun p => unitsOf lineBytes p.dst p.data.length

/-- Writes a copy on this module: pieces whose bytes a remote module refused are left unwritten, and the
lines that lost pieces write become `LOST` (R244). -/
def State.landCopy (s : State) (ps : List CopyPiece) (local_ : Bool) : State :=
  (s.storeAll ((ps.filter fun p => local_ || !p.lost).map fun p => (p.dst, p.data))).markLost (lostLines ps)

/-- The issuing module as a member of the broadcast set applies a copy's packets under R271: what it may not write is
discarded, and each packet refused counts as a violation (R276, R278). -/
def State.landOwn (s : State) (c : Nat) (ps : List CopyPiece) (local_ : Bool) : State :=
  let mine := fun (p : CopyPiece) => (s.semRefused c p.dst).isNone
  let bad := (coalesce (sortWrites ((ps.filter fun p => !mine p).map fun p => (p.dst, p.data)))).flatMap fun w =>
    pieces (w.2.length / 4096 + 2) w.1 w.2.length
  bad.foldl (fun s p => match s.semRefused c p.1 with
    | some v => s.localViolation c p.1 v
    | none => s) (s.landCopy (ps.filter mine) local_)

/-- Binds the pages of a local destination to the loans of a local source (R426). -/
def State.bindTiles (s : State) (src dst : List (Nat × Nat)) : State :=
  src.foldl (fun s a => dst.foldl (fun s d => s.bind a.1 a.2 d.1 d.2) s) s

/-- Cuts a write into packets: whole 16-byte units within 4 KiB, and ragged ends each within one unit
(R259, notes/assumptions/22.md). -/
def writePieces : Nat → Nat → Bytes → Writes
  | 0, _, _ => []
  | fuel + 1, a, bs =>
    if bs.isEmpty then []
    else
      let n := if a % 16 ≠ 0 then min (16 - a % 16) bs.length
        else if bs.length < 16 then bs.length
        else min (bs.length / 16 * 16) (4096 - a % 4096)
      (a, bs.take n) :: writePieces fuel (a + n) (bs.drop n)

/-- Sends writes of a tile instruction to a device, and gives their tags (R259). -/
def State.sendWrites (s : State) (t : ThreadId) (id dev : Nat) (ws : Writes) : List Nat × State :=
  let x := s.thread t
  let ps := (coalesce (sortWrites ws)).flatMap fun w => writePieces (w.2.length / 16 + 3) w.1 w.2
  ps.foldl (fun (r : List Nat × State) p =>
    let (tag, s1) := r.2.writeRequest dev x.ctx p.1 p.2 (.tileWrite t id) (some t)
    (r.1 ++ [tag], s1)) ([], s)

/-- Drops the pieces of a copy that a loan forbids toward a device, and counts them (R427). -/
def State.suppress (s : State) (ps : List CopyPiece) (dev : Nat) : List CopyPiece × State :=
  let bad := fun (p : CopyPiece) => s.suppressedBy p.src p.data.length dev
  let n := ((ps.filter fun p => (bad p).isSome).map fun p => p.data.length).sum
  match ps.findSome? bad with
  | none => (ps, s)
  | some id => (ps.filter fun p => (bad p).isNone, s.countSuppressed id n)

/-- Whether a copy writes to other modules. -/
def State.writesAway (s : State) (o : TileOp) : Bool :=
  (o.kind == .tst || o.kind == .tcp) && (Desc.parse o.d).dev ≠ s.lodge.deviceId

/-- The pieces of an instruction's copy as its sources stand. -/
def State.copyOf (s : State) (t : ThreadId) (o : TileOp) : List CopyPiece :=
  let a := Desc.parse o.a
  let shift := s.shiftOf (s.thread t).ctx o
  copyPieces a (Desc.parse o.d) (s.sourceByte o a shift) (s.sourceLost o a shift)

/-- The local ranges that an instruction's copy reads. -/
def State.copyRanges (s : State) (t : ThreadId) (o : TileOp) : List (Nat × Nat) :=
  let a := Desc.parse o.a
  if a.dev = s.lodge.deviceId then movedRanges (s.shiftOf (s.thread t).ctx o) a.ranges else []

/-- The reads of a copy are done: touches count toward promotion (R223), and reads of lost lines are
counted (R244). -/
def State.readTouches (s : State) (t : ThreadId) (rs : List (Nat × Nat)) : State :=
  rs.foldl (fun s r => (s.countedTouch r.1 r.2 t.array).countLost r.1 r.2) s

/-- Goes on with a copy to other modules once its source is there: the writes are sent to every target
(R135, R278). A lost line's bytes are not sent (R244). -/
def State.opGo (s : State) (t : ThreadId) (o : TileOp) : State :=
  if !s.writesAway o || o.phase ≠ .queued || !o.awaited.isEmpty || o.unbound || o.cond.isSome
      || o.late.isSome then s
  else
    let rs := s.copyRanges t o
    let (s1, ready) := s.sourcesReady rs
    if !ready then s1
    else
      let x := s1.thread t
      let ps := s1.copyOf t o
      let isLocal := (Desc.parse o.a).dev = s1.lodge.deviceId
      let r := (s1.targets x.ctx (Desc.parse o.d).base).foldl
        (fun (r : State × List Nat × Nat) dev =>
          let (s, tags, bad) := r
          if dev = s.lodge.deviceId then (s.landOwn x.ctx ps isLocal, tags, bad)
          else if !s.hasRoute dev then (s.noRoute, tags, s.firstFailed x.ctx bad dev)
          else
            let (qs, s2) := if isLocal then s.suppress ps dev else (ps, s)
            let (ts, s3) := s2.sendWrites t o.id dev
              ((qs.filter fun p => !p.lost).map fun p => (p.dst, p.data))
            (s3, tags ++ ts, bad)) (s1, [], 0xFFFF)
      let (s2, tags, bad) := r
      (s2.readTouches t rs).modOp t o.id fun o =>
        { o with phase := .running, awaited := tags, failDevice := bad
                 cond := if bad ≠ 0xFFFF then some .peerTimeout
                   else if ps.any (·.lost) then some .weightLost else none }

/-- The pieces of an instruction's copy that it has not yet carried out, in order (R149). -/
def State.copyLeft (s : State) (t : ThreadId) (o : TileOp) : List CopyPiece :=
  (cutPieces (copyStep * o.done) (sortPieces (s.copyOf t o))).2

/-- Lands pieces of a copy on this module (R135, R244), and marks the instruction where one of them was lost. -/
def State.landPieces (s : State) (t : ThreadId) (o : TileOp) (ps : List CopyPiece) : State :=
  let isLocal := (Desc.parse o.a).dev = s.lodge.deviceId
  (s.landCopy ps isLocal).modOp t o.id fun o =>
    { o with fold := { o.fold with poisoned := o.fold.poisoned || ps.any (·.lost) } }

/-- A copy whose destination lies on this module goes on by a number of 64 KiB units that no operand tells, and stops at a
pre-emption point before its end (R149; notes/assumptions/54.md). -/
def State.advanceCopy (s : State) (t : ThreadId) (o : TileOp) : State :=
  let (s1, ready) := s.sourcesReady (s.copyRanges t o)
  if !ready || !s1.writable (Desc.parse o.d).ranges || !o.awaited.isEmpty || o.unbound then s1
  else
    let ps := s1.copyLeft t o
    let (n, s2) := s1.freeBelow (ceilDiv (pieceBytes ps) copyStep)
    (s2.landPieces t o (cutPieces (copyStep * n) ps).1).modOp t o.id fun o => { o with done := o.done + n }

/-- The end of a copy whose destination lies on this module (R135, R243, R244). -/
def State.finishCopy (s : State) (t : ThreadId) (o : TileOp) : State :=
  let rs := s.copyRanges t o
  let (s1, ready) := s.sourcesReady rs
  if !ready || !s1.writable (Desc.parse o.d).ranges then s1
  else
    let s2 := (((s1.landPieces t o (s1.copyLeft t o)).readTouches t rs).bindTiles rs (Desc.parse o.d).ranges)
    match s2.op? t o.id with
    | none => s2
    | some q => s2.opEnd t { q with cond := if q.fold.poisoned then some .weightLost else none }

/-! ### Issue (R135) -/

/-- The checks of a tile movement instruction. Which module each tile may lie on: `aAway` and `dAway`. An overlap or a
mismatch of the two tiles names D (notes/assumptions/52.md); a broadcast to a set that holds the source's own module
overlaps as a copy on that module does (R135). -/
def State.checkMove (s : State) (t : ThreadId) (x : Thread) (o : TileOp) (aAway dAway bcast : Bool) :
    Option Trap :=
  let a := Desc.parse o.a
  let d := Desc.parse o.d
  firstTrap [
    s.checkDesc t x d { num := 0, dest := true, remote := dAway, broadcast := bcast,
                        ok := legalFormat },
    s.checkDesc t x a { num := 1, remote := aAway, zeroStride := true, xpose := true,
                        ok := legalFormat },
    if a.format ≠ d.format then some (trOperand 0 2) else none,
    if a.rows ≠ d.rows || a.cols ≠ d.cols then some (trOperand 0 4) else none,
    if a.mxCols ≠ d.mxCols then some (trOperand 0 7) else none,
    if a.overlaps d || (d.dev = 0xFFFF && (s.ctx x.ctx).broadcast.contains a.dev && a.meets d) then some (trOperand 0 8)
    else none,
    if d.dev = 0xFFFF && (s.ctx x.ctx).broadcast.isEmpty then some (trOperand 0 10) else none,
    if o.kind.selects then s.partialTrap x a 1 else none,
    s.checkRead? x a,
    s.checkWrite? x d ]

/-- Issues a tile movement instruction. -/
def State.issueMove (s : State) (t : ThreadId) (minor : Nat) (w : TileWord) (kind : TileKind)
    (aAway dAway bcast : Bool) : State :=
  let s1 := s.issueTile t 0x10 minor w { d := true, a := true } kind fun x o s =>
    match s.checkMove t x o aAway dAway bcast with
    | some r => .error r
    | none =>
      let a := Desc.parse o.a
      .ok (if a.dev = s.lodge.deviceId then
        (if kind.selects then s.bindAtIssue t o else (o, s))
      else s.fetchTile t o a)
  match s1.op? t s.nextOp with
  | none => s1
  | some o => s1.opGo t o

/-- `TLD` (R135). -/
def execTld (t : ThreadId) (w : TileWord) (s : State) : Host.Outcome State Fault Refusal :=
  .next (s.issueMove t 0x00 w .tld true false false)
/-- `TST` (R135). -/
def execTst (t : ThreadId) (w : TileWord) (s : State) : Host.Outcome State Fault Refusal :=
  .next (s.issueMove t 0x01 w .tst false true true)
/-- `TCP` (R135). -/
def execTcp (t : ThreadId) (w : TileWord) (s : State) : Host.Outcome State Fault Refusal :=
  .next (s.issueMove t 0x02 w .tcp true true false)

end Sys2Proof.Machine
end

