-- ==== Sys2Proof/Machine/Transcend.lean ====
section
/-! DEFINITION. The element-wise functions with irrational values (R133): e^x, tanh, the logistic
function, SiLU and GELU, as exact mathematics. Each is bracketed by an interval of fixed-point
numbers narrow enough to settle the leading bits of the infinitely precise value
(notes/assumptions/11.md). -/

namespace Sys2Proof.Machine

/-- Fraction bits of the fixed-point intervals. -/
def fixBits : Nat := 2700

/-- One in fixed point. -/
def fixOne : Nat := 2 ^ fixBits

/-- An interval of fixed-point numbers. -/
abbrev Span := Nat × Nat

/-- The square of an interval. -/
def Span.square (x : Span) : Span := (x.1 * x.1 / fixOne, x.2 * x.2 / fixOne + 1)

/-- n squarings. -/
def squareTimes : Nat → Span → Span
  | 0, x => x
  | n + 1, x => squareTimes n (Span.square x)

/-- The sum of a power series whose terms t(n+1) = t(n) · r / d(n) fall below one unit: its floor
sum and the number of terms. -/
def seriesSum (d : Nat → Nat) (r : Nat) : Nat → Nat → Nat → Nat → Nat × Nat
  | 0, n, _, acc => (acc, n)
  | fuel + 1, n, t, acc =>
    if t = 0 then (acc, n)
    else seriesSum d r fuel (n + 1) (t * r / fixOne / d n) (acc + t)

/-- e^x for 0 ≤ x < 2^11 in fixed point: the series at x · 2^(-12), squared twelve times. -/
def expSpan (x : Nat) : Span :=
  let (sum, n) := seriesSum (fun n => n + 1) (x / 4096) 1000 0 fixOne 0
  squareTimes 12 (sum, sum + 4 * n + 8)

/-- A non-negative dyadic number in fixed point; exact where its bits reach no lower than
2^(-2600). -/
def toFix (m : Nat) (e : Int) : Nat :=
  if 0 ≤ e + fixBits then m * 2 ^ (e + fixBits).toNat else m / 2 ^ (-(e + fixBits)).toNat

/-- A magnitude just below m · 2^e, settled to 200 bits below it. -/
def justBelow (neg : Bool) (m : Nat) (e : Int) : Num := .fin neg (m * 2 ^ 200 - 1) (e - 200) true

/-- A magnitude that every format rounds as one below all its bits (R73, R78). -/
def tiny (neg : Bool) : Num := .fin neg 1 (-3000) true

/-- The value that an interval in units of 2^e settles, to 192 bits: the truncated mantissa, with the sticky mark, since
every value here is irrational. One below 2^(-1300) lies below all bits of every format. -/
def spanNum (neg : Bool) (lo hi : Nat) (e : Int) : Num :=
  if (Nat.log2 hi : Int) + 1 + e < -1300 then tiny neg
  else
    let g := Nat.log2 hi - 191
    let m := if lo / 2 ^ g = hi / 2 ^ g then lo / 2 ^ g else Config.hardCase lo hi
    .fin neg m (e + g) true

/-- The quotient a ÷ b of fixed-point numbers, rounded down. -/
def fixDiv (a b : Nat) : Nat := a * fixOne / b

/-- Whether a magnitude reaches 2^k. -/
def reaches (m : Nat) (e k : Int) : Bool := k ≤ (Nat.log2 m : Int) + e

/-- e^x for finite x ≠ 0. -/
def expNum (neg : Bool) (m : Nat) (e : Int) : Num :=
  if reaches m e 11 then (if neg then tiny false else .inf false .overflow)
  else
    let x := expSpan (toFix m e)
    if neg then spanNum false (fixDiv fixOne x.2) (fixDiv fixOne x.1 + 1) (-(fixBits : Int))
    else spanNum false x.1 x.2 (-(fixBits : Int))

/-- 1 ÷ (1 + e^(−x)) for finite x ≠ 0 that does not reach 2^11, as an interval. -/
def sigmoidSpan (neg : Bool) (m : Nat) (e : Int) : Span :=
  let x := expSpan (toFix m e)
  if neg then (fixDiv fixOne (fixOne + x.2), fixDiv fixOne (fixOne + x.1) + 1)
  else (fixDiv x.1 (fixOne + x.1), fixDiv x.2 (fixOne + x.2) + 1)

/-- 1 ÷ (1 + e^(−x)) for finite x ≠ 0. -/
def sigmoidNum (neg : Bool) (m : Nat) (e : Int) : Num :=
  if reaches m e 11 then (if neg then tiny false else justBelow false 1 0)
  else
    let y := sigmoidSpan neg m e
    spanNum false y.1 y.2 (-(fixBits : Int))

/-- x ÷ (1 + e^(−x)) for finite x ≠ 0. -/
def siluNum (neg : Bool) (m : Nat) (e : Int) : Num :=
  if reaches m e 11 then (if neg then tiny true else justBelow false m e)
  else
    let y := sigmoidSpan neg m e
    spanNum neg (m * y.1) (m * y.2) (e - fixBits)

/-- tanh x for finite x ≠ 0. -/
def tanhNum (neg : Bool) (m : Nat) (e : Int) : Num :=
  if reaches m e 10 then justBelow neg 1 0
  else if !reaches m e (-300) then justBelow neg m e
  else
    let x := expSpan (toFix m (e + 1))
    spanNum neg (fixDiv (x.1 - fixOne) (x.1 + fixOne)) (fixDiv (x.2 - fixOne) (x.2 + fixOne) + 1)
      (-(fixBits : Int))

/-- arctan(1/k) in fixed point, rounded so that the error stays within the terms' number. -/
def arctanInv (k : Nat) : Nat → Nat → Nat → Int → Int × Nat
  | 0, n, _, acc => (acc, n)
  | fuel + 1, n, p, acc =>
    if p = 0 then (acc, n)
    else arctanInv k fuel (n + 1) (p / (k * k))
      (if n % 2 = 0 then acc + (p / (2 * n + 1) : Nat) else acc - (p / (2 * n + 1) : Nat))

/-- π in fixed point, by 16 arctan(1/5) − 4 arctan(1/239). -/
def piSpan : Span :=
  let (a, n) := arctanInv 5 1400 0 (fixOne / 5) 0
  let (b, k) := arctanInv 239 1400 0 (fixOne / 239) 0
  let v := (16 * a - 4 * b).toNat
  (v - 32 * (n + k), v + 32 * (n + k))

/-- 1 ÷ √(2π) in fixed point. -/
def invSqrtTwoPi : Span :=
  (isqrt (fixOne * fixOne / (2 * piSpan.2) * fixOne), isqrt (fixOne * fixOne / (2 * piSpan.1) * fixOne) + 2 ^ 8)

/-- Φ(|x|) − 1/2 for |x| < 40 in fixed point: φ(x) · Σ x^(2n+1) ÷ (1·3·…·(2n+1)). -/
def phiSpan (m : Nat) (e : Int) : Span :=
  let x := toFix m e
  let sq := x * x / fixOne
  let (s0, n0) := seriesSum (fun n => 2 * n + 3) sq 6000 0 x 0
  let (_, n1) := seriesSum (fun n => 2 * n + 3) (sq + 1) 6000 0 (x + 1) 0
  let s1 := (seriesSum (fun n => 2 * n + 3) (sq + 1) 6000 0 (x + 1) 0).1 + n1 * 2 ^ 12 + n0
  let g := expSpan (sq / 2)
  let g' := expSpan (sq / 2 + 1)
  let lo := fixDiv (invSqrtTwoPi.1 * s0 / fixOne) g'.2
  let hi := fixDiv (invSqrtTwoPi.2 * s1 / fixOne + 1) g.1 + 1
  (lo, hi)

/-- x · Φ(x) for finite x ≠ 0. -/
def geluNum (neg : Bool) (m : Nat) (e : Int) : Num :=
  if above m e false 40 0 then (if neg then tiny true else justBelow false m e)
  else
    let p := phiSpan m e
    let h := fixOne / 2
    if neg then spanNum true (m * (h - p.2)) (m * (h - p.1)) (e - fixBits)
    else spanNum false (m * (h + p.1)) (m * (h + p.2)) (e - fixBits)

/-- 1 ÷ √v for finite v > 0, exact where the value is a dyadic number. -/
def rsqrtNum (m : Nat) (e : Int) : Num :=
  let s0 : Nat := 2 * workBits + Nat.log2 m
  let s : Nat := if (e + s0) % 2 = 0 then s0 else s0 + 1
  let r := isqrt (2 ^ s / m)
  .fin false r ((-e - s) / 2) (r * r * m ≠ 2 ^ s)

end Sys2Proof.Machine
end

