-- ==== Sys2Proof/Machine/Elementwise.lean ====
section
/-! DEFINITION. Element-wise instructions: `VOP` and `ACT` (R103, R133, R134), `CVT` (R134, R81), and
forming an output tile with its status record and statistics (R105, R136, R161 to R167). -/

namespace Sys2Proof.Machine

/-! ### Exact results (R103, R133, R134) -/

/-- Whether a value that is not NaN lies below another; the two zeros are equal. -/
def Num.below (a b : Num) : Bool :=
  match a, b with
  | .inf x _, .inf y _ => x && !y
  | .inf x _, _ => x
  | _, .inf y _ => !y
  | x, y => match addFinite x y.negate with
    | .fin n _ _ _ => n
    | _ => false

/-- The NaN of operands of which one at least is NaN (R103). -/
def nanOf (xs : List Num) : Option Num :=
  xs.foldl (fun r x => match x, r with
    | .nan c, some (.nan d) => some (.nan (d.join c))
    | .nan c, _ => some (.nan c)
    | _, r => r) none

/-- `VOP.MAX` of values that are not NaN: max(−0, +0) = +0 (R133). -/
def maxNum (a b : Num) : Num :=
  match a, b with
  | .zero x, .zero y => .zero (x && y)
  | x, y => if x.below y then y else x

/-- `VOP.MIN` of values that are not NaN: min(−0, +0) = −0 (R133). -/
def minNum (a b : Num) : Num :=
  match a, b with
  | .zero x, .zero y => .zero (x || y)
  | x, y => if y.below x then y else x

/-- A finite result beyond the working format, binary64, is infinite with cause `OVERFLOW` (R133). -/
def workLimit (x : Num) : Num :=
  match x, (roundNode 0x01 x).1 with
  | .fin n _ _ _, .inf _ _ => .inf n .overflow
  | x, _ => x

/-- The exact result of a `VOP` minor; `s` is the binary64 scalar of `VOP.SCALE` (R133). -/
def vopNum (minor : Nat) (a b c s : Num) : Num :=
  let two := fun (f : Num → Num → Num) => (nanOf [a, b]).getD (f a b)
  workLimit (match minor with
    | 0x00 => addExact a b
    | 0x01 => addExact a b.negate
    | 0x02 => mulExact a b
    | 0x03 => two maxNum
    | 0x04 => two minNum
    | 0x05 => mulExact a s
    | 0x06 => a.absolute
    | 0x07 => a.negate
    | _ => (nanOf [a, b, c]).getD (addExact (mulExact a b) c))

/-- The exact result of an `ACT` minor (R133, R134). -/
def actNum (minor : Nat) (a : Num) : Num :=
  let one := fun (n : Bool) => Num.fin n 1 0 false
  workLimit (match minor, a with
    | _, .nan c => .nan c
    | 0x10, .inf n _ => if n then .zero false else .inf false .overflow
    | 0x10, .fin false m e s => .fin false m e s
    | 0x10, _ => .zero false
    | 0x11, .inf n _ => if n then .zero true else .inf false .overflow
    | 0x11, .zero n => .zero n
    | 0x11, .fin n m e _ => geluNum n m e
    | 0x12, .inf n _ => if n then .zero true else .inf false .overflow
    | 0x12, .zero n => .zero n
    | 0x12, .fin n m e _ => siluNum n m e
    | 0x13, .inf n _ => if n then .zero false else .inf false .overflow
    | 0x13, .zero _ => one false
    | 0x13, .fin n m e _ => expNum n m e
    | 0x14, .inf n _ => one n
    | 0x14, .zero n => .zero n
    | 0x14, .fin n m e _ => tanhNum n m e
    | 0x15, .inf n _ => if n then .zero false else one false
    | 0x15, .zero _ => .fin false 1 (-1) false
    | 0x15, .fin n m e _ => sigmoidNum n m e
    | 0x16, .inf n _ => .zero n
    | 0x16, .zero n => .inf n .overflow
    | 0x16, .fin n m e _ => divFinite false 1 0 n m e
    | _, .inf _ _ => .zero false
    | _, .zero _ => .inf false .overflow
    | _, .fin _ m e _ => rsqrtNum m e)

/-! ### Output tiles (R105, R161 to R167) -/

/-- Takes the contribution index of each destination that names a tag, at issue (R161). A destination
that names none stands with slot 0xFF. -/
def State.takeContributions (s : State) (t : ThreadId) (c : Nat) (ds : List Desc) :
    List (Nat × Nat) × State :=
  ds.foldl (fun (r : List (Nat × Nat) × State) d =>
    if d.statTag = 0xFF then (r.1 ++ [(0xFF, 0)], r.2)
    else
      let (i, s1) := r.2.takeContribution t.array c d.statTag
      (r.1 ++ [(d.statTag, i)], s1)) ([], s)

/-- Whether every tag that an instruction contributes to is bound to a unit: it does not start before
(R157). -/
def State.tagsBound (s : State) (t : ThreadId) (o : TileOp) : Bool :=
  o.contribs.all fun k => k.1 == 0xFF || (s.tag? t.array (s.thread t).ctx k.1).any (·.bound)

/-- A block of an output tile enters the tag of contribution k (R162 to R164). -/
def State.enterBlock (s : State) (t : ThreadId) (o : TileOp) (k f : Nat) (vals : List (List Num))
    (convs : List (List Conv)) : State :=
  match o.contribs[k]? with
  | none => s
  | some x => s.modTag t.array (s.thread t).ctx x.1 fun g => g.block f vals convs

/-- Saturations of INT32 nodes enter the tag of contribution k (R87, R164). -/
def State.enterSats (s : State) (t : ThreadId) (o : TileOp) (k n : Nat) : State :=
  match o.contribs[k]? with
  | none => s
  | some x => s.modTag t.array (s.thread t).ctx x.1 (Tag.addSats · n)

/-- The root of contribution k enters its tag (R166, R167). -/
def State.enterContribution (s : State) (t : ThreadId) (o : TileOp) (k : Nat) (root : Option Num) : State :=
  match o.contribs[k]? with
  | none => s
  | some x => s.enterRoot t.array (s.thread t).ctx x.1 x.2 (some root)

/-- How an instruction rounds the elements of an output tile (R70, R72). -/
def State.roundingOf (s : State) (t : ThreadId) (o : TileOp) (d : Desc) : Nat → Nat → Rounding :=
  roundingAt o.rmode.toNat (s.stepOf (s.thread t)) d.statTag o.s2.toNat

/-- Rows from r of output tile d, the instruction's k-th, are written from their exact values, and enter its tag and its
status record (R105, R133, R161 to R166). -/
def State.writeRows (s : State) (t : ThreadId) (o : TileOp) (k : Nat) (d : Desc) (r c : Nat) (vals : List (List Num)) :
    State :=
  let e := d.encode o.ovfIeee (s.roundingOf t o d) r c vals
  ((s.storeAll e.writes).enterBlock t o k d.format vals e.convs).modOp t o.id fun o =>
    { o with fold := { o.fold with
      records := modAt o.fold.records k fun q => q.merge (TileRecord.addBlock {} d.format r c vals e.convs)
      squares := addSquares o.fold.squares k d.format r c vals e.convs } }

/-! ### Element-wise instructions (R133, R134) -/

/-- The source descriptors of an element-wise instruction, in order (R133). -/
def TileOp.elemSources (o : TileOp) : List Desc :=
  let a := Desc.parse o.a
  match o.kind with
  | .vop 0x05 | .vop 0x06 | .vop 0x07 | .act _ | .cvt => [a]
  | .vop 0x08 => [a, Desc.parse o.b, Desc.parse o.c]
  | _ => [a, Desc.parse o.b]

/-- The result of one element from its sources' elements (R133). -/
def TileOp.elemResult (o : TileOp) (xs : List Num) : Num :=
  let x := fun (i : Nat) => xs.getD i (.zero false)
  match o.kind with
  | .vop m => vopNum m (x 0) (x 1) (x 2) (decodeElem 0x01 o.s1.toNat)
  | .act m => actNum m (x 0)
  | _ => x 0

/-- The values of rows r to r + n of an element-wise instruction's output. A source of one stored row serves every
row (R129). -/
def State.elemValues (s : State) (o : TileOp) (d : Desc) (r n : Nat) : List (List Num) :=
  let ds := o.elemSources
  (countUp r 1 n).map fun i => (List.range d.cols).map fun j =>
    o.elemResult (ds.map fun a =>
      a.value (s.byteFrom 0) (s.lostFrom 0) (if a.broadcastRow then 0 else i) j)

/-- The output rows between two pre-emption points: 16 (R149), or the 32 rows of an MX block that runs down a column,
whose scale all of them settle (R65, R67; notes/assumptions/54.md). -/
def Desc.rowStep (d : Desc) : Nat := if isMx d.format && d.mxCols then 32 else 16

/-- The groups of rows that an instruction has not yet carried out. -/
def TileOp.groupsLeft (o : TileOp) : Nat := ceilDiv (Desc.parse o.d).rows (Desc.parse o.d).rowStep - o.done

/-- What the sources of output rows r to r + n of an element-wise instruction occupy. -/
def TileOp.elemRanges (o : TileOp) (r n : Nat) : List (Nat × Nat) :=
  o.elemSources.flatMap fun a => if a.broadcastRow then a.ranges else a.subRanges r n 0 a.cols

/-- An element-wise instruction carries out its next n groups of rows (R133, R149, R244). -/
def State.elemStep (s : State) (t : ThreadId) (o : TileOp) (n : Nat) : State :=
  let d := Desc.parse o.d
  let r := o.done * d.rowStep
  let rs := o.elemRanges r (min (n * d.rowStep) (d.rows - r))
  let lost := rs.any fun r => !(s.lostIn r.1 r.2).isEmpty
  let s1 := rs.foldl (fun s r => (s.touch r.1 r.2).countLost r.1 r.2) s
  let s2 := (countUp r d.rowStep n).foldl (fun s g =>
    s.writeRows t o 0 d g 0 (s.elemValues o d g (min d.rowStep (d.rows - g)))) s1
  s2.modOp t o.id fun o =>
    { o with done := o.done + n, fold := { o.fold with poisoned := o.fold.poisoned || lost } }

/-- Whether the VSU comes to an element-wise instruction: it runs those of its array in issue order, and passes over one
that may not start, for want of a tag unit (R157), or whose context is not `ACTIVE` (R117; DEDUCED,
notes/assumptions/54.md). -/
def State.elemTurn (s : State) (t : ThreadId) (o : TileOp) : Bool :=
  s.threads.all fun e => e.1 % 64 != t.array || (s.ctx e.2.ctx).state == .suspended || e.2.ops.all fun q =>
    o.id ≤ q.id || !q.kind.isElem || q.cond.isSome || q.late.isSome || !s.tagsBound (keyThread e.1) q

/-- Whether an element-wise instruction can go on: its turn has come (R117), its tags are bound (R157), and no line it reads
or writes is under repair (R243). -/
def State.elemReady (s : State) (t : ThreadId) (o : TileOp) : State × Bool :=
  let d := Desc.parse o.d
  let r := o.done * d.rowStep
  if !s.tagsBound t o || !s.elemTurn t o then (s, false)
  else
    let (s1, ready) := s.sourcesReady (o.elemRanges r (d.rows - r))
    (s1, ready && s1.writable d.ranges)

/-- An element-wise instruction goes on by a number of groups of rows that no operand tells, and stops at a pre-emption
point before its end (R149; notes/assumptions/54.md). -/
def State.advanceElem (s : State) (t : ThreadId) (o : TileOp) : State :=
  let (s1, ready) := s.elemReady t o
  if !ready then s1
  else
    let (n, s2) := s1.freeBelow o.groupsLeft
    s2.elemStep t o n

/-- An element-wise instruction runs to its end (R133, R134, R136, R244). -/
def State.finishElem (s : State) (t : ThreadId) (o : TileOp) : State :=
  let (s1, ready) := s.elemReady t o
  if !ready then s1
  else
    let d := Desc.parse o.d
    let s2 := s1.elemStep t o o.groupsLeft
    match s2.op? t o.id with
    | none => s2
    | some q =>
      (s2.enterContribution t q 0 (contributionRoot q.fold.squares 0 d.rows d.cols)).opEnd t
        { q with records := q.fold.records.take 1, cond := if q.fold.poisoned then some .weightLost else none }

/-- The checks of one source of an element-wise instruction (R81, R129, R133). R57's table has no column for the sources of
`VOP` and `ACT`, and R133 says only how they are read: every legal format is taken (DESIGN CHOICE,
notes/assumptions/53.md). A conversion in place may overlap in the elements, whatever the layouts; its sources are read group
of rows by group of rows, before each group is written. -/
def State.checkElemSource (s : State) (t : ThreadId) (x : Thread) (o : TileOp) (i : Nat) (a : Desc) :
    List (Option Trap) :=
  let d := Desc.parse o.d
  let inPlace := o.kind == .cvt && a.base == d.base && a.stride == d.stride && a.width == d.width
    && !a.scalesMeet d
  [ s.checkDesc t x a { num := i, zeroStride := true, ok := legalFormat },
    if a.cols ≠ d.cols || (a.rows ≠ d.rows && (o.kind == .cvt || !a.broadcastRow)) then some (trOperand i 4)
    else none,
    if a.overlaps d && !inPlace then some (trOperand i 8) else none,
    s.checkRead? x a ]

/-- The checks of an element-wise instruction. -/
def State.checkElem (s : State) (t : ThreadId) (x : Thread) (o : TileOp) : Option Trap :=
  let d := Desc.parse o.d
  firstTrap ([ s.checkConv x o 1,
      s.checkDesc t x d { num := 0, dest := true,
                          ok := fun f => o.kind == .cvt || mmaInput f } ]
    ++ (o.elemSources.mapIdx fun i a => s.checkElemSource t x o (i + 1) a).flatten
    ++ [s.checkWrite? x d])

/-- Issues an element-wise instruction. -/
def State.issueElem (s : State) (t : ThreadId) (minor : Nat) (w : TileWord) (u : TileUse) (kind : TileKind) :
    State :=
  s.issueTile t 0x30 minor w { u with d := true, a := true, conv := true } kind fun x o s =>
    match s.checkElem t x o with
    | some r => .error r
    | none =>
      let (cs, s1) := s.takeContributions t x.ctx [Desc.parse o.d]
      .ok ({ o with contribs := cs }, s1)

/-- `VOP.ADD` (R133). -/
def execVopAdd (t : ThreadId) (w : TileWord) (s : State) : Host.Outcome State Fault Refusal :=
  .next (s.issueElem t 0x00 w { b := true } (.vop 0x00))
/-- `VOP.SUB` (R133). -/
def execVopSub (t : ThreadId) (w : TileWord) (s : State) : Host.Outcome State Fault Refusal :=
  .next (s.issueElem t 0x01 w { b := true } (.vop 0x01))
/-- `VOP.MUL` (R133). -/
def execVopMul (t : ThreadId) (w : TileWord) (s : State) : Host.Outcome State Fault Refusal :=
  .next (s.issueElem t 0x02 w { b := true } (.vop 0x02))
/-- `VOP.MAX` (R133). -/
def execVopMax (t : ThreadId) (w : TileWord) (s : State) : Host.Outcome State Fault Refusal :=
  .next (s.issueElem t 0x03 w { b := true } (.vop 0x03))
/-- `VOP.MIN` (R133). -/
def execVopMin (t : ThreadId) (w : TileWord) (s : State) : Host.Outcome State Fault Refusal :=
  .next (s.issueElem t 0x04 w { b := true } (.vop 0x04))
/-- `VOP.SCALE` (R133). -/
def execVopScale (t : ThreadId) (w : TileWord) (s : State) : Host.Outcome State Fault Refusal :=
  .next (s.issueElem t 0x05 w { s1 := true } (.vop 0x05))
/-- `VOP.ABS` (R133). -/
def execVopAbs (t : ThreadId) (w : TileWord) (s : State) : Host.Outcome State Fault Refusal :=
  .next (s.issueElem t 0x06 w {} (.vop 0x06))
/-- `VOP.NEG` (R133). -/
def execVopNeg (t : ThreadId) (w : TileWord) (s : State) : Host.Outcome State Fault Refusal :=
  .next (s.issueElem t 0x07 w {} (.vop 0x07))
/-- `VOP.FMA` (R133). -/
def execVopFma (t : ThreadId) (w : TileWord) (s : State) : Host.Outcome State Fault Refusal :=
  .next (s.issueElem t 0x08 w { b := true, c := true } (.vop 0x08))
/-- `ACT.RELU` (R133). -/
def execActRelu (t : ThreadId) (w : TileWord) (s : State) : Host.Outcome State Fault Refusal :=
  .next (s.issueElem t 0x10 w {} (.act 0x10))
/-- `ACT.GELU` (R133). -/
def execActGelu (t : ThreadId) (w : TileWord) (s : State) : Host.Outcome State Fault Refusal :=
  .next (s.issueElem t 0x11 w {} (.act 0x11))
/-- `ACT.SILU` (R133). -/
def execActSilu (t : ThreadId) (w : TileWord) (s : State) : Host.Outcome State Fault Refusal :=
  .next (s.issueElem t 0x12 w {} (.act 0x12))
/-- `ACT.EXP` (R133). -/
def execActExp (t : ThreadId) (w : TileWord) (s : State) : Host.Outcome State Fault Refusal :=
  .next (s.issueElem t 0x13 w {} (.act 0x13))
/-- `ACT.TANH` (R133). -/
def execActTanh (t : ThreadId) (w : TileWord) (s : State) : Host.Outcome State Fault Refusal :=
  .next (s.issueElem t 0x14 w {} (.act 0x14))
/-- `ACT.SIGMOID` (R133). -/
def execActSigmoid (t : ThreadId) (w : TileWord) (s : State) : Host.Outcome State Fault Refusal :=
  .next (s.issueElem t 0x15 w {} (.act 0x15))
/-- `ACT.RECIP` (R133). -/
def execActRecip (t : ThreadId) (w : TileWord) (s : State) : Host.Outcome State Fault Refusal :=
  .next (s.issueElem t 0x16 w {} (.act 0x16))
/-- `ACT.RSQRT` (R133). -/
def execActRsqrt (t : ThreadId) (w : TileWord) (s : State) : Host.Outcome State Fault Refusal :=
  .next (s.issueElem t 0x17 w {} (.act 0x17))
/-- `CVT` (R133). -/
def execCvt (t : ThreadId) (w : TileWord) (s : State) : Host.Outcome State Fault Refusal :=
  .next (s.issueElem t 0x20 w {} (.cvt))

end Sys2Proof.Machine
end

