-- ==== Sys2Proof/Machine/Matrix.lean ====
section
/-! DEFINITION. Matrix instructions: pairings, accumulators and rate classes (R22, R68, R131), folding
into passes (R37 to R44, R47 to R49), the landing and the moving front (R25 to R32), passes and their
drain (R23, R39, R92), and sleep (R53). -/

namespace Sys2Proof.Machine

/-! ### Pairings and rate classes (R22, R68, R131) -/

/-- The width order of a format within its rate class (R22). -/
def classOf (f : Nat) : Nat :=
  match f with
  | 0x01 => 64 | 0x02 => 32 | 0x03 | 0x04 => 16
  | 0x09 | 0x0A => 6 | 0x0B => 4 | _ => 8

/-- The rate class of a pairing of input formats; none where it is not legal (R131). -/
def rateClass (a b : Nat) : Option Nat :=
  let half := fun (f : Nat) => f == 0x03 || f == 0x04
  let fp8 := fun (f : Nat) => f == 0x05 || f == 0x06
  let mx := fun (f : Nat) => 0x07 ≤ f && f ≤ 0x0B
  let small := fun (f : Nat) => fp8 f || mx f
  if half a && half b then some 16
  else if (half a && small b) || (small a && half b) then some 16
  else if fp8 a && fp8 b then some 8
  else if mx a && mx b then some (max (classOf a) (classOf b))
  else if (a == 0x0C && b == 0x0C) || (a == 0x0D && b == 0x0D) then some 8
  else if (a == 0x02 && (b == 0x02 || half b)) || (b == 0x02 && half a) then some 32
  else if a == 0x01 && b == 0x01 then some 64
  else none

/-- Lanes, cycles of a streamed row and cycles of the front per array row (R22). -/
def classRates : Nat → Nat × Nat × Nat
  | 8 | 6 => (2, 1, 1) | 4 => (4, 1, 1) | 32 => (1, 4, 2) | 64 => (1, 32, 4) | _ => (1, 1, 1)

/-- The accumulator of a pairing (R68). -/
def accumulator (a b : Nat) : Nat :=
  if a == 0x0C && b == 0x0C then 0x0E else if a == 0x01 || b == 0x01 then 0x01 else 0x02

/-! ### Folding (R37, R38, R43, R44) -/

/-- How an `MMA` folds: leaves of a k-block, whether its shape is a SLAB shape, columns of an n-block,
rows of an m-chunk, and the numbers of k-blocks, m-chunks and n-blocks. -/
structure FoldPlan where
  leaves : Nat
  slab : Bool
  nPass : Nat
  mPass : Nat
  kBlocks : Nat
  chunks : Nat
  nBlocks : Nat
  deriving DecidableEq, Repr

/-- The bytes of the carry store (R38). -/
def carryStore : Nat := 2097152

/-- The rows of an m-chunk and the number of m-chunks (R38). -/
def chunkRows (m nPass kb cRow acc : Nat) : Nat × Nat :=
  let depth := if kb = 1 then 0 else clog2 kb + 1
  let lim := if depth = 0 then 4096 / cRow else min (4096 / cRow) (carryStore / (nPass * acc * depth))
  let c := ceilDiv m (lim / 16 * 16)
  (16 * ceilDiv m (16 * c), c)

/-- The fold of an `MMA` of m × k by k × n in a rate class (R37, R38, R44). -/
def planMma (m n k cls : Nat) : FoldPlan :=
  let (lanes, cRow, cFront) := classRates cls
  let acc := if cls = 64 then 8 else 4
  let plan := fun (g nPass : Nat) (slab : Bool) =>
    let kb := ceilDiv k (16 * g)
    let (rows, c) := chunkRows m nPass kb cRow acc
    { leaves := g, slab := slab, nPass := nPass, mPass := rows, kBlocks := kb, chunks := c,
      nBlocks := ceilDiv n nPass : FoldPlan }
  if k ≤ 64 then
    let g := 2 ^ clog2 (k / 16)
    plan g (128 * lanes * 8 / g) true
  else
    let p := plan 8 (128 * lanes) false
    { p with slab := p.mPass * cRow < 127 * cFront + 1 }

/-- The X of an `MMAB` is captured in `x` (R132). -/
def TileOp.isPair (o : TileOp) : Bool := o.kind == .mmab

/-- The accumulator of a matrix instruction (R68, R132). -/
def TileOp.acc (o : TileOp) : Nat :=
  if o.isPair then 0x02 else accumulator (Desc.parse o.a).format (Desc.parse o.b).format

/-- The fold of an instruction's `MMA`. -/
def TileOp.plan (o : TileOp) : FoldPlan :=
  let a := Desc.parse o.a
  let b := Desc.parse o.b
  planMma a.rows b.cols a.cols ((rateClass a.format b.format).getD 16)

/-- k-blocks of dX in one tile of dY (R49). -/
def TileOp.pairBlocks (o : TileOp) : Nat := ceilDiv (Desc.parse o.d).cols 128
/-- Tiles of dY (R49). -/
def TileOp.pairTiles (o : TileOp) : Nat := ceilDiv (Desc.parse o.a).cols 128

/-- The passes of an instruction on its own array, or on an `MMAB`'s odd array (R37, R49). -/
def TileOp.passTotal (o : TileOp) (aux : Bool) : Nat :=
  if o.isPair then (if aux then o.pairTiles else o.pairTiles * o.pairBlocks)
  else o.plan.nBlocks * o.plan.chunks * o.plan.kBlocks

/-- What a pass covers: streamed rows, reduction range, output columns, the level and index of its nodes,
and whether its block is final when it drains. -/
structure PassShape where
  row : Nat
  rows : Nat
  k : Nat
  depth : Nat
  col : Nat
  cols : Nat
  level : Nat
  index : Nat
  last : Bool
  deriving DecidableEq, Repr

/-- The part of n units of a size that block i of a length covers. -/
def blockOf (i size n : Nat) : Nat × Nat := (i * size, min size (n - i * size))

/-- The shape of pass p (R37, R49). -/
def TileOp.shape (o : TileOp) (aux : Bool) (p : Nat) : PassShape :=
  let a := Desc.parse o.a
  if !o.isPair then
    let f := o.plan
    let kb := p % f.kBlocks
    let (r, rn) := blockOf (p / f.kBlocks % f.chunks) f.mPass a.rows
    let (c, cn) := blockOf (p / (f.kBlocks * f.chunks)) f.nPass (Desc.parse o.b).cols
    let (k, kn) := blockOf kb (16 * f.leaves) a.cols
    { row := r, rows := rn, k := k, depth := kn, col := c, cols := cn, level := clog2 f.leaves,
      index := kb, last := kb + 1 = f.kBlocks }
  else if aux then
    let (c, cn) := blockOf p 128 a.cols
    { row := 0, rows := (Desc.parse o.d).cols, k := 0, depth := a.rows, col := c, cols := cn, level := 3,
      index := 0, last := true }
  else
    let tile := p / o.pairBlocks
    let (c, cn) := blockOf (p % o.pairBlocks) 128 (Desc.parse o.d).cols
    let (k, kn) := blockOf tile 128 a.cols
    { row := 0, rows := a.rows, k := k, depth := kn, col := c, cols := cn, level := 3, index := tile,
      last := tile + 1 = o.pairTiles }

/-- The first pass after the m-chunk of pass p (R37). -/
def TileOp.chunkEnd (o : TileOp) (p : Nat) : Nat :=
  if o.isPair then o.passTotal false else (p / o.plan.kBlocks + 1) * o.plan.kBlocks

/-- Whether both arrays of an `MMAB` have started the passes of the same dY tiles: the pair's common boundary (R49). -/
def TileOp.atBoundary (o : TileOp) : Bool := o.fold.started == o.fold.auxStarted * o.pairBlocks

/-- The dY tiles that the pair has begun (R49). -/
def TileOp.tilesBegun (o : TileOp) : Nat := max o.fold.auxStarted (ceilDiv o.fold.started o.pairBlocks)

/-- The next pass to start on an array. -/
def TileOp.nextPass (o : TileOp) (aux : Bool) : Nat := if aux then o.fold.auxStarted else o.fold.started

/-- Whether two passes of an instruction use the same stationary block, so that the second loads no front
(R25). -/
def TileOp.sameBlock (o : TileOp) (p q : Nat) : Bool :=
  p == q || (!o.isPair && p % o.plan.kBlocks == q % o.plan.kBlocks
    && p / (o.plan.kBlocks * o.plan.chunks) == q / (o.plan.kBlocks * o.plan.chunks))

/-! ### Operand blocks -/

/-- The stationary tile of a pass, and whether its columns run along the reduction: the W of `MMAB`
(R21, R47). -/
def TileOp.stationary (o : TileOp) (aux : Bool) : Desc × Bool :=
  if o.isPair then (if aux then (Desc.parse o.a, false) else (Desc.parse o.b, true))
  else (Desc.parse o.b, false)

/-- The streamed tile of a pass, and whether its rows run along the reduction: the X of `MMAB`. -/
def TileOp.streamed (o : TileOp) (aux : Bool) : Desc × Bool :=
  if aux then (Desc.parse o.x, true) else (Desc.parse o.a, false)

/-- Whether a front goes through the transposing path (R46, R47). -/
def TileOp.transposed (o : TileOp) (aux : Bool) : Bool :=
  let (d, swap) := o.stationary aux
  swap || d.xpose

/-- The local ranges of a block of a tile of an instruction, given as (reduction or row, columns); none
of a tile on another module. -/
def State.blockRanges (s : State) (d : Desc) (swap : Bool) (shift : Int) (r n c m : Nat) :
    List (Nat × Nat) :=
  if d.dev ≠ s.lodge.deviceId then []
  else movedRanges shift (if swap then d.subRanges c m r n else d.subRanges r n c m)

/-- How far an instruction's versioned read moves a tile: its B alone (R194). -/
def State.tileShift (s : State) (t : ThreadId) (o : TileOp) (d : Desc) : Int :=
  if d == o.selected then s.shiftOf (s.thread t).ctx o else 0

/-- A block of a tile: what `value` gives for its elements. -/
def blockOfTile (value : Nat → Nat → Num) (swap : Bool) (r n c m : Nat) : List (List Num) :=
  (List.range n).map fun i => (List.range m).map fun j =>
    if swap then value (c + j) (r + i) else value (r + i) (c + j)

/-- The values of a block of a local tile that is streamed. -/
def State.blockValues (s : State) (t : ThreadId) (o : TileOp) (d : Desc) (swap : Bool) (r n c m : Nat) :
    List (List Num) :=
  let shift := s.tileShift t o d
  blockOfTile (d.value (s.byteFrom shift) (s.lostFrom shift)) swap r n c m

/-- An element as a cell holds it: without its block's scale, and NaN with cause `POISON_INPUT` where it is lost (R24,
R30). -/
def Desc.element (d : Desc) (get : Nat → Byte) (lost : Nat → Bool) (i j : Nat) : Num :=
  if d.elemLost lost i j then .nan .poisonInput else decodeElem d.format (d.elemBitsAt get i j)

/-- The E8M0 scales of a stationary block from row r: for each 32 reduction indices, those of its columns (R24, R65). -/
def Desc.blockScales (d : Desc) (get : Nat → Byte) (r n c m : Nat) : List Bytes :=
  if !isMx d.format then []
  else (countUp r 32 (ceilDiv n 32)).map fun k => (List.range m).map fun j => get (d.scalePos k (c + j))

/-- A stationary block under its scales: a scale applies to 32 consecutive reduction indices (R24, R64, R66). -/
def scaledBlock (block : List (List Num)) (scales : List Bytes) : List (List Num) :=
  if scales.isEmpty then block
  else block.mapIdx fun k row => row.mapIdx fun j x =>
    let e := (((scales.getD (k / 32) []).getD j 0).toNat)
    match x with
    | .nan c => .nan c
    | x => if e = 0xFF then .nan .nanInput else x.scale2 ((e : Int) - 127)

/-- Whether a block holds an element of a lost line (R30). -/
def blockPoisoned (b : List (List Num)) : Bool := b.any fun r => r.any (· == .nan .poisonInput)

/-! ### Which pass comes next (R37, R49, R50, R116) -/

/-- The matrix instructions of an array's own threads, in no order. -/
def State.matrixOps (s : State) (a : Nat) : List (ThreadId × TileOp) :=
  ((s.threads.filter fun e => e.1 % 64 == a).map fun e =>
    (e.2.ops.filter fun o => o.kind == .mma || o.kind == .mmab).map fun o => (keyThread e.1, o)).flatten

/-- Whether a matrix instruction may run passes: nothing has ended it, its tags are bound (R157), and its context is
`ACTIVE` (R28), or is being suspended while the pair of an `MMAB` has not reached its common boundary (R49). -/
def State.runnable (s : State) (t : ThreadId) (o : TileOp) : Bool :=
  let c := (s.ctx (s.thread t).ctx).state
  o.phase != .finished && o.cond.isNone && o.late.isNone && s.tagsBound t o
    && (c == .active || (c == .suspending && o.isPair && !o.atBoundary))

/-- The pass before which an instruction's passes on an array stop for now: all are counted (R37, R49), or those before one
whose fetch failed (R28), or those of the dY tiles begun while its context is being suspended (R49). -/
def State.passLimit (s : State) (t : ThreadId) (o : TileOp) (aux : Bool) : Nat :=
  let total := match o.stop with
    | some (p, _, _) => min p (o.passTotal aux)
    | none => o.passTotal aux
  if o.isPair && (s.ctx (s.thread t).ctx).state == .suspending then
    min total (if aux then o.tilesBegun else o.tilesBegun * o.pairBlocks)
  else total

/-- Whether an array can run passes. -/
def State.arrayAwake (s : State) (a : Nat) : Bool :=
  (s.array a).service == .serving && !(s.array a).asleep

/-- The instruction that an array is in the middle of, where it may run. -/
def State.holderOf (s : State) (a : Nat) : Option (ThreadId × TileOp) :=
  (s.array a).holder.bind fun h => ((s.op? h.1 h.2).filter fun o => s.runnable h.1 o).map fun o => (h.1, o)

/-- Whether the passes of an instruction on an array may go on at their pair's boundary (R49). -/
def TileOp.pairReady (o : TileOp) (aux : Bool) : Bool :=
  !o.isPair || (if aux then o.fold.auxStarted * o.pairBlocks ≤ o.fold.started
    else o.fold.started / o.pairBlocks ≤ o.fold.auxStarted)

/-- Whether a matrix instruction that is ready can take an array at an m-chunk boundary: an `MMAB` needs
its partner free, in service and awake (R50). -/
def State.canTake (s : State) (a : Nat) (o : TileOp) : Bool :=
  !o.isPair || (s.arrayAwake (a + 1) && (s.holderOf (a + 1)).isNone)

/-- The instruction that R116 takes at an m-chunk boundary: of the highest class, and of those the one
issued earliest. `skip` is an instruction whose passes are all accounted for. -/
def State.arbitrate (s : State) (a : Nat) (ok : ThreadId → TileOp → Bool) : Option (ThreadId × TileOp) :=
  ((s.matrixOps a).filter fun x => s.runnable x.1 x.2 && ok x.1 x.2).foldl (fun best x =>
    let cls := fun (y : ThreadId × TileOp) => (s.ctx (s.thread y.1).ctx).priority
    match best with
    | none => some x
    | some b => if cls b < cls x || (cls b == cls x && x.2.id < b.2.id) then some x else some b) none

/-- Passes p to q of an instruction, by thread, instruction and number. -/
def passesFrom (t : ThreadId) (o : TileOp) (p q : Nat) : List (ThreadId × TileOp × Nat) :=
  (countUp p 1 (q - p)).map fun n => (t, o, n)

/-- The instruction that R116 would take on an array that is in the middle of none. An `MMAB` of which one array still has
passes to run takes both again (R50, R93). -/
def State.nextHolder (s : State) (a : Nat) : Option (ThreadId × TileOp) :=
  if (s.holderOf a).isSome || (s.array a).holder.any (fun h => h.1.array ≠ a) then none
  else s.arbitrate a fun t o => s.canTake a o
    && (o.nextPass false < s.passLimit t o false || (o.isPair && o.nextPass true < s.passLimit t o true))

/-- The next passes of an array, in order: those of the m-chunk under way, then those of the m-chunk that
R116 would take. -/
def State.nextPasses (s : State) (a : Nat) : List (ThreadId × TileOp × Nat) :=
  match s.holderOf a with
  | some (t, o) =>
    let aux := t.array ≠ a
    let p := o.nextPass aux
    if o.isPair then
      (passesFrom t o p (s.passLimit t o aux)).take 2
    else
      let e := o.chunkEnd p
      let after := fun (t' : ThreadId) (o' : TileOp) =>
        !o'.isPair && (if t' == t && o'.id == o.id then e else o'.nextPass false) < s.passLimit t' o' false
      (passesFrom t o p (min e (s.passLimit t o false)) ++ (match s.arbitrate a after with
        | none => []
        | some (t', o') =>
          let q := if t' == t && o'.id == o.id then e else o'.nextPass false
          passesFrom t' o' q (min (o'.chunkEnd q) (s.passLimit t' o' false)))).take 3
  | none => match s.nextHolder a with
    | none => []
    | some (t, o) =>
      let p := o.nextPass false
      (passesFrom t o p (min (o.chunkEnd p) (s.passLimit t o false))).take 3

/-- Of the next passes, those that need a front (R25). -/
def needFronts : Option (ThreadId × Nat × Nat) → List (ThreadId × TileOp × Nat) → List (ThreadId × TileOp × Nat)
  | _, [] => []
  | prev, (t, o, p) :: r =>
    let rest := needFronts (some (t, o.id, p)) r
    if prev.any fun q => q.1 == t && q.2.1 == o.id && o.sameBlock q.2.2 p then rest else (t, o, p) :: rest

/-- The name of a pass in a landing half. -/
def passName (x : ThreadId × TileOp × Nat) : ThreadId × Nat × Nat := (x.1, x.2.1.id, x.2.2)

/-! ### The landing (R26 to R30) -/

/-- A half that serves none of the passes wanted is discarded (R28). -/
def LandingHalf.keep (h : LandingHalf) (want : List (ThreadId × Nat × Nat)) : LandingHalf :=
  if h.owner.any want.contains then h else {}

/-- Gives the landing's free halves to passes that have none, in order (R26). -/
def assignHalves (x : ArrayState) : List (ThreadId × Nat × Nat) → ArrayState
  | [] => x
  | p :: ps =>
    let fill : LandingHalf := { state := .filling, owner := some p }
    let y :=
      if x.halfA.owner == some p || x.halfB.owner == some p then x
      else if x.halfA.state == .free then { x with halfA := fill }
      else if x.halfB.state == .free then { x with halfB := fill }
      else x
    assignHalves y ps

/-- Changes the landing half of a pass. -/
def ArrayState.modHalf (x : ArrayState) (p : ThreadId × Nat × Nat) (f : LandingHalf → LandingHalf) : ArrayState :=
  if x.halfA.owner == some p then { x with halfA := f x.halfA }
  else if x.halfB.owner == some p then { x with halfB := f x.halfB } else x

/-- The landing half of a pass. -/
def ArrayState.halfOf (x : ArrayState) (p : ThreadId × Nat × Nat) : Option LandingHalf :=
  if x.halfA.owner == some p then some x.halfA
  else if x.halfB.owner == some p then some x.halfB else none

/-- The ranges of a pass's stationary block, on the module that holds its tile. -/
def State.fillRanges (s : State) (t : ThreadId) (o : TileOp) (aux : Bool) (p : Nat) : List (Nat × Nat) :=
  let sh := o.shape aux p
  let (d, swap) := o.stationary aux
  movedRanges (s.tileShift t o d)
    (if swap then d.subRanges sh.col sh.cols sh.k sh.depth else d.subRanges sh.k sh.depth sh.col sh.cols)

/-- The fetch of a pass's stationary block fails: the pass never starts, and the instruction ends once the passes before it
have run (R28). -/
def State.stopAt (s : State) (t : ThreadId) (id p : Nat) (c : Code) (dev : Nat) : State :=
  s.modOp t id fun o => match o.stop with
    | some (q, _, _) => if p < q then { o with stop := some (p, c, dev) } else o
    | none => { o with stop := some (p, c, dev) }

/-- The fetch of a pass's stationary block is issued: reads of a B on another module (R259, R275), or the binding of a
versioned B, whose reader the instruction becomes at its first fetch (R194, R195). -/
def State.askHalf (s : State) (a : Nat) (t : ThreadId) (id p : Nat) : State :=
  match s.op? t id, (s.array a).halfOf (t, id, p) with
  | some o, some h =>
    if h.state != .filling || h.asked then s
    else
      let aux := t.array ≠ a
      let d := (o.stationary aux).1
      let s1 := s.modArray a fun x => x.modHalf (t, id, p) fun h => { h with asked := true }
      if d.dev ≠ s.lodge.deviceId then
        if !s.hasRoute d.dev then s1.noRoute.stopAt t id p .peerTimeout d.dev
        else
          let (tags, s2) := s1.requestRanges t o id d (s1.fillRanges t o aux p)
          s2.modArray a fun x => x.modHalf (t, id, p) fun h => { h with awaited := tags }
      else if aux || o.bound.isSome || o.reader then s1
      else
        let (o', s2) := s1.bindAtIssue t o
        s2.modOp t id fun _ => o'
  | _, _ => s

/-- The sequencer looks at what an array should do next: an `MMAB` that R116 takes claims both arrays of
its pair (R50), and landing fills are started (R26). -/
def State.sequence (s : State) (a : Nat) : State :=
  if !s.arrayAwake a then s
  else
    let s1 := match s.nextHolder a with
      | some (t, o) =>
        if o.isPair then
          (s.modArray a fun x => { x with holder := some (t, o.id) }).modArray (a + 1) fun x =>
            { x with holder := some (t, o.id) }
        else s
      | none => s
    let fill := fun (s : State) (b : Nat) =>
      let want := (needFronts (s.array b).fronted (s.nextPasses b)).map passName
      want.foldl (fun s p => s.askHalf b p.1 p.2.1 p.2.2) (s.modArray b fun x =>
        assignHalves { x with halfA := x.halfA.keep want, halfB := x.halfB.keep want } want)
    let s2 := fill s1 a
    if (s2.array a).holder.any fun h => h.1.array == a && (s2.op? h.1 h.2).any TileOp.isPair then fill s2 (a + 1)
    else s2

/-- Whether an array is idle because the half of its next pass has not landed (R27), or because the partner of the `MMAB`
that comes next cannot serve (R50). -/
def State.missesFetch (s : State) (a : Nat) : Bool :=
  s.arrayAwake a && ((needFronts (s.array a).fronted ((s.nextPasses a).take 1)).any (fun p =>
      !((s.array a).halfOf (passName p)).any fun h => h.state == .landed)
    || ((s.nextPasses a).isEmpty && (s.matrixOps a).any fun o => s.runnable o.1 o.2 && o.2.isPair && !s.canTake a o.2))

/-- A wait of an array for its next half ends without that pass's start: its cycles, which no operand tells, count (R27,
R50; notes/assumptions/5.md). -/
def State.endMiss (s : State) (a : Nat) : State := if s.missesFetch a then s.countFree cPrefetchMiss a else s

/-- The next pass whose half is filling. -/
def State.fillTarget (s : State) (a : Nat) : Option (ThreadId × TileOp × Nat) :=
  (needFronts (s.array a).fronted (s.nextPasses a)).find? fun p =>
    ((s.array a).halfOf (passName p)).any fun h => h.state == .filling

/-- Counts the reads of ranges by an array (R223, R244). -/
def State.arrayReads (s : State) (a : Nat) (rs : List (Nat × Nat)) : State :=
  rs.foldl (fun s r => (s.countedTouch r.1 r.2 a).countLost r.1 r.2) s

/-- Changes the fold of an instruction. -/
def State.modFold (s : State) (t : ThreadId) (id : Nat) (f : Fold → Fold) : State :=
  s.modOp t id fun o => { o with fold := f o.fold }

/-- The dY tiles that the stream store holds (R47, R54). -/
def streamTiles : Nat := 2

/-- A landing fill completes once every byte of the block has arrived (R26, R29, R30): the half takes the block as its bytes
now stand. On an `MMAB`'s odd array the same bytes enter the even array's stream store, which must have room (R47,
R54). -/
def State.landFill (s : State) (a : Nat) (t : ThreadId) (o : TileOp) (p : Nat) (h : LandingHalf) : State :=
  let aux := t.array ≠ a
  let sh := o.shape aux p
  let (d, swap) := o.stationary aux
  let here := d.dev = s.lodge.deviceId
  let rs := if here then s.fillRanges t o aux p else []
  let (s1, ready) := s.sourcesReady rs
  let full := aux && streamTiles ≤ (o.fold.stream.filter fun e => e.1 ≠ p).length
  if !ready || !h.awaited.isEmpty || (here && !aux && o.unbound) || full then s1
  else
    let shift := s1.tileShift t o d
    let get := if here then s1.byteFrom shift else fun x => Map.getD h.fetched x 0
    let lost := if here then s1.lostFrom shift else fun x => h.fetchedLost.contains (x / lineBytes)
    let block := blockOfTile (d.element get lost) swap sh.k sh.depth sh.col sh.cols
    let bad := blockPoisoned block
    let s2 := (s1.arrayReads a rs).count cPoisonedLoads a (b2n bad)
    let s3 := s2.modArray a fun x =>
      { x.modHalf (t, o.id, p) (fun h =>
          { h with state := .landed, block := block, poisoned := bad, fetched := [], fetchedLost := []
                   scales := d.blockScales get sh.k sh.depth sh.col sh.cols }) with
        lastProgress := s.now }
    if aux then s3.modFold t o.id fun f => { f with stream := Map.put f.stream p block } else s3

/-- `LANDING_FILL_COMPLETE` (R26). -/
def execLandingFillComplete (array : Nat) (s : State) : Host.Outcome State Fault Refusal :=
  let s1 := s.sequence array
  .next (match s1.fillTarget array with
    | none => s1
    | some (t, o, p) => match (s1.array array).halfOf (t, o.id, p) with
      | some h => s1.landFill array t o p h
      | none => s1)

/-! ### Fronts (R24, R25, R31) -/

/-- The fronts of a load: eight in a SLAB shape, one otherwise (R43). -/
def TileOp.fronts (o : TileOp) : Nat := if !o.isPair && o.plan.slab then 8 else 1

/-- `FRONT_ENTRY`: the fronts of the next pass's load enter and run to the last array row, which frees the half (R26, R31;
notes/assumptions/46.md). The load takes the epoch opposite to the previous one's (R25); the first one of an instruction that
has resumed takes epoch 0 (R54). -/
def execFrontEntry (array cycles : Nat) (s : State) : Host.Outcome State Fault Refusal :=
  .next (match s.nextPasses array with
    | [] => s
    | (t, o, p) :: _ =>
      let x := s.array array
      let aux := t.array ≠ array
      match needFronts x.fronted [(t, o, p)], x.halfOf (t, o.id, p) with
      | _ :: _, some h =>
        if h.state ≠ .landed || !s.arrayAwake array then s
        else
          let e := x.epoch && !(if aux then o.fold.auxResumed else o.fold.resumed)
          let s1 := (s.modArray array fun x =>
            let y := { x.modHalf (t, o.id, p) (fun _ => {}) with epoch := !e, fronted := some (t, o.id, p) }
            if e then { y with stationary1 := h.block, scales1 := h.scales }
            else { y with stationary0 := h.block, scales0 := h.scales }).modFold t o.id fun f =>
              if aux then { f with auxResumed := false } else { f with resumed := false }
          ((s1.count cFrontWait array cycles).count cTransposedLoads array
            (if o.transposed aux then o.fronts else 0)).sequence t.array
      | _, _ => s)

/-! ### Passes (R23, R27, R34 to R37, R56) -/

/-- Products of a pass that gating leaves unclocked: those with a zero of either sign (R34 to R36). -/
def gatedMacs (rows block : List (List Num)) : Nat :=
  let isZero := fun (x : Num) => match x with
    | .zero _ => true
    | _ => false
  (block.mapIdx fun k b =>
    let a := rows.map fun r => r.getD k (.zero false)
    let m := a.length
    let n := b.length
    m * n - (m - (a.filter isZero).length) * (n - (b.filter isZero).length)).sum

/-- The rows that a pass streams, with the local ranges it reads; none where an `MMAB`'s tile is not in
the stream store yet (R47). -/
def State.streamRows (s : State) (t : ThreadId) (o : TileOp) (aux : Bool) (p : Nat) :
    Option (List (List Num) × List (Nat × Nat)) :=
  let sh := o.shape aux p
  if o.isPair && !aux then (Map.get? o.fold.stream sh.index).map fun b => (b, [])
  else
    let (d, swap) := o.streamed aux
    some (s.blockValues t o d swap sh.row sh.rows sh.k sh.depth,
      s.blockRanges d swap 0 sh.row sh.rows sh.k sh.depth)

/-- The first streamed row of a pass enters the array (R27). R49 gives the passes of `MMAB` their sizes and R44 chooses
shapes for an instruction's passes by K and M, which name no dimension of `MMAB`: its passes run in the SQUARE shape, at 128 by
128, and add nothing to `SLAB_PASSES` (DESIGN CHOICE, notes/assumptions/55.md). -/
def State.startPass (s : State) (a cycles : Nat) (t : ThreadId) (o : TileOp) (p : Nat)
    (rows : List (List Num)) (rs : List (Nat × Nat)) : State :=
  let aux := t.array ≠ a
  let sh := o.shape aux p
  let x := s.array a
  let block := if x.epoch then scaledBlock x.stationary0 x.scales0 else scaledBlock x.stationary1 x.scales1
  let s1 := (((((s.arrayReads a rs).count cPrefetchMiss a cycles).count cPassesRun a).count cSlabPasses a
    (b2n (!o.isPair && o.plan.slab))).count cMacsIssued a (sh.rows * sh.cols * sh.depth)).count
      cZeroGatedMacs a (gatedMacs rows block)
  let poison := blockPoisoned rows || blockPoisoned block
  let s2 := s1.modOp t o.id fun o =>
    let f := if aux then { o.fold with auxStarted := o.fold.auxStarted + 1 }
      else { o.fold with started := o.fold.started + 1 }
    { o with phase := .running
             fold := { f with poisoned := f.poisoned || poison
                              stream := f.stream.filter fun e => f.started / o.pairBlocks ≤ e.1 } }
  let s3 := s2.modArray a fun x =>
    { x with
      passes := x.passes ++ [{ owner := t, op := o.id, ctx := (s.thread t).ctx, number := p, epoch := !x.epoch, rows := rows, block := block }]
      holder := some (t, o.id), lastProgress := s.now, lastPass := s.now }
  let o' := (s3.op? t o.id).getD o
  let s4 :=
    if o'.isPair then
      if o'.fold.started = o'.passTotal false && o'.fold.auxStarted = o'.passTotal true then
        (s3.modArray t.array fun x => { x with holder := none }).modArray (t.array + 1) fun x =>
          { x with holder := none }
      else s3
    else if o'.fold.started % o'.plan.kBlocks = 0 then s3.modArray a fun x => { x with holder := none }
    else s3
  (s4.trace 1 a (s.thread t).ctx (le 8 o.pc.toNat ++ le 8 p)).sequence t.array

/-- `PASS_START` (R27). -/
def execPassStart (array cycles : Nat) (s : State) : Host.Outcome State Fault Refusal :=
  .next (match s.nextPasses array with
    | [] => s
    | (t, o, p) :: _ =>
      let aux := t.array ≠ array
      if !s.arrayAwake array || !(needFronts (s.array array).fronted [(t, o, p)]).isEmpty
          || !o.pairReady aux then s
      else match s.streamRows t o aux p with
        | none => s
        | some (rows, rs) =>
          let (s1, ready) := s.sourcesReady rs
          if ready then s1.startPass array cycles t o p rows rs else s1)

/-! ### Drain (R39, R91, R92) -/

/-- A destination of a matrix instruction. -/
def TileOp.matrixDest (o : TileOp) (aux : Bool) : Desc := Desc.parse (if aux then o.c else o.d)

/-- The key of an output element. -/
def elemKey (i j : Nat) : Nat := i * 65536 + j

/-- The nodes that a pass delivers, by output element (R23, R88). -/
def passNodes (acc : Nat) (rows block : List (List Num)) (cols : Nat) : List (List Num) :=
  let bs := transpose cols block
  rows.map fun r => bs.map fun b => ((groupNode acc r b).map (·.1)).getD (.zero false)

/-- Pushes a pass's nodes on the carry stacks of its elements (R92). -/
def pushNodes (acc : Nat) (sh : PassShape) (carry : Map (List Node)) (nodes : List (List Num)) :
    Map (List Node) :=
  (nodes.zipIdx).foldl (fun m r => (r.1.zipIdx).foldl (fun m x =>
    let k := elemKey (sh.row + r.2) (sh.col + x.2)
    Map.put m k (pushNode acc (Map.getD m k []) { value := x.1, level := sh.level, index := sh.index }).1) m)
    carry

/-- The roots of a pass's block, once its last k-block has drained (R91, R92). -/
def carryRoots (acc : Nat) (sh : PassShape) (carry : Map (List Node)) : List (List Num) :=
  (List.range sh.rows).map fun i => (List.range sh.cols).map fun j =>
    ((finishStack acc (Map.getD carry (elemKey (sh.row + i) (sh.col + j)) [])).map (·.1)).getD (.zero false)

/-- The carry stacks without those of a block. -/
def dropBlock {α : Type} (m : Map α) (sh : PassShape) : Map α :=
  m.filter fun e => !(sh.row ≤ e.1 / 65536 && e.1 / 65536 < sh.row + sh.rows && sh.col ≤ e.1 % 65536
    && e.1 % 65536 < sh.col + sh.cols)

/-- The final roots of a block at (r, c) of destination k are written, and enter its status record and its
tag (R91, R105, R161 to R166). -/
def State.writeBlock (s : State) (t : ThreadId) (o : TileOp) (k r c : Nat) (vals : List (List Num)) : State :=
  s.writeRows t o k (o.matrixDest (k == 1)) r c vals

/-- The roots of a block become final. In an MX tile whose blocks run down the columns, the rows of an
n-block are written once all its m-chunks are final (R67). -/
def State.finalBlock (s : State) (t : ThreadId) (o : TileOp) (aux : Bool) (sh : PassShape)
    (roots : List (List Num)) : State :=
  let d := o.matrixDest aux
  let k := b2n aux
  if !(isMx d.format && d.mxCols) || sh.rows = d.rows then s.writeBlock t o k sh.row sh.col roots
  else
    let fs := (roots.zipIdx).foldl (fun m r => (r.1.zipIdx).foldl (fun m x =>
      Map.put m (elemKey (sh.row + r.2) (sh.col + x.2)) x.1) m) o.fold.finals
    if sh.row + sh.rows < d.rows then s.modFold t o.id fun f => { f with finals := fs }
    else
      let all := (List.range d.rows).map fun i => (List.range sh.cols).map fun j =>
        Map.getD fs (elemKey i (sh.col + j)) (.zero false)
      (s.modFold t o.id fun f => { f with finals := [] }).writeBlock t o k 0 sh.col all

/-- After its last pass has drained, an instruction's contributions enter and it is finished (R136,
R167). -/
def State.finishFold (s : State) (t : ThreadId) (id : Nat) : State :=
  match s.op? t id with
  | none => s
  | some o =>
    if o.fold.drained < o.passTotal false || (o.isPair && o.fold.auxDrained < o.passTotal true) then s
    else
      let dests := if o.isPair then [o.matrixDest false, o.matrixDest true] else [o.matrixDest false]
      let s1 := (dests.zipIdx).foldl (fun s d =>
        s.enterContribution t o d.2 (contributionRoot o.fold.squares d.2 d.1.rows d.1.cols)) s
      s1.modOp t id fun o =>
        { o with phase := .finished, records := o.fold.records.take dests.length
                 cond := if o.fold.poisoned then some .weightLost else none }

/-- An instruction whose next pass cannot start, since its fetch failed, ends once the passes before it have drained: it
receives the fetch's code (R28). -/
def State.stopMatrix (s : State) (t : ThreadId) (id : Nat) : State :=
  match s.op? t id with
  | none => s
  | some o => match o.stop with
    | none => s
    | some (p, c, dev) =>
      if o.phase == .finished || o.fold.started < p || o.fold.drained < p then s
      else
        let s1 := (s.dropContribs t o).modOp t id fun o =>
          { o with phase := .finished, records := o.fold.records.take 1, cond := some c, failDevice := dev }
        (s1.modArray t.array fun x => { x with holder := if x.holder == some (t, id) then none else x.holder }).sequence
          t.array

/-- `PASS_DRAIN` (R39): the oldest pass in an array delivers its nodes. -/
def execPassDrain (array : Nat) (s : State) : Host.Outcome State Fault Refusal :=
  .next (match (s.array array).passes with
    | [] => s
    | q :: qs =>
      match s.op? q.owner q.op with
      | none => s.modArray array fun x => { x with passes := qs }
      | some o =>
        let aux := q.owner.array ≠ array
        let sh := o.shape aux q.number
        let d := o.matrixDest aux
        if sh.last && !s.writable d.ranges then s
        else
          let nodes := passNodes o.acc q.rows q.block sh.cols
          let carry := if aux then [] else pushNodes o.acc sh o.fold.carry nodes
          let roots := if aux then nodes else carryRoots o.acc sh carry
          let s1 := (s.modArray array fun x => { x with passes := qs, lastProgress := s.now }).modFold
            q.owner q.op fun f =>
              if aux then { f with auxDrained := f.auxDrained + 1 }
              else { f with drained := f.drained + 1, carry := if sh.last then dropBlock carry sh else carry }
          let s2 := if sh.last then s1.finalBlock q.owner o aux sh roots else s1
          (s2.finishFold q.owner q.op).stopMatrix q.owner q.op)

/-! ### Sleep and wake (R53, R456) -/

/-- Whether an array keeps anything that gating would lose, or a pass is ready on it (R53). The carry stacks of a suspended
context lie in its saved state (R54). -/
def State.arrayBusy (s : State) (a : Nat) : Bool :=
  let x := s.array a
  !x.passes.isEmpty || x.halfA.state != .free || x.halfB.state != .free || x.holder.isSome
    || (s.matrixOps a).any fun o => s.runnable o.1 o.2
      || (!o.2.fold.carry.isEmpty && (s.ctx (s.thread o.1).ctx).state != .suspended)

/-- `ARRAY_POWER_GATE` (R53, R456). -/
def execArrayPowerGate (array : Nat) (s : State) : Host.Outcome State Fault Refusal :=
  .next (if !s.arrayAwake array || s.arrayBusy array
      || s.now < (s.array array).lastProgress + s.lodge.settings.arrayIdleUs * 1000 then s
    else s.modArray array fun x =>
      { x with asleep := true, stationary0 := [], stationary1 := [], scales0 := [], scales1 := [], fronted := none })

/-- Whether an `MMAB` of an odd array's partner waits for the odd array (R50). -/
def State.pairWaits (s : State) (a : Nat) : Bool :=
  a % 2 == 1 && (s.matrixOps (a - 1)).any fun o => o.2.isPair && s.runnable o.1 o.2

/-- `ARRAY_WAKE` (R53): the array wakes for a pass that is ready. While an odd array sleeps and only the `MMAB` of its even
partner waits for it, R50 counts the wait in `PREFETCH_MISS_CYCLES` of the even array, and it adds nothing to
`WAKE_WAIT_CYCLES` of the odd one, whose own passes R53 speaks of (DEDUCED, notes/assumptions/55.md). -/
def execArrayWake (array cycles : Nat) (s : State) : Host.Outcome State Fault Refusal :=
  let own := (s.matrixOps array).any fun o => s.runnable o.1 o.2
  .next (if !(s.array array).asleep || !(own || s.pairWaits array) then s
    else
      let s1 := (s.modArray array fun x => { x with asleep := false }).count cWakeWait array
        (if own then cycles else 0)
      s1.sequence (if own then array else array - 1))

/-! ### Issue (R130 to R132) -/

/-- Formats a matrix output may have (R57). -/
def matrixOutput (f : Nat) : Bool := 0x01 ≤ f && f ≤ 0x0E

/-- The checks of an `MMA` (R129 to R131). -/
def State.checkMma (s : State) (t : ThreadId) (x : Thread) (o : TileOp) : Option Trap :=
  let d := Desc.parse o.d
  let a := Desc.parse o.a
  let b := Desc.parse o.b
  let need := fun (ok : Bool) (operand reason : Nat) => if ok then none else some (trOperand operand reason)
  firstTrap [
    s.checkConv x o 1,
    s.checkDesc t x d { num := 0, dest := true, ok := matrixOutput },
    s.checkDesc t x a { num := 1, ok := mmaInput },
    s.checkDesc t x b { num := 2, remote := true, xpose := true, ok := mmaInput },
    need (!(isMx a.format && a.mxCols)) 1 7,
    need (!isMx b.format || b.mxCols) 2 7,
    need (rateClass a.format b.format).isSome 2 2,
    need (d.format != 0x0E || o.acc == 0x0E) 0 2,
    need (b.rows == a.cols) 2 4,
    need (d.rows == a.rows && d.cols == b.cols) 0 4,
    need (a.rows ≤ 4096 && a.cols ≤ 65536) 1 3,
    need (b.cols ≤ 4096) 2 3,
    if a.format == 0x01 && !s.variant.fp64 then some trUnavailable else none,
    s.partialTrap x b 2,
    s.checkRead? x a, s.checkRead? x b, s.checkWrite? x d ]

/-- The checks of an `MMAB` (R48, R50, R69, R132). R151 gives no operand for a limit of R48: a breach names the tile whose
rows or columns exceed it, dY for M and N and W for K, and the joint limit of the carry store names dX, whose nodes it holds
(DESIGN CHOICE, notes/assumptions/52.md). W goes through the transposing path, so an MX form of it is reason 7 (R46). -/
def State.checkMmab (s : State) (t : ThreadId) (x : Thread) (o : TileOp) : Option Trap :=
  let d := Desc.parse o.d
  let a := Desc.parse o.a
  let b := Desc.parse o.b
  let c := Desc.parse o.c
  let e := Desc.parse o.x
  let need := fun (ok : Bool) (operand reason : Nat) => if ok then none else some (trOperand operand reason)
  let bf := fun (f : Nat) => f == 0x04
  let wx := fun (f : Nat) => 0x03 ≤ f && f ≤ 0x06
  firstTrap [
    s.checkConv x o 2,
    need (t.array % 2 == 0) 5 11,
    if (s.array (t.array + 1)).service == .gone then some trUnavailable else none,
    s.checkDesc t x d { num := 0, dest := true, ok := matrixOutput, pair := bf },
    s.checkDesc t x a { num := 1, ok := mmaInput, pair := bf },
    s.checkDesc t x b { num := 2, ok := mmaInput, mx := false, pair := wx },
    s.checkDesc t x c { num := 3, dest := true, ok := matrixOutput, pair := fun f => f == 0x04 || f == 0x02 },
    s.checkDesc t x e { num := 4, ok := mmaInput, pair := wx },
    need (d.rows == a.rows) 0 4,
    need (b.rows == d.cols && b.cols == a.cols) 2 4,
    need (c.rows == d.cols && c.cols == a.cols) 3 4,
    need (e.rows == a.rows && e.cols == d.cols) 4 4,
    need (a.rows ≤ 128 && a.cols ≤ 4096) 1 3,
    need (b.rows ≤ 4096) 2 3,
    need (4 * a.rows * d.cols * (clog2 (ceilDiv a.cols 128) + 1) ≤ carryStore) 0 3,
    s.partialTrap x b 2,
    s.checkRead? x a, s.checkRead? x b, s.checkRead? x e, s.checkWrite? x d, s.checkWrite? x c ]

/-- A matrix instruction takes its contributions' places at issue (R161). Its blocks are fetched, and a versioned B is
bound, from its first landing fill on (R26, R195). -/
def State.startMatrix (s : State) (t : ThreadId) (x : Thread) (o : TileOp) (dests : List Desc) : TileOp × State :=
  let (cs, s1) := s.takeContributions t x.ctx dests
  ({ o with contribs := cs }, s1)

/-- A matrix instruction that has entered the queue may be the next of its array (R113). -/
def State.takeUp (s : State) (t : ThreadId) (id : Nat) : State :=
  match s.op? t id with
  | none => s
  | some _ => s.sequence t.array

/-- `MMA` (R130). With binary64 inputs it stalls until the FP64 path is in service (R6, R52). -/
def execMma (t : ThreadId) (w : TileWord) (s : State) : Host.Outcome State Fault Refusal :=
  let s1 := s.issueTile t 0x20 0x00 w { d := true, a := true, b := true, conv := true } .mma
    (fun x o s => match s.checkMma t x o with
      | some r => .error r
      | none => .ok (s.startMatrix t x o [Desc.parse o.d]))
    fun o => (Desc.parse o.a).format == 0x01 && !s.fp64Serving
  .next (s1.takeUp t s.nextOp)

/-- `MMAB` (R132): X is the descriptor register that `IMM`[3:0] names. -/
def execMmab (t : ThreadId) (w : TileWord) (s : State) : Host.Outcome State Fault Refusal :=
  let s1 := s.issueTile t 0x20 0x01 w
    { d := true, a := true, b := true, c := true, conv := true, imm := 15 } .mmab
    fun x o s =>
      let o1 := { o with x := x.descr (w.imm.setWidth 4) }
      match s.checkMmab t x o1 with
      | some r => .error r
      | none => .ok (s.startMatrix t x o1 [Desc.parse o1.d, Desc.parse o1.c])
  .next (s1.takeUp t s.nextOp)

end Sys2Proof.Machine
end

