-- ==== Sys2Proof/Machine/StatsInstr.lean ====
section
/-! DEFINITION. Statistics instructions: `STAG_OPEN`, `STAG_CLOSE` (R138, R158) and the writing of a record (R167,
R168). -/

namespace Sys2Proof.Machine

/-- Bytes of a tag's record (R168). -/
def tagRecordBytes : Nat := 2112

/-- `STAG_OPEN` (R157, R158): the slot is open from its issue, with a tag unit where one is free. It is
complete at once. -/
def execStagOpen (t : ThreadId) (w : TileWord) (s : State) : Host.Outcome State Fault Refusal :=
  let s1 := s.issueTile t 0x40 0x00 w { imm := 2 ^ 64 - 1 } .stagOpen fun x o s =>
    let slot := o.imm.toNat
    if 15 < slot || (s.tag? t.array x.ctx slot).isSome then .error (trOperand 5 11)
    else .ok (o, { s with tags := s.tags ++
      [{ array := t.array, ctx := x.ctx, slot := slot, bound := s.unitsBound t.array < 16
         openTime := s.now }] })
  .next (match s1.op? t s.nextOp with
    | some o => s1.opEnd t o
    | none => s1)

/-- `STAG_CLOSE` (R158, R168). -/
def execStagClose (t : ThreadId) (w : TileWord) (s : State) : Host.Outcome State Fault Refusal :=
  .next (s.issueTile t 0x40 0x01 w { s3 := true, imm := 2 ^ 64 - 1 } .stagClose fun x o s =>
    let slot := o.imm.toNat
    if 15 < slot then .error (trOperand 5 11)
    else if !s.tagOpen t.array x.ctx slot then .error (trOperand 5 9)
    else if devOf o.s3 ≠ s.lodge.deviceId || o.s3.toNat % 64 ≠ 0 then .error (trOperand 5 5)
    else if !s.canWrite x.ctx (locOf o.s3) tagRecordBytes then .error (trAccess o.s3)
    else .ok (o, s.modTag t.array x.ctx slot fun g =>
      { g with state := .closing, closer := some (t, s.nextOp)
               closeTime := if g.issued = 0 then s.now else g.closeTime }))

/-- `TAG_RECORD_WRITE`: every contribution has entered, so the record of a closing tag is written, its
unit and its slot are free, and the `STAG_CLOSE` is complete (R158, R159, R168). -/
def execTagRecordWrite (array ctx slot : Nat) (s : State) : Host.Outcome State Fault Refusal :=
  .next (match s.tag? array ctx slot with
    | none => s
    | some g =>
      match g.closer with
      | none => s
      | some (t, id) => match s.op? t id with
        | none => s
        | some o =>
          let rs := [(locOf o.s3, tagRecordBytes)]
          if g.state != .closing || g.entered < g.issued || !s.writable rs then s
          else
            let s1 := (s.store (locOf o.s3) (g.bytes (s.gen ctx) s.lodge.deviceId)).count cStatRecords array
            ({ s1 with tags := s1.tags.filter fun x => !x.is array ctx slot }).opEnd t o)

end Sys2Proof.Machine
end

