-- ==== Sys2Proof/Machine/Training.lean ====
section
/-! DEFINITION. Training instructions: the Pantry (`STASH`, `UNSTASH`, `RECOMP`; R180 to R185), the Stair
(`BKT_ADD`; R187 to R192), `VER_READ` (R196) and `UPDATE` (R203 to R209), with the events of their
progress. -/

namespace Sys2Proof.Machine

/-! ### The Pantry (R180 to R185) -/

/-- Whether the context of a thread is `ACTIVE`, so that its instructions may start (R211, R360). -/
def State.opActive (s : State) (t : ThreadId) : Bool := (s.ctx (s.thread t).ctx).state == .active

/-- The entry that a context holds under a key. -/
def State.stash? (s : State) (c : Nat) (key : Word) : Option Stash :=
  s.stashes.find? fun e => e.ctx == c && e.key == key

/-- Changes an entry. -/
def State.modStash (s : State) (c : Nat) (key : Word) (f : Stash → Stash) : State :=
  { s with stashes := s.stashes.map fun e => if e.ctx == c && e.key == key then f e else e }

/-- The entries of a context. -/
def State.stashesOf (s : State) (c : Nat) : List Stash := s.stashes.filter fun e => e.ctx == c

/-- The charge of a list of entries. -/
def chargeOf (es : List Stash) : Nat := (es.map (·.charge)).sum

/-- An entry becomes absent; its frames are released (R185). -/
def State.freeStash (s : State) (c : Nat) (key : Word) : State :=
  let s1 := { s with stashes := s.stashes.filter fun e => !(e.ctx == c && e.key == key) }
  s1.modMem fun m => { m with zeroing := m.zeroing + (s.pantryFrames c - s1.pantryFrames c) }

/-- The tile of an entry as its bytes are packed: elements by rows, then scales (R180). -/
def Desc.packed (d : Desc) : Desc :=
  let n := d.cols * d.width / 8
  { d with base := 0, stride := n, layout := 0, xpose := false, scaleBase := d.rows * n, rowOff := 0 }

/-- Whether an entry's bytes lie in the cellar and no spill can release them (R181). -/
def Stash.busyCellar (e : Stash) : Bool := e.inCellar && (e.state == .filling || e.state == .unstashing)

/-- The oldest `HELD_CELLAR` entries, as many as must be spilled to bring what stays in the cellar down
to a limit (R181). -/
def spillList : Nat → Nat → List Stash → List Stash
  | _, _, [] => []
  | used, limit, e :: es => if used ≤ limit then [] else e :: spillList (used - e.charge) limit es

/-- Puts an entry in its place by the order of its start. -/
def insertStash (e : Stash) : List Stash → List Stash
  | [] => [e]
  | f :: fs => if e.order ≤ f.order then e :: f :: fs else f :: insertStash e fs

/-- A `STASH` starts (R181): its key is new, and its entry is downgraded, or filled in the cellar or in the
attic. -/
def State.startStash (s : State) (t : ThreadId) (o : TileOp) : State :=
  let c := (s.thread t).ctx
  let s1 := s.count cStashes 0
  if (s1.stash? c o.imm).isSome then s1.opTrap t o (trOperand 5 11)
  else
    let q := (s1.ctx c).quota
    let mine := s1.stashesOf c
    let charge := ceilDiv (Desc.parse o.a).bytes 4096 * 4096
    let inCellar := charge + chargeOf (mine.filter Stash.busyCellar) ≤ q.pantryCellarLimit
    let held := (mine.filter fun e => e.state == .heldCellar).foldr insertStash []
    let stays := chargeOf (mine.filter fun e => e.inCellar && e.state != .spilling)
    let spills := if inCellar then spillList (stays + charge) q.pantryCellarLimit held else []
    let more := if inCellar then chargeOf spills else charge
    let frames := ceilDiv ((mine.map Stash.atticCharge).sum + more) pageBytes - s1.pantryFrames c
    let e : Stash := { ctx := c, key := o.imm, state := .filling, shape := o.a, charge := charge
                       order := s1.nextOrder, inCellar := inCellar, owner := some (t, o.id)
                       launch := (s.thread t).launch }
    let roomFor := if 65536 ≤ mine.length || q.pantryLimit < chargeOf mine + charge then none
      else s1.ctxAllocate c frames
    match roomFor with
    | none =>
      let s2 := { s1 with stashes := s1.stashes ++ [{ e with state := .downgraded, charge := 0, inCellar := false }]
                          nextOrder := s1.nextOrder + 1 }
      (((s2.count cStashDowngraded 0).modLaunch (s.thread t).launch fun l =>
        { l with downgrades := l.downgrades + 1 }).modCtx c fun x =>
          { x with pantryDowngrades := x.pantryDowngrades + 1 }).opEnd t o
    | some s2 =>
      let chosen := fun (f : Stash) => spills.any fun v => v.ctx == f.ctx && v.key == f.key
      let marked := s2.stashes.map fun f => if chosen f then { f with state := .spilling } else f
      let s3 := { s2 with nextOrder := s1.nextOrder + 1, stashes := marked ++ [e] }
      (s3.modCtx c fun x => { x with pantryPeak := max x.pantryPeak (chargeOf mine + charge) }).modOp t o.id
        fun o => { o with phase := .running }

/-- `STASH` (R138, R181). -/
def execStash (t : ThreadId) (w : TileWord) (s : State) : Host.Outcome State Fault Refusal :=
  let s1 := s.issueTile t 0x50 0x00 w { a := true, imm := 2 ^ 64 - 1 } .stash fun x o s =>
    let a := Desc.parse o.a
    match firstTrap [s.checkDesc t x a { num := 1, ok := legalFormat }, s.checkRead? x a] with
    | some r => .error r
    | none => .ok (o, s)
  .next (match s1.op? t s.nextOp with
    | some o => s1.startStash t o
    | none => s1)

/-- An `UNSTASH` starts, once its entry is not `FILLING` (R184, R185). -/
def State.startUnstash (s : State) (t : ThreadId) (o : TileOp) : State :=
  let c := (s.thread t).ctx
  match s.stash? c o.imm with
  | none => s.opTrap t o (trOperand 5 11)
  | some e =>
    let a := Desc.parse e.shape
    let d := Desc.parse o.d
    if e.state == .filling then s
    else if e.state == .unstashing then s.opTrap t o (trOperand 5 11)
    else if a.format ≠ d.format then s.opTrap t o (trOperand 0 1)
    else if a.rows ≠ d.rows || a.cols ≠ d.cols then s.opTrap t o (trOperand 0 4)
    else if a.mxCols ≠ d.mxCols then s.opTrap t o (trOperand 0 7)
    else if e.state == .downgraded then (s.freeStash c o.imm).opEnd t o
    else
      let s1 := s.modStash c o.imm fun e => { e with state := .unstashing }
      (s1.modMem fun m => { m with zeroing := m.zeroing + (s.pantryFrames c - s1.pantryFrames c) }).modOp t o.id
        fun o => { o with phase := .running }

/-- `UNSTASH` (R138, R184). -/
def execUnstash (t : ThreadId) (w : TileWord) (s : State) : Host.Outcome State Fault Refusal :=
  let s1 := s.issueTile t 0x50 0x01 w { d := true, imm := 2 ^ 64 - 1 } .unstash fun x o s =>
    let d := Desc.parse o.d
    match firstTrap [s.checkDesc t x d { num := 0, dest := true, ok := legalFormat }, s.checkWrite? x d] with
    | some r => .error r
    | none => .ok (o, s)
  .next (match s1.op? t s.nextOp with
    | some o => s1.startUnstash t o
    | none => s1)

/-- A read of a cellar entry meets the errors that its 64-bit words hold (R232, R233, R235): one flipped bit is corrected, and
more make the line `LOST` at once, as it has neither frame nor provenance (R241). The entry lies outside the device range, so
the records name no address (notes/assumptions/24.md). -/
def State.checkStash (s : State) (e : Stash) : State :=
  if !e.inCellar || e.errors.isEmpty then s
  else
    let one := (e.errors.filter fun w => w.2.length = 1).length
    let bad := ((e.errors.filter fun w => 2 ≤ w.2.length).map fun w => w.1 / 32).eraseDups
    let s1 := (s.modStash e.ctx e.key fun e =>
      { e with errors := [], lost := e.lost ++ bad.flatMap fun l => countUp (lineBytes * l) 1 lineBytes }).count cCellarCe 0 one
    bad.foldl (fun (s : State) _ =>
      (((s.count cCellarUe 0).fault 0x0002 3 0 0 e.ctx).count cLinesLost 0).fault 0x0003 4 0 0 e.ctx) s1

/-- A read of the entry of a key meets its errors. -/
def State.checkKey (s : State) (c : Nat) (key : Word) : State := ((s.stash? c key).map s.checkStash).getD s

/-- The pieces that an `UNSTASH` which has started has not yet copied, where it can go on (R184, R211, R243). -/
def State.unstashLeft (s : State) (t : ThreadId) (o : TileOp) : Option (List CopyPiece) :=
  (s.stash? (s.thread t).ctx o.imm).bind fun e =>
    let d := Desc.parse o.d
    if o.phase != .running || e.state != .unstashing || !s.writable d.ranges then none
    else
      let ps := (copyPieces (Desc.parse e.shape).packed d (fun a => e.data.getD a 0) (fun _ => false)).map
        fun p => { p with lost := e.lost.any fun o => p.src ≤ o && o < p.src + p.data.length }
      some (cutPieces (copyStep * o.done) (sortPieces ps)).2

/-- Lands pieces of a stash entry in D, and marks the instruction where one of them was lost (R184, R244). -/
def State.landStash (s : State) (t : ThreadId) (o : TileOp) (ps : List CopyPiece) : State :=
  (s.landCopy ps true).modOp t o.id fun o =>
    { o with fold := { o.fold with poisoned := o.fold.poisoned || ps.any (·.lost) } }

/-- An `UNSTASH` goes on by a number of 64 KiB units that no operand tells (R211; notes/assumptions/54.md). -/
def State.advanceUnstash (s0 : State) (t : ThreadId) (o : TileOp) : State :=
  let s := s0.checkKey (s0.thread t).ctx o.imm
  match s.unstashLeft t o with
  | none => s
  | some ps =>
    let (n, s1) := s.freeBelow (ceilDiv (pieceBytes ps) copyStep)
    (s1.landStash t o (cutPieces (copyStep * n) ps).1).modOp t o.id fun o => { o with done := o.done + n }

/-- The end of an `UNSTASH` that has started: its entry is copied into D as `TLD` would copy it, and is
freed (R184, R244). -/
def State.finishUnstash (s0 : State) (t : ThreadId) (o : TileOp) : State :=
  let s := s0.checkKey (s0.thread t).ctx o.imm
  match s.unstashLeft t o with
  | none => s
  | some ps =>
    let s1 := (s.landStash t o ps).freeStash (s.thread t).ctx o.imm
    match s1.op? t o.id with
    | none => s1
    | some q => s1.opEnd t { q with cond := if q.fold.poisoned then some .weightLost else none }

/-- What `RECOMP` does once its entry is not `FILLING` (R183). A recompute block that lies on another module, or at no
multiple of 16, is a branch target that traps (R119). -/
def State.resolveRecomp (s : State) (t : ThreadId) (key block : Word) : State :=
  let x := s.thread t
  match s.stash? x.ctx key with
  | none => s.trap t x.pc x.word (trOperand 5 11)
  | some e => match e.state with
    | .filling => s.modThread t fun x => { x with state := .waiting, wait := some (.recomp x.ctx key block) }
    | .unstashing => s.trap t x.pc x.word (trOperand 5 11)
    | .downgraded =>
      if devOf block ≠ s.lodge.deviceId || block.toNat % 16 ≠ 0 then s.trap t x.pc x.word (trAccess block)
      else s.modThread t fun x =>
        { x.setReg 31 (x.pc + 16) with state := .running, wait := none, pc := block }
    | _ => s.modThread t fun x => { x with state := .running, wait := none, pc := x.pc + 16 }

/-- `RECOMP` (R138, R183): it stops the thread's issue until it resolves. -/
def execRecomp (t : ThreadId) (w : TileWord) (s : State) : Host.Outcome State Fault Refusal :=
  let word := tileBits w 0x50 0x02
  .next (s.issue t word w.pred w.pneg (tileLegal w { s1 := true, imm := 2 ^ 64 - 1 }) fun x s1 =>
    if 8 ≤ x.ops.length then s.waitFor t word .tileQueue
    else ((s1.count cTileIssued t.array).modThread t fun x => { x with word := word }).resolveRecomp t w.imm
      (x.reg w.s1))

/-- The threads of a context in ascending order whose `RECOMP` waits for a key. -/
def State.recompWaiters (s : State) (c : Nat) (key : Word) : List ThreadId :=
  (s.ctxThreads c).filter fun t => match (s.thread t).wait with
    | some (.recomp _ k _) => k == key
    | _ => false

/-- An entry is no longer `FILLING`: the `RECOMP`s and `UNSTASH`es that waited for it go on (R183, R184). -/
def State.stashSettled (s : State) (c : Nat) (key : Word) : State :=
  let s1 := (s.recompWaiters c key).foldl (fun s t => match (s.thread t).wait with
    | some (.recomp _ k b) => s.resolveRecomp t k b
    | _ => s) s
  (s1.ctxThreads c).foldl (fun s t => (s.thread t).ops.foldl (fun s o =>
    if o.kind == .unstash && o.imm == key && o.phase == .queued && o.late.isNone then s.startUnstash t o
    else s) s) s1

/-- The pieces that a `STASH` has not yet copied into its entry, where it can go on: the spills that make its room are done
(R181), and no line it reads is under repair (R243). The entry lies in the Pantry, in order. -/
def State.stashLeft (s : State) (e : Stash) (o : TileOp) : State × Option (List CopyPiece) :=
  let older := (s.stashesOf e.ctx).filter fun f => f.inCellar && f.order ≤ e.order
  let a := Desc.parse o.a
  if e.state != .filling || (e.inCellar && (s.ctx e.ctx).quota.pantryCellarLimit < chargeOf older) then (s, none)
  else
    let (s1, ready) := s.sourcesReady a.ranges
    if !ready then (s1, none)
    else (s1, some (cutPieces (copyStep * o.done)
      (sortPieces (copyPieces a a.packed (s1.byteFrom 0) (s1.lostFrom 0)))).2)

/-- Pieces enter an entry (R180, R244). -/
def State.fillStash (s : State) (e : Stash) (ps : List CopyPiece) : State :=
  (ps.foldl (fun s p => (s.touch p.src p.data.length).countLost p.src p.data.length) s).modStash e.ctx e.key fun e =>
    { e with data := e.data ++ ps.flatMap (·.data), lost := e.lost ++ (ps.filter (·.lost)).map (·.dst) }

/-- A `STASH` goes on by a number of 64 KiB units that no operand tells (R211; notes/assumptions/54.md). -/
def State.advanceStash (s : State) (t : ThreadId) (o : TileOp) : State :=
  match s.stash? (s.thread t).ctx o.imm with
  | none => s
  | some e => match s.stashLeft e o with
    | (s1, none) => s1
    | (s1, some ps) =>
      let (n, s2) := s1.freeBelow (ceilDiv (pieceBytes ps) copyStep)
      (s2.fillStash e (cutPieces (copyStep * n) ps).1).modOp t o.id fun o => { o with done := o.done + n }

/-- `STASH_FILL_COMPLETE` (R185): the copy is written, once the spills that make its room are done (R181).
`cycles` is the time it waited for them. A suspended context's copy does not go on (R211). -/
def execStashFillComplete (ctx : Nat) (key : Word) (cycles : Nat) (s : State) :
    Host.Outcome State Fault Refusal :=
  .next (match s.stash? ctx key with
    | none => s
    | some e =>
      match e.owner.bind fun w => (s.op? w.1 w.2).map fun o => (w.1, o) with
      | none => s
      | some (t, o) =>
        if (s.ctx ctx).state == .suspended then s
        else match s.stashLeft e o with
          | (s1, none) => s1
          | (s1, some ps) =>
            let s2 := s1.fillStash e ps
            let lost := (s2.stash? ctx key).any fun e => !e.lost.isEmpty
            let s3 := (s2.modStash ctx key fun e =>
              { e with state := if e.inCellar then .heldCellar else .heldAttic, owner := none }).count cStashWait 0 cycles
            (s3.opEnd t { o with cond := if lost then some .weightLost else none }).stashSettled ctx key)

/-- `PANTRY_SPILL_COMPLETE` (R185): the spill is written and its cellar charge is released. -/
def execPantrySpillComplete (ctx : Nat) (key : Word) (s : State) : Host.Outcome State Fault Refusal :=
  .next (match s.stash? ctx key with
    | none => s
    | some e =>
      if e.state != .spilling then s
      else (((s.checkKey ctx key).modStash ctx key fun e => { e with state := .heldAttic, inCellar := false }).count
        cPantrySpills 0).count cPantrySpillBytes 0 e.charge)

/-! ### The Stair (R187 to R192) -/

/-- The bucket, segment and micro-batch index that `IMM` names (R190). -/
def bktOf (o : TileOp) : Nat × Nat × Nat := (bits o.imm 31 16, bits o.imm 15 0, bits o.imm 63 32)

/-- The training table of a thread's launch, where it names one (R176). -/
def State.trainOf (s : State) (x : Thread) : Option Train :=
  if ((s.launch? x.launch).map (·.trainTable)).getD 0 = 0 then none
  else (Map.get? s.trains x.ctx).filter fun t => t.launch == some x.launch

/-- A bucket of a context. -/
def State.bucket? (s : State) (c b : Nat) : Option Bucket := (Map.get? s.trains c).bind fun t => t.buckets[b]?

/-- Changes a bucket. -/
def State.modBucket (s : State) (c b : Nat) (f : Bucket → Bucket) : State :=
  { s with trains := Map.modify s.trains c fun t => { t with buckets := modAt t.buckets b f } }

/-- Bucket states' codes (R187). -/
def BucketState.code : BucketState → Nat
  | .empty => 0 | .filling => 1 | .folding => 2 | .reducing => 3 | .done => 4 | .failed => 5

/-- Writes a bucket's device-written fields back (R179, R187). -/
def State.writeBucket (s : State) (c b : Nat) : State :=
  match Map.get? s.trains c, s.bucket? c b with
  | some t, some k =>
    let a := t.bucketTable + 64 * b
    (s.store a (le 1 k.state.code)).store (a + 0x38) (le 4 k.filled)
  | _, _ => s

/-- A bucket changes state (R192). -/
def State.setBucket (s : State) (c b : Nat) (st : BucketState) : State :=
  (s.modBucket c b fun k => { k with state := st }).writeBucket c b

/-- The checks of a `BKT_ADD` (R176, R190). -/
def State.checkBkt (s : State) (t : ThreadId) (x : Thread) (o : TileOp) : Option Trap :=
  let a := Desc.parse o.a
  let (b, g, m) := bktOf o
  match s.trainOf x with
  | none => some (trOperand 6 12)
  | some tr => match tr.buckets[b]? with
    | none => some (trOperand 5 11)
    | some k => match k.segments[g]? with
      | none => some (trOperand 5 11)
      | some sg =>
        if m < k.mbFirst || k.mbFirst + k.mbCount ≤ m then some (trOperand 5 11)
        else firstTrap [
          s.checkDesc t x a { num := 1, ok := legalFormat, pair := fun f => f == 0x04 },
          if a.rows ≠ sg.rows || a.cols ≠ sg.cols then some (trOperand 1 4) else none,
          s.checkRead? x a ]

/-- Whether another contribution to an instruction's segment is being added. -/
def State.segmentBusy (s : State) (c : Nat) (o : TileOp) : Bool :=
  (s.ctxThreads c).any fun t => (s.thread t).ops.any fun p =>
    p.kind == .bktAdd && p.phase == .running && p.id != o.id && (bktOf p).1 == (bktOf o).1
      && (bktOf p).2.1 == (bktOf o).2.1

/-- A `BKT_ADD` starts where it may: an index already added traps, and a later one waits (R190). -/
def State.startBkt (s : State) (t : ThreadId) (o : TileOp) : State :=
  let c := (s.thread t).ctx
  let (b, g, m) := bktOf o
  match s.bucket? c b with
  | none => s
  | some k => match k.segments[g]? with
    | none => s
    | some sg =>
      if m < sg.nextMb then s.opTrap t o (trOperand 5 11)
      else if sg.nextMb < m || s.segmentBusy c o then s
      else
        let s1 := if k.state == .empty then s.setBucket c b .filling else s
        s1.modOp t o.id fun o => { o with phase := .running }

/-- `BKT_ADD` (R138, R190). -/
def execBktAdd (t : ThreadId) (w : TileWord) (s : State) : Host.Outcome State Fault Refusal :=
  let s1 := s.issueTile t 0x50 0x04 w { a := true, imm := 2 ^ 64 - 1 } .bktAdd fun x o s =>
    match s.checkBkt t x o with
    | some r => .error r
    | none => .ok (o, s)
  .next (match s1.op? t s.nextOp with
    | some o => s1.startBkt t o
    | none => s1)

/-- `BKT_ADD_START` (R190): a waiting contribution starts; `cycles` is the time it waited. -/
def execBktAddStart (t : ThreadId) (id cycles : Nat) (s : State) : Host.Outcome State Fault Refusal :=
  .next (match s.op? t id with
    | none => s
    | some o =>
      if o.kind != .bktAdd || o.phase != .queued || o.late.isSome || !s.opActive t then s
      else
        let s1 := s.startBkt t o
        if s1.op? t id == some o then s1 else s1.count cBktOrderWait 0 cycles)

/-- Where plane h keeps the node of element e, and its format (R191). -/
def planeAt (k : Bucket) (h e : Nat) : Nat × Nat :=
  if h = 0 then (k.carryBase + 2 * e, 0x04)
  else (k.carryBase + 2 * k.elementCount + 4 * (h - 1) * k.elementCount + 4 * e, 0x02)

/-- The key of a plane's element. -/
def planeKey (h e : Nat) : Nat := h * 2 ^ 40 + e

/-- Reads a node of a plane; a lost line's is NaN (R100, R191). A NaN node has the cause that the tree keeps (R102). -/
def State.planeValue (s : State) (k : Bucket) (causes : Map Cause) (h e : Nat) : Num :=
  let (a, f) := planeAt k h e
  if s.lineLost (a / lineBytes) then .nan .poisonInput
  else match decodeElem f (leNat (s.bytesAt a (if f = 0x04 then 2 else 4))) with
    | .nan c => .nan (Map.getD causes (planeKey h e) c)
    | v => v

/-- Keeps the cause of a node that a plane takes. -/
def keepCause (m : Map Cause) (h e : Nat) (v : Num) : Map Cause :=
  match v with
  | .nan .nanInput => Map.erase m (planeKey h e)
  | .nan c => Map.put m (planeKey h e) c
  | _ => Map.erase m (planeKey h e)

/-- Pushes leaf r of an element: the nodes of the planes below it that are pending join it (R191, R92).
Gives the plane that now holds the node, and the node. -/
def stairPush (plane : Nat → Num) (r : Nat) : Nat → Nat → Num → Nat × Num
  | 0, h, v => (h, v)
  | n + 1, h, v => if bitOf r h then stairPush plane r n (h + 1) (combine 0x02 (plane h) v).1 else (h, v)

/-- The root of an element after its last leaf: the pending nodes, the higher ones on the left (R92). `r` is
the number of leaves. -/
def stairRoot (plane : Nat → Num) (r : Nat) : Nat → Nat → Option Num → Option Num
  | 0, _, acc => acc
  | n + 1, h, acc => stairRoot plane r n (h + 1)
      (if bitOf r h then some (match acc with
        | none => plane h
        | some v => (combine 0x02 (plane h) v).1) else acc)

/-- The memory that a `BKT_ADD` writes (R187, R191). -/
def bktArea (k : Bucket) (sg : Segment) : List (Nat × Nat) :=
  [(k.carryBase, k.elementCount * (2 + 4 * clog2 k.mbCount)), (k.resultBase + 4 * sg.offset, 4 * sg.rows * sg.cols)]

/-- The rows of A that groups from `done` on take. -/
def bktRows (a : Desc) (done n : Nat) : Nat × Nat := (16 * done, min (16 * n) (a.rows - 16 * done))

/-- A running `BKT_ADD` pushes the rows of its next n groups of 16, and writes their roots where its leaf is the last
(R190, R191, R211). -/
def State.bktStep (s : State) (t : ThreadId) (o : TileOp) (k : Bucket) (sg : Segment) (n : Nat) : State :=
  let c := (s.thread t).ctx
  let a := Desc.parse o.a
  let (b, g, m) := bktOf o
  let r := m - k.mbFirst
  let planes := clog2 k.mbCount + 1
  let (r0, rn) := bktRows a o.done n
  let rows := countUp r0 1 rn
  let cols := List.range a.cols
  let at_ := fun (i j : Nat) => sg.offset + i * a.cols + j
  let rs := a.subRanges r0 rn 0 a.cols
  let lost := rs.any fun q => !(s.lostIn q.1 q.2).isEmpty
  let leaf := fun (i j : Nat) => a.value (s.byteFrom 0) (s.lostFrom 0) i j
  let pushed := rows.map fun i => cols.map fun j =>
    stairPush (fun h => s.planeValue k sg.causes h (at_ i j)) r planes 0 (leaf i j)
  let ws : Writes := (rows.zip pushed).flatMap fun x => (cols.zip x.2).map fun y =>
    let (p, f) := planeAt k y.2.1 (at_ x.1 y.1)
    (p, le (if f = 0x04 then 2 else 4) (convert {} false f y.2.2).bits)
  let causes := (rows.zip pushed).foldl (fun m x => (cols.zip x.2).foldl (fun m y =>
    keepCause m y.2.1 (at_ x.1 y.1) y.2.2) m) sg.causes
  let s2 := (rs.foldl (fun s r => (s.touch r.1 r.2).countLost r.1 r.2) s).storeAll ws
  let roots := if r + 1 ≠ k.mbCount then [] else rows.map fun i => cols.map fun j =>
    (stairRoot (fun h => s2.planeValue k causes h (at_ i j)) (r + 1) (planes + 1) 0 none).getD (.zero false)
  let convs := roots.map fun row => row.map fun v => convert {} false 0x02 v
  let s3 := s2.storeAll ((rows.zip convs).map fun x => (k.resultBase + 4 * at_ x.1 0, x.2.flatMap fun v => le 4 v.bits))
  (s3.modBucket c b fun k => { k with segments := modAt k.segments g fun x => { x with causes := causes } }).modOp t o.id
    fun o => { o with
      done := o.done + n
      fold := { o.fold with
        poisoned := o.fold.poisoned || lost
        records := modAt o.fold.records 0 fun q => q.merge (TileRecord.addBlock {} 0x02 r0 0 roots convs) } }

/-- What a running `BKT_ADD` works on, where it can go on (R191, R243). -/
def State.bktReady (s : State) (t : ThreadId) (o : TileOp) : State × Option (Bucket × Segment) :=
  let (b, g, _) := bktOf o
  match (s.bucket? (s.thread t).ctx b).bind fun k => (k.segments[g]?).map fun sg => (k, sg) with
  | none => (s, none)
  | some (k, sg) =>
    if o.phase != .running then (s, none)
    else
      let (s1, ready) := s.sourcesReady (Desc.parse o.a).ranges
      if !ready || !s1.writable (bktArea k sg) then (s1, none) else (s1, some (k, sg))

/-- A running `BKT_ADD` goes on by a number of groups of 16 rows that no operand tells (R211;
notes/assumptions/54.md). -/
def State.advanceBkt (s : State) (t : ThreadId) (o : TileOp) : State :=
  match s.bktReady t o with
  | (s1, none) => s1
  | (s1, some (k, sg)) =>
    let (n, s2) := s1.freeBelow ((Desc.parse o.a).rows / 16 - o.done)
    s2.bktStep t o k sg n

/-- The end of a `BKT_ADD` that has started (R190 to R192, R244). -/
def State.finishBkt (s : State) (t : ThreadId) (o : TileOp) : State :=
  let c := (s.thread t).ctx
  let (b, g, m) := bktOf o
  match s.bktReady t o with
  | (s1, none) => s1
  | (s1, some (k, sg)) =>
    if ((Map.get? s1.trains c).bind (·.launch)) ≠ some (s1.thread t).launch then s1.opEnd t o
    else
      let s2 := s1.bktStep t o k sg ((Desc.parse o.a).rows / 16 - o.done)
      match s2.op? t o.id with
      | none => s2
      | some q =>
        let last := m - k.mbFirst + 1 = k.mbCount
        let status := if last then q.fold.records.headD {} else sg.status
        let s3 := if !last then s2 else s2.modLaunch (s.thread t).launch fun l => { l with nf := l.nf ||| status.flags }
        let s4 := (s3.modBucket c b fun k =>
          { k with filled := k.filled + 1
                   segments := modAt k.segments g fun x => { x with nextMb := m + 1, status := status } }).count
            cBktAdds 0
        let a := k.segTable + 32 * g
        let s5 := s4.store (a + 8) (le 4 (m + 1))
        let s6 := if last then s5.store (a + 16) status.bytes else s5
        let full := k.filled + 1 = k.segments.length * k.mbCount
        let s7 := if full then (s6.setBucket c b .folding).count cBucketsFolded 0 else s6.writeBucket c b
        s7.opEnd t { q with records := [], cond := if q.fold.poisoned then some .weightLost else none }

/-! ### `VER_READ` and bindings (R194, R196) -/

/-- `VER_READ` (R138, R196). -/
def execVerRead (t : ThreadId) (w : TileWord) (s : State) : Host.Outcome State Fault Refusal :=
  .next (s.issueTile t 0x50 0x05 w { a := true, s1 := true } .verRead fun x o s =>
    let a := Desc.parse o.a
    match firstTrap [s.checkDesc t x a { num := 1, remote := true, ok := legalFormat },
        s.partialTrap x a 1, s.checkRead? x a] with
    | some r => .error r
    | none => .ok (if a.dev = s.lodge.deviceId then s.bindAtIssue t o else s.fetchTile t o a))

/-- The end of a `VER_READ`: the version waits for the thread's `FENCE` (R196). The owner of another module's tile resolves
it, and its responses bring the version (notes/assumptions/25.md). -/
def State.finishVerRead (s : State) (t : ThreadId) (o : TileOp) : State :=
  if o.unbound || !o.awaited.isEmpty then s
  else (s.modThread t fun x => { x with pendRegs := x.pendRegs ++ [(o.cg, o.s1Reg, o.result)] }).opEnd t o

/-- `VERSIONED_READ_BIND` (R194, R195): a versioned read that waited resolves; `cycles` is its wait. -/
def execVersionedReadBind (t : ThreadId) (id cycles : Nat) (s : State) : Host.Outcome State Fault Refusal :=
  .next (match s.op? t id with
    | none => s
    | some o =>
      if !o.unbound || !s.opActive t then s
      else
        let (p, s1) := s.bindAtIssue t { o with reader := false }
        if p.unbound then s
        else
          let s2 := ((s1.modOp t id fun _ => p).count cVersionWait 0 cycles).count cPrefetchMiss t.array
            (if o.kind == .mma || o.kind == .mmab then cycles else 0)
          (s2.opGo t p).sequence t.array)

/-! ### `UPDATE` (R203 to R209) -/

/-- A descriptor moved by a number of bytes, with its scales. -/
def Desc.moved (d : Desc) (k : Int) : Desc :=
  { d with base := BitVec.ofNat 64 ((d.base.toNat : Int) + k).toNat
           scaleBase := if d.scaleBase = 0 then 0 else ((d.scaleBase : Int) + k).toNat }

/-- The checks of an `UPDATE` at issue (R129, R176, R203, R204). -/
def State.checkUpdate (s : State) (t : ThreadId) (x : Thread) (o : TileOp) : Option Trap :=
  let d := Desc.parse o.d
  let a := Desc.parse o.a
  let b := Desc.parse o.b
  let c := Desc.parse o.c
  let same := fun (k : Nat) (y : Desc) =>
    if y.rows ≠ d.rows || y.cols ≠ d.cols then some (trOperand k 4) else none
  let moment := fun (f : Nat) => f == 0x02 || f == 0x04
  firstTrap [
    if (s.trainOf x).isNone || x.slotKind ≠ 3 || x.slotIndex = 0xFFFFFFFF then some (trOperand 6 12) else none,
    s.checkConv x o 2,
    s.checkDesc t x d { num := 0, dest := true, ok := fun f => f == 0x10 },
    s.checkDesc t x a { num := 1, ok := moment },
    s.checkDesc t x b { num := 2, dest := true, ok := moment },
    s.checkDesc t x c { num := 3, dest := true, ok := fun f => 0x02 ≤ f && f ≤ 0x0D },
    same 1 a, same 2 b, same 3 c,
    match regionFit (s.regions x.ctx) c.ranges with
    | .inside _ => none
    | _ => some (trOperand 3 11),
    s.checkRead? x a, s.checkWrite? x d ]

/-- `UPDATE` (R138, R203, R208): C's contribution comes before D's. -/
def execUpdate (t : ThreadId) (w : TileWord) (s : State) : Host.Outcome State Fault Refusal :=
  .next (s.issueTile t 0x50 0x03 w { d := true, a := true, b := true, c := true, s1 := true, conv := true }
    .update fun x o s =>
      match s.checkUpdate t x o with
      | some r => .error r
      | none =>
        let (cs, s1) := s.takeContributions t x.ctx [Desc.parse o.c, Desc.parse o.d]
        .ok ({ o with contribs := cs }, s1))

/-- An optimizer block (R205). -/
structure OptBlock where
  kind : Nat
  value : Nat → Num
  vOffset : Nat

/-- Field i of the block's binary64 values, in the order of R205 from `LR` at offset 8. -/
def OptBlock.lr (b : OptBlock) : Num := b.value 0
def OptBlock.beta1 (b : OptBlock) : Num := b.value 1
def OptBlock.omb1 (b : OptBlock) : Num := b.value 2
def OptBlock.beta2 (b : OptBlock) : Num := b.value 3
def OptBlock.omb2 (b : OptBlock) : Num := b.value 4
def OptBlock.eps (b : OptBlock) : Num := b.value 5
def OptBlock.decay (b : OptBlock) : Num := b.value 6
def OptBlock.scale (b : OptBlock) : Num := b.value 7
def OptBlock.bc1 (b : OptBlock) : Num := b.value 8
def OptBlock.bc2 (b : OptBlock) : Num := b.value 9

/-- Reads a block from its 128 bytes. -/
def OptBlock.read (bs : Bytes) : OptBlock :=
  { kind := field bs 0 1, value := fun i => decodeElem 0x01 (field bs (8 + 8 * i) 8), vOffset := field bs 0x58 8 }

/-- What is wrong with the block that an `UPDATE` names (R205). -/
def State.optTrap (s : State) (x : Thread) (a : Word) : Option Trap :=
  let bs := s.bytesAt (locOf a) 128
  let b := OptBlock.read bs
  if a.toNat % 128 ≠ 0 then some (trOperand 5 5)
  else if devOf a ≠ s.lodge.deviceId then some (trOperand 5 10)
  else if !s.canRead x.ctx (locOf a) 128 then some (trAccess a)
  else if field bs 1 7 ≠ 0 || field bs 0x60 32 ≠ 0 then some (trOperand 5 6)
  else if b.kind < 1 || 3 < b.kind || (List.range 10).any (fun i => (b.value i).nonfinite) then some (trOperand 5 11)
  else if b.vOffset % 16 ≠ 0 then some (trOperand 5 5)
  else none

/-- The tiles an `UPDATE` writes besides C (R206). -/
def updateDests (o : TileOp) (b : OptBlock) : List Desc :=
  let m := Desc.parse o.b
  [Desc.parse o.d] ++ (if b.kind = 3 then [] else [m])
    ++ (if b.kind = 1 then [m.moved b.vOffset] else [])

/-- The slot that the `UPDATE`s of a step write (R197): one already being written for the step, else the
`EMPTY` one, else the one of smaller step. -/
def Region.freeSlot (r : Region) (step : Nat) : Nat :=
  if r.state0 == .writing && r.step0 == step then 0
  else if r.state1 == .writing && r.step1 == step then 1
  else if r.state0 == .empty then 0
  else if r.state1 == .empty then 1
  else if r.state0 == .writing then 1
  else if r.state1 == .writing then 0
  else if r.step0 ≤ r.step1 then 0 else 1

/-- A slot's state and step. -/
def Region.slotState (r : Region) (k : Nat) : SlotState × Nat × Nat :=
  if k = 0 then (r.state0, r.step0, r.readers0) else (r.state1, r.step1, r.readers1)

/-- Marks a slot. -/
def Region.setSlot (r : Region) (k : Nat) (st : SlotState) (step : Nat) : Region :=
  if k = 0 then { r with state0 := st, step0 := step } else { r with state1 := st, step1 := step }

/-- An `UPDATE` of a committed step starts (R197, R205, R209): every operand check comes before its first
write. It waits for its slot's readers and for its tags' units (R157). -/
def State.beginUpdate (s : State) (t : ThreadId) (o : TileOp) (guardCycles readerCycles : Nat) : State :=
  let x := s.thread t
  let step := s.stepOf x
  let c := Desc.parse o.c
  match regionFit (s.regions x.ctx) c.ranges with
  | .inside g => match (s.regions x.ctx)[g]? with
    | none => s
    | some r =>
      let b := OptBlock.read (s.bytesAt (locOf o.s1) 128)
      let k := r.freeSlot step
      let (st, sp, readers) := r.slotState k
      let fresh := !(st == .writing && sp == step)
      let bad := firstTrap ([s.optTrap x o.s1] ++ (updateDests o b).map (s.checkWrite? x)
        ++ [s.checkWrite? x (c.moved (r.shift 0)), s.checkWrite? x (c.moved (r.shift 1)),
            if r.valid.any fun v => v.2 == step then some (trOperand 3 11) else none])
      match bad with
      | some tr => (s.count cUpdateGuardWait 0 guardCycles).opTrap t o tr
      | none =>
        if (fresh && readers ≠ 0) || !s.tagsBound t o then s
        else
          let s1 := if fresh then (s.modRegion x.ctx g fun r =>
              { r.setSlot k .writing step with published := 0 }).writeRegion x.ctx g
            else s
          ((s1.count cUpdateGuardWait 0 guardCycles).count cUpdateReaderWait 0 readerCycles).modOp t o.id
            fun o => { o with phase := .running, bound := some (g, k), params := s.bytesAt (locOf o.s1) 128 }
  | _ => s.opTrap t o (trOperand 3 11)

/-- `UPDATE_START` (R197, R203): the guard of the step is `ABANDONED`, or it is `COMMITTED` and the slot has
no readers. The cycles are those it waited on each. -/
def execUpdateStart (t : ThreadId) (id guardCycles readerCycles : Nat) (s : State) :
    Host.Outcome State Fault Refusal :=
  .next (match s.op? t id with
    | none => s
    | some o =>
      if o.kind != .update || o.phase != .queued || o.late.isSome || o.cond.isSome || !s.opActive t then s
      else
        let x := s.thread t
        match s.guard? x.ctx (s.stepOf x) with
        | none => s
        | some g => match g.state with
          | .opened | .committing => s
          | .abandoned =>
            (((s.count cUpdateGuardWait 0 guardCycles).count cUpdatesNotClean 0).dropContribs t o).opEnd t
              { o with cond := some .stepNotClean }
          | .committed => s.beginUpdate t o guardCycles readerCycles)

/-- A value rounded once, to nearest even, into binary64 (R206). -/
def rnd64 (x : Num) : Num := (roundNode 0x01 (workLimit x)).1

/-- An exact quotient, to 192 bits and a sticky mark (R206). With a special value on either side it is the product by the
reciprocal (R103). -/
def quotient (num den : Num) : Num :=
  match num, den with
  | .fin x m e _, .fin y n f _ => divFinite x m e y n f
  | .zero x, .fin y _ _ _ => .zero (x != y)
  | x, y => mulExact x (actNum 0x16 y)

/-- The quotient of `ADAMW` by √|v| + `EPS`, to 192 bits (R206). -/
def adamQuotient (num v eps : Num) : Num :=
  let special := quotient num
  match v.absolute with
  | .fin _ m e _ =>
    let root := sqrtFinite m e
    match root, num with
    | .fin _ r f irr, .fin x n g _ =>
      match addExact (.fin false r f false) eps, addExact (.fin false (r + 1) f false) eps with
      | .fin neg lo le' _, .fin neg' hi he _ =>
        if !irr then divFinite x n g neg lo le'
        else if neg ≠ neg' then special (addExact root eps)
        else
          let big := divFinite x n g neg lo le'
          let small := divFinite x n g neg hi he
          match big, small with
          | .fin y a i _, .fin _ b j _ =>
            let z := min i j
            let p := a * 2 ^ (i - z).toNat
            let q := b * 2 ^ (j - z).toNat
            spanNum y (min p q) (max p q) z
          | q, _ => q
      | d, _ => special d
    | r, _ => special (addExact r eps)
  | w => special (addExact w eps)

/-- The values of an `UPDATE` element: the stored moments' exact values first, which are rounded before the
step u is taken (R206). -/
structure UpdateIn where
  w : Num
  g : Num
  m : Num
  v : Num
  deriving DecidableEq, Repr

/-- The exact first moment (R206). -/
def OptBlock.moment1 (b : OptBlock) (x : UpdateIn) : Num :=
  workLimit (addExact (mulExact b.beta1 x.m) (if b.kind = 2 then x.g else mulExact b.omb1 x.g))

/-- The exact second moment (R206). -/
def OptBlock.moment2 (b : OptBlock) (x : UpdateIn) : Num :=
  workLimit (addExact (mulExact b.beta2 x.v) (mulExact b.omb2 (mulExact x.g x.g)))

/-- The step u from the gradient and the stored moments (R206). -/
def OptBlock.step (b : OptBlock) (g m v : Num) : Num :=
  if b.kind = 1 then rnd64 (adamQuotient (mulExact m b.bc1) (mulExact v b.bc2) b.eps)
  else if b.kind = 2 then m else g

/-- The exact new master (R206). -/
def OptBlock.master (b : OptBlock) (w u : Num) : Num :=
  workLimit (addExact w (mulExact b.lr (addExact u (mulExact b.decay w))).negate)

/-- What a running `UPDATE` works on: its region, its slot and the block it read when it started (R205). -/
def State.updateOf (s : State) (t : ThreadId) (o : TileOp) : Option (Region × Nat × Nat × OptBlock) :=
  match o.phase, o.bound with
  | .running, some (g, k) => ((s.regions (s.thread t).ctx)[g]?).map fun r => (r, g, k, OptBlock.read o.params)
  | _, _ => none

/-- What an `UPDATE` reads (R206). -/
def updateSources (o : TileOp) (b : OptBlock) : List Desc :=
  let m := Desc.parse o.b
  [Desc.parse o.a, Desc.parse o.d] ++ (if b.kind = 3 then [] else [m]) ++ (if b.kind = 1 then [m.moved b.vOffset] else [])

/-- The groups of rows that an `UPDATE` has not yet written: 16 each, or 32 where the copy's MX blocks run down the
columns (R209; notes/assumptions/54.md). -/
def TileOp.updateLeft (o : TileOp) : Nat := ceilDiv (Desc.parse o.c).rows (Desc.parse o.c).rowStep - o.done

/-- A running `UPDATE` forms rows r to r + n and writes them: master, moments and copy (R206 to R209). The saturations of the
master's conversion, and the update, enter D's tag (R77, R208). -/
def State.updateRows (s : State) (t : ThreadId) (o : TileOp) (b : OptBlock) (c : Desc) (r n : Nat) : State :=
  let d := Desc.parse o.d
  let a := Desc.parse o.a
  let m := Desc.parse o.b
  let v := m.moved b.vOffset
  let rs := (updateSources o b).flatMap fun y => y.subRanges r n 0 y.cols
  let lost := rs.any fun q => !(s.lostIn q.1 q.2).isEmpty
  let val := fun (y : Desc) (i j : Nat) => y.value (s.byteFrom 0) (s.lostFrom 0) i j
  let at_ := fun (z : List (List Num)) (i j : Nat) => ((z[i]?).bind fun q => q[j]?).getD (.zero false)
  let ins := (countUp r 1 n).map fun i => (List.range d.cols).map fun j =>
    { w := val d i j, g := rnd64 (mulExact (val a i j) b.scale)
      m := if b.kind = 3 then .zero false else val m i j
      v := if b.kind = 1 then val v i j else .zero false : UpdateIn }
  let rnd := fun (tag k : Nat) => roundingAt o.rmode.toNat (s.stepOf (s.thread t)) (tag + 256 * k) o.s2.toNat
  let enc := fun (y : Desc) (k : Nat) (vals : List (List Num)) (tag : Nat) => y.encode o.ovfIeee (rnd tag k) r 0 vals
  let stored := fun (e : Encoded) => e.convs.map fun q => q.map (·.value)
  let em := enc m 2 (ins.map fun q => q.map b.moment1) m.statTag
  let ev := enc v 3 (ins.map fun q => q.map b.moment2) m.statTag
  let sm := if b.kind = 3 then [] else stored em
  let sv := if b.kind = 1 then stored ev else []
  let wNew := ins.mapIdx fun i q => q.mapIdx fun j y => b.master y.w (b.step y.g (at_ sm i j) (at_ sv i j))
  let ed := enc d 1 wNew d.statTag
  let sd := stored ed
  let ec := enc c 0 sd c.statTag
  let delta := ins.mapIdx fun i q => q.mapIdx fun j y => addExact (at_ sd i j) y.w.negate
  let dconv := delta.map fun q => q.map fun y => convert {} false 0x01 y
  let ws := ed.writes ++ ec.writes ++ (if b.kind = 3 then [] else em.writes) ++ (if b.kind = 1 then ev.writes else [])
  let s2 := (rs.foldl (fun s q => (s.touch q.1 q.2).countLost q.1 q.2) s).storeAll ws
  let s3 := ((s2.enterBlock t o 0 c.format sd ec.convs).enterBlock t o 1 0x01 delta dconv).enterSats t o 1
    ((ed.convs.map fun q => (q.filter (·.oor)).length).sum)
  s3.modOp t o.id fun o => { o with fold := { o.fold with
    poisoned := o.fold.poisoned || lost
    records := modAt (modAt o.fold.records 0 fun q => q.merge (TileRecord.addBlock {} c.format r 0 sd ec.convs)) 1
      fun q => q.merge (TileRecord.addBlock {} d.format r 0 wNew ed.convs)
    squares := addSquares (addSquares o.fold.squares 0 c.format r 0 sd ec.convs) 1 0x01 r 0 delta dconv } }

/-- A running `UPDATE` writes its next n groups of rows, each whole (R209). -/
def State.updateStep (s : State) (t : ThreadId) (o : TileOp) (b : OptBlock) (c : Desc) (n : Nat) : State :=
  ((countUp (o.done * c.rowStep) c.rowStep n).foldl (fun s r =>
    s.updateRows t o b c r (min c.rowStep (c.rows - r))) s).modOp t o.id fun o => { o with done := o.done + n }

/-- Whether no line that a running `UPDATE` reads or writes is under repair (R243). -/
def State.updateReady (s : State) (o : TileOp) (b : OptBlock) (c : Desc) : State × Bool :=
  let (s1, ready) := s.sourcesReady ((updateSources o b).flatMap Desc.ranges)
  (s1, ready && s1.writable ((updateDests o b ++ [c]).flatMap Desc.ranges))

/-- A running `UPDATE` goes on by a number of groups of rows that no operand tells (R209, R211;
notes/assumptions/54.md). -/
def State.advanceUpdate (s : State) (t : ThreadId) (o : TileOp) : State :=
  match s.updateOf t o with
  | none => s
  | some (r, _, k, b) =>
    let c := (Desc.parse o.c).moved (r.shift k)
    let (s1, ready) := s.updateReady o b c
    if !ready then s1
    else
      let (n, s2) := s1.freeBelow o.updateLeft
      s2.updateStep t o b c n

/-- The end of an `UPDATE` that has started (R197, R206 to R209, R244). -/
def State.finishUpdate (s : State) (t : ThreadId) (o : TileOp) : State :=
  match s.updateOf t o with
  | none => s
  | some (r, g, k, b) =>
    let x := s.thread t
    let c := (Desc.parse o.c).moved (r.shift k)
    let (s1, ready) := s.updateReady o b c
    if !ready then s1
    else
      let s2 := s1.updateStep t o b c o.updateLeft
      match s2.op? t o.id with
      | none => s2
      | some q =>
        let root := fun (i : Nat) => contributionRoot q.fold.squares i c.rows c.cols
        let s3 := (s2.enterContribution t q 0 (root 0)).enterContribution t q 1 (root 1)
        let s4 := (s3.modRegion x.ctx g fun r => { r with published := r.published + 1 }).count cUpdatesRun 0
        let s5 := if r.published + 1 = r.publish then
            (s4.modRegion x.ctx g fun r => r.setSlot k .valid (s.stepOf x)).writeRegion x.ctx g
          else s4
        s5.opEnd t { q with records := q.fold.records, bound := none, reader := false
                            cond := if q.fold.poisoned then some .weightLost else none }

end Sys2Proof.Machine
end

