-- ==== Sys2Proof/Machine/Rings.lean ====
section
/-! DEFINITION. Replies: the status word and attention (R330, R331), reply entries (R329), final and
interim replies on rings and sessions (R327, R328, R438), and `FENCE` (R343). -/

namespace Sys2Proof.Machine

/-- What a command answers: its code, its `RESULT` bytes, the member that `PEER_TIMEOUT` names, and the
data it writes to its `OUT_ADDR` (R329, R335). `gen` is the generation that the reply of a drain carries
(R384). -/
structure Reply where
  code : Code
  result : Bytes := []
  failLogical : Nat := 0xFFFF
  failDevice : Nat := 0xFFFF
  outAddr : Nat := 0
  data : Bytes := []
  gen : Option Nat := none
  deriving DecidableEq, Repr

/-- A reply with a code alone. -/
def Reply.of (c : Code) : Reply := { code := c }

/-! ### The status word (R330, R331) -/

/-- The pending class that a reply shows: of the highest level, the one raised last. `seq` is the latest
sequence. -/
def shownClass (seq : BitVec 8) (m : Map (Nat × BitVec 8)) : Nat × Nat :=
  m.foldl (fun best e =>
    let age := fun (q : BitVec 8) => (seq - q).toNat
    if best.1 < e.2.1 then (e.2.1, e.1)
    else if best.1 = e.2.1 && age e.2.2 < age ((Map.getD m best.2 (0, seq)).2) then (e.2.1, e.1)
    else best) (0, 0)

/-- The status word of a reply that is written now (R330, R331). -/
def State.statusWord (s : State) (c : Code) : Nat :=
  let (level, cls) := shownClass s.attnSeq s.attnPending
  level * 2 ^ 28 + cls * 2 ^ 24 + s.attnSeq.toNat * 2 ^ 16 + c.num

/-- The first 63 bytes of a reply entry (R329). -/
def State.replyBytes (s : State) (k : OutCmd) (r : Reply) : Bytes :=
  le 4 (s.statusWord r.code) ++ le 2 k.opcode ++ le 2 k.header.ringId.toNat ++ le 4 k.header.sequence.toNat
    ++ le 2 (r.gen.getD (s.gen k.ctx)) ++ le 2 r.failLogical ++ le 8 s.now ++ le 2 r.failDevice ++ zeros 2
    ++ le 4 (min 0xFFFFFFFF (s.now - k.takenAt)) ++ padTo 24 r.result ++ zeros 7

/-! ### Rings (R324 to R328) -/

/-- A ring's table entry. -/
def State.ring (s : State) (n : Nat) : Ring := Map.getD s.host.rings n {}

/-- Changes a ring's table entry. -/
def State.modRing (s : State) (n : Nat) (f : Ring → Ring) : State :=
  s.modHost fun h => { h with rings := Map.put h.rings n (f (s.ring n)) }

/-- Entries of a ring's command ring and reply ring. -/
def Ring.cmdSize (r : Ring) : Nat := 2 ^ r.cmdLog2
def Ring.replySize (r : Ring) : Nat := 2 ^ r.replyLog2

/-- Commands that the host has written and the Steward has not taken. -/
def Ring.waiting (r : Ring) : Nat := (r.cmdTail - r.cmdHead).toNat
/-- Replies that the host has not consumed. -/
def Ring.unread (r : Ring) : Nat := (r.replyTail - r.replyHead).toNat

/-- Writes bytes on the host's bus. -/
def State.busWrite (s : State) (a : Nat) (bs : Bytes) : State :=
  s.modHost fun h => { h with bus := cellsWrite h.bus a bs }

/-- Writes the next reply entry of a ring: `PHASE` is 1 on the first pass and alternates (R329). -/
def State.pushReply (s : State) (n : Nat) (bs : Bytes) (interim : Bool) : State :=
  let r := s.ring n
  let i := r.replyTail.toNat
  let phase := b2n (i / r.replySize % 2 = 0)
  ((s.busWrite (r.replyBase + 64 * (i % r.replySize)) (bs ++ le 1 (phase + 2 * b2n interim))).modRing n
    fun r => { r with replyTail := r.replyTail + 1 }).count cRepliesWritten 0

/-- A ring stops with a cause (R324, R325), and a fault is recorded (R367). -/
def State.stopRing (s : State) (n cause : Nat) : State :=
  if (s.ring n).state == .bound then
    ((s.modRing n fun r => { r with state := .stopped, stopCause := cause }).count cRingStops 0).fault 0x0020 6 n 0
      (s.ring n).boundCtx
  else s

/-- A ring that is `DRAINING` or `STOPPED` is `UNBOUND` once nothing of it is outstanding (R324); its entry still tells
why it stopped. A ring 0 that is `STOPPED` stays so until a chip reset (R345). -/
def State.settleRing (s : State) (n : Nat) : State :=
  let r := s.ring n
  if (r.state == .draining || (r.state == .stopped && n ≠ 0)) && r.outstanding = 0 then
    s.modRing n fun r => { r with state := .unbound, boundCtx := 0 }
  else s

/-! ### Sessions (R438) -/

/-- Changes a session. -/
def State.modSession (s : State) (id : Nat) (f : Session → Session) : State :=
  s.modLodge fun l => { l with sessions := l.sessions.map fun x => if x.id = id then f x else x }

/-- The session of a number. -/
def State.session? (s : State) (id : Nat) : Option Session := s.lodge.sessions.find? fun x => x.id = id

/-- Sends a message of a session (R436); `sent` keeps what was sent, newest last. -/
def State.sendMessage (s : State) (id : Nat) (m : Bytes) (type : Nat := 4) : State :=
  s.modSession id fun x =>
    { x with sent := x.sent ++ [(x.txSequence, type, m)], txSequence := x.txSequence + 1 }

/-! ### Final and interim replies -/

/-- A taken command. -/
def State.cmd? (s : State) (h : Nat) : Option OutCmd := Map.get? s.host.commands h

/-- Changes a taken command. -/
def State.modCmd (s : State) (h : Nat) (f : OutCmd → OutCmd) : State :=
  s.modHost fun x => { x with commands := Map.modify x.commands h f }

/-- The object class of a command's Catalogue entry (R448); none for a command that changes no such object, or whose
own rule writes its entry. -/
def objectClass (opcode : Nat) : Option Nat :=
  if 0x0100 ≤ opcode && opcode ≤ 0x0104 then some 1
  else if opcode = 0x0106 || opcode = 0x0107 then some 2
  else if opcode = 0x0200 || opcode = 0x0201 || opcode = 0x0202 || opcode = 0x0207 then some 3
  else if opcode = 0x0300 || opcode = 0x0301 then some 3
  else if opcode = 0x0206 then some 4
  else if opcode = 0x0500 then some 5
  else if opcode = 0x0501 || opcode = 0x0504 then some 6
  else if opcode = 0x0502 || opcode = 0x0503 then some 7
  else if opcode = 0x0A09 then some 17
  else none

/-- A Catalogue entry of a command with its origin (R448). What `OLD_VALUE` and `NEW_VALUE` hold is left open for
it, so they are free values (notes/assumptions/18.md). -/
def State.cmdEntry (s : State) (k : OutCmd) (cls index code : Nat) : CatEntry × State :=
  let (i, s1) := s.free 8
  ({ accession := 0, time := 0, origin := if k.header.session ≠ 0 then 2 else 1
     originIndex := if k.header.session ≠ 0 then k.header.session % 65536 else k.header.ring
     objectClass := cls, ctx := k.ctx, objectIndex := index, txn := k.header.txnId, hostTime := k.header.hostTime
     opcode := k.opcode, code := code, old := freeBits i, new := freeBits (i + 4) }, s1)

/-- The trace record of a command that is taken, or of a reply (R465). -/
def State.traceCommand (s : State) (k : OutCmd) (code : Nat) : State :=
  s.trace 0 0 k.ctx (le 2 k.opcode ++ le 2 k.header.ringId.toNat ++ le 4 k.header.sequence.toNat ++ le 2 code)

/-- A change that a command has made is logged (R448). -/
def State.logDone (s : State) (k : OutCmd) (r : Reply) : State :=
  match k.object, objectClass k.opcode with
  | some i, some c =>
    if r.code == .done then
      let (e, s1) := s.cmdEntry k c i r.code.num
      s1.catalogue e
    else s
  | _, _ => s

/-- Writes a command's final reply: its data first, then the reply entry (R329). On a session the data
follows the entry, and the reply is kept (R438). The result of a staged command goes to its commit (R387). -/
def State.finishOne (s : State) (h : Nat) (r : Reply) : State :=
  match s.cmd? h with
  | none => s
  | some k =>
    let s1 := (s.logDone k r).modHost fun x => { x with commands := Map.erase x.commands h }
    match k.parent with
    | some (c, i) =>
      let s2 := if r.data.isEmpty || k.header.session ≠ 0 then s1 else s1.busWrite r.outAddr r.data
      s2.modCmd c fun x => { x with entries := Map.put x.entries i (k.opcode, r.code.num, r.result) }
    | none =>
    let s1 := s1.traceCommand k r.code.num
    if k.header.session ≠ 0 then
      let m := s1.replyBytes k r ++ [0] ++ r.data
      (s1.modSession k.header.session fun x =>
        { x with replies := ((k.mgSequence, m) :: x.replies).take 64 }).sendMessage k.header.session m
    else
      let n := k.header.ring
      let s2 := if r.data.isEmpty then s1 else s1.busWrite r.outAddr r.data
      (s2.pushReply n (s2.replyBytes k r) false).modRing n fun q => { q with outstanding := q.outstanding - 1 }

/-- The `FENCE` of a ring that waits for nothing any more (R343). -/
def State.fenceDue (s : State) (n session : Nat) : Option Nat :=
  match s.host.commands.filter fun e => e.2.header.ring = n && e.2.header.session = session with
  | [(h, k)] => if k.work == .fence then some h else none
  | _ => none

/-- A command completes (R327, R343). -/
def State.finishCmd (s : State) (h : Nat) (r : Reply) : State :=
  match s.cmd? h with
  | none => s
  | some k =>
    let s1 := s.finishOne h r
    match s1.fenceDue k.header.ring k.header.session with
    | none => s1
    | some f => s1.finishOne f (Reply.of .done)

/-- An interim reply, where a reply entry is free beyond every reservation (R328). Sessions set no limit
(R438). -/
def State.interim (s : State) (h : Nat) (c : Code) (result : Bytes := []) : State :=
  match s.cmd? h with
  | none => s
  | some k =>
    let reply : Reply := { code := c, result := result }
    if k.header.session ≠ 0 then
      (s.traceCommand k c.num).sendMessage k.header.session (s.replyBytes k reply ++ [2])
    else
      let r := s.ring k.header.ring
      if r.unread + r.outstanding + 1 ≤ r.replySize then
        (s.traceCommand k c.num).pushReply k.header.ring (s.replyBytes k reply) true
      else s.count cInterimSkipped 0

/-- Whether the taken command at a handle waits in a kind of work. -/
def State.cmdsWhere (s : State) (p : OutCmd → Bool) : List Nat :=
  (s.host.commands.filter fun e => p e.2).map (·.1)

/-- Completes every taken command that a test picks. -/
def State.finishWhere (s : State) (p : OutCmd → Bool) (r : Reply) : State :=
  (s.cmdsWhere p).foldl (fun s h => s.finishCmd h r) s

end Sys2Proof.Machine
end

