-- ==== Sys2Proof/Machine/Collectives.lean ====
section
/-! DEFINITION. The Collective Engine (R287 to R308): groups, the streams that members exchange, ordered
reduction, re-sharding chunks (R311 to R314), the end of a collective, and the outcome of a step's
flag exchange (R200, R304). notes/assumptions/26.md says what the model fixes here. -/

namespace Sys2Proof.Machine

/-! ### Groups and headers (R287 to R292, R305) -/

/-- The key of a group or a plan of a context. -/
def groupKey (c g : Nat) : Nat := c * 4096 + g

/-- A group that a context holds. -/
def State.group? (s : State) (c g : Nat) : Option CollGroup := Map.get? s.coll.groups (groupKey c g)

/-- Operation codes of `COLL` (R291). -/
def opAllReduce : Nat := 1
def opReduceScatter : Nat := 2
def opAllGather : Nat := 3
def opReduce : Nat := 4
def opBroadcast : Nat := 5
def opAllToAll : Nat := 6
def opPermute : Nat := 7
def opFwwPut : Nat := 8
def opBarrier : Nat := 9

/-- Sub-operations of `COLL` packets (R306). -/
def subData : Nat := 1
def subResult : Nat := 2
def subPieceAck : Nat := 3
def subReady : Nat := 4
def subArrive : Nat := 5
def subFlag : Nat := 6
def subProbe : Nat := 7
def subProbeRsp : Nat := 8
def subClaim : Nat := 9
def subClaimRsp : Nat := 10
def subFwwData : Nat := 11
def subFwwAck : Nat := 12

/-- The collective header (R305). -/
structure CollHdr where
  group : Nat
  dstCtx : Nat
  epoch : Nat
  matchKey : Nat
  kind : Nat
  op : Nat
  redop : Nat
  nodeFormat : Nat
  src : Nat
  dst : Nat
  aFormat : Nat
  dFormat : Nat
  root : Nat
  shape : Nat
  target : Nat
  planEpoch : Nat
  piece : Nat
  offset : Nat
  deriving DecidableEq, Repr

/-- Reads a collective header (R305). -/
def CollHdr.parse (p : Bytes) : CollHdr :=
  { group := field p 0 2, dstCtx := field p 2 2, epoch := field p 4 4, matchKey := field p 8 8
    kind := field p 0x10 1, op := field p 0x11 1, redop := field p 0x12 1, nodeFormat := field p 0x13 1
    src := field p 0x14 2, dst := field p 0x16 2, aFormat := field p 0x18 1, dFormat := field p 0x19 1
    root := field p 0x1A 2, shape := field p 0x1C 4, target := field p 0x20 4, planEpoch := field p 0x24 4
    piece := field p 0x28 4, offset := field p 0x2C 4 }

/-- The 48 bytes of a collective header (R305). -/
def CollHdr.bytes (h : CollHdr) : Bytes :=
  le 2 h.group ++ le 2 h.dstCtx ++ le 4 h.epoch ++ le 8 h.matchKey ++ le 1 h.kind ++ le 1 h.op
    ++ le 1 h.redop ++ le 1 h.nodeFormat ++ le 2 h.src ++ le 2 h.dst ++ le 1 h.aFormat ++ le 1 h.dFormat
    ++ le 2 h.root ++ le 4 h.shape ++ le 4 h.target ++ le 4 h.planEpoch ++ le 4 h.piece ++ le 4 h.offset

/-- Bytes of a piece, and data bytes of one packet (R300, R305). -/
def collPiece : Nat := 65536
def collPacketBytes : Nat := 4048

/-! ### Tiles and parts (R293, R296, R301) -/

/-- A vector of binary32 elements as one row of a tile. -/
def vecDesc (base count : Nat) : Desc :=
  { base := BitVec.ofNat 64 base, rows := 1, cols := count, stride := 4 * count, format := 0x02, layout := 0
    xpose := false, mxCols := false, scaleBase := 0, versionTag := 0, statTag := 0xFF, reserved := false }

/-- Rows r to r + n of a tile that a collective copies. Where the tile's blocks run down columns, the part takes its blocks
from its own first row on: a stored block that straddles two parts (rows that are no multiple of 32 apart) has no scale that
the spec gives (R65, R293; DESIGN CHOICE, notes/assumptions/56.md). -/
def Desc.rowsPart (d : Desc) (r n : Nat) : Desc :=
  { d with rows := n, rowOff := r
           scaleBase := if !isMx d.format then d.scaleBase
             else d.scaleBase + (if d.mxCols then r / 32 * d.cols else r * ceilDiv d.cols 32) }

/-- Rows r to r + n of a tile that a reduction reads: each element under the scale of its own block of the tile (R65). -/
def Desc.rowsShare (d : Desc) (r n : Nat) : Desc :=
  { d.rowsPart r n with blockOff := if d.mxCols then r % 32 else 0 }

/-- Elements c to c + m of a vector. -/
def Desc.colsPart (d : Desc) (c m : Nat) : Desc :=
  { d with cols := m, base := d.base + BitVec.ofNat 64 (4 * c) }

/-- Bytes of a tile packed by rows, scales last. -/
def Desc.packedBytes (d : Desc) : Nat :=
  d.rows * (d.cols * d.width / 8) + (if d.rows = 0 || d.cols = 0 then 0 else d.scaleBytes)

/-- The address of byte o of a tile's packed bytes. -/
def Desc.byteAddr (d : Desc) (o : Nat) : Nat :=
  let rb := d.cols * d.width / 8
  if o < d.rows * rb then
    let q := o % rb / (2 * d.width)
    (d.elemPos (o / rb) (16 * q)).1 + o % rb % (2 * d.width)
  else d.scaleBase + (o - d.rows * rb)

/-- The tile that a collective reads, and the one it writes. -/
def Coll.aDesc (c : Coll) : Desc := match c.vec with
  | some (b, n) => vecDesc b n
  | none => Desc.parse c.a
def Coll.dDesc (c : Coll) : Desc := match c.vec with
  | some (b, n) => vecDesc b n
  | none => Desc.parse c.d

/-- Rows block i of n (R293). -/
def Desc.block? (d : Desc) (n i : Nat) : Desc := d.rowsPart (i * (d.rows / n)) (d.rows / n)

/-- Member i's share of a reduction of n members (R296, R301, notes/assumptions/26.md). -/
def Coll.share (c : Coll) (n : Nat) (d : Desc) (i : Nat) : Desc :=
  match c.vec with
  | some (_, e) =>
    let w := 16 * ceilDiv e (16 * n)
    d.colsPart (min (i * w) e) (min ((i + 1) * w) e - min (i * w) e)
  | none =>
    if c.op = opReduceScatter then d.rowsShare (i * (d.rows / n)) (d.rows / n)
    else if c.op = opReduce then d
    else
      let w := 32 * ceilDiv d.rows (32 * n)
      d.rowsShare (min (i * w) d.rows) (min ((i + 1) * w) d.rows - min (i * w) d.rows)

/-- The part of D that a member forms itself in a reduction of n members (R293, R301). -/
def Coll.ownPart (c : Coll) (n me : Nat) : Desc :=
  if c.op = opReduceScatter && c.vec.isNone then c.dDesc else c.share n c.dDesc me

/-- Whether a collective reduces. -/
def Coll.reduces (c : Coll) : Bool := c.op = opAllReduce || c.op = opReduceScatter || c.op = opReduce

/-- Whether a collective of tiles copies bits (R294). -/
def Coll.copies (c : Coll) : Bool := c.op = opAllGather || c.op = opBroadcast || c.op = opAllToAll

/-- Members 0 to n − 1 without one. -/
def othersOf (n me : Nat) : List Nat := (List.range n).filter (· != me)

/-- The members that a member receives streams of tiles from. -/
def Coll.needs (c : Coll) (n me : Nat) : List Nat :=
  if c.op = opReduce then (if me = c.root then othersOf n me else [])
  else if c.op = opBroadcast then (if me = c.root then [] else [c.root])
  else if c.reduces || c.copies then othersOf n me else []

/-- The members that a member sends streams of tiles to. -/
def Coll.gives (c : Coll) (n me : Nat) : List Nat :=
  if c.op = opReduce then (if me = c.root then [] else [c.root])
  else if c.op = opBroadcast then (if me = c.root then othersOf n me else [])
  else if c.reduces || c.copies then othersOf n me else []

/-- What a member sends to member j (R307). -/
def Coll.sendPart (c : Coll) (n j : Nat) : Desc :=
  if c.reduces then c.share n c.aDesc j
  else if c.op = opAllToAll then c.aDesc.block? n j else c.aDesc

/-- Where the stream of member j lands in D (R293, R307). -/
def Coll.landPart (c : Coll) (n j : Nat) : Desc :=
  if c.op = opBroadcast then c.dDesc else c.dDesc.block? n j

/-! ### Plans (R311 to R313) -/

/-- The plan of a `PERMUTE`. -/
def State.planOf (s : State) (c : Coll) : List Chunk :=
  ((Map.get? s.coll.plans (groupKey c.ctx c.plan)).map (·.chunks)).getD []

/-- Whether one chunk's destination is another's source. -/
def Chunk.follows (x y : Chunk) : Bool :=
  x.dstLogical == y.srcLogical && x.dstAddress == y.srcAddress && x.length == y.length

/-- The chunk that waits for a chunk to leave, if any: its index. -/
def waiterOf (cs : List Chunk) (y : Chunk) : Option Nat := cs.findIdx? fun x => x.follows y

/-- The chunks met from chunk i going back to those that wait for it; `fuel` bounds them. -/
def chainFrom (cs : List Chunk) (first : Nat) : Nat → Nat → List Nat
  | 0, _ => []
  | fuel + 1, i => match (cs[i]?).bind (waiterOf cs) with
    | none => [i]
    | some j => if j = first then [i] else i :: chainFrom cs first fuel j

/-- Whether the chunks met from chunk i come back to it. -/
def inCycle (cs : List Chunk) (i : Nat) : Bool :=
  match (chainFrom cs i cs.length i).getLast? with
  | none => false
  | some z => match (cs[z]?).bind (waiterOf cs) with
    | some j => j = i
    | none => false

/-- The break of the cycle of chunk i: the chunk of lowest `SRC_LOGICAL`, ties to the earlier entry (R313). -/
def breakOf (cs : List Chunk) (i : Nat) : Nat :=
  (chainFrom cs i cs.length i).foldl (fun b j =>
    let sb := ((cs[b]?).map (·.srcLogical)).getD 0
    let sj := ((cs[j]?).map (·.srcLogical)).getD 0
    if sj < sb || (sj = sb && j < b) then j else b) i

/-- The break chunks that a member stages, in plan order (R313). -/
def breaksOf (cs : List Chunk) (me : Nat) : List Nat :=
  (List.range cs.length).filter fun i =>
    ((cs[i]?).map (·.srcLogical)) = some me && inCycle cs i && breakOf cs i = i

/-- The largest break chunk of a member (R313). -/
def largestBreak (cs : List Chunk) (me : Nat) : Nat :=
  (breaksOf cs me).foldl (fun m i => max m (((cs[i]?).map (·.length)).getD 0)) 0

/-- The chunks of a plan, with their indices, that pass a test. -/
def chunksWhere (cs : List Chunk) (p : Chunk → Bool) : List (Nat × Chunk) :=
  (cs.zipIdx.filter fun x => p x.1).map fun x => (x.2, x.1)

/-! ### Sending (R302, R305 to R307) -/

/-- A collective in the engine. -/
def State.coll? (s : State) (id : Nat) : Option Coll := Map.get? s.coll.active id

/-- Changes a collective. -/
def State.modColl (s : State) (id : Nat) (f : Coll → Coll) : State :=
  s.modCe fun e => { e with active := Map.modify e.active id f }

/-- The `A_FORMAT`, `D_FORMAT` and `SHAPE` that a member sends (R298, R305). -/
def Coll.aFormat (c : Coll) : Nat := if c.usesA then c.aDesc.format else 0
def Coll.dFormat (c : Coll) : Nat := if c.usesD then c.dDesc.format else 0
def shapeOf (rows cols : Nat) : Nat := rows / 16 - 1 + (cols / 16 - 1) * 65536
def Coll.shape (c : Coll) : Nat := match c.vec with
  | some (_, e) => e
  | none => if c.usesA then shapeOf c.aDesc.rows c.aDesc.cols else 0

/-- The header of a packet to member j. `chunk` is the chunk of a plan. -/
def Coll.header (c : Coll) (g : CollGroup) (j : Nat) (chunk piece offset : Nat) : CollHdr :=
  { group := c.group, dstCtx := ((g.members[j]?).map (·.2)).getD 0, epoch := c.epoch, matchKey := c.matchKey
    kind := c.kind, op := c.op, redop := c.redop, nodeFormat := c.nodeFormat, src := g.own, dst := j
    aFormat := c.aFormat, dFormat := c.dFormat, root := c.root, shape := c.shape
    target := if c.kind = 1 then c.bucket else if c.op = opPermute then c.plan + chunk * 65536 else 0
    planEpoch := c.planEpoch, piece := piece, offset := offset }

/-- A `COLL` packet to member j (R305). -/
def State.collPacket (s : State) (c : Coll) (g : CollGroup) (j sub : Nat) (operand : Word) (data : Bytes)
    (chunk piece offset : Nat) (addr : Option Word) : Packet :=
  let dev := ((g.members[j]?).map (·.1)).getD 0
  let body := (c.header g j chunk piece offset).bytes ++ data
  s.packet tColl dev c.ctx (addr.getD (globalAddr dev 0)) body.length 0 operand body sub

/-- Sends a `COLL` packet, counting the data it carries (R318). -/
def State.collSend (s : State) (c : Coll) (g : CollGroup) (j sub : Nat) (operand : Word := 0)
    (data : Bytes := []) (chunk : Nat := 0) (piece : Nat := 0) (offset : Nat := 0)
    (addr : Option Word := none) : State :=
  (s.emit { type := tColl, packet := s.collPacket c g j sub operand data chunk piece offset addr }).count
    cCollBytesSent 0 data.length

/-- Sends a `COLL` packet that expires under the fabric timeout (R302). -/
def State.collRequest (s : State) (c : Coll) (g : CollGroup) (j sub : Nat) (unit : ReqUnit)
    (addr : Option Word := none) : State :=
  let dev := ((g.members[j]?).map (·.1)).getD 0
  let k := s.collPacket c g j sub 0 [] 0 0 0 addr
  (s.request tColl dev c.ctx k.address k.length unit 0 k.payload sub).2

/-- Probes member j (R302). -/
def State.probe (s : State) (id j : Nat) : State :=
  match s.coll? id with
  | none => s
  | some c => match s.group? c.ctx c.group with
    | none => s
    | some g => (s.collRequest c g j subProbe (.probe id j)).modColl id fun c =>
        { c with probed := Map.put c.probed j s.now }

/-- The member whose probe expired first, ties going to the lower index (R302): of the one that ends now at the time `at_`,
and of those that have expired and whose end has still to come. -/
def State.firstExpired (s : State) (id j at_ : Nat) : Nat :=
  (s.fabric.requests.foldl (fun (best : Nat × Nat) e =>
    match e.2.unit, e.2.timer with
    | .probe k m, some t =>
      let due := t + e.2.timeoutUs * 1000
      if k = id && due ≤ s.now && (due < best.1 || (due = best.1 && m < best.2)) then (due, m) else best
    | _, _ => best) (at_, j)).2

/-- The packed bytes of a tile of this module as a stream, and where the first byte of a lost line stands
in it (R485). -/
def State.copyStream (s : State) (d : Desc) : Bytes × Option Nat :=
  let ps := copyPieces d d.packed (s.byteFrom 0) (s.lostFrom 0)
  (ps.flatMap (·.data), (ps.find? (·.lost)).map (·.dst))

/-- The contribution of a tile to a reduction: an element of a lost line stands as a NaN (R100, R244). -/
def State.contribution (s : State) (d : Desc) : Bytes :=
  let lost := d.elemLost (s.lostFrom 0)
  let get := s.byteFrom 0
  let nan := (convert {} false d.format (.nan .poisonInput)).bits
  let elem := fun (i j : Nat) => if lost i j && !isMx d.format then nan else d.elemBitsAt get i j
  let rows := List.range d.rows
  let cols := List.range d.cols
  let elems := rows.flatMap fun i => (groupsOf 16 (d.cols / 16 + 1) cols).flatMap fun js =>
    le (2 * d.width) (packBits d.width (js.map (elem i)))
  let scale := fun (i j : Nat) (bad : Bool) => if bad then (0xFF : Byte) else get (d.scalePos i j)
  let scales :=
    if !isMx d.format then []
    else if d.mxCols then (List.range (ceilDiv (d.blockOff + d.rows) 32)).flatMap fun b =>
      let i := 32 * b - d.blockOff
      cols.map fun j => scale i j ((countUp i 1 (min (32 * (b + 1) - d.blockOff) d.rows - i)).any fun i => lost i j)
    else rows.flatMap fun i => (List.range (ceilDiv d.cols 32)).map fun b =>
      scale i (32 * b) ((countUp (32 * b) 1 (min 32 (d.cols - 32 * b))).any fun j => lost i j)
  elems ++ scales

/-- The packets of a stream: piece, offset in it, and data (R305, R307). -/
def streamPackets (bs : Bytes) : List (Nat × Nat × Bytes) :=
  (List.range (ceilDiv bs.length collPiece)).flatMap fun p =>
    let b := (bs.drop (p * collPiece)).take collPiece
    (List.range (ceilDiv b.length collPacketBytes)).map fun q =>
      (p, q * collPacketBytes, (b.drop (q * collPacketBytes)).take collPacketBytes)

/-- Sends a stream to member j. `addr` gives the source address of each byte, for loans: a packet that
carries bytes of a loan whose set leaves out the receiver is not sent, and no acknowledgement of its piece
is awaited (R427). -/
def State.sendStream (s : State) (id : Nat) (c : Coll) (g : CollGroup) (j key sub chunk : Nat) (bs : Bytes)
    (addr : Nat → Nat) : State :=
  let dev := ((g.members[j]?).map (·.1)).getD 0
  let ps := streamPackets bs
  let loan := fun (p : Nat × Nat × Bytes) => (List.range p.2.2.length).findSome? fun k =>
    s.suppressedBy (addr (p.1 * collPiece + p.2.1 + k)) 1 dev
  let good := ps.filter fun (p : Nat × Nat × Bytes) => (loan p).isNone
  let bad := ps.filter fun (p : Nat × Nat × Bytes) => (loan p).isSome
  let pieces := (List.range (ceilDiv bs.length collPiece)).filter fun p =>
    !bad.any fun (q : Nat × Nat × Bytes) => q.1 == p
  let s1 := good.foldl (fun s p => s.collSend c g j sub 0 p.2.2 chunk p.1 p.2.1) s
  let s2 := match bad.findSome? loan with
    | none => s1
    | some l => s1.countSuppressed l (bad.map fun (p : Nat × Nat × Bytes) => p.2.2.length).sum
  s2.modColl id fun c => { c with sent := Map.put c.sent key (Map.getD c.sent key 0 + pieces.length) }

/-! ### The outcome of a step (R198 to R201) -/

/-- The guard of a step has its outcome, and every held `STEP_COMMIT` is answered (R198, R200). -/
def State.guardOutcome (s : State) (c step : Nat) (code : Code) (fl fd : Nat) : State :=
  match s.guard? c step with
  | none => s
  | some g =>
    let s1 := if g.state == .abandoned then s
      else if code == .done then ((s.modGuard c step fun g => { g with state := .committed }).modCtx c (fun x =>
          { x with committedStep := max x.committedStep step })).count cStepsCommitted 0
      else (s.modGuard c step fun g => { g with state := .abandoned }).count cStepsAbandoned 0
    let s2 := s1.modGuard c step fun g => { g with outcome := some (code, fl, fd), held := [] }
    g.held.foldl (fun s h => s.finishCmd h.1 { code := code, failLogical := fl, failDevice := fd }) s2

/-! ### The end of a collective (R292, R299, R302) -/

/-- The members whose streams, arrivals or flags a collective still awaits (R302). -/
def State.awaited (s : State) (c : Coll) (g : CollGroup) : List Nat :=
  let n := g.members.length
  let full := fun (key size : Nat) => size ≤ (Map.vals (Map.getD c.got key [])).sum
  if c.kind = 2 then
    (List.range (clog2 n)).filterMap fun r =>
      let from_ := (g.own + n - 2 ^ r % n) % n
      if c.flags.any fun f => f.1 == from_ && f.2.1 == r then none else some from_
  else if c.op = opBarrier then (othersOf n g.own).filter fun j => !c.arrivals.contains j
  else if c.op = opPermute then
    (((chunksWhere (s.planOf c) fun x => x.dstLogical == g.own).filter fun x =>
      !full x.1 x.2.length).map fun x => x.2.srcLogical).filter (· != g.own)
  else (c.needs n g.own).filter fun j =>
    !full j (if c.reduces then (c.share n c.aDesc g.own).packedBytes else (c.landPart n j).packedBytes)
      || (c.op = opAllReduce && !full (j + 65536) (c.share n c.dDesc j).packedBytes)

/-- The members whose acknowledgements a collective awaits. -/
def State.unacked (s : State) (c : Coll) : List Nat :=
  (c.sent.filter fun e => Map.getD c.acked e.1 0 < e.2).map fun e =>
    if c.op = opPermute then (((s.planOf c)[e.1]?).map (·.dstLogical)).getD 0 else e.1

/-- Writes the device-written fields of a collective's operation block, and posts its `DONE_SEM` (R292,
R299). -/
def State.collFields (s : State) (c : Coll) (code : Code) (fl fd flags : Nat) (rec : Bytes) : State :=
  let s1 := if c.block = 0 then s
    else s.store (c.block + 0x40) (le 2 code.num ++ le 2 fl ++ le 2 fd ++ le 1 flags ++ zeros 1
      ++ le 4 (if c.kind = 0 then c.matchKey else 0) ++ zeros 4 ++ le 8 c.startTime ++ le 8 s.now ++ padTo 16 rec)
  let array := match c.unit with
    | .op t _ => t.array
    | _ => 0
  if c.doneSem = 0 then s1
  else s1.unitPost c.ctx array (globalAddr s.lodge.deviceId (locOf c.doneSem)) 1

/-- A collective's scratch holds no stated value afterwards: its bytes are free (R302). -/
def State.smearScratch (s : State) (c : Coll) : State :=
  if c.scratch.2 = 0 || !(c.reduces || !c.staged.isEmpty) then s
  else
    let (i, s1) := s.free c.scratch.2
    s1.store c.scratch.1 (Config.freeBytes i c.scratch.2)

/-- Drops the outstanding requests of a collective. -/
def State.dropCollRequests (s : State) (id : Nat) : State :=
  s.modFabric fun f => { f with requests := f.requests.filter fun r => match r.2.unit with
    | .probe k _ => k ≠ id
    | .claim k => k ≠ id
    | _ => true }

/-- A collective's record keeps what its probe answers need, and nothing else (R308). -/
def Coll.ended (c : Coll) (stage fl : Nat) : Coll :=
  { c with stage := stage, failLogical := fl, ready := [], sent := [], acked := [], got := [], inbox := []
           staged := [], roots := [], nodeSats := 0, probed := [] }

/-- Marks the group of a collective `BROKEN`, naming a member (R302). -/
def State.breakGroup (s : State) (c : Coll) (fl : Nat) : State :=
  s.modCe fun e => { e with groups := Map.modify e.groups (groupKey c.ctx c.group) fun g =>
    if g.epoch = c.epoch then { g with broken := some (g.broken.getD fl) } else g }

/-- A collective ends with a condition or a trap (R290, R298, R302, R485). `fl` is the member that
`PEER_TIMEOUT` names. -/
def State.collFail (s : State) (id : Nat) (code : Code) (fl : Nat) (tr : Option Trap := none) : State :=
  match s.coll? id with
  | none => s
  | some c =>
    if c.stage ≥ 2 then s
    else
      let g := s.group? c.ctx c.group
      let peer := code == .peerTimeout
      let fd := if peer then (((g.bind fun g => g.members[fl]?).map (·.1)).getD 0xFFFF) else 0xFFFF
      let own := (g.map (·.own)).getD 0
      let final := match g with
        | some g => c.usesD && (c.computed || !c.reduces) && c.op ≠ opPermute && (s.awaited c g).isEmpty
        | none => false
      let flags := b2n c.wrote + 8 * b2n (peer && c.wrote && final)
      let s1 := (s.modColl id fun c => { c.ended 3 (if peer then fl else own) with code := code }).dropCollRequests id
      let s2 := (s1.smearScratch c).collFields c code (if peer then fl else 0xFFFF) fd (if peer then flags else 0) []
      match c.unit with
      | .op t o => match s2.op? t o with
        | none => s2
        | some p => match tr with
          | some r => s2.opTrap t p r
          | none => (s2.dropContribs t p).opEnd t { p with cond := some code, failDevice := fd, records := [] }
      | .bucket _ _ => c.counted.foldl (fun s k => s.enterRoot k.1 c.ctx k.2.1 k.2.2 none) s2
      | .commit ctx step => s2.guardOutcome ctx step code (if peer then fl else 0xFFFF) fd

/-- A member's probe or packet shows that the collective ends with `PEER_TIMEOUT`, and the group becomes
`BROKEN` (R302, R308). -/
def State.collLost (s : State) (id fl : Nat) : State :=
  match s.coll? id with
  | none => s
  | some c =>
    if c.stage ≠ 1 then s
    else ((s.count cCollPeerTimeouts 0).breakGroup c fl).collFail id .peerTimeout fl

/-! ### What a member's packets tell (R298, R307, R308) -/

/-- Whether a header names a collective (R298). -/
def Coll.isOf (c : Coll) (h : CollHdr) : Bool :=
  c.ctx = h.dstCtx && c.group = h.group && c.epoch = h.epoch && c.kind = h.kind && c.matchKey = h.matchKey
    && (c.kind ≠ 1 || c.bucket = h.target)

/-- The collective that a header names. -/
def State.collOf (s : State) (h : CollHdr) : Option Nat :=
  ((s.coll.active.filter fun e => e.2.isOf h).getLast?).map (·.1)

/-- Whether a member's collective differs from this member's in a compared field (R298). -/
def Coll.differs (c : Coll) (h : CollHdr) : Bool :=
  c.op ≠ h.op || c.redop ≠ h.redop || c.nodeFormat ≠ h.nodeFormat || c.root ≠ h.root
    || (c.op = opPermute && (c.plan ≠ h.target % 65536 || c.planEpoch ≠ h.planEpoch))
    || (h.aFormat ≠ 0 && (if c.usesA then c.aFormat ≠ h.aFormat || c.shape ≠ h.shape
          else c.usesD && h.shape ≠ shapeOf c.dDesc.rows c.dDesc.cols))
    || (c.usesD && h.dFormat ≠ 0 && c.dFormat ≠ h.dFormat)

/-- Bytes of a stream arrive: they wait to be combined or placed, once. A contribution counts as it arrives. -/
def Coll.takeData (c : Coll) (key pos : Nat) (bs : Bytes) : Coll :=
  let seen := Map.getD c.got key []
  let waiting := Map.getD c.inbox key []
  if Map.has seen pos || Map.has waiting pos then c
  else
    { c with inbox := Map.put c.inbox key (Map.put waiting pos bs)
             got := if c.reduces && key < 65536 then Map.put c.got key (Map.put seen pos bs.length) else c.got }

/-- Pieces of member j's streams that it has placed (R307): of an `ALL_REDUCE`, its contribution's and then its
result's. -/
def Coll.takeAck (c : Coll) (key count : Nat) : Coll :=
  if c.op = opAllReduce then
    let first := Map.getD c.sent key 0
    { c with acked := Map.put (Map.put c.acked key (min count first)) (key + 65536) (count - first) }
  else { c with acked := Map.put c.acked key count }

/-- The key of a packet's stream: the chunk of a plan, or the sender. -/
def Coll.streamKey (c : Coll) (h : CollHdr) : Nat := if c.op = opPermute then h.target / 65536 else h.src

/-- What a packet of a collective in progress tells (R298, R307). -/
def State.collNote (s : State) (id : Nat) (k : Packet) : State :=
  match s.coll? id with
  | none => s
  | some c =>
    let h := CollHdr.parse k.payload
    let compared := k.operation = subReady || k.operation = subData || k.operation = subResult
    let key := c.streamKey h
    let pos := h.piece * collPiece + h.offset
    if compared && c.differs h then (s.count cCollMismatch 0).collFail id .badPacket 0xFFFF (some (trOperand 6 4))
    else s.modColl id fun c =>
      if k.operation = subReady then { c with ready := if c.ready.contains h.src then c.ready else c.ready ++ [h.src] }
      else if k.operation = subArrive then
        { c with arrivals := if c.arrivals.contains h.src then c.arrivals else c.arrivals ++ [h.src] }
      else if k.operation = subFlag then
        { c with flags := if c.flags.any (fun f => f.1 = h.src && f.2.1 = h.piece) then c.flags
                   else c.flags ++ [(h.src, h.piece, bitOf k.operand.toNat 0)] }
      else if k.operation = subPieceAck then c.takeAck key (k.operand.toNat % 2 ^ 32)
      else c.takeData (if k.operation = subResult then key + 65536 else key) pos (k.payload.drop 48)

/-- A collective starts on a member that has kept packets for it (R307). -/
def State.takeEarly (s : State) (id : Nat) : State :=
  match s.coll? id with
  | none => s
  | some c =>
    let mine := fun (k : Packet) => c.isOf (CollHdr.parse k.payload)
    let s1 := s.modCe fun e => { e with early := e.early.filter fun k => !mine k }
    (s.coll.early.filter mine).foldl (fun (s : State) k =>
      if (s.coll? id).any fun c => c.stage = 1 then s.collNote id k else s) s1

/-! ### Reduction and results (R294 to R297, R299) -/

/-- The values that a stream of a tile's packed bytes spells. -/
def packedValues (d : Desc) (bs : Bytes) : List (List Num) :=
  let p := d.packed
  p.block (fun a => bs.getD a 0) (fun _ => false) 0 d.rows 0 d.cols

/-- The bytes of an assembled stream. -/
def assembled (m : Map Bytes) : Bytes := (Map.vals m).flatten

/-- The root of an element over members' values (R294, R295), with its INT32 saturations (R87). -/
def reduceElem (redop nodeFormat : Nat) (xs : List Num) : Num × Nat :=
  match redop with
  | 1 => match xs with
    | [] => (.zero false, 0)
    | x :: r => (r.foldl (vopNum 0x03 · · (.zero false) (.zero false)) x, 0)
  | 2 => match xs with
    | [] => (.zero false, 0)
    | x :: r => (r.foldl (vopNum 0x04 · · (.zero false) (.zero false)) x, 0)
  | _ => (treeRoot nodeFormat xs).getD (.zero false, 0)

/-- Where a member's share stands in D: its first row and column. -/
def Coll.ownAt (c : Coll) (n me : Nat) : Nat × Nat :=
  match c.vec with
  | some (_, e) => (0, min (me * (16 * ceilDiv e (16 * n))) e)
  | none => if c.op = opAllReduce then
      (min (me * (32 * ceilDiv c.dDesc.rows (32 * n))) c.dDesc.rows, 0) else (0, 0)

/-- The encoding of a member's own share of D from its roots (R294). -/
def State.encodeShare (s : State) (c : Coll) (n me : Nat) (roots : List (List Num)) : Encoded :=
  let (r, q) := c.ownAt n me
  match c.unit with
  | .op t o => match s.op? t o with
    | some p => c.dDesc.encode p.ovfIeee (s.roundingOf t p c.dDesc) r q roots
    | none => c.dDesc.encode false (fun _ _ => {}) r q roots
  | _ => c.dDesc.encode false (fun _ _ => {}) r q roots

/-- A member combines its share once every contribution is there (R295, R296). -/
def State.collCombine (s : State) (id : Nat) (c : Coll) (g : CollGroup) : State :=
  let n := g.members.length
  let part := c.share n c.aDesc g.own
  let own := part.block (s.byteFrom 0) (s.lostFrom 0) 0 part.rows 0 part.cols
  let all := (List.range n).map fun j =>
    if j = g.own then own else packedValues part (assembled (Map.getD c.inbox j []))
  let at_ := fun (m : List (List Num)) (i j : Nat) => ((m[i]?).bind fun r => r[j]?).getD (.zero false)
  let elems := (List.range part.rows).map fun i => (List.range part.cols).map fun j =>
    reduceElem c.redop c.nodeFormat (all.map fun m => at_ m i j)
  let roots := elems.map fun r => r.map (·.1)
  let sats := (elems.flatten.map (·.2)).sum
  let e := s.encodeShare c n g.own roots
  let bad := part.ranges.any fun r => !(s.lostIn r.1 r.2).isEmpty
  (s.storeAll e.writes).modColl id fun c =>
    { c with computed := true, roots := roots, nodeSats := sats, inbox := [], wrote := c.wrote || !e.writes.isEmpty
             poisoned := c.poisoned || bad }

/-- The source values and conversions of a member's D when a collective is complete: the roots of its own
share of a reduction, and otherwise the written values (R163, notes/assumptions/26.md). -/
def State.collValues (s : State) (c : Coll) (n me : Nat) : List (List Num) × List (List Conv) :=
  let d := c.dDesc
  let vals := d.block (s.byteFrom 0) (s.lostFrom 0) 0 d.rows 0 d.cols
  let asConv := fun (i j : Nat) (v : Num) =>
    ({ bits := d.elemBitsAt (s.byteFrom 0) i j, value := v } : Conv)
  let base := vals.mapIdx fun i r => r.mapIdx fun j v => (v, asConv i j v)
  let e := s.encodeShare c n me c.roots
  let (r0, c0) := c.ownAt n me
  let patch := fun (i j : Nat) (x : Num × Conv) =>
    if r0 ≤ i && c0 ≤ j then
      match (c.roots[i - r0]?).bind (fun r => r[j - c0]?), (e.convs[i - r0]?).bind (fun r => r[j - c0]?) with
      | some v, some q => (v, q)
      | _, _ => x
    else x
  let both := base.mapIdx fun i r => r.mapIdx fun j x => patch i j x
  (both.map fun r => r.map (·.1), both.map fun r => r.map (·.2))

/-- The status record of a vector: element e stands at row e ÷ 65,536, column e mod 65,536. -/
def vecRecord (f : Nat) (vals : List Num) (convs : List Conv) (first : Nat) : TileRecord :=
  ((List.zipWith (classified f) vals convs).zipIdx).foldl (fun r x =>
    r.add ((first + x.2) / 65536) ((first + x.2) % 65536) x.1) {}

/-- The segments of a bucket's result enter their tags in ascending order (R301). -/
def State.enterSegments (s : State) (c : Coll) : State :=
  match c.unit, c.vec with
  | .bucket ctx b, some (base, _) => match s.bucket? ctx b with
    | none => s
    | some k => (k.segments.zip c.counted).foldl (fun s x =>
        let d : Desc := { vecDesc (base + 4 * x.1.offset) x.1.cols with rows := x.1.rows }
        let vals := d.block (s.byteFrom 0) (s.lostFrom 0) 0 d.rows 0 d.cols
        let convs := vals.mapIdx fun i r => r.mapIdx fun j v =>
          ({ bits := d.elemBitsAt (s.byteFrom 0) i j, value := v } : Conv)
        let (a, slot, i) := x.2
        (s.modTag a ctx slot fun g => g.block 0x02 vals convs).enterRoot a ctx slot i
          (some (contributionRoot (addSquares [] 0 0x02 0 0 vals convs) 0 d.rows d.cols))) s
  | _, _ => s

/-- A collective is complete on this member (R299): the block's fields are written and `DONE_SEM` posted,
then the record at S3; D enters its tag. A member that read a lost line ends with `WEIGHT_LOST`, and its probe answers name
it (R308). -/
def State.collDone (s : State) (id : Nat) (c : Coll) (g : CollGroup) : State :=
  let n := g.members.length
  let code := if c.poisoned then Code.weightLost else Code.done
  let (vals, convs) := if c.usesD then s.collValues c n g.own else ([], [])
  let d := c.dDesc
  let rec_ : TileRecord := match c.vec with
    | some (_, e) =>
      let w := 16 * ceilDiv e (16 * n)
      let lo := if c.op = opReduceScatter then min (g.own * w) e else 0
      let m := if c.op = opReduceScatter then min ((g.own + 1) * w) e - lo else e
      vecRecord 0x02 (((vals.headD []).drop lo).take m) (((convs.headD []).drop lo).take m) lo
    | none => TileRecord.addBlock {} d.format 0 0 vals convs
  let rec' := if code == .done then rec_.bytes else []
  let flags := 2 * b2n c.won + 4 * b2n c.lost
  let ended := fun (c : Coll) => if code == .done then c.ended 2 0xFFFF else c.ended 3 g.own
  let s1 := (s.modColl id fun c => { ended c with code := code, nf := rec_.flags }).dropCollRequests id
  let s2 := (s1.smearScratch c).collFields c code 0xFFFF 0xFFFF flags rec'
  match c.unit with
  | .op t o => match s2.op? t o with
    | none => s2
    | some p =>
      if code == .done then
        let s3 := if !c.usesD then s2
          else ((s2.enterBlock t p 0 d.format vals convs).enterSats t p 0 c.nodeSats).enterContribution t p 0
            (contributionRoot (addSquares [] 0 d.format 0 0 vals convs) 0 d.rows d.cols)
        s3.opEnd t { p with records := if c.usesD then [rec_] else [], recAddr := if c.usesD then p.recAddr else none }
      else (s2.dropContribs t p).opEnd t { p with cond := some code, records := [] }
  | .bucket _ _ =>
    if code == .done then s2.enterSegments c
    else c.counted.foldl (fun s k => s.enterRoot k.1 c.ctx k.2.1 k.2.2 none) s2
  | .commit ctx step =>
    s2.guardOutcome ctx step (if c.clean then .done else .stepNotClean) 0xFFFF 0xFFFF

/-! ### Placing what has arrived (R300, R307, R312) -/

/-- Whether chunk i of a plan lies in a cycle whose break this member has still to stage: it does not move before (R313). -/
def Coll.breakWaits (c : Coll) (cs : List Chunk) (me i : Nat) : Bool :=
  let b := breakOf cs i
  inCycle cs i && ((cs[b]?).map (·.srcLogical)) = some me && !Map.has c.staged b && !Map.has c.sent b

/-- Whether chunk i of a plan may be written: no chunk that this member has still to send, and has not staged, lies there
(R312), and the break of its cycle is staged (R313). -/
def Coll.chunkFree (c : Coll) (cs : List Chunk) (me i : Nat) : Bool :=
  match cs[i]? with
  | none => false
  | some x => !c.breakWaits cs me i && (match cs.findIdx? fun y => x.follows y with
    | none => true
    | some k => Map.has c.sent k || Map.has c.staged k)

/-- Whether every other chunk of the cycle of break i has moved, as far as this member takes part: those it sends have left,
and those it receives are written (R313, notes/assumptions/26.md). -/
def Coll.breakLast (c : Coll) (cs : List Chunk) (me i : Nat) : Bool :=
  ((chainFrom cs i cs.length i).filter (· != i)).all fun k => match cs[k]? with
    | none => true
    | some y => (y.srcLogical ≠ me || Map.has c.sent k)
        && (y.dstLogical ≠ me || y.length ≤ (Map.vals (Map.getD c.got k [])).sum)

/-- Writes arrived bytes that wait, where they may be written, and counts them as placed. A reduction's
contributions count when they arrive, and stay until they are combined. -/
def State.collPlace (s : State) (id : Nat) : State :=
  match s.coll? id with
  | none => s
  | some c => match s.group? c.ctx c.group with
    | none => s
    | some g =>
      let n := g.members.length
      let cs := s.planOf c
      c.inbox.foldl (fun s e => e.2.foldl (fun s b =>
        let addr : Nat → Nat := if c.op = opPermute then
            fun o => (((cs[e.1]?).map (·.dstAddress)).getD 0) + o
          else if e.1 ≥ 65536 then (c.share n c.dDesc (e.1 - 65536)).byteAddr
          else (c.landPart n e.1).byteAddr
        let held := c.reduces && e.1 < 65536
        let free := c.op ≠ opPermute || c.chunkFree cs g.own e.1
        let ws := coalesce (sortWrites ((b.2.zipIdx).map fun y => (addr (b.1 + y.2), [y.1])))
        if held || !free || !s.writable (ws.map fun w => (w.1, w.2.length)) then s
        else (ws.foldl (fun s w => s.store w.1 w.2) s).modColl id fun c =>
          { c with wrote := true
                   got := Map.put c.got e.1 (Map.put (Map.getD c.got e.1 []) b.1 b.2.length)
                   inbox := Map.put c.inbox e.1 (Map.erase (Map.getD c.inbox e.1 []) b.1) }) s) s

/-- Bytes that a stream of a key has. -/
def State.streamSize (s : State) (c : Coll) (n me key : Nat) : Nat :=
  if c.op = opPermute then (((s.planOf c)[key]?).map (·.length)).getD 0
  else if key ≥ 65536 then (c.share n c.dDesc (key - 65536)).packedBytes
  else if c.reduces then (c.share n c.aDesc me).packedBytes
  else (c.landPart n key).packedBytes

/-- Complete pieces of a stream of a size. -/
def piecesDone (m : Map Nat) (size : Nat) : Nat :=
  ((List.range (ceilDiv size collPiece)).filter fun p =>
    min collPiece (size - p * collPiece)
      ≤ ((m.filter fun e => e.1 / collPiece == p).map (·.2)).sum).length

/-- Acknowledges the pieces placed (R307). For tiles one count covers both streams of a member. -/
def State.collAcks (s : State) (id : Nat) : State :=
  match s.coll? id with
  | none => s
  | some c => match s.group? c.ctx c.group with
    | none => s
    | some g =>
      let n := g.members.length
      let keys := ((Map.keys c.got).map fun k => if c.op = opPermute then k else k % 65536).eraseDups
      keys.foldl (fun s k =>
        let done := fun (k : Nat) => piecesDone (Map.getD c.got k []) (s.streamSize c n g.own k)
        let total := if c.op = opPermute then done k else done k + (if c.op = opAllReduce then done (k + 65536) else 0)
        let peer := if c.op = opPermute then (((s.planOf c)[k]?).map (·.srcLogical)).getD 0 else k
        if total ≤ Map.getD c.ackSent k 0 || peer = g.own then s
        else (s.collSend c g peer subPieceAck (BitVec.ofNat 64 total) [] (if c.op = opPermute then k else 0)).modColl
          id fun c => { c with ackSent := Map.put c.ackSent k total }) s

/-! ### Sending what may be sent -/

/-- Sends the stream of a tile to member j (R307). A lost line ends a copying collective after the bytes
before it (R485). -/
def State.giveTile (s : State) (id : Nat) (c : Coll) (g : CollGroup) (j : Nat) : State :=
  let n := g.members.length
  let part := c.sendPart n j
  let (s1, ready) := s.sourcesReady part.ranges
  if part.packedBytes = 0 then s.modColl id fun c => { c with sent := Map.put c.sent j 0 }
  else if !ready then s1
  else
    let s2 := part.ranges.foldl (fun s r => (s.touch r.1 r.2).countLost r.1 r.2) s1
    if c.reduces then
      let bad := part.ranges.any fun r => !(s1.lostIn r.1 r.2).isEmpty
      (s2.sendStream id c g j j subData 0 (s1.contribution part) part.byteAddr).modColl id fun c =>
        { c with poisoned := c.poisoned || bad }
    else match s1.copyStream part with
      | (bs, none) => s2.sendStream id c g j j subData 0 bs part.byteAddr
      | (bs, some k) => (s2.sendStream id c g j j subData 0 (bs.take k) part.byteAddr).collFail id .weightLost 0

/-- Sends a member's share of the result to member j (R307). -/
def State.giveResult (s : State) (id : Nat) (c : Coll) (g : CollGroup) (j : Nat) : State :=
  let part := c.share g.members.length c.dDesc g.own
  (s.sendStream id c g j j subResult 0 (s.copyStream part).1 part.byteAddr).modColl id fun c =>
    { c with sent := Map.put c.sent (j + 65536) 0 }

/-- The bytes of chunk i at this member: staged, or as they stand; and where a lost line's begin (R485). -/
def State.chunkBytes (s : State) (c : Coll) (i : Nat) (x : Chunk) : Bytes × Option Nat :=
  match Map.get? c.staged i with
  | some b => (b, none)
  | none => (s.bytesAt x.srcAddress x.length,
      (s.lostIn x.srcAddress x.length).head?.map fun l => l * lineBytes - x.srcAddress)

/-- Copies break chunks aside, at most as many as scratch holds (R313). -/
def State.stageChunks (s : State) (id : Nat) : State :=
  match s.coll? id with
  | none => s
  | some c => match s.group? c.ctx c.group with
    | none => s
    | some g =>
      let cs := s.planOf c
      let big := largestBreak cs g.own
      let room := if big = 0 then 0 else min 2 (c.scratch.2 / big)
      let now := (c.staged.filter fun e => !Map.has c.sent e.1).length
      let next := ((breaksOf cs g.own).filter fun i => !Map.has c.staged i && !Map.has c.sent i).take (room - now)
      next.foldl (fun s i => match cs[i]? with
        | none => s
        | some x =>
          if s.coll? id |>.any (fun c => c.stage ≠ 1) then s
          else if !(s.lostIn x.srcAddress x.length).isEmpty then s.collFail id .weightLost 0
          else (s.modColl id fun c =>
            { c with staged := Map.put c.staged i (s.bytesAt x.srcAddress x.length) }).count cPermuteStaged 0
              x.length) s

/-- Sends chunk i, or moves it where it stays on this member (R312). The break of a cycle is staged before any other chunk of
it moves, and goes last (R313). -/
def State.giveChunk (s : State) (id : Nat) (i : Nat) (x : Chunk) : State :=
  match s.coll? id with
  | none => s
  | some c => match s.group? c.ctx c.group with
    | none => s
    | some g =>
      let cs := s.planOf c
      let waits := if (breaksOf cs g.own).contains i then !Map.has c.staged i || !c.breakLast cs g.own i
        else c.breakWaits cs g.own i
      let (s1, ready) := if Map.has c.staged i then (s, true) else s.sourcesReady [(x.srcAddress, x.length)]
      if c.stage ≠ 1 || Map.has c.sent i || waits then s
      else if !ready then s1
      else
        let (bs, cut) := s1.chunkBytes c i x
        if x.dstLogical = g.own then
          let s2 := s1.modColl id fun c => { c with sent := Map.put c.sent i 0 }
          match cut with
          | some _ => s2.collFail id .weightLost 0
          | none => (s2.bind x.srcAddress x.length x.dstAddress x.length).modColl id fun c =>
              { c with inbox := Map.put c.inbox i [(0, bs)] }
        else if !c.ready.contains x.dstLogical then s
        else
          let s2 := s1.sendStream id c g x.dstLogical i subData i (bs.take (cut.getD bs.length))
            fun o => x.srcAddress + o
          match cut with
          | some _ => s2.collFail id .weightLost 0
          | none => s2.modColl id fun c => { c with sent := Map.put c.sent i (Map.getD c.sent i 0) }

/-- The `PERMUTE` part of going on with a collective. -/
def State.givePlan (s : State) (id : Nat) : State :=
  match s.coll? id with
  | none => s
  | some c => match s.group? c.ctx c.group with
    | none => s
    | some g =>
      let mine := chunksWhere (s.planOf c) fun x => x.srcLogical == g.own
      let pass := fun (s : State) => mine.foldl (fun s x => ((s.stageChunks id).giveChunk id x.1 x.2).collPlace id) s
      pass (pass s)

/-- One round of the flag exchange after another, as far as the flags have come (R304): in round r a member
sends to the member 2^r above it, and receives from the one 2^r below (notes/assumptions/26.md). -/
def State.giveFlags (s : State) (id : Nat) : Nat → State
  | 0 => s
  | fuel + 1 => match s.coll? id with
    | none => s
    | some c => match s.group? c.ctx c.group with
      | none => s
      | some g =>
        let n := g.members.length
        let from_ := (g.own + n - 2 ^ c.round % n) % n
        match c.flags.find? fun f => f.1 == from_ && f.2.1 == c.round with
        | none => s
        | some f =>
          let c' := { c with clean := c.clean && f.2.2, round := c.round + 1 }
          let s1 := s.modColl id fun _ => c'
          let s2 := if c'.round < clog2 n then
              s1.collSend c' g ((g.own + 2 ^ c'.round) % n) subFlag (BitVec.ofNat 64 (b2n c'.clean)) [] 0 c'.round
            else s1
          s2.giveFlags id fuel

/-! ### First-writer-wins slots (R315 to R317) -/

/-- A claim of a slot of a context on this module by a member (R316): its number, whether it won, and the
slot's `DATA_LENGTH`. -/
def State.claimSlot (s : State) (ct a logical dev c : Nat) : Nat × Bool × Nat × State :=
  let h := s.bytesAt a 64
  let old := field h 0x0E 2
  if field h 0 1 ≠ 0 then (old, false, field h 8 4, s.count cFwwLateDrops 0)
  else
    let n := (old + 1) % 65536
    let s1 := (s.store a (le 1 1)).store (a + 2) (le 2 logical ++ le 2 dev ++ le 2 c)
    let s2 := (s1.store (a + 0x0E) (le 2 n ++ le 8 s.now)).modCe fun e =>
      { e with claims := Map.put e.claims a { ctx := ct, number := n, since := s.now } }
    (n, true, field h 8 4, s2)

/-- A claimed slot returns to `EMPTY` (R316, R317). -/
def State.releaseSlot (s : State) (a : Nat) : State :=
  (s.store a (le 1 0)).modCe fun e => { e with claims := Map.erase e.claims a }

/-- The slot of a context that an address of slot data lies in: the nearest header below it (R306). -/
def State.slotBelow (s : State) (ct addr : Nat) : Option Nat :=
  (s.coll.claims.filter fun e => e.2.ctx == ct && e.1 + 64 ≤ addr).foldl (fun (best : Option Nat) e =>
    some (max e.1 (best.getD 0))) none

/-- Data of a slot arrives: it is written under the current claim's number, and dropped as late otherwise.
The last write makes the slot `FILLED` (R316, R317). No data at all releases the slot
(notes/assumptions/26.md). -/
def State.fillSlot (s : State) (ct addr number : Nat) (bs : Bytes) : Bool × State :=
  match s.slotBelow ct addr with
  | none => (false, s.count cFwwLateDrops 0)
  | some a => match Map.get? s.coll.claims a with
    | none => (false, s.count cFwwLateDrops 0)
    | some k =>
      let h := s.bytesAt a 64
      if k.number ≠ number || field h 0 1 ≠ 1 then (false, s.count cFwwLateDrops 0)
      else if bs.isEmpty then (true, s.releaseSlot a)
      else
        let s1 := s.store addr bs
        let w := k.written + bs.length
        if w < field h 8 4 then
          (true, s1.modCe fun e => { e with claims := Map.put e.claims a { k with written := w } })
        else
          let s2 := ((s1.store a (le 1 2)).store (a + 0x18) (le 8 s.now)).modCe fun e =>
            { e with claims := Map.erase e.claims a }
          let sem := field h 0x20 8
          (true, ((if sem = 0 then s2 else s2.unitPost ct 0 (globalAddr s.lodge.deviceId (locOf (BitVec.ofNat 64 sem))) 1)).count
            cFwwWins 0)

/-- The member that holds the slot of a `FWW_PUT`: the lowest logical index on its device. -/
def Coll.slotMember (c : Coll) (g : CollGroup) : Nat :=
  (g.members.findIdx? fun m => m.1 == devOf c.slot).getD 0

/-- A winning `FWW_PUT` gives its claim up (R316, R485). -/
def State.giveUpSlot (s : State) (c : Coll) (g : CollGroup) (number : Nat) : State :=
  if devOf c.slot = s.lodge.deviceId then s.releaseSlot (locOf c.slot)
  else s.collSend c g (c.slotMember g) subFwwData (BitVec.ofNat 64 number) [] 0 0 0 (some (c.slot + 64))

/-- A claim has its answer (R316): a lost one ends the put; a winner's length must fit. -/
def State.claimed (s : State) (id number : Nat) (won : Bool) (length : Nat) : State :=
  match s.coll? id with
  | none => s
  | some c => match s.group? c.ctx c.group with
    | none => s
    | some g =>
      if c.stage ≠ 1 || c.claim.isSome then s
      else if !won then s.modColl id fun c => { c with claim := some number, lost := true }
      else if c.aDesc.bytes ≠ length then
        (s.giveUpSlot c g number).collFail id .badPacket 0xFFFF (some (trOperand 1 4))
      else s.modColl id fun c => { c with claim := some number }

/-- Sends the claim of a `FWW_PUT`, or takes it on this module (R316). -/
def State.askSlot (s : State) (id : Nat) (c : Coll) (g : CollGroup) : State :=
  if devOf c.slot = s.lodge.deviceId then
    let (n, won, len, s1) := s.claimSlot c.ctx (locOf c.slot) g.own s.lodge.deviceId c.ctx
    s1.claimed id n won len
  else if s.fabric.requests.any fun r => r.2.unit == .claim id then s
  else s.collRequest c g (c.slotMember g) subClaim (.claim id) (some c.slot)

/-- Writes A after the slot's header under a won claim (R316). Bytes of a loan whose set leaves out the
slot's device are not sent (R427). A lost line ends the put, and the slot is released first (R485). -/
def State.sendSlot (s : State) (id number : Nat) (c : Coll) (g : CollGroup) : State :=
  let (s1, ready) := s.sourcesReady c.aDesc.ranges
  if !ready then s1
  else
    let j := c.slotMember g
    let dev := devOf c.slot
    let (bs, cut) := s1.copyStream c.aDesc
    let chunk := fun (q : Nat) => (bs.drop (q * collPacketBytes)).take collPacketBytes
    let loan := fun (q : Nat) => if dev = s.lodge.deviceId then none
      else (List.range (chunk q).length).findSome? fun k =>
        s1.suppressedBy (c.aDesc.byteAddr (q * collPacketBytes + k)) 1 dev
    let all := List.range (ceilDiv (cut.getD bs.length) collPacketBytes)
    let good := all.filter fun q => (loan q).isNone
    let bad := all.filter fun q => (loan q).isSome
    let size := fun (q : Nat) => min (chunk q).length (cut.getD bs.length - q * collPacketBytes)
    let s2 := c.aDesc.ranges.foldl (fun s r => (s.touch r.1 r.2).countLost r.1 r.2) s1
    let s3 := match bad.findSome? loan with
      | none => s2
      | some l => s2.countSuppressed l (bad.map size).sum
    let s4 := good.foldl (fun (s : State) q =>
      let d := (chunk q).take (size q)
      let a := c.slot + BitVec.ofNat 64 (64 + q * collPacketBytes)
      if dev = s.lodge.deviceId then (s.fillSlot c.ctx (locOf a) number d).2
      else s.collSend c g j subFwwData (BitVec.ofNat 64 number) d 0 0 0 (some a)) s3
    let away := if dev = s.lodge.deviceId then 0 else good.length
    match cut with
    | some _ => (s4.giveUpSlot c g number).collFail id .weightLost 0
    | none => s4.modColl id fun c => { c with sent := Map.put c.sent j away }

/-- Goes on with a `FWW_PUT` (R316). -/
def State.giveSlot (s : State) (id : Nat) : State :=
  match s.coll? id with
  | none => s
  | some c => match s.group? c.ctx c.group with
    | none => s
    | some g =>
      let s1 := if c.claim.isNone then s.askSlot id c g else s
      match s1.coll? id with
      | none => s1
      | some c => match c.claim with
        | some n => if c.stage ≠ 1 || c.lost || !c.sent.isEmpty then s1 else s1.sendSlot id n c g
        | none => s1

/-- Sends the shares of an `ALL_REDUCE` that its members may take (R307). -/
def State.giveResults (s : State) (id n : Nat) (g : CollGroup) : State :=
  (othersOf n g.own).foldl (fun (s : State) j => match s.coll? id with
    | some c =>
      if c.stage = 1 && c.op = opAllReduce && c.computed && c.ready.contains j && !Map.has c.sent (j + 65536) then
        s.giveResult id c g j
      else s
    | none => s) s

/-- Goes on with a collective as far as it may: a suspended context sends nothing and combines nothing
(R300). -/
def State.collStep (s0 : State) (id : Nat) : State :=
  let s := s0.collPlace id
  match s.coll? id with
  | none => s
  | some c => match s.group? c.ctx c.group with
    | none => s
    | some g =>
      let n := g.members.length
      if c.stage ≠ 1 || (s.ctx c.ctx).state != .active then s
      else
        let s1 := if c.kind = 2 then s.giveFlags id (clog2 n)
          else if c.op = opPermute then (s.givePlan id).collPlace id
          else if c.op = opFwwPut then s.giveSlot id
          else (c.gives n g.own).foldl (fun (s : State) j => match s.coll? id with
            | some c => if c.stage = 1 && c.ready.contains j && !Map.has c.sent j then s.giveTile id c g j else s
            | none => s) s
        let s2 := s1.collAcks id
        match s2.coll? id with
        | none => s2
        | some c =>
          let contrib := (c.needs n g.own).all fun j =>
            (c.share n c.aDesc g.own).packedBytes ≤ (Map.vals (Map.getD c.got j [])).sum
          let part := c.share n c.aDesc g.own
          let (s3, ready) := if c.reduces && !c.computed && contrib && c.usesD then s2.sourcesReady part.ranges
            else (s2, true)
          let s4 := if c.stage = 1 && c.reduces && !c.computed && contrib && c.usesD && ready
              && s3.writable (c.ownPart n g.own).ranges then
              s3.collCombine id c g else s3
          let s5 := s4.giveResults id n g
          match s5.coll? id with
          | none => s5
          | some c =>
            if c.stage ≠ 1 then s5
            else
              let idle := (s5.awaited c g).isEmpty
              let s6 := if idle && !c.waitCounted then
                  (s5.modColl id fun c => { c with waitCounted := true }).count cCollWaitNs 0 (s5.now - c.startTime)
                else s5
              let s7 := (s6.awaited c g ++ s6.unacked c).foldl (fun (s : State) j =>
                if Map.has c.probed j then s else s.probe id j) s6
              let given := if c.op = opPermute then
                  (chunksWhere (s7.planOf c) fun x => x.srcLogical == g.own).all fun x => Map.has c.sent x.1
                else (c.gives n g.own).all fun j => Map.has c.sent j
                  && (c.op ≠ opAllReduce || Map.has c.sent (j + 65536))
              let whole := c.op ≠ opPermute || (chunksWhere (s7.planOf c) fun x => x.dstLogical == g.own).all fun x =>
                x.2.length ≤ (Map.vals (Map.getD c.got x.1 [])).sum
              let fww := c.op ≠ opFwwPut || c.lost || !c.sent.isEmpty
              if idle && given && whole && fww && (s7.unacked c).isEmpty && (!c.reduces || !c.usesD || c.computed)
                  && (c.kind ≠ 2 || clog2 n ≤ c.round) then
                (s7.count cPermuteChunks 0 (if c.op = opPermute then
                  (chunksWhere (s7.planOf c) fun x => x.dstLogical == g.own).length else 0)).collDone id { c with won := c.op = opFwwPut && !c.lost } g
              else s7

/-! ### Starting (R299 to R302) -/

/-- The part of A that a member copies into its own D (R293), and where it lands. -/
def Coll.ownSource (c : Coll) (n me : Nat) : Desc := if c.op = opAllToAll then c.aDesc.block? n me else c.aDesc
def Coll.ownDest (c : Coll) (n me : Nat) : Desc := if c.op = opBroadcast then c.dDesc else c.dDesc.block? n me

/-- Whether a member's own source of a copying collective holds a lost line (R485). -/
def State.sourceHurt (s : State) (c : Coll) (n me : Nat) : Bool :=
  c.copies && c.usesA && (c.ownSource n me).ranges.any fun r => !(s.lostIn r.1 r.2).isEmpty

/-- A member copies its own part of D (R293). Lines it writes from a lost line become `LOST`, and a lost line of its own
source ends the collective here, before anything is sent (R485, notes/assumptions/26.md). -/
def State.ownCopy (s : State) (id : Nat) (c : Coll) (g : CollGroup) : State :=
  let n := g.members.length
  let src := c.ownSource n g.own
  let dst := c.ownDest n g.own
  if !c.copies || !c.usesA then s
  else
    let s1 := if c.op = opBroadcast && src.base == dst.base then s
      else (((s.landCopy (copyPieces src dst (s.byteFrom 0) (s.lostFrom 0)) true).bindTiles src.ranges dst.ranges).modColl id
        fun c => { c with wrote := true })
    if s.sourceHurt c n g.own then
      (src.ranges.foldl (fun (s : State) r => s.countLost r.1 r.2) s1).collFail id .weightLost 0
    else s1

/-- Whether a collective of an instruction may start: its tag has a unit (R157), and its lines are readable
and writable (R243). -/
def State.collReady (s : State) (c : Coll) : Bool :=
  (match c.unit with
    | .op t o => match s.op? t o with
      | some p => s.tagsBound t p
      | none => false
    | _ => true) && (s.ctx c.ctx).state == .active
    && (!c.copies || !c.usesA || s.writable c.aDesc.ranges) && (!c.usesD || s.writable c.dDesc.ranges)

/-- A collective starts (R302, R307): on a `BROKEN` group it ends at once; otherwise it announces itself to
the members it receives from, and probes them. -/
def State.collStart (s : State) (id : Nat) : State :=
  match s.coll? id with
  | none => s
  | some c => match s.group? c.ctx c.group with
    | none => s
    | some g =>
      if c.stage ≠ 0 || !s.collReady c then s
      else match g.broken with
        | some fl => (s.modColl id fun c => { c with stage := 1, startTime := s.now }).collLost id fl
        | none =>
          let n := g.members.length
          let s1 := s.modColl id fun c => { c with stage := 1, startTime := s.now }
          let c := { c with stage := 1, startTime := s.now }
          let hello := if c.kind = 2 || c.op = opFwwPut then []
            else if c.op = opPermute then
              (((chunksWhere (s.planOf c) fun x => x.dstLogical == g.own).map fun x => x.2.srcLogical).filter
                (· != g.own)).eraseDups
            else if c.op = opBarrier then othersOf n g.own else c.needs n g.own
          let s2 := hello.foldl (fun s j => s.collSend c g j (if c.op = opBarrier then subArrive else subReady)) s1
          let s3 := if c.kind = 2 && 1 < n then
              s2.collSend c g ((g.own + 1) % n) subFlag (BitVec.ofNat 64 (b2n c.clean)) else s2
          let s4 := if c.copies && c.usesA then c.aDesc.ranges.foldl (fun s r => s.checkRead r.1 r.2) s3 else s3
          (s4.ownCopy id c g).takeEarly id

/-- Every collective that has not ended goes on: after a line is repaired, a tag is bound, a context
resumes, or a packet arrives. -/
def State.collPump (s : State) : State :=
  (s.coll.active.filter fun e => e.2.stage ≤ 1).foldl (fun s e =>
    if e.2.stage = 0 then (s.collStart e.1).collStep e.1 else s.collStep e.1) s

/-- Puts a collective in the engine. -/
def State.collAdd (s : State) (c : Coll) : Nat × State :=
  (s.coll.nextColl, s.modCe fun e =>
    { e with active := Map.put e.active e.nextColl { c with stage := 0 }, nextColl := e.nextColl + 1 })

end Sys2Proof.Machine
end

