-- ==== Sys2Proof/Machine/CollIssue.lean ====
section
/-! DEFINITION. `COLL` (R138, R291 to R294, R311, R313), the reductions that the Stair launches (R192,
R301), and the commit point of a step (R199, R200). -/

namespace Sys2Proof.Machine

/-! ### The operation block (R292) -/

/-- What a `COLL` reads of its operation block (R292). -/
structure CollBlock where
  op : Nat
  redop : Nat
  group : Nat
  nodeFormat : Nat
  statArray : Nat
  statTag : Nat
  root : Nat
  plan : Nat
  scratchBase : Nat
  scratchLength : Nat
  slot : Word
  doneSem : Word
  reserved : Bool
  deriving DecidableEq, Repr

/-- Reads an operation block from its 128 bytes. -/
def CollBlock.read (b : Bytes) : CollBlock :=
  { op := field b 0 1, redop := field b 1 1, group := field b 2 2, nodeFormat := field b 4 1
    statArray := field b 5 1, statTag := field b 6 1, root := field b 8 2, plan := field b 0x0A 2
    scratchBase := field b 0x10 8, scratchLength := field b 0x18 8
    slot := BitVec.ofNat 64 (field b 0x20 8), doneSem := BitVec.ofNat 64 (field b 0x28 8)
    reserved := field b 7 1 ≠ 0 || field b 0x0C 4 ≠ 0 || field b 0x30 16 ≠ 0 }

/-- Whether a member's tiles are read at it: A and D (R293). -/
def usesOf (op root me : Nat) : Bool × Bool :=
  if op = opReduce then (true, me = root)
  else if op = opBroadcast then (me = root, true)
  else if op = opFwwPut then (true, false)
  else if op = opPermute || op = opBarrier then (false, false)
  else (true, true)

/-- Whether an operation reduces (R294). -/
def opReduces (op : Nat) : Bool := op = opAllReduce || op = opReduceScatter || op = opReduce

/-- A and D formats that a `SUM` in a node format takes (R294). -/
def sumSource (node f : Nat) : Bool :=
  if node = 0x0E then f = 0x0C || f = 0x0E
  else f = 0x02 || f = 0x03 || f = 0x04 || f = 0x05 || f = 0x06 || (node = 0x01 && f = 0x01)
def sumDest (node f : Nat) : Bool :=
  if node = 0x0E then f = 0x0C || f = 0x0E else 0x01 ≤ f && f ≤ 0x0D

/-- The rules of R292 for a block's own fields; n is the group's members. The block is a memory structure, operand 6 (R151). -/
def CollBlock.check (b : CollBlock) (op n : Nat) : Option Trap :=
  let bad := some (trOperand 6 11)
  let rooted := op = opReduce || op = opBroadcast
  let sum := opReduces op && b.redop = 0
  if b.reserved then some (trOperand 6 6)
  else if (if opReduces op then 2 < b.redop else b.redop ≠ 0) then bad
  else if (if sum then b.nodeFormat ≠ 1 && b.nodeFormat ≠ 2 && b.nodeFormat ≠ 0x0E else b.nodeFormat ≠ 0) then bad
  else if (if rooted then n ≤ b.root else b.root ≠ 0) then bad
  else if op ≠ opPermute && b.plan ≠ 0 then bad
  else if op ≠ opFwwPut && b.slot ≠ 0 then bad
  else if b.doneSem.toNat % 16 ≠ 0 || (op = opFwwPut && b.slot.toNat % 64 ≠ 0) then some (trOperand 6 5)
  else if b.scratchLength ≠ 0 && b.scratchBase % 65536 ≠ 0 then some (trOperand 6 5)
  else none

/-- What is wrong with a format that a `SUM` does not take (R151, R294): no node format takes it, or this one does not. -/
def sumReason (takes : Nat → Nat → Bool) (f : Nat) : Nat := if [0x01, 0x02, 0x0E].any fun n => takes n f then 2 else 1

/-- The checks of a collective's formats (R294). A reduction's tiles may have their blocks in either direction (R65); a copy
of bits keeps it. -/
def collFormats (b : CollBlock) (op : Nat) (usesA usesD : Bool) (a d : Desc) : Option Trap :=
  if opReduces op && b.redop = 0 then
    if usesA && !sumSource b.nodeFormat a.format then some (trOperand 1 (sumReason sumSource a.format))
    else if usesD && !sumDest b.nodeFormat d.format then some (trOperand 0 (sumReason sumDest d.format))
    else none
  else if opReduces op && !mmaInput a.format then some (trOperand 1 1)
  else if usesA && usesD && a.format ≠ d.format then some (trOperand 0 2)
  else if usesA && usesD && !opReduces op && a.mxCols ≠ d.mxCols then some (trOperand 0 7)
  else none

/-- The checks of a collective's shapes (R293): n is the group's members. -/
def collShapes (op n : Nat) (usesA usesD : Bool) (a d : Desc) : Option Trap :=
  if op = opReduceScatter && a.rows % (16 * n) ≠ 0 then some (trOperand 1 4)
  else if op = opAllToAll && a.rows % n ≠ 0 then some (trOperand 1 4)
  else if !(usesA && usesD) then none
  else if a.cols ≠ d.cols then some (trOperand 0 4)
  else
    let rows := if op = opReduceScatter then a.rows / n else if op = opAllGather then n * a.rows else a.rows
    if d.rows ≠ rows then some (trOperand 0 4) else none

/-- Whether two descriptors describe the same tile: all but their tags (R293). -/
def Desc.sameTile (a d : Desc) : Bool :=
  { a with versionTag := 0, statTag := 0 } == { d with versionTag := 0, statTag := 0 }

/-- The checks of a `COLL` (R291 to R294, R311, R313). -/
def State.checkColl (s : State) (t : ThreadId) (x : Thread) (o : TileOp) (op : Nat) : Option Trap :=
  let at_ := locOf o.s1
  let b := CollBlock.read (s.bytesAt at_ 128)
  let a := Desc.parse o.a
  let d := Desc.parse o.d
  let word := o.word
  match firstTrap [
      if devOf o.s1 ≠ s.lodge.deviceId && devOf o.s1 ≠ 0 then some (trOperand 5 10) else none,
      if o.s1.toNat % 128 ≠ 0 then some (trOperand 5 5) else none,
      if !s.canRead x.ctx at_ 128 || !s.canWrite x.ctx at_ 128 then some (trAccess o.s1) else none,
      if bits o.imm 23 16 ≠ b.op || op ≠ b.op || bits o.imm 15 0 ≠ b.group then some (trOperand 5 11) else none] with
  | some r => some r
  | none => match s.group? x.ctx b.group with
    | none => some (trOperand 6 12)
    | some g =>
      let n := g.members.length
      let (usesA, usesD) := usesOf op b.root g.own
      let plan := Map.get? s.coll.plans (groupKey x.ctx b.plan)
      let chunks := (plan.map (·.chunks)).getD []
      let big := largestBreak chunks g.own
      firstTrap [
        b.check op n,
        s.checkConv x o (if usesD then 1 else 0),
        if (op = opPermute || op = opBarrier) && bits word 91 88 ≠ 0 then some (trOperand 1 6) else none,
        if (op = opPermute || op = opBarrier || op = opFwwPut) && bits word 95 92 ≠ 0 then some (trOperand 0 6)
          else none,
        if usesA then s.checkDesc t x a { num := 1, ok := legalFormat } else none,
        if usesD then s.checkDesc t x d { num := 0, dest := true, ok := legalFormat } else none,
        collFormats b op usesA usesD a d,
        collShapes op n usesA usesD a d,
        if usesA && usesD && a.overlaps d && !(op = opBroadcast && a.sameTile d) then some (trOperand 0 8) else none,
        if opReduces op && b.scratchLength < a.bytes then some (trOperand 6 11) else none,
        if op = opPermute && !((plan.map fun p => p.sealed && p.group = b.group).getD false) then
          some (trOperand 6 12) else none,
        if op = opPermute && 0 < big && b.scratchLength < big then some (trOperand 5 11) else none,
        if op = opFwwPut && !(g.members.any fun m => m.1 == devOf b.slot) then some (trOperand 6 10) else none,
        if b.scratchLength ≠ 0 && (deviceEnd < b.scratchBase + b.scratchLength
            || !s.canWrite x.ctx b.scratchBase b.scratchLength) then
          some (trAccess (globalAddr s.lodge.deviceId b.scratchBase)) else none,
        if usesA then s.checkRead? x a else none,
        if usesD then s.checkWrite? x d else none ]

/-- Issues a `COLL` of an operation: its block is read, its match sequence is taken (R298), and it starts. -/
def State.issueColl (s : State) (t : ThreadId) (op : Nat) (w : TileWord) : State :=
  let s1 := s.issueTile t 0x70 0x00 w { d := true, a := true, s1 := true, conv := true, imm := 0xFFFFFF } (.coll op)
    fun x o s => match s.checkColl t x o op with
      | some r => .error r
      | none =>
        let b := CollBlock.read (s.bytesAt (locOf o.s1) 128)
        let own := ((s.group? x.ctx b.group).map (·.own)).getD 0
        if (usesOf op b.root own).2 then
          let (cs, s1) := s.takeContributions t x.ctx [Desc.parse o.d]
          .ok ({ o with contribs := cs }, s1)
        else .ok (o, s)
  match s1.op? t s.nextOp with
  | none => s1
  | some o =>
    let ctx := (s1.thread t).ctx
    let b := CollBlock.read (s1.bytesAt (locOf o.s1) 128)
    match s1.group? ctx b.group with
    | none => s1
    | some g =>
      let (usesA, usesD) := usesOf op b.root g.own
      let c : Coll :=
        { ctx := ctx, group := b.group, epoch := g.epoch, kind := 0, matchKey := g.nextSeq, unit := .op t o.id
          op := op, redop := b.redop, nodeFormat := b.nodeFormat, root := b.root, plan := b.plan
          planEpoch := if op = opPermute then
            ((Map.get? s1.coll.plans (groupKey ctx b.plan)).map (·.epoch)).getD 0 else 0
          block := locOf o.s1, doneSem := b.doneSem, scratch := (b.scratchBase, b.scratchLength), slot := b.slot
          d := o.d, a := o.a, usesD := usesD, usesA := usesA }
      let s2 := (s1.modOp t o.id fun o => { o with phase := .running }).modCe fun e =>
        { e with groups := Map.modify e.groups (groupKey ctx b.group) fun g =>
            { g with nextSeq := (g.nextSeq + 1) % 2 ^ 32 } }
      let (id, s3) := (s2.count cCollsStarted 0).collAdd c
      (s3.collStart id).collStep id

/-- `COLL` `ALL_REDUCE` (R291). -/
def execAllReduce (t : ThreadId) (w : TileWord) (s : State) : Host.Outcome State Fault Refusal :=
  .next (s.issueColl t opAllReduce w)
/-- `COLL` `REDUCE_SCATTER` (R291). -/
def execReduceScatter (t : ThreadId) (w : TileWord) (s : State) : Host.Outcome State Fault Refusal :=
  .next (s.issueColl t opReduceScatter w)
/-- `COLL` `ALL_GATHER` (R291). -/
def execAllGather (t : ThreadId) (w : TileWord) (s : State) : Host.Outcome State Fault Refusal :=
  .next (s.issueColl t opAllGather w)
/-- `COLL` `REDUCE` (R291). -/
def execReduce (t : ThreadId) (w : TileWord) (s : State) : Host.Outcome State Fault Refusal :=
  .next (s.issueColl t opReduce w)
/-- `COLL` `BROADCAST` (R291). -/
def execBroadcast (t : ThreadId) (w : TileWord) (s : State) : Host.Outcome State Fault Refusal :=
  .next (s.issueColl t opBroadcast w)
/-- `COLL` `ALL_TO_ALL` (R291). -/
def execAllToAll (t : ThreadId) (w : TileWord) (s : State) : Host.Outcome State Fault Refusal :=
  .next (s.issueColl t opAllToAll w)
/-- `COLL` `PERMUTE` (R291, R313). -/
def execPermute (t : ThreadId) (w : TileWord) (s : State) : Host.Outcome State Fault Refusal :=
  .next (s.issueColl t opPermute w)
/-- `COLL` `FWW_PUT` (R291, R316). -/
def execFwwPut (t : ThreadId) (w : TileWord) (s : State) : Host.Outcome State Fault Refusal :=
  .next (s.issueColl t opFwwPut w)
/-- `COLL` `GROUP_BARRIER` (R291). -/
def execGroupBarrier (t : ThreadId) (w : TileWord) (s : State) : Host.Outcome State Fault Refusal :=
  .next (s.issueColl t opBarrier w)

/-! ### Bucket reductions (R192, R301) -/

/-- A bucket's reduction is over, or the bucket needs none: `DONE` or `FAILED`, and its `DONE_SEM` is
posted (R192). -/
def State.closeBucket (s : State) (c b : Nat) (fail : Option Code) (nf : BitVec 3) : State :=
  match Map.get? s.trains c, s.bucket? c b with
  | some tr, some k =>
    let st := if fail.isSome then BucketState.failed else .done
    let s1 := ((s.modBucket c b fun k => { k with failCode := fail, reductionNf := nf }).setBucket c b st).count
      cBucketsFailed 0 (b2n fail.isSome)
    let s2 := match tr.launch with
      | some l => s1.modLaunch l fun l => { l with nf := l.nf ||| nf, dirty := l.dirty || fail.isSome }
      | none => s1
    if k.doneSem = 0 then s2
    else s2.unitPost c 0 (globalAddr s.lodge.deviceId (locOf (BitVec.ofNat 64 k.doneSem))) 1
  | _, _ => s

/-- The tag slots that a bucket's result enters: an index of each segment, taken when the reduction starts,
where the slot is open (R301). -/
def State.bucketTags (s : State) (c : Nat) (k : Bucket) (bl : CollBlock) : List (Nat × Nat × Nat) × State :=
  if bl.op ≠ opAllReduce || bl.statArray = 0xFF then ([], s)
  else if !s.tagOpen bl.statArray c bl.statTag then ([], s.count cCollTagMissed 0)
  else k.segments.foldl (fun (r : List (Nat × Nat × Nat) × State) _ =>
    let (i, s1) := r.2.takeContribution bl.statArray c bl.statTag
    (r.1 ++ [(bl.statArray, bl.statTag, i)], s1)) ([], s)

/-- `BUCKET_FOLD_COMPLETE` (R192, R301): every root and record of a bucket is written; its reduction
starts, or it is `DONE`. A group that changed since the `LAUNCH` fails it at once. -/
def execBucketFoldComplete (ctx bucket : Nat) (s : State) : Host.Outcome State Fault Refusal :=
  .next (match Map.get? s.trains ctx, s.bucket? ctx bucket with
    | some tr, some k =>
      if k.state != .folding then s
      else if k.collBlock = 0 then s.closeBucket ctx bucket none 0
      else
        let bl := CollBlock.read (s.bytesAt k.collBlock 128)
        let s1 := (s.setBucket ctx bucket .reducing).count cCollsAuto 0
        match s1.group? ctx bl.group with
        | none => s1.closeBucket ctx bucket (some .badPacket) 0
        | some g =>
          if g.members.length ≠ k.groupSize then s1.closeBucket ctx bucket (some .badPacket) 0
          else
            let (tags, s2) := s1.bucketTags ctx k bl
            let (id, s3) := s2.collAdd
              { ctx := ctx, group := bl.group, epoch := g.epoch, kind := 1, matchKey := tr.step, bucket := bucket
                unit := .bucket ctx bucket, op := bl.op, nodeFormat := 0x02, block := k.collBlock
                doneSem := bl.doneSem, scratch := (bl.scratchBase, bl.scratchLength), usesD := true, usesA := true
                vec := some (k.resultBase, k.elementCount), counted := tags }
            (s3.collStart id).collStep id
    | _, _ => s)

/-- The reduction of a bucket that is `REDUCING`: the last that the engine took up for it. -/
def State.bucketColl (s : State) (c b : Nat) : Option Coll :=
  ((s.coll.active.filter fun e => e.2.unit == .bucket c b).getLast?).map (·.2)

/-- `BUCKET_REDUCTION_END` (R192): the reduction of a bucket has completed or ended with a condition. -/
def execBucketReductionEnd (ctx bucket : Nat) (s : State) : Host.Outcome State Fault Refusal :=
  .next (match s.bucket? ctx bucket, s.bucketColl ctx bucket with
    | some k, some c =>
      if k.state != .reducing || c.stage < 2 then s
      else s.closeBucket ctx bucket (if c.code == .done then none else some c.code) c.nf
    | _, _ => s)

/-! ### The commit point (R199, R200) -/

/-- Whether the records of a training table are clean (R199). -/
def Train.clean (t : Train) : Bool :=
  t.buckets.all fun b => b.state != .failed && b.reductionNf == 0 && b.segments.all fun g => g.status.flags == 0

/-- Whether a launch is clean so far (R199). -/
def State.launchClean (s : State) (id : Nat) : Bool :=
  match s.launch? id with
  | none => true
  | some l => !l.dirty && l.traps = 0 && (s.launchThreads id).all fun t => (s.thread t).nfSticky == 0

/-- The launches of a step of a context that run on the module. -/
def State.stepLaunches (s : State) (c step : Nat) : List Nat :=
  (s.launches.filter fun e => e.2.ctx == c && e.2.admitted && e.2.step.toNat == step).map (·.1)

/-- The clean flag of a step (R199). -/
def State.stepClean (s : State) (g : Guard) : Bool :=
  g.clean && (s.stepLaunches g.ctx g.step).all s.launchClean
    && ((Map.get? s.trains g.ctx).map fun t => t.step ≠ g.step || t.clean).getD true

/-- Whether a thread has entered a slot of kind `UPDATE` (R200): slots are entered in order, so it is its
current slot or an earlier one. -/
def State.inUpdate (s : State) (l : Launch) (x : Thread) : Bool :=
  x.state == .exited || x.state == .trapped
    || (l.timetable ≠ 0 && x.slotIndex ≠ 0xFFFFFFFF
      && (List.range (x.slotIndex.toNat + 1)).any fun k => (s.slotEntry l k).kind == 3)

/-- Whether a step has reached its commit point (R200). -/
def State.commitPoint (s : State) (c step : Nat) : Bool :=
  ((s.stepLaunches c step).all fun id => match s.launch? id with
    | none => true
    | some l => (s.launchThreads id).all fun t => s.inUpdate l (s.thread t))
  && ((Map.get? s.trains c).map fun t => t.step ≠ step || t.buckets.all fun b =>
      b.state == .empty || b.state == .done || b.state == .failed).getD true

/-- A held `STEP_COMMIT` whose commit point is reached sends the module's flag (R200, R304): an `ABANDONED`
step's is not clean, and a group of one member combines locally. -/
def State.commitStart (s : State) (c step : Nat) : State :=
  match s.guard? c step with
  | none => s
  | some g => match g.held with
    | [] => s
    | (h, gid) :: rest => match s.group? c gid with
      | none => (s.modGuard c step fun g => { g with held := rest }).finishCmd h (Reply.of .badPacket)
      | some q =>
        let clean := g.state == .opened && s.stepClean g
        let s1 := if g.state == .opened then s.modGuard c step fun g => { g with state := .committing } else s
        if q.members.length = 1 && q.broken.isNone then
          s1.guardOutcome c step (if clean then .done else .stepNotClean) 0xFFFF 0xFFFF
        else
          let (id, s2) := s1.collAdd
            { ctx := c, group := gid, epoch := q.epoch, kind := 2, matchKey := step, unit := .commit c step, op := 0
              clean := clean }
          (s2.collStart id).collStep id

/-- Whether the flag exchange of a step is under way. -/
def State.committing (s : State) (c step : Nat) : Bool :=
  s.coll.active.any fun e => e.2.unit == .commit c step && e.2.stage ≤ 1

/-- At the commit point of a step the exchange starts (R200). -/
def State.commitPointReached (s : State) (c step : Nat) : State :=
  if s.commitPoint c step && !s.committing c step then s.commitStart c step else s

end Sys2Proof.Machine
end

