-- ==== Sys2Proof/Machine/Suspension.lean ====
section
/-! DEFINITION. Admission order (R357), the record of R356, and the suspension of a context: its request
(R359, R360), its save (R149, R211, R360, R361) and its restoration with the binding of tags to tag units (R157, R160,
R363). -/

namespace Sys2Proof.Machine

/-! ### Who waits (R357) -/

/-- What waits for admission: a suspended context, or a `LAUNCH` or `BATCH_SUBMIT`. -/
inductive WaitItem where
  | context (c : Nat)
  | launch (id : Nat)
  deriving DecidableEq, Repr

/-- Whether one key comes before another: entry by entry. -/
def keyLe : List Nat → List Nat → Bool
  | [], _ => true
  | _ :: _, [] => false
  | a :: as, b :: bs => a < b || (a == b && keyLe as bs)

/-- Puts an item in its place by its key. -/
def insertKey {α : Type} (x : List Nat × α) : List (List Nat × α) → List (List Nat × α)
  | [] => [x]
  | y :: ys => if keyLe x.1 y.1 then x :: y :: ys else y :: insertKey x ys

/-- Items in the order of their keys; equal keys keep their order. -/
def sortKeys {α : Type} (xs : List (List Nat × α)) : List α := (xs.foldr insertKey []).map (·.2)

/-- A class as a key: the highest first. -/
def classKey (cls : Nat) : Nat := 3 - cls

/-- The items that wait for admission, in its order (R357). -/
def State.waitItems (s : State) : List WaitItem :=
  let idle := fun (x : Ctx) => x.state == .suspended && !x.restoring
  let displaced := (s.ctxs.filter fun e => idle e.2 && e.2.cause == .displaced).map fun e =>
    ([0, classKey e.2.priority, e.2.displacedAt], WaitItem.context e.1)
  let resumed := (s.ctxs.filter fun e => idle e.2 && e.2.cause != .displaced && e.2.resumeCmd.isSome).map fun e =>
    ([1, classKey e.2.priority, e.2.resumeAt], WaitItem.context e.1)
  let queued := (s.launches.filter fun e => !e.2.admitted && !s.admitting.contains e.1).map fun e =>
    let ring := ((s.cmd? e.2.handle).map fun k => k.header.ring).getD 0
    ([2, classKey e.2.cls, e.2.takenAt, ring, e.1], WaitItem.launch e.1)
  sortKeys (displaced ++ resumed ++ queued)

/-- Whether an item is skipped: a command of a suspended context (R357). -/
def State.skipped (s : State) : WaitItem → Bool
  | .context _ => false
  | .launch id => match s.launch? id with
    | some l => (s.ctx l.ctx).state != .active
    | none => true

/-- The item whose turn it is (R357). -/
def State.nextItem (s : State) : Option WaitItem := s.waitItems.find? fun i => !s.skipped i

/-- The record of R356. -/
def State.admitRecord (s : State) (outcome reason byClass position last : Nat) : Bytes :=
  le 1 outcome ++ le 1 reason ++ le 1 byClass ++ zeros 1 ++ le 4 position ++ le 4 s.waitItems.length ++ zeros 4
    ++ le 8 last

/-- A refusal of R356 for a reason. Reason 4 names the resident model. -/
def State.refusal (s : State) (reason : Nat) : Reply :=
  { code := .refusedCapacity
    result := s.admitRecord 2 reason 0 0 (if reason = 4 then s.memory.modelId.toNat else 0) }

/-! ### Moving the threads of a context (notes/assumptions/28.md) -/

/-- The thread kept for a context: out of its place, or back in it. -/
def moveThread (c : Nat) (out : Bool) (t : ThreadId) : ThreadId :=
  if out then (if t.index < 64 then { t with index := t.index + 64 * c } else t)
  else (if t.index / 64 = c then { t with index := t.index % 64 } else t)

/-- The unit of a request, with its thread renamed. -/
def ReqUnit.rename (f : ThreadId → ThreadId) : ReqUnit → ReqUnit
  | .load t => .load (f t)
  | .store t pc w => .store (f t) pc w
  | .post t => .post (f t)
  | .tileRead t o => .tileRead (f t) o
  | .tileWrite t o => .tileWrite (f t) o
  | u => u

/-- Whether a request was made by a thread of a context. -/
def OutPacket.ofThreads (o : OutPacket) (c : Nat) : Bool := o.thread.isSome && o.packet.ctxId == c

/-- A packet's thread renamed, where it is the context's. -/
def OutPacket.rename (f : ThreadId → ThreadId) (c : Nat) (o : OutPacket) : OutPacket :=
  if o.ofThreads c then { o with thread := o.thread.map f } else o

/-- Renames the threads of a context everywhere. -/
def State.renameThreads (s : State) (c : Nat) (f : ThreadId → ThreadId) : State :=
  let own := fun (x : Thread) => x.ctx == c && x.state != .idle
  let moved := s.threads.filter fun e => own e.2
  let kept := s.threads.filter fun e => !own e.2
  { s with
    threads := moved.foldl (fun m e => Map.put m (threadKey (f (keyThread e.1))) e.2) kept
    launches := Map.mapVals (fun _ l => if l.ctx == c then
      { l with gateThread := l.gateThread.map f, lastPassed := l.lastPassed.map f } else l) s.launches
    tags := s.tags.map fun g => if g.ctx == c then { g with closer := g.closer.map fun k => (f k.1, k.2) } else g
    stashes := s.stashes.map fun e => if e.ctx == c then { e with owner := e.owner.map fun k => (f k.1, k.2) } else e
    fabric := { s.fabric with
      requests := Map.mapVals (fun _ r => if r.out.ofThreads c then
        { r with out := r.out.rename f c, unit := r.unit.rename f } else r) s.fabric.requests
      ports := s.fabric.ports.map fun p => { p with queue := p.queue.map (OutPacket.rename f c) }
      unsent := s.fabric.unsent.map (OutPacket.rename f c) }
    coll := { s.coll with
      active := Map.mapVals (fun _ k => if k.ctx == c then
        { k with unit := match k.unit with
          | .op t o => .op (f t) o
          | u => u } else k) s.coll.active } }

/-! ### The request to suspend (R359, R360) -/

/-- The admitted launches of a context. -/
def State.ctxLaunches (s : State) (c : Nat) : List Nat :=
  (s.launches.filter fun e => e.2.ctx == c && e.2.admitted).map (·.1)

/-- Whether a thread waits for the answers to a `SEM_POST` that has been sent, which is not abandoned. -/
def Thread.posting (x : Thread) : Bool := x.state == .waiting && match x.wait with
  | some (.semPost _ _ _ _ _ sent _ _) => sent
  | _ => false

/-- A thread is taken for suspension: a waiting instruction is abandoned and runs again from its start
(R112, R149). -/
def Thread.suspend (x : Thread) : Thread :=
  if x.state == .running || (x.state == .waiting && !x.posting) then { x with state := .suspended, wait := none }
  else x

/-- The waits of a context's threads and passes end: their cycles count (R6, R27, R156). -/
def State.endWaits (s : State) (c : Nat) : State :=
  let misses := (List.range s.variant.arrays).filter fun a => (s.nextPasses a).head?.any fun p => (s.thread p.1).ctx == c
  (s.ctxThreads c).foldl (fun s t => if (s.thread t).state == .waiting && !(s.thread t).posting then s.countWait t else s)
    (misses.foldl State.endMiss s)

/-- A context is suspended: the host asked for it (reason 2), or a command of a class displaces it (reason
1) (R347, R356, R359, R360, R362). -/
def State.suspendCtx (s : State) (c : Nat) (cause : SuspendCause) (byClass : Nat) : State :=
  let displaced := cause == .displaced
  let s1 := (s.endWaits c).modCtx c fun x =>
    { x with state := .suspending, cause := cause, preemptCount := satTo 0xFFFFFFFF (x.preemptCount + 1)
             lastPreempt := s.now, suspendedAt := s.now, displacedAt := s.now, restoring := false }
  let rec_ := s1.admitRecord 3 (if displaced then 1 else 2) (if displaced then byClass else 0) 0 s.now
  let s2 := (s1.ctxLaunches c).foldl (fun s id => match s.launch? id with
    | none => s
    | some l => s.interim l.handle .preempted rec_) s1
  let s3 := s2.failWaiters c
  let s4 := (s3.ctxThreads c).foldl (fun s t => (s.modThread t Thread.suspend).withdrawArrivals t c) s3
  { s4 with launches := Map.mapVals (fun _ l => if l.ctx == c then
      { l with suspendedDuring := true, gate := if l.gate = .held then .none else l.gate } else l) s4.launches }

/-! ### The save (R360, R361) -/

/-- Sub-operations by which the memory of a suspended context and its engine still answer (R300, R361). -/
def answers (o : OutPacket) : Bool :=
  let k := o.packet.operation
  o.type == tColl && (k == subProbeRsp || k == subClaimRsp || k == subFwwAck)

/-- Whether a packet is sent by a context, and is not an answer of the module to another. -/
def OutPacket.sentBy (o : OutPacket) (c : Nat) : Bool :=
  o.packet.ctxId == c && !answers o
    && (o.type == tReadReq || o.type == tWriteReq || o.type == tAtomicReq || o.type == tSemPost || o.type == tColl)

/-- Whether a packet carries a request that still has its tag. -/
def State.isRequest (s : State) (o : OutPacket) : Bool :=
  (Map.get? s.fabric.requests o.packet.tag).any fun r => r.out.type == o.type
    && r.out.packet.dstDevice == o.packet.dstDevice && (o.type != tColl || r.out.packet.operation == o.packet.operation)

/-- Withdraws the packets of a context that have not started on a link (R361): requests wait again, those of
abandoned loads and atomics and of landing fills are given up (R28), and the others are kept in the save area in their
order. -/
def State.withdrawPackets (s : State) (c : Nat) : State :=
  let mine := fun (o : OutPacket) => o.sentBy c
    && !(Map.get? s.fabric.requests o.packet.tag).any fun r => s.isRequest o && r.unit.streams
  let all := (s.fabric.ports.map fun p => p.queue.filter mine).flatten ++ s.fabric.unsent.filter mine
  let tags := (all.filter s.isRequest).map fun o => o.packet.tag
  let kept := all.filter fun o => !s.isRequest o
  let gone := fun (k : Nat) (r : Request) => (tags.contains k || (r.port.isNone && r.out.sentBy c)) && match r.unit with
    | .load _ => true
    | .tileRead t id => (s.op? t id).any fun o => o.kind == .mma
    | _ => false
  (s.modFabric fun f =>
    { f with
      ports := f.ports.map fun p => { p with queue := p.queue.filter fun o => !mine o }
      unsent := f.unsent.filter fun o => !mine o
      requests := Map.mapVals (fun k r => if tags.contains k then { r with port := none, timer := none } else r)
        (Map.keep (fun k r => !gone k r) f.requests) }).modCtx c fun x => { x with withdrawn := x.withdrawn ++ kept }

/-- Whether every thread and unit of a context is at its pre-emption point (R149, R360): its passes have
drained, the pair of each `MMAB` is at its common boundary (R49), and no thread waits for the answer to a post it has
sent. -/
def State.atRest (s : State) (c : Nat) : Bool :=
  (s.arrays.all fun x => x.passes.all fun q => q.ctx != c)
    && (s.ctxThreads c).all fun t => !(s.thread t).posting && (s.thread t).ops.all fun o =>
      !o.isPair || o.phase == .finished || o.cond.isSome || o.late.isSome || o.atBoundary

/-- An instruction of a context that is being suspended or reset goes on to a pre-emption point (R149, R211). -/
def State.advanceOp (s : State) (t : ThreadId) (id : Nat) : State :=
  match s.op? t id with
  | none => s
  | some o =>
    if o.cond.isSome || o.late.isSome then s
    else match o.kind with
      | .tld | .tst | .tcp => if s.writesAway o then s else s.advanceCopy t o
      | .vop _ | .act _ | .cvt => s.advanceElem t o
      | .stash => s.advanceStash t o
      | .unstash => s.advanceUnstash t o
      | .bktAdd => s.advanceBkt t o
      | .update => s.advanceUpdate t o
      | .mma | .mmab | .stagOpen | .stagClose | .recomp | .verRead | .coll _ => s

/-- The instructions of a context go on to a pre-emption point, those issued first before the others. -/
def State.advanceAll (s : State) (c : Nat) : State :=
  let ops := (s.ctxThreads c).flatMap fun t => (s.thread t).ops.map fun o => ([o.id], (t, o.id))
  (sortKeys ops).foldl (fun s k => s.advanceOp k.1 k.2) s

/-- A matrix instruction that is saved loads its next front under epoch 0 on each array it has used (R54). -/
def TileOp.saved (o : TileOp) : TileOp :=
  { o with fold := { o.fold with resumed := o.fold.resumed || o.fold.started ≠ 0
                                 auxResumed := o.fold.auxResumed || o.fold.auxStarted ≠ 0 } }

/-- The arrays keep nothing of a context (R54): its landing halves, its place and its front are gone. -/
def State.clearArrays (s : State) (c : Nat) : State :=
  let mine := fun (t : ThreadId) => (s.thread t).ctx == c
  { s with arrays := s.arrays.map fun x =>
      let half := fun (h : LandingHalf) => if h.owner.any fun o => mine o.1 then ({} : LandingHalf) else h
      let used := x.fronted.any (fun o => mine o.1) || x.holder.any fun o => mine o.1
      { x with halfA := half x.halfA, halfB := half x.halfB
               holder := if x.holder.any fun o => mine o.1 then none else x.holder
               fronted := if used then none else x.fronted
               scales0 := if used then [] else x.scales0
               scales1 := if used then [] else x.scales1
               stationary0 := if used then [] else x.stationary0
               stationary1 := if used then [] else x.stationary1 } }

/-- Registers the readers of a context's versioned reads, or gives them up (R195, R212). -/
def State.countReaders (s : State) (c : Nat) (up : Bool) : State :=
  (s.ctxThreads c).foldl (fun s t => (s.thread t).ops.foldl (fun s o => match o.reader, o.bound with
    | true, some (r, k) => s.countReader c r k up
    | _, _ => s) s) s

/-- Every array's sequencer looks again (R116). -/
def State.sequenceAll (s : State) : State := (List.range s.variant.arrays).foldl State.sequence s

/-- `SUSPEND_SAVE_COMPLETE` (R360): the context is `SUSPENDED`. -/
def execSuspendSaveComplete (ctx : Nat) (s : State) : Host.Outcome State Fault Refusal :=
  .next (if (s.ctx ctx).state != .suspending || !s.atRest ctx then s
    else
      let s0 := s.advanceAll ctx
      let s1 := (({ s0 with threads := Map.mapVals (fun _ (x : Thread) =>
        if x.ctx == ctx then { x with ops := x.ops.map TileOp.saved } else x) s0.threads }).countReaders ctx false).clearArrays
          ctx
      let s2 := s1.withdrawPackets ctx
      let s3 := { s2 with tags := s2.tags.map fun (g : Tag) => if g.ctx == ctx then
        { g with state := .saved, bound := false } else g }
      let s4 := (s3.modCtx ctx fun x => { x with state := .suspended }).renameThreads ctx (moveThread ctx true)
      (s4.finishWhere (fun k => k.work == .suspend ctx) (Reply.of .done)).sequenceAll)

/-! ### Re-admission and restoration (R357, R363) -/

/-- The threads of an array that are not `IDLE`. -/
def State.busyThreads (s : State) (a : Nat) : List Nat :=
  (s.threads.filter fun e => e.1 % 64 == a && e.1 / 64 < 64 && e.2.state != .idle).map fun e => e.1 / 64

/-- Threads of an array that launches being admitted have taken. -/
def State.reserved (s : State) (a : Nat) : Nat :=
  (s.admitting.map fun id => match s.launch? id with
    | some l => if l.arrays.contains a then l.threadsPerArray else 0
    | none => 0).sum

/-- Free threads of an array (R357). -/
def State.freeThreads (s : State) (a : Nat) : Nat := 64 - (s.busyThreads a).length - s.reserved a

/-- The pages of a context that are away in its spill buffer. -/
def State.pagesAway (s : State) (c : Nat) : List Nat :=
  (s.memory.pages.filter fun e => e.2.owner == .ctx c && e.2.isAway).map (·.1)

/-- Whether the places of a suspended context's threads are free (R357). -/
def State.placesFree (s : State) (c : Nat) : Bool :=
  let ts := (s.ctxThreads c).map (moveThread c false)
  ts.all (fun t => !(s.busyThreads t.array).contains t.index)
    && (List.range 64).all fun a => (ts.filter fun t => t.array == a).length ≤ s.freeThreads a

/-- A displaced or resumed context whose turn it is takes its threads' places, and the return of its spilled pages
begins (R230, R357); where it is not, or they cannot, nothing happens. -/
def State.readmit (s : State) (c : Nat) : State :=
  if s.nextItem ≠ some (.context c) || !s.placesFree c then s
  else match s.beginReturns (s.ctx c).priority (s.pagesAway c) with
    | none => s
    | some s1 => (s1.modCtx c fun x => { x with restoring := true }).renameThreads c (moveThread c false)

/-- `CONTEXT_READMISSION` (R357). -/
def execContextReadmission (ctx : Nat) (s : State) : Host.Outcome State Fault Refusal := .next (s.readmit ctx)

/-- Under `STOP`, a thread that was suspended while its launch took a trap stops as it resumes (R153). -/
def State.stopResumed (s : State) (t : ThreadId) : State :=
  let x := s.thread t
  match s.launch? x.launch with
  | none => s
  | some l => match l.firstTrap with
    | none => s
    | some f => if l.policyContinue || x.state != .running then s
      else s.trapOne t x.pc x.word { kind := 8, code := f.2.2.2.code }

/-- A thread takes the trap that was found while it was suspended (R112). -/
def State.takeDue (s : State) (t : ThreadId) : State :=
  let x := s.thread t
  match (if x.state == .running then x.due else none) with
  | none => s
  | some (pc, word, r) => (s.modThread t fun x => { x with due := none }).trap t pc word r

/-- The threads of an active context that its restoration lets go on: those on arrays where each of its saved tags has a
unit (R160). They run, or take what they are due (R112, R153). -/
def State.resumeThreads (s : State) (c : Nat) : State :=
  let held := fun (a : Nat) => s.tags.any fun g => g.ctx == c && g.array == a && g.state == .saved
  let ts := (s.ctxThreads c).filter fun t => (s.thread t).state == .suspended && !held t.array
  let s1 := ts.foldl (fun s t => s.modThread t fun x => { x with state := .running }) s
  ts.foldl (fun s t => (s.takeDue t).stopResumed t) s1

/-- A tag is bound to a unit again; one whose `STAG_CLOSE` was abandoned closes once the context runs (R160). -/
def Tag.reopen (g : Tag) (now : Nat) : Tag :=
  match g.closer with
  | some _ => { g with state := .closing, closeTime := if g.issued = 0 then now else g.closeTime }
  | none => { g with state := .opened }

/-- `CONTEXT_RESTORE_COMPLETE` (R347, R363): its pages are back, so the context is `ACTIVE`; its threads go on, those of an
array where a saved tag has no unit excepted (R160), and its withdrawn packets are sent. -/
def execContextRestoreComplete (ctx : Nat) (s : State) : Host.Outcome State Fault Refusal :=
  let x := s.ctx ctx
  .next (if !x.restoring || x.state != .suspended || !(s.pagesAway ctx).isEmpty then s
    else
      let s1 := s.modCtx ctx fun x =>
        { x with state := .active, cause := .none, restoring := false, withdrawn := [], resumeCmd := none }
      let s2 := { s1 with
        launches := Map.mapVals (fun _ (l : Launch) => if l.ctx == ctx && l.admitted then
          { l with suspendedNs := l.suspendedNs + (s.now - x.suspendedAt) } else l) s1.launches
        tags := s1.tags.map fun (g : Tag) => if g.ctx == ctx && g.bound then g.reopen s.now else g }
      let s3 := (s2.countReaders ctx true).resumeThreads ctx
      let s5 := x.withdrawn.foldl State.emit s3
      let s6 := (s5.pump.collPump).sequenceAll
      s6.finishWhere (fun k => k.work == .resume ctx) (Reply.of .done))

/-- `TAG_UNIT_BIND`: a tag that has no unit takes a free one (R157), and what waited for it goes on. A tag of a context that
resumes is `OPEN` again (R159, R160). `cycles` is the time it waited. -/
def execTagUnitBind (array ctx slot cycles : Nat) (s : State) : Host.Outcome State Fault Refusal :=
  let x := s.ctx ctx
  .next (match s.tag? array ctx slot with
    | none => s
    | some g =>
      if g.bound || 16 ≤ s.unitsBound array then s
      else if g.state == .saved && !(x.state == .active || (x.restoring && x.state == .suspended)) then s
      else
        let s1 := (s.modTag array ctx slot fun g =>
          let y := { g with bound := true }
          if g.state != .saved then y else if x.state == .active then y.reopen s.now else { y with state := .opened }).count
            cTagUnitWait array cycles
        let s2 := if x.state == .active then s1.resumeThreads ctx else s1
        (s2.sequence array).collPump)

end Sys2Proof.Machine
end

