-- ==== Sys2Proof/Machine/Launches.lean ====
section
/-! DEFINITION. Launches: the training table (R176 to R179, R187 to R189, R193, R301), admission (R357 to
R359), the start of a launch's threads (R109, R148), the completion of tile instructions (R136), and the end of a
launch (R155, R340, R365, R366). -/

namespace Sys2Proof.Machine

/-! ### The training table -/

/-- Whether no two ranges of a list meet. -/
def disjointRanges : List (Nat × Nat) → Bool
  | [] => true
  | x :: xs => xs.all (fun y => !rangesMeet x y) && disjointRanges xs

/-- Whether an address of a training table keeps R178: a multiple of 64, in the context's mappings. -/
def State.trainAddr (s : State) (c a n : Nat) : Bool := a % 64 = 0 && s.ownsRange c a (max n 1)

/-- The rules that R301 adds for the operation block of a bucket: the group's members where it keeps them. -/
def State.bucketBlock (s : State) (c a elements : Nat) : Option Nat :=
  let b := CollBlock.read (s.bytesAt a 128)
  match s.group? c b.group with
  | none => none
  | some g =>
    let n := g.members.length
    if s.trainAddr c a 128 && s.canWrite c a 128 && (b.op = opAllReduce || b.op = opReduceScatter) && b.redop = 0
        && b.nodeFormat = 0x02 && (b.check b.op n).isNone && 4 * elements ≤ b.scratchLength
        && b.scratchBase + b.scratchLength ≤ deviceEnd && s.canWrite c b.scratchBase b.scratchLength then some n
    else none

/-- Reads a segment entry (R188); none where it breaks its layout. -/
def State.readSegment (s : State) (a mbFirst elements : Nat) : Option Segment :=
  let b := s.bytesAt a 32
  let g : Segment := { rows := 16 * (field b 0 2 + 1), cols := 16 * (field b 2 2 + 1), offset := field b 4 4
                       nextMb := mbFirst }
  if field b 0x0C 4 ≠ 0 || elements < g.offset + g.rows * g.cols then none else some g

/-- Reads a list by a reader that may refuse an entry. -/
def readAll {α : Type} (f : Nat → Option α) : List Nat → Option (List α)
  | [] => some []
  | i :: is => (f i).bind fun x => (readAll f is).map fun xs => x :: xs

/-- Reads a bucket entry as it stands at `LAUNCH` (R187 to R189); none where it breaks R178. -/
def State.readBucket (s : State) (c a : Nat) : Option Bucket :=
  let b := s.bytesAt a 64
  let segs := field b 2 2
  let ec := field b 4 4
  let mbCount := field b 0x0C 4
  let k : Bucket :=
    { elementCount := ec, mbFirst := field b 8 4, mbCount := mbCount, segTable := field b 0x10 8
      resultBase := field b 0x18 8, carryBase := field b 0x20 8, collBlock := field b 0x28 8, doneSem := field b 0x30 8 }
  let carry := ec * (2 + 4 * clog2 mbCount)
  if field b 1 1 ≠ 0 || field b 0x3C 4 ≠ 0 || segs < 1 || 4096 < segs || 33554432 < ec || mbCount < 1
      || 65536 < mbCount || !s.trainAddr c k.segTable (32 * segs) || !s.trainAddr c k.resultBase (4 * ec)
      || !s.trainAddr c k.carryBase carry || (k.doneSem ≠ 0 && !s.trainAddr c k.doneSem 16) then none
  else
    (readAll (fun i => s.readSegment (k.segTable + 32 * i) k.mbFirst ec) (List.range segs)).bind fun gs =>
      let spans := gs.map fun g => (g.offset, g.rows * g.cols)
      if !disjointRanges spans || (spans.map (·.2)).sum ≠ ec then none
      else if k.collBlock = 0 then some { k with segments := gs }
      else (s.bucketBlock c k.collBlock ec).map fun n => { k with segments := gs, groupSize := n }

/-- A slot state from its two bits: `WRITING` is taken as `EMPTY` (R193). -/
def slotOfBits : Nat → SlotState
  | 1 => .valid
  | _ => .empty

/-- Reads a region entry (R193); none where it breaks R178. -/
def State.readRegion (s : State) (c a : Nat) : Option Region :=
  let b := s.bytesAt a 64
  let st := field b 1 1
  let r : Region :=
    { entry := a, lag := field b 0 1, publish := field b 2 2, base0 := field b 8 8, base1 := field b 0x10 8
      length := field b 0x18 8, state0 := slotOfBits (st % 4), state1 := slotOfBits (st / 4 % 4)
      step0 := field b 0x20 8, step1 := field b 0x28 8 }
  if 1 < r.lag || 15 < st || st % 4 = 3 || st / 4 % 4 = 3 || r.publish = 0 || field b 4 4 ≠ 0 || field b 0x30 16 ≠ 0
      || !s.trainAddr c r.base0 r.length || !s.trainAddr c r.base1 r.length then none
  else some r

/-- Reads a training table (R177, R178): none where anything in it breaks its rules. -/
def State.readTrain (s : State) (c table : Nat) : Option Train :=
  let h := s.bytesAt table 64
  let nb := field h 4 4
  let nr := field h 0x10 4
  let bt := field h 8 8
  let rt := field h 0x18 8
  if !s.trainAddr c table 64 || field h 0 2 ≠ 1 || field h 2 2 ≠ 0 || field h 0x14 4 ≠ 0 || field h 0x20 32 ≠ 0
      || 65536 < nb || 4096 < nr || (nb = 0 && bt ≠ 0) || (nr = 0 && rt ≠ 0)
      || (nb ≠ 0 && !s.trainAddr c bt (64 * nb)) || (nr ≠ 0 && !s.trainAddr c rt (64 * nr)) then none
  else (readAll (fun i => s.readBucket c (bt + 64 * i)) (List.range nb)).bind fun bs =>
    (readAll (fun i => s.readRegion c (rt + 64 * i)) (List.range nr)).bind fun rs =>
      if !disjointRanges (rs.flatMap fun r => [(r.base0, r.length), (r.base1, r.length)]) then none
      else some { table := table, bucketTable := bt, regionTable := rt, buckets := bs, regions := rs }

/-- A launch's table is in force (R179, R189): its device-written fields are written, and what the table before
it says of a step's flag is kept in that step's guard (R199). -/
def State.loadTrain (s : State) (id : Nat) (l : Launch) (tr : Train) : State :=
  let c := l.ctx
  let s1 := match Map.get? s.trains c with
    | none => s
    | some old => s.modGuard c old.step fun g => { g with clean := g.clean && old.clean }
  let s2 := { s1 with trains := Map.put s1.trains c { tr with launch := some id, step := l.step.toNat } }
  let s3 := (tr.buckets.zipIdx).foldl (fun s k =>
    ((List.range k.1.segments.length).foldl (fun s i => s.store (k.1.segTable + 32 * i + 8) (le 4 k.1.mbFirst)) s).writeBucket
      c k.2) s2
  (List.range tr.regions.length).foldl (fun s g => s.writeRegion c g) s3

/-! ### Which threads (R357, R358) -/

/-- Whether a launch of a context that names a training table runs, or is about to (R178). -/
def State.tableBusy (s : State) (c id : Nat) : Bool :=
  s.launches.any fun e => e.1 ≠ id && e.2.ctx == c && e.2.trainTable ≠ 0 && (e.2.admitted || s.admitting.contains e.1)

/-- The arrays of a launch, given the free threads of each array: its mask's, or those that a mask of 0 takes;
none where they have too few threads (R357). -/
def State.arraysFor (s : State) (l : Launch) (free : Nat → Nat) : Option (List Nat) :=
  let as :=
    if l.mask ≠ 0 then (List.range 64).filter fun a => bitOf l.mask.toNat a
    else
      let best := (sortKeys (s.arraysInService.map fun a => ([64 - free a, a], a))).take (s.ctx l.ctx).maxArrays
      (List.range 64).filter fun a => best.contains a
  if as.isEmpty || as.any (fun a => free a < l.threadsPerArray) then none else some as

/-- Whether a launch's mask names an array that is fitted and not in service (R340). -/
def State.maskWaits (s : State) (l : Launch) : Bool :=
  l.mask ≠ 0 && (List.range 64).any fun a => bitOf l.mask.toNat a && !s.arraysInService.contains a

/-- The sublists of n members of a list, those with earlier members first. -/
def choices {α : Type} : Nat → List α → List (List α)
  | 0, _ => [[]]
  | _ + 1, [] => []
  | n + 1, x :: xs => (choices n xs).map (x :: ·) ++ choices (n + 1) xs

/-- The `ACTIVE` contexts of a class below a launch's that hold threads, the lowest class first, then the most
recently admitted (R359). -/
def State.displaceable (s : State) (l : Launch) : List Nat :=
  let live := fun (c : Nat) => (s.ctxThreads c).any fun t => (s.thread t).state != .idle
  sortKeys ((s.ctxs.filter fun e => e.2.state == .active && e.2.priority < l.cls && live e.1).map fun e =>
    ([e.2.priority, s.now - e.2.admittedAt], e.1))

/-- The fewest contexts whose displacement frees enough threads for a launch, with its arrays (R359). -/
def State.displacement (s : State) (l : Launch) : Option (List Nat × List Nat) :=
  let cs := s.displaceable l
  let free := fun (ds : List Nat) (a : Nat) => s.freeThreads a
    + ((ds.flatMap s.ctxThreads).filter fun t => t.array == a).length
  ((List.range (cs.length + 1)).flatMap fun n => choices n cs).findSome? fun ds =>
    (s.arraysFor l (free ds)).map fun as => (ds, as)

/-! ### Start and end of a launch -/

/-- A launch that ends without having started answers, and leaves no trace. -/
def State.dropLaunch (s : State) (id : Nat) (r : Reply) : State :=
  match s.launch? id with
  | none => s
  | some l => ({ s with launches := Map.erase s.launches id
                        admitting := s.admitting.filter (· ≠ id) }).finishCmd l.handle r

/-- The lowest free thread indices of an array. -/
def State.lowestThreads (s : State) (a n : Nat) : List Nat :=
  ((List.range 64).filter fun i => !(s.busyThreads a).contains i).take n

/-- The threads of a launch start (R109, R148), its guard is made (R198), and its table comes into force; a table
that no longer keeps its rules ends it (R178). -/
def State.startLaunch (s : State) (id : Nat) : State :=
  match s.launch? id with
  | none => s
  | some l =>
    let c := l.ctx
    let step := l.step.toNat
    let table := if l.trainTable = 0 then some none else (s.readTrain c l.trainTable).map some
    match table with
    | none => s.dropLaunch id (Reply.of .badPacket)
    | some tr =>
      let ts := l.arrays.flatMap fun a => (s.lowestThreads a l.threadsPerArray).map fun i =>
        ({ array := a, index := i } : ThreadId)
      let s1 := (ts.zipIdx).foldl (fun s t => s.setThread t.1
        { state := .running, pc := l.entry, launch := id, ctx := c, rank := t.2 }) s
      let s2 := ({ s1 with admitting := s1.admitting.filter (· ≠ id) }).modLaunch id fun l =>
        { l with admitted := true, threads := ts.length, startTime := s.now, admittedAt := s.now }
      let s3 := s2.modCtx c fun x =>
        { x with admittedAt := s.now, pantryPeak := chargeOf (s2.stashesOf c), pantryDowngrades := 0
                 latestStep := some (max step (x.latestStep.getD 0)) }
      let s4 := if (s3.guard? c step).isSome then s3 else s3.makeGuard c step .opened
      match tr with
      | none => s4
      | some t => s4.loadTrain id l t

/-- A launch whose threads are free starts, once its context's spilled pages are back (R230, R357); none where
frames for them cannot be found. -/
def State.admitLaunch (s : State) (id : Nat) (l : Launch) (as : List Nat) : Option State :=
  let away := s.pagesAway l.ctx
  let s1 := s.modLaunch id fun l => { l with arrays := as }
  if away.isEmpty then some (s1.startLaunch id)
  else (s1.beginReturns l.cls away).map fun s2 => { s2 with admitting := s2.admitting ++ [id] }

/-- A launch that has been taken is settled at once (R358). One that is refused does not wait (R356). -/
def State.submit (s : State) (id : Nat) : State :=
  match s.launch? id with
  | none => s
  | some l =>
    let x := s.ctx l.ctx
    let named := ((List.range 64).filter fun a => bitOf l.mask.toNat a).length
    let turn := s.nextItem = some (.launch id)
    let now := if turn then (s.arraysFor l s.freeThreads).bind fun as => s.admitLaunch id l as else none
    let waiting := s.waitItems
    let push := if turn then (s.displacement l).bind fun d =>
        let s1 := s.modLaunch id fun l => { l with arrays := d.2 }
        (s1.beginReturns l.cls (s1.pagesAway l.ctx)).map fun s2 =>
          d.1.foldl (fun s c => s.suspendCtx c .displaced l.cls) { s2 with admitting := s2.admitting ++ [id] }
      else none
    let others : State := { s with launches := Map.erase s.launches id }
    if x.maxArrays < named || x.maxThreads < l.threadsPerArray then s.dropLaunch id (others.refusal 2)
    else match now with
      | some s1 => s1
      | none => match push with
        | some s1 => s1
        | none =>
          if waiting.length ≤ s.lodge.settings.queueLimit then
            s.interim l.handle .queued (s.admitRecord 1 0 0 (waiting.idxOf (.launch id)) 0)
          else s.dropLaunch id (others.refusal 1)

/-- Whether a launch that is being admitted may start: its threads are free and its pages are back. -/
def State.admitReady (s : State) (id : Nat) : Bool := match s.launch? id with
  | none => false
  | some l => (s.pagesAway l.ctx).isEmpty && (s.ctx l.ctx).state == .active
      && l.arrays.all fun a => (s.busyThreads a).length + s.reserved a ≤ 64

/-- `ADMISSION` (R357): a launch whose displaced contexts are saved and whose pages are back starts; otherwise the
one whose turn it is, where its threads are free. -/
def execAdmission (s : State) : Host.Outcome State Fault Refusal :=
  .next (match s.admitting.find? s.admitReady with
    | some id => s.startLaunch id
    | none => match s.nextItem with
      | some (.launch id) => match s.launch? id with
        | none => s
        | some l =>
          if s.maskWaits l || (l.trainTable ≠ 0 && s.tableBusy l.ctx id) then s.dropLaunch id (Reply.of .busyRetry)
          else match (s.arraysFor l s.freeThreads).bind fun as => s.admitLaunch id l as with
            | some s1 => s1
            | none => s
      | _ => s)

/-! ### The completion of tile instructions (R136) -/

/-- What is left to do when an instruction's unit is done with it. -/
def State.completeOp (s : State) (t : ThreadId) (o : TileOp) : State :=
  let matrix := o.kind == .mma || o.kind == .mmab
  let inFlight := s.arrays.any fun x => x.passes.any fun q => q.owner == t && q.op == o.id
  if o.phase == .finished then s.opEnd t o
  else if (o.cond.isSome || o.late.isSome) && (o.phase != .running || (matrix && !inFlight)) then
    ((s.dropContribs t o).opEnd t o).sequence t.array
  else match o.kind with
    | .tld | .tst | .tcp =>
      if s.writesAway o then
        if o.phase == .running then (if o.awaited.isEmpty then s.opEnd t o else s) else s.opGo t o
      else if o.awaited.isEmpty && !o.unbound then s.finishCopy t o else s
    | .vop _ | .act _ | .cvt => s.finishElem t o
    | .mma | .mmab =>
      let s1 := s.stopMatrix t o.id
      match s1.op? t o.id with
      | some q => if q.phase == .finished then s1.opEnd t q else s1
      | none => s1
    | .unstash => s.finishUnstash t o
    | .bktAdd => s.finishBkt t o
    | .verRead => s.finishVerRead t o
    | .update => s.finishUpdate t o
    | .stagOpen | .stagClose | .stash | .recomp | .coll _ => s

/-- A tile instruction whose data is there completes, unless its context is suspended (R136, R360). -/
def State.completeInstruction (s : State) (t : ThreadId) (id : Nat) : State :=
  match s.op? t id with
  | none => s
  | some o => if (s.ctx (s.thread t).ctx).state == .suspended then s else s.completeOp t o

/-! ### The end of a launch (R155) -/

/-- Whether every thread of a launch is `EXITED` or `TRAPPED` with its tile instructions complete (R155). -/
def State.launchOver (s : State) (id : Nat) : Bool :=
  (s.launchThreads id).all fun t =>
    let x := s.thread t
    (x.state == .exited || x.state == .trapped) && x.ops.isEmpty

/-- The first failed bucket of a launch (R192). -/
def State.failedBucket (s : State) (id : Nat) (l : Launch) : Option (Nat × Code) :=
  match Map.get? s.trains l.ctx with
  | none => none
  | some t => if t.launch ≠ some id then none
    else ((t.buckets.zipIdx).find? fun b => b.1.state == .failed).map fun b => (b.2, b.1.failCode.getD .badPacket)

/-- The member and device that a launch's `PEER_TIMEOUT` names (R335). -/
def State.launchPeer (s : State) (id : Nat) (l : Launch) : Nat × Nat :=
  match l.firstTrap with
  | some (_, a, i, tr) =>
    if tr.code ≠ .peerTimeout then (0xFFFF, 0xFFFF)
    else
      let c := (s.coll.active.filter fun e => match e.2.unit with
        | .op t _ => t.array == a && t.index % 64 == i && e.2.ctx == l.ctx && e.2.code == .peerTimeout
        | _ => false).getLast?
      ((c.map fun e => e.2.failLogical).getD 0xFFFF, if tr.kind = 6 then tr.detail else 0xFFFF)
  | none => match s.failedBucket id l with
    | some (b, .peerTimeout) => match s.bucketColl l.ctx b with
      | some c => (c.failLogical, (((s.group? l.ctx c.group).bind fun g => g.members[c.failLogical]?).map (·.1)).getD 0xFFFF)
      | none => (0xFFFF, 0xFFFF)
    | _ => (0xFFFF, 0xFFFF)

/-- The reply of a launch that has ended (R108, R155, R182, R192, R340). -/
def State.launchReply (s : State) (id : Nat) (l : Launch) : Reply :=
  let code := match l.firstTrap, s.failedBucket id l with
    | some (_, _, _, tr), _ => tr.code
    | none, some (_, c) => c
    | none, none => if l.nf ≠ 0 then .doneNonfinite else if l.downgrades ≠ 0 then .doneDowngraded else .done
  let first := (l.firstTrap.map fun f => (f.2.1, f.2.2.1)).getD (0xFFFF, 0xFF)
  let (fl, fd) := s.launchPeer id l
  { code := code, failLogical := fl, failDevice := fd
    result := le 4 l.traps ++ le 2 first.1 ++ le 1 first.2 ++ le 1 l.nf.toNat ++ le 4 l.downgrades ++ le 4 l.threads
      ++ le 8 l.startTime }

/-- The measured slowdown (R366). -/
def slowdown (elapsed lost : Nat) : Nat := min 0xFFFFFFFF (65536 * elapsed / max (elapsed - lost) 1)

/-- Writes the times of a launch that has ended into its context (R365, R366). The contended time is a free
value within what is left of the elapsed time (notes/assumptions/28.md). -/
def State.measure (s : State) (l : Launch) : State :=
  let elapsed := s.now - l.takenAt
  let queued := l.startTime - l.takenAt
  let (i, s1) := s.free 1
  let contended := (Config.freeValue i).toNat % (elapsed - queued - l.suspendedNs + 1)
  let lost := queued + l.suspendedNs + contended
  s1.modCtx l.ctx fun x =>
    { x with lastElapsed := elapsed, lastQueued := queued, lastSuspended := l.suspendedNs, lastContended := contended
             lastSlowdown := slowdown elapsed lost, totalElapsed := x.totalElapsed + elapsed
             totalLost := x.totalLost + lost }

/-- The Pantry entries of a launch are freed and counted (R185, R213). -/
def State.freeOrphans (s : State) (id : Nat) (c : Nat) : State :=
  ((s.stashesOf c).filter fun e => e.launch == id).foldl (fun s e => (s.freeStash c e.key).count cPantryOrphaned 0) s

/-- A launch that is over ends (R155), whatever the state of its context: the reply is written, and the threads are `IDLE`
(R112). -/
def State.completeLaunch (s : State) (launch : Nat) : State :=
  match s.launch? launch with
  | none => s
  | some l0 =>
    if !l0.admitted || !s.launchOver launch then s
    else
      let s1 := if s.slotOver launch then s.endSlot launch else s
      match s1.launch? launch with
      | none => s1
      | some l =>
        let reply := s1.launchReply launch l
        let clean := s1.launchClean launch
        let s2 := (s1.modGuard l.ctx l.step.toNat fun g => { g with clean := g.clean && clean }).freeOrphans launch l.ctx
        let s3 := s2.measure l
        ({ s3 with
          threads := s3.threads.filter fun e => e.2.launch ≠ launch || e.2.state == ThreadState.idle
          launches := Map.erase s3.launches launch }).finishCmd l.handle reply

end Sys2Proof.Machine
end

