-- ==== Sys2Proof/Machine/TwinOps.lean ====
section
/-! DEFINITION. The Party Wall's shared operations (R399 to R413): pair state, mirror directories, the stream of
a checkpoint (R402 to R404), images (R406), and drains and restores from the mirror (R405, R407).
notes/assumptions/29.md says what the model fixes here. -/

namespace Sys2Proof.Machine

/-! ### Pair state and directories (R399 to R401) -/

/-- The pair state's code (R399). -/
def PairState.code : PairState → Nat
  | .single => 0 | .paired => 1 | .adopting => 2

/-- The pair state changes: its time is kept, and attention class 5 is raised (R331, R399). -/
def State.setPair (s : State) (p : PairState) : State :=
  if s.twin.state == p then s
  else (s.modTwin fun w => { w with state := p, stateTime := s.now }).raise 5 2 (unitEntry 12 5 0) p.code

/-- A snapshot state's code (R400). -/
def SnapState.code : SnapState → Nat
  | .empty => 0 | .incoming => 1 | .current => 2 | .lost => 3

/-- A directory entry's 48 bytes (R400). -/
def MirrorEntry.entryBytes (e : MirrorEntry) : Bytes :=
  le 2 e.ownerDevice ++ le 1 e.state.code ++ le 1 (b2n e.drained + 2 * b2n e.adopted) ++ le 2 e.ownerCtx ++ zeros 2
    ++ le 8 e.ckptId.toNat ++ le 8 e.step ++ le 8 e.bytes ++ le 8 e.offset ++ zeros 8

/-- A snapshot state from its code. -/
def snapOf : Nat → SnapState
  | 1 => .incoming | 2 => .current | 3 => .lost | _ => .empty

/-- A directory entry as twin packets carry it: its 48 bytes, its `BEGIN_TIME`, its range table in pages and its
loans. -/
def MirrorEntry.wire (e : MirrorEntry) : Bytes :=
  e.entryBytes ++ le 8 e.beginTime ++ le 4 e.ranges.length ++ le 4 e.loans.length
    ++ e.ranges.flatMap (fun r => le 4 (r.1 / pageBytes) ++ le 4 (r.2 / pageBytes)) ++ e.loans.flatMap fun l => le 8 l.toNat

/-- An entry without its range table and loans. -/
def MirrorEntry.bare (e : MirrorEntry) : MirrorEntry := { e with ranges := [], loans := [] }

/-- Reads a directory entry, and gives what follows it. -/
def MirrorEntry.parse (b : Bytes) : MirrorEntry × Bytes :=
  let n := field b 56 4
  let k := field b 60 4
  ({ ownerDevice := field b 0 2, state := snapOf (field b 2 1), drained := bitOf (field b 3 1) 0
     adopted := bitOf (field b 3 1) 1, ownerCtx := field b 4 2, ckptId := BitVec.ofNat 64 (field b 8 8)
     step := field b 16 8, bytes := field b 24 8, offset := field b 32 8, beginTime := field b 48 8
     ranges := (List.range n).map fun i => (field b (64 + 8 * i) 4 * pageBytes, field b (68 + 8 * i) 4 * pageBytes)
     loans := (List.range k).map fun i => BitVec.ofNat 64 (field b (64 + 8 * n + 8 * i) 8) },
   b.drop (64 + 8 * n + 8 * k))

/-- Reads n directory entries. -/
def parseEntries : Nat → Bytes → List MirrorEntry
  | 0, _ => []
  | n + 1, b =>
    let (e, r) := MirrorEntry.parse b
    e :: parseEntries n r

/-- Entries that hold something. -/
def liveEntries (es : List MirrorEntry) : List MirrorEntry := es.filter fun e => e.state != .empty

/-- A directory of two entries. -/
def twoEntries (es : List MirrorEntry) : List MirrorEntry := (liveEntries es ++ [({} : MirrorEntry), {}]).take 2

/-- The directory that `DIR_SYNC` carries: what this module holds, what the twin holds for it, and the last drained
image. Only a `CURRENT` entry that the module holds goes with its ranges and loans. It also says whether this module has taken
its mirror reservation (R216, R402; notes/assumptions/29.md). -/
def Twin.directory (w : Twin) (taken : Bool) : Bytes :=
  let h := (liveEntries w.held).map fun e => if e.state == .current then e else e.bare
  let o := (liveEntries w.own).map MirrorEntry.bare
  le 4 h.length ++ le 3 o.length ++ le 1 (b2n taken) ++ le 8 w.lastDrainedId.toNat ++ le 8 w.lastDrainedStep
    ++ (h ++ o).flatMap MirrorEntry.wire

/-- Sends a twin packet (R413), its payload padded to whole slots (R258). `off` is the mirror offset in `ADDRESS`. -/
def State.twinSend (s : State) (sub : Nat) (ckpt : Word) (data : Bytes) (off : Nat := 0) (dev : Option Nat := none) :
    State :=
  let d := dev.getD s.twin.twinDevice
  let n := ceilDiv data.length 16 * 16
  s.emit { type := tTwin, packet := s.packet tTwin d 0 (globalAddr d off) n 0 ckpt (padTo n data) sub }

/-- Sends the directory to the twin (R413). `gone` names the checkpoint whose entry has just been discarded. -/
def State.dirSync (s : State) (gone : Word := 0) : State :=
  if s.twin.twinDevice = 0xFFFF then s else s.twinSend 0x08 gone (s.twin.directory s.memory.mirrorTaken)

/-- This module's entry of a checkpoint in the twin's mirror. -/
def Twin.ownEntry (w : Twin) (id : Word) : Option MirrorEntry :=
  w.own.find? fun e => e.ckptId == id && e.state != .empty && e.state != .incoming

/-- The entry that this module's stream is filling in the twin's mirror. -/
def Twin.ownIncoming (w : Twin) : Option MirrorEntry := w.own.find? fun e => e.state == .incoming

/-- Clears an entry of the mirror with its data. -/
def State.freeHeld (s : State) (p : MirrorEntry → Bool) : State :=
  let gone := s.twin.held.filter fun e => (e.state == .incoming || e.state == .current) && p e
  s.modTwin fun w =>
    { w with held := twoEntries ((liveEntries w.held).filter fun e => !p e)
             mirror := gone.foldl (fun m e => cellsZero m e.offset e.bytes) w.mirror }

/-! ### Checkpoint streams (R402 to R404) -/

/-- The pages of a list of ranges, in range and address order. -/
def rangePages (rs : List (Nat × Nat)) : List Nat := rs.flatMap fun r => unitsOf pageBytes r.1 r.2

/-- The loans of the bound pages among a list. -/
def State.loansOf (s : State) (ps : List Nat) : List Word :=
  (ps.filterMap fun i => (Map.get? s.memory.pages i).bind (·.loan)).eraseDups

/-- The bytes of a page as a stream sends them: as they stood at the snapshot (R403). -/
def State.streamPage (s : State) (t : Stream) (i : Nat) : Bytes :=
  match Map.get? t.staged i with
  | some cells => cellsRead cells (i * pageBytes) pageBytes
  | none => s.bytesAt (i * pageBytes) pageBytes

/-- Frees the staging frame of a page (R403). -/
def State.unstage (s : State) (i : Nat) : State :=
  if s.memory.staging.contains i then
    s.modMem fun m => { m with staging := m.staging.filter (· ≠ i), zeroing := m.zeroing + 1 }
  else s

/-- A checkpoint's stream is over; every staging frame is free. -/
def State.closeStream (s : State) : State :=
  let s1 := s.memory.staging.foldl State.unstage s
  s1.modTwin fun w => { w with stream := none }

/-- A stream ends without completing: `INCOMING` is discarded and the command answers (R404). -/
def State.abandonStream (s : State) (r : Reply) : State :=
  match s.twin.stream with
  | none => s
  | some t =>
    let s1 := (s.closeStream.modTwin fun w =>
      { w with own := twoEntries (w.own.filter fun e => e.state != .incoming) }).count cCkptsAbandoned 0
    (if t.toMirror then s1.dirSync else s1).finishCmd t.handle r

/-- Whether both conditions of R409 hold, and the pair follows. Each module's adopted entries are those it holds
as survivor, or those the survivor holds for it as spare. -/
def State.settleAdoption (s : State) : State :=
  let left := (liveEntries (if s.twin.adoptRole = 1 then s.twin.held else s.twin.own)).any (·.adopted)
  if s.twin.state == .adopting && !left && s.twin.survivorCopied then
    (s.modTwin fun w => { w with adoptRole := 0, adoptFormer := 0, survivorCopied := false }).setPair .paired
  else s

/-- A stream is complete: the snapshot is `CURRENT` in the twin's mirror, or stored (R402). -/
def State.finishStream (s : State) : State :=
  match s.twin.stream with
  | none => s
  | some t =>
    let bytes := (t.ranges.map (·.2)).sum
    let s1 := s.closeStream.modTwin fun w =>
      if t.toMirror then
        { w with own := twoEntries ((w.own.filter fun e => e.state == .incoming).map fun e => { e with state := .current })
                 survivorCopied := w.survivorCopied || w.adoptRole = 1 }
      else { w with lastDrainedId := t.ckptId, lastDrainedStep := t.step }
    ((s1.count cCkptsCompleted 0).finishCmd t.handle
      { code := .done, result := le 8 t.step ++ le 8 bytes }).settleAdoption

/-- The header, range table and padding of an image (R406). -/
def imageHead (id : Word) (step dev ctx begin_ : Nat) (ranges : List (Nat × Nat)) (data : Bytes) : Bytes :=
  let table := ranges.flatMap fun r => le 8 r.1 ++ le 8 r.2
  let head := le 4 0x504B4354 ++ le 2 1 ++ le 2 ranges.length ++ le 8 id.toNat ++ le 8 step ++ le 2 dev ++ le 2 ctx
    ++ zeros 4 ++ le 8 begin_ ++ le 8 data.length ++ le 32 (Config.sha256 (table ++ data)).toNat ++ zeros 48
  padTo (ceilDiv (128 + table.length) 4096 * 4096) (head ++ table)

/-- Writes an image for a command to the host's bus, or to a global address by a context's writes (R405). -/
def State.writeImage (s : State) (h : Nat) (toHost : Bool) (dst : Word) (ctx : Nat) (image : Bytes) : State :=
  if toHost then s.busWrite dst.toNat image
  else (pieces (image.length / 4096 + 2) (locOf dst) image.length).foldl (fun (s : State) p =>
    (s.request tWriteReq (devOf dst) ctx (globalAddr (devOf dst) p.1) p.2 (.drainWrite h) 0
      ((image.drop (p.1 - locOf dst)).take p.2)).2) s

/-- Whether writes or reads of a command's image are outstanding. -/
def State.imageBusy (s : State) (h : Nat) : Bool := s.fabric.requests.any fun r => r.2.unit == .drainWrite h

/-- Sends the next page of a stream, as `SNAP_DATA` packets of 4 KiB. -/
def State.sendPage (s : State) (t : Stream) (i : Nat) : State :=
  let base := ((s.twin.ownIncoming.map (·.offset)).getD 0)
  let pos := (rangePages t.ranges).length - t.left.length
  let bs := s.streamPage t i
  let s0 := if Map.has t.staged i then s else s.touch (i * pageBytes) pageBytes
  let s1 := (List.range 512).foldl (fun (s : State) k =>
    s.twinSend 0x03 t.ckptId ((bs.drop (4096 * k)).take 4096) (base + pos * pageBytes + 4096 * k)) s0
  s1.modTwin fun w => { w with stream := w.stream.map fun t => { t with sent := 1 } }

/-- A stream goes on (R402 to R404): its spilled pages are back, no line of the next page is under repair, and the
page before it is acknowledged. After the last page the snapshot is committed, once no drain or restore of the
`CURRENT` entry is in progress. -/
def State.streamGo (s : State) : State :=
  match s.twin.stream with
  | none => s
  | some t =>
    let fresh := fun (i : Nat) => !Map.has t.staged i
    if t.left.any fun i => (Map.get? s.memory.pages i).any Page.isAway then s
    else if t.toMirror then
      match t.left with
      | [] =>
        if t.complete || s.twin.jobs.any (fun j => j.ownerDevice == s.lodge.deviceId) then s
        else match s.twin.ownIncoming with
          | none => s
          | some e => (s.twinSend 0x05 t.ckptId e.wire e.offset).modTwin fun w =>
              { w with stream := w.stream.map fun t => { t with complete := true } }
      | i :: _ =>
        let s1 := if fresh i then s.checkRead (i * pageBytes) pageBytes else s
        if t.sent ≠ 0 || (s.port 0).state != .active then s
        else if fresh i && !(s1.lostIn (i * pageBytes) pageBytes).isEmpty then
          (s1.countLost (i * pageBytes) pageBytes).abandonStream (Reply.of .weightLost)
        else if fresh i && !(s1.repairingIn (i * pageBytes) pageBytes).isEmpty then s1
        else s1.sendPage t i
    else if t.complete then s
    else
      let s1 := (t.left.filter fresh).foldl (fun (s : State) i =>
        (s.checkRead (i * pageBytes) pageBytes).touch (i * pageBytes) pageBytes) s
      if (t.left.filter fresh).any fun i => !(s1.lostIn (i * pageBytes) pageBytes).isEmpty then
        ((t.left.filter fresh).foldl (fun (s : State) i => s.countLost (i * pageBytes) pageBytes) s1).abandonStream
          (Reply.of .weightLost)
      else if (t.left.filter fresh).any fun i => !(s1.repairingIn (i * pageBytes) pageBytes).isEmpty then s1
      else
        let data := t.left.flatMap (s1.streamPage t)
        let image := imageHead t.ckptId t.step s1.lodge.deviceId t.ctx t.beginTime t.ranges data ++ data
        let s2 := (s1.writeImage t.handle t.toHost t.dst t.ctx image).modTwin fun w =>
          { w with stream := w.stream.map fun t => { t with left := [], complete := true } }
        if s2.imageBusy t.handle then s2 else s2.finishStream

/-- The twin has acknowledged a page of the stream, or its commit (R402). -/
def State.streamAck (s : State) (ckpt : Word) (off : Nat) : State :=
  match s.twin.stream with
  | none => s
  | some t =>
    if t.ckptId ≠ ckpt || !t.toMirror then s
    else match t.left with
      | [] => if t.complete then s.finishStream else s
      | i :: rest =>
        let base := ((s.twin.ownIncoming.map (·.offset)).getD 0)
        let pos := (rangePages t.ranges).length - t.left.length
        if off ≠ base + (pos + 1) * pageBytes then s
        else ((s.unstage i).modTwin fun w => { w with stream := w.stream.map fun t =>
            { t with left := rest, sent := 0, staged := Map.erase t.staged i } }).streamGo

/-- A stream resumes from the last page acknowledged (R404). -/
def State.streamResume (s : State) : State :=
  (s.modTwin fun w => { w with stream := w.stream.map fun t =>
    if t.toMirror then { t with sent := 0, complete := false } else t }).streamGo

/-! ### Drains and restores (R405, R407) -/

/-- The drain or restore of a command. -/
def State.job? (s : State) (h : Nat) : Option MirrorJob := s.twin.jobs.find? fun j => j.handle = h

/-- A drain or restore is over, and what waited for it goes on (R404). -/
def State.endJob (s : State) (h : Nat) (r : Reply) : State :=
  let s1 := (s.modTwin fun w => { w with jobs := w.jobs.filter fun j => j.handle ≠ h }).modFabric fun f =>
    { f with requests := f.requests.filter fun e => e.2.unit != .drainWrite h }
  (s1.finishCmd h r).streamGo

/-- An image is stored (R405): the entry is `DRAINED`, and the owner keeps its ID and step. -/
def State.drained (s : State) (h : Nat) (j : MirrorJob) : State :=
  let mark := fun (e : MirrorEntry) => if e.ckptId == j.ckptId then { e with drained := true } else e
  let s1 := s.modTwin fun w =>
    { w with own := w.own.map mark, lastDrainedId := j.ckptId, lastDrainedStep := j.step }
  s1.dirSync.endJob h (Reply.of .done)

/-- Where byte x of a snapshot's data belongs (R401): the ranges take it in table order. -/
def rangeAddr : List (Nat × Nat) → Nat → Nat
  | [], x => x
  | r :: rs, x => if x < r.2 then r.1 + x else rangeAddr rs (x - r.2)

/-- A restore has written its last byte: an adopted entry is restored (R407, R409). -/
def State.restored (s : State) (h : Nat) (j : MirrorJob) : State :=
  let mark := fun (e : MirrorEntry) => if e.ckptId == j.ckptId then { e with adopted := false } else e
  let s1 := s.modTwin fun w => { w with own := w.own.map mark }
  (s1.dirSync.endJob h { code := .done, result := le 8 j.step }).settleAdoption

/-- Goes on with a drain or restore: it reads the mirror up to each 4 KiB boundary in turn, and a drain then writes its image.
The pages of a restore are back first (R230). A `MIRROR_READ` has no payload, so its `LENGTH` is 0 (R257, R413). -/
def State.jobGo (s : State) (h : Nat) : State :=
  match s.job? h with
  | none => s
  | some j =>
    if s.imageBusy h || (!j.isDrain && j.ranges.any fun r => !(s.awayPages r.1 r.2).isEmpty) then s
    else if j.data.length < j.size then
      let off := j.offset + j.data.length
      (s.request tTwin s.twin.twinDevice 0 (globalAddr s.twin.twinDevice off) 0
        (.drainWrite h) j.ckptId [] 0x06).2
    else if !j.isDrain then s.restored h j
    else
      let begin_ := ((s.twin.ownEntry j.ckptId).map (·.beginTime)).getD 0
      let image := imageHead j.ckptId j.step j.ownerDevice j.ctx begin_ j.ranges j.data ++ j.data
      let s1 := (s.writeImage h j.toHost j.dst j.ctx image).modCmd h fun k => { k with work := .ckptDrain [1] }
      if s1.imageBusy h then s1 else s1.drained h j

/-- Data of the mirror arrives for a drain or a restore (R405, R407): a restore writes it where it belongs, bound
where its loans are present (R426, R427). -/
def State.jobData (s : State) (h : Nat) (got : Bytes) : State :=
  match s.job? h with
  | none => s
  | some j =>
    let bs := got.take (j.size - j.data.length)
    let at_ := j.data.length
    let s1 := s.modTwin fun w => { w with jobs := w.jobs.map fun x =>
      if x.handle = h then { x with data := x.data ++ bs } else x }
    if j.isDrain then s1.jobGo h
    else
      let a := rangeAddr j.ranges at_
      if !s1.canWrite (((s1.cmd? h).map (·.ctx)).getD 0) a bs.length then s1.endJob h (Reply.of .badPacket)
      else
        let loans := ((s.twin.ownEntry j.ckptId).map (·.loans)).getD []
        let s2 := s1.store a bs
        let s3 := match loans.find? fun l => (s2.loan? l).isSome with
          | none => s2
          | some l => (unitsOf pageBytes a bs.length).foldl
              (fun s i => s.modPage i fun p => { p with loan := some (p.loan.getD l) }) s2
        s3.jobGo h

/-- The writes of an image are acknowledged (R402, R405). -/
def State.imageAck (s : State) (h : Nat) : State :=
  if s.imageBusy h then s
  else match s.twin.stream with
    | some t => if t.handle = h && t.complete then s.finishStream
      else match s.job? h, s.cmd? h with
        | some j, some k => if k.work == .ckptDrain [1] then s.drained h j else s
        | _, _ => s
    | none => match s.job? h, s.cmd? h with
      | some j, some k => if k.work == .ckptDrain [1] then s.drained h j else s
      | _, _ => s

/-- The reply of a restore whose copy is lost (R407, R410). -/
def State.copyLost (s : State) : Reply :=
  { code := .twinCopyLost
    result := if s.twin.adoptedLost then le 8 s.twin.lastDrainedId.toNat ++ le 8 s.twin.lastDrainedStep else [] }

/-- The pair is at an end (R399, R404): a stream to the mirror ends with `PEER_TIMEOUT`, and drains and restores of
the mirror with it. A spare loses what it has not restored (R410). -/
def State.unpair (s : State) : State :=
  let twin := s.twin.twinDevice
  let peer : Reply := { code := .peerTimeout, failDevice := twin }
  let spare := s.twin.state == .adopting && s.twin.adoptRole = 2
  let s0 := if spare then s.modTwin fun w =>
      { w with adoptedLost := w.adoptedLost || (liveEntries w.own).any (·.adopted) } else s
  let s1 := match s0.twin.stream with
    | some t => if t.toMirror then s0.abandonStream peer else s0
    | none => s0
  let s2 := s1.twin.jobs.foldl (fun (s : State) j =>
    if spare && !j.isDrain then (s.count cTwinCopiesLost 0).endJob j.handle s.copyLost else s.endJob j.handle peer) s1
  let s3 := s2.modTwin fun w =>
    { w with twinDevice := 0xFFFF, offered := none, received := none, adoptRole := 0, adoptFormer := 0
             survivorCopied := false, own := [{}, {}] }
  (s3.freeHeld fun e => e.state == .incoming).setPair .single

end Sys2Proof.Machine
end

