-- ==== Sys2Proof/Machine/Drains.lean ====
section
/-! DEFINITION. Teardown of a context with work in flight (R336, R382 to R384): the start of a drain, its
completion, and its forced end. -/

namespace Sys2Proof.Machine

/-- A command that its unit will not finish answers. -/
def State.abortCmd (s : State) (h : Nat) (r : Reply) : State :=
  let s1 := s.modSr fun x => { x with quotes := x.quotes.filter fun q => q.handle ≠ h }
  if (s1.job? h).isSome then s1.endJob h r else s1.finishCmd h r

/-- The devices of a context's peer set, this module left out (R270, R272). -/
def State.peerDevices (s : State) (c : Nat) : List Nat :=
  let gs := s.coll.groups.filter fun e => e.1 / 4096 = c
  ((gs.flatMap fun e => e.2.members.map (·.1)) ++ (s.ctx c).broadcast).eraseDups.filter fun d => d ≠ s.lodge.deviceId

/-- Tells the peer set that a context's generation is retired (R270). -/
def State.retireGeneration (s : State) (c : Nat) : State :=
  (s.peerDevices c).foldl (fun (s : State) d =>
    s.emit { type := tGenRetire, packet := s.packet tGenRetire d c (globalAddr d 0) 0 0 }) s

/-- The packets of a context that have not started on a link are discarded, with the requests they carry; the
others keep their tags until they are answered (R382, R383). -/
def State.discardPackets (s : State) (c : Nat) : State :=
  let mine := fun (o : OutPacket) => o.sentBy c
    && !(Map.get? s.fabric.requests o.packet.tag).any fun r => s.isRequest o && r.unit.streams
  let queued := (s.fabric.ports.map fun p => p.queue.filter mine).flatten
  let tags := (queued.filter s.isRequest).map fun o => o.packet.tag
  (s.modFabric fun f =>
    { f with
      ports := f.ports.map fun p => { p with queue := p.queue.filter fun o => !mine o }
      unsent := f.unsent.filter fun o => !mine o
      requests := Map.mapVals (fun _ r => if r.out.sentBy c && !r.unit.streams then { r with unit := .device } else r)
        (Map.keep (fun k r => !tags.contains k
          && !(r.port.isNone && r.out.sentBy c && !r.unit.streams)) f.requests) }).modCtx c fun x =>
      { x with withdrawn := [] }

/-- The collectives of a context are gone, with what arrived early for them, which is counted (R382). -/
def State.dropColls (s : State) (c : Nat) : State :=
  let early := (s.coll.early.filter fun k => (CollHdr.parse k.payload).dstCtx = c).length
  (s.modCe fun x =>
    { x with active := Map.keep (fun _ k => k.ctx ≠ c) x.active
             early := x.early.filter fun k => (CollHdr.parse k.payload).dstCtx ≠ c
             claims := Map.keep (fun _ k => k.ctx ≠ c) x.claims }).count cCollLateDrops 0 early

/-- The commands of a context answer `CONTEXT_RESET`, and so do the suspensions and resumptions of it that wait
(R336). -/
def State.abortCommands (s : State) (c h : Nat) : State :=
  let about := fun (k : OutCmd) => k.work == .suspend c || k.work == .resume c
  let fences := s.cmdsWhere fun k => k.ctx == c && k.work == .fence
  let rest := (s.cmdsWhere fun k => (k.ctx == c && k.work != .fence) || about k).filter (· ≠ h)
  (fences ++ rest).foldl (fun (s : State) g => s.abortCmd g (Reply.of .contextReset)) s

/-- `CTX_DESTROY` or `CTX_RESET` is taken: the context is `DRAINING` (R382). -/
def State.startDrain (s : State) (c h : Nat) (destroy : Bool) : State :=
  let s1 := (s.endWaits c).retireGeneration c
  let s2 := s1.modCtx c fun x =>
    { x with state := .draining, drain := some { destroy := destroy, handle := h, takenAt := s.now }
             cause := .none, restoring := false, resumeCmd := none }
  let s3 := match s2.twin.stream with
    | some t => if t.ctx = c then s2.abandonStream (Reply.of .contextReset) else s2
    | none => s2
  let bound := (s3.host.rings.filter fun e => e.2.state == .bound && e.2.boundCtx == c).map (·.1)
  let s4 := if destroy then
      bound.foldl (fun (s : State) n => s.modRing n fun r => { r with state := .draining }) s3
    else s3
  let s5 := (s4.abortCommands c h).clearArrays c
  let s6 := ({ s5 with
    launches := s5.launches.filter fun e => e.2.ctx ≠ c
    admitting := s5.admitting.filter fun id => !(s5.launch? id).any fun (l : Launch) => l.ctx == c
    threads := s5.threads.filter fun e => e.2.ctx ≠ c || e.2.state == ThreadState.idle }).modCtx c fun x =>
      { x with barriers := [] }
  let s7 := (s6.discardPackets c).dropColls c
  s7.pump.sequenceAll

/-- The tags of a draining context's requests that are still outstanding (R383). -/
def State.drainTags (s : State) (c : Nat) : List Nat :=
  (s.fabric.requests.filter fun e => e.2.out.packet.ctxId == c && !e.2.unit.streams).map (·.1)

/-- The passes of a context in the arrays. -/
def State.passesOf (s : State) (c : Nat) : Nat := (s.arrays.map fun x => (x.passes.filter fun q => q.ctx == c).length).sum

/-- Whether a drain is complete (R383). -/
def State.drainOver (s : State) (c : Nat) : Bool := (s.drainTags c).isEmpty && s.passesOf c = 0

/-- What a context held is freed: its pages, pins, training-support state, tags and guards (R159, R212, R220,
R225, R384). -/
def State.freeContext (s : State) (c : Nat) : State :=
  let pages := (s.memory.pages.filter fun e => e.2.owner == .ctx c).map (·.1)
  let s1 := { s with
    stashes := s.stashes.filter fun e => e.ctx ≠ c
    trains := Map.erase s.trains c
    guards := s.guards.filter fun g => g.ctx ≠ c
    tags := s.tags.filter fun g => g.ctx ≠ c }
  (pages.foldl State.unmapPage s1).modMem fun m =>
    { m with granules := Map.mapVals (fun _ g => { g with pins := g.pins.filter (· ≠ c) }) m.granules
             zeroing := m.zeroing + s.pantryFrames c }

/-- The generation that follows one (R348). -/
def nextGeneration (g : Nat) : Nat := if 65535 ≤ g then 1 else g + 1

/-- The groups and plans of a context that is no more are removed. -/
def State.dropGroups (s : State) (c : Nat) : State :=
  s.modCe fun x => { x with groups := Map.keep (fun k _ => k / 4096 ≠ c) x.groups
                            plans := Map.keep (fun k _ => k / 4096 ≠ c) x.plans }

/-- The end of a drain (R384): `CTX_DESTROY` leaves the ID `UNUSED`, `CTX_RESET` leaves the context `ACTIVE` with
its class, limits, quotas, model and rings (R347, R348). -/
def State.endDrain (s : State) (c : Nat) : State :=
  match (s.ctx c).drain with
  | none => s
  | some d =>
    let g := nextGeneration (s.ctx c).generation
    let save := (s.ctx c).savePages
    let s1 := s.freeContext c
    let s2 :=
      if d.destroy then
        ((s1.modCtx c fun _ => ({ generation := g } : Ctx)).dropGroups c).modMem fun m =>
          { m with zeroing := m.zeroing + save }
      else s1.modCtx c fun x =>
        { x with state := .active, generation := g, drain := none, notice := {}, latestStep := none, committedStep := 0, barriers := []
                 pantryPeak := 0, pantryDowngrades := 0 }
    (s2.finishCmd d.handle { code := .done, gen := some g }).sequenceAll

/-- A drain that is complete ends (R383, R384). -/
def State.drainComplete (s : State) (c : Nat) : State :=
  if (s.ctx c).state == .draining && s.drainOver c then s.endDrain c else s

/-- A drain that is incomplete 1 ms after its command was taken is forced (R383): the remaining tags are retired
and the remaining passes abandoned, each counted. -/
def State.drainForce (s : State) (c : Nat) : State :=
  match (s.ctx c).drain with
  | none => s
  | some d =>
    let tags := s.drainTags c
    let items := tags.length + s.passesOf c
    if (s.ctx c).state != .draining || s.now < d.takenAt + 1000000 || items = 0 then s
    else
      let s1 := tags.foldl State.retire s
      let s2 := { s1 with arrays := s1.arrays.map fun (x : ArrayState) =>
        { x with passes := x.passes.filter fun q => q.ctx != c } }
      let s3 := (s2.count cDrainItemsForced 0 items).count cDrainsForced 0
      (s3.fault 0x0060 13 c 0 c 0 items).endDrain c

end Sys2Proof.Machine
end

