-- ==== Sys2Proof/Machine/CmdBase.lean ====
section
/-! DEFINITION. What the meanings of host commands share: their answers, the table of opcodes with the shortest
parameters, the reserved fields and the issuers of each (R334, R335, R440), and the device commands of R334, R341,
R342 and R344. -/

namespace Sys2Proof.Machine

/-- What a command's own rules answer: a final reply, or none where the command waits. -/
abbrev Answer := Option Reply × State

/-- A command answers with a code and its `RESULT`. -/
def State.says (s : State) (c : Code) (result : Bytes := []) : Answer := (some { code := c, result := result }, s)

/-- A command waits in a kind of work. -/
def State.waits (s : State) (h : Nat) (w : Work) : Answer := (none, s.modCmd h fun k => { k with work := w })

/-- Whether an `OUT_ADDR` keeps its rule: a multiple of 64 (R334), and 0 on a session (R438). -/
def OutCmd.outOk (k : OutCmd) (a : Nat) : Bool := if k.header.session ≠ 0 then a = 0 else a % 64 = 0

/-- Who may issue a command (R334, R440). -/
inductive Issuer where
  | any | device | tenant | session
  deriving DecidableEq, Repr

/-- A row of the opcode table: the shortest parameters in bytes, the reserved fields in them, and the issuer. -/
structure OpcodeRow where
  opcode : Nat
  params : Nat
  reserved : List (Nat × Nat) := []
  issuer : Issuer := .any
  deriving DecidableEq, Repr

/-- The opcodes from 0x0000 to 0x02FF (R334, R338, R341, R342, R344, R349, R351, R352). -/
def opcodesLow : List OpcodeRow := [
  { opcode := 0x0000, params := 0 },
  { opcode := 0x0001, params := 8, reserved := [(4, 4)], issuer := .device },
  { opcode := 0x0002, params := 8 },
  { opcode := 0x0003, params := 4, reserved := [(1, 3)], issuer := .device },
  { opcode := 0x0004, params := 24, reserved := [(1, 3), (12, 4)], issuer := .device },
  { opcode := 0x0005, params := 16, reserved := [(1, 1)] },
  { opcode := 0x0006, params := 0 },
  { opcode := 0x0100, params := 72, reserved := [(5, 3)], issuer := .device },
  { opcode := 0x0101, params := 8, reserved := [(2, 6)], issuer := .device },
  { opcode := 0x0102, params := 8, reserved := [(2, 6)], issuer := .device },
  { opcode := 0x0103, params := 8, reserved := [(2, 6)], issuer := .device },
  { opcode := 0x0104, params := 8, reserved := [(2, 6)], issuer := .device },
  { opcode := 0x0105, params := 16, reserved := [(2, 6)] },
  { opcode := 0x0106, params := 8, reserved := [(4, 4)], issuer := .device },
  { opcode := 0x0107, params := 8, reserved := [(2, 6)], issuer := .device },
  { opcode := 0x0200, params := 24, reserved := [(18, 6)], issuer := .tenant },
  { opcode := 0x0201, params := 16, issuer := .tenant },
  { opcode := 0x0202, params := 32, reserved := [(25, 7)], issuer := .tenant },
  { opcode := 0x0203, params := 24, reserved := [(17, 7)], issuer := .tenant },
  { opcode := 0x0204, params := 32, reserved := [(25, 7)], issuer := .tenant },
  { opcode := 0x0205, params := 24, issuer := .tenant },
  { opcode := 0x0206, params := 64, reserved := [(2, 2)], issuer := .device },
  { opcode := 0x0207, params := 80, reserved := [(0x14, 12), (0x21, 1), (0x24, 4), (0x31, 1), (0x34, 4), (0x41, 1), (0x44, 4)],
    issuer := .tenant }]

/-- The opcodes from 0x0300 to 0x08FF (R334, and the rules that R334 names). -/
def opcodesMid : List OpcodeRow := [
  { opcode := 0x0300, params := 40, reserved := [(9, 7)], issuer := .device },
  { opcode := 0x0301, params := 8, issuer := .device },
  { opcode := 0x0302, params := 16, reserved := [(12, 4)] },
  { opcode := 0x0303, params := 8 },
  { opcode := 0x0400, params := 64, reserved := [(0x12, 6)], issuer := .tenant },
  { opcode := 0x0401, params := 64, reserved := [(0x12, 6), (0x28, 8), (0x38, 8)], issuer := .tenant },
  { opcode := 0x0402, params := 0 },
  { opcode := 0x0403, params := 16, reserved := [(10, 6)], issuer := .tenant },
  { opcode := 0x0404, params := 8, issuer := .tenant },
  { opcode := 0x0500, params := 16, reserved := [(5, 11)] },
  { opcode := 0x0501, params := 8, reserved := [(1, 1), (6, 2)] },
  { opcode := 0x0502, params := 16, reserved := [(12, 4)], issuer := .tenant },
  { opcode := 0x0503, params := 16, reserved := [(12, 4)], issuer := .tenant },
  { opcode := 0x0504, params := 8, reserved := [(2, 2)] },
  { opcode := 0x0600, params := 32, reserved := [(0x0C, 4), (0x18, 8)], issuer := .tenant },
  { opcode := 0x0601, params := 24, reserved := [(9, 7)] },
  { opcode := 0x0602, params := 24, reserved := [(9, 1), (12, 4)], issuer := .tenant },
  { opcode := 0x0603, params := 24, reserved := [(1, 1), (6, 2)], issuer := .device },
  { opcode := 0x0604, params := 16, reserved := [(1, 1), (8, 8)], issuer := .device },
  { opcode := 0x0700, params := 40 },
  { opcode := 0x0701, params := 16, reserved := [(1, 7)] },
  { opcode := 0x0800, params := 16, reserved := [(9, 3)], issuer := .device },
  { opcode := 0x0801, params := 16, issuer := .device },
  { opcode := 0x0802, params := 8, issuer := .device },
  { opcode := 0x0803, params := 8, issuer := .device }]

/-- The management-only opcodes (R440). -/
def opcodesMgmt : List OpcodeRow := [
  { opcode := 0x0A00, params := 8, issuer := .session },
  { opcode := 0x0A01, params := 8, reserved := [(0, 8)], issuer := .session },
  { opcode := 0x0A02, params := 8, reserved := [(0, 8)], issuer := .session },
  { opcode := 0x0A03, params := 16, reserved := [(1, 1), (4, 4)], issuer := .session },
  { opcode := 0x0A04, params := 16, reserved := [(1, 1), (4, 4)], issuer := .session },
  { opcode := 0x0A05, params := 16, reserved := [(3, 1)], issuer := .session },
  { opcode := 0x0A06, params := 8, reserved := [(1, 7)], issuer := .session },
  { opcode := 0x0A07, params := 24, reserved := [(12, 4)], issuer := .session },
  { opcode := 0x0A08, params := 8, reserved := [(1, 1)], issuer := .session },
  { opcode := 0x0A09, params := 8, reserved := [(2, 6)], issuer := .session },
  { opcode := 0x0A0A, params := 8, reserved := [(1, 7)], issuer := .session },
  { opcode := 0x0A0B, params := 8, reserved := [(0, 8)], issuer := .session }]

/-- The row of an opcode; none for one that R334 does not list. -/
def opcodeRow (op : Nat) : Option OpcodeRow :=
  (opcodesLow ++ opcodesMid ++ opcodesMgmt).find? fun r => r.opcode = op

/-- Whether the entries, data or flags of a command's parameters break its form (R13, R335 step 1): a reserved field in an
entry or a reserved flag bit is not zero, or the parameters end before the last entry that they count. -/
def formBad (op : Nat) (p : Bytes) : Bool :=
  let n := field p 2 2
  match op with
  | 0x0202 => 1 < field p 24 1
  | 0x0204 => 3 < field p 24 1
  | 0x0206 => 127 < field p 4 4
  | 0x0501 => if field p 0 1 = 0 then p.length < 8 + 8 * n || (List.range n).any (fun i => field p (13 + 8 * i) 3 ≠ 0)
      else p.length < 8 + 2 * n
  | 0x0502 => 1 < field p 6 2 || (field p 6 2 = 0 && (p.length < 16 + 12 * n
      || (List.range n).any fun i => field p (26 + 12 * i) 2 ≠ 0))
  | 0x0503 => 7 < field p 6 2 || p.length < 16 + 24 * field p 4 2
  | 0x0600 => p.length < 32 + 16 * field p 10 2
  | 0x0A00 => 3 < field p 1 1 || p.length < 8 + n
  | 0x0A04 => p.length < 16 + n
  | 0x0A05 => 63 < field p 0 2 || 63 < field p 2 1
  | 0x0A06 => 1 < field p 0 1
  | 0x0A07 => 3 < field p 10 2
  | _ => false

/-- Whether a command's own row of R334 leaves it to another issuer (R335 step 3): R282, R284, R285 and R351 let a tenant ask
about a port, set its own broadcast set and timeout, and query itself. -/
def issuerBad (op ctx : Nat) (p : Bytes) : Bool :=
  ctx ≠ 0 && match op with
    | 0x0105 => ctx ≠ field p 0 2
    | 0x0500 => field p 1 1 ≠ 0
    | 0x0501 => field p 0 1 = 0 || ctx ≠ field p 4 2
    | 0x0504 => ctx ≠ field p 0 2
    | _ => false

/-- The arrays that a command names in a mask. -/
def namedArrays (op : Nat) (p : Bytes) : List Nat :=
  let mask := match op with
    | 0x0202 => field p 16 8
    | 0x0400 | 0x0401 => field p 8 8
    | 0x0A05 => field p 8 8
    | _ => 0
  (List.range 64).filter fun a => bitOf mask a

/-- Whether a command needs a unit that the variant does not fit (R4, R335 step 4). -/
def State.absentUnit (s : State) (op : Nat) (p : Bytes) : Bool :=
  ((namedArrays op p).any fun a => s.variant.arrays ≤ a) || match op with
    | 0x0207 => !s.variant.partyWall && (List.range (min 3 (field p 0x10 1))).any fun i => field p (0x20 + 16 * i) 1 = 1
    | 0x0500 => field p 0 1 < 6 && s.variant.ports ≤ field p 0 1
    | 0x0600 => !s.variant.partyWall && field p 8 1 = 1
    | 0x0601 | 0x0603 | 0x0604 => !s.variant.partyWall
    | 0x0602 => !s.variant.partyWall && field p 8 1 = 1
    | 0x0A05 => 2 ^ s.variant.ports ≤ field p 2 1
    | _ => false

/-- Whether a command needs a fitted unit that is not yet in service (R6, R7, R335 step 5). -/
def State.unitWaits (s : State) (op : Nat) (p : Bytes) : Bool := (namedArrays op p).any fun a => !s.arraysInService.contains a

/-- The context that a command names in its parameters, where it names one other than context 0 (R335 step 6). -/
def namedCtx (op : Nat) (p : Bytes) : Option Nat :=
  match op with
  | 0x0101 | 0x0102 | 0x0103 | 0x0104 | 0x0105 | 0x0206 => some (field p 0 2)
  | 0x0106 => if field p 2 2 = 0 then none else some (field p 2 2)
  | 0x0501 => if field p 0 1 = 0 then none else some (field p 4 2)
  | 0x0504 => if field p 0 2 = 0 then none else some (field p 0 2)
  | _ => none

/-- What a command changes, as its Catalogue entry names it (R448): a context, a ring, an address, or another
index that its parameters give. -/
def objectOf (op : Nat) (p : Bytes) : Option Nat :=
  if (objectClass op).isNone then none
  else if op = 0x0200 || op = 0x0201 || op = 0x0202 || op = 0x0207 || op = 0x0301 then some (field p 0 8)
  else if op = 0x0300 then some (field p 0 8)
  else if op = 0x0501 then some (field p 4 2)
  else some (field p 0 2)

/-! ### Device commands -/

/-- `NOP` (R334). -/
def State.cmdNop (s : State) : Answer := s.says .done

/-- Arrays that held a matrix instruction ready or waiting on its landing since a time, with no pass since then
(R341). -/
def State.idleArrays (s : State) (since : Nat) : Nat :=
  ((List.range s.variant.arrays).map fun a =>
    let own := (s.matrixOps a).any fun o => o.2.issuedAt ≤ since && s.runnable o.1 o.2
    let pair := a % 2 == 1 && (s.matrixOps (a - 1)).any fun o =>
      o.2.isPair && o.2.issuedAt ≤ since && s.runnable o.1 o.2
    if (own || pair) && (s.array a).lastPass ≤ since then 2 ^ a else 0).sum

/-- Whether packets of a port have waited for credits since a time: the first of some virtual channel, queued by then
(R261, R341). -/
def Port.shortSince (x : Port) (since : Nat) : Bool :=
  (List.range 8).any fun v => x.shortOf v && (x.queue.find? fun o => o.packet.vc = v).any fun o => o.since ≤ since

/-- `HEARTBEAT` (R341). -/
def State.cmdHeartbeat (s : State) (p : Bytes) : Answer :=
  let period := field p 0 4
  if period < 1000 || 1000000 < period then s.says .badPacket
  else
    let since := s.now - 2000 * period
    let ports := ((List.range s.variant.ports).map fun i =>
      let x := s.port i
      if x.shortSince since && x.lastProgress ≤ since then 2 ^ i else 0).sum
    let rings := (s.host.rings.filter fun e => e.2.waiting ≠ 0 && e.2.backlogSince ≤ since
      && e.2.state != .unbound).length
    let slow := s.host.commands.filter fun e => !(e.2.opcode = 0x0400 || e.2.opcode = 0x0401 || e.2.opcode = 0x0402
      || e.2.opcode = 0x0403)
    let age := (slow.map fun e => (s.now - e.2.takenAt) / 1000000).foldl max 0
    s.says .done (le 8 (s.idleArrays since) ++ le 1 ports ++ zeros 1 ++ le 2 (satTo 0xFFFF rings)
      ++ le 4 (satTo 0xFFFFFFFF age))

/-- The unit bits of a variant (R9). -/
def Variant.units (v : Variant) : Nat := 0xF9 + 2 * b2n v.fp64 + 4 * b2n v.partyWall

/-- `UNITS_IN_SERVICE` (R9, R10, R415). -/
def State.unitsInService (s : State) : Nat :=
  0xB9 + 2 * b2n s.fp64Serving + 4 * b2n s.variant.partyWall + 64 * b2n (s.strongroom.state != .failed)

/-- `PORTS_IN_SERVICE` (R251). -/
def State.portsInService (s : State) : Nat :=
  ((s.portsWhere fun x => x.state == .active || (x.state == .retraining && x.planned)).map fun i => 2 ^ i).sum

/-- The capability descriptor (R8). -/
def State.descriptor (s : State) : Bytes :=
  let v := s.variant
  let n := s.arraysInService.length
  le 2 1 ++ le 2 0x40 ++ le 2 v.partCode ++ le 2 s.capsSequence.toNat ++ le 8 v.units ++ le 8 s.unitsInService
    ++ le 2 v.arrays ++ le 2 n ++ le 1 v.stacks ++ le 1 s.stacksInService ++ le 1 (2 ^ v.ports - 1)
    ++ le 1 s.portsInService ++ le 2 128 ++ le 2 s.laneRate ++ le 2 (12 * n) ++ le 2 (64 * s.stacksInService)
    ++ le 2 64 ++ le 2 16383 ++ le 4 65536 ++ le 2 (if v.partyWall then 128 else 0) ++ le 2 s.lodge.incarnation
    ++ le 1 16 ++ le 1 s.serviceLevel ++ zeros 10

/-- `QUERY_CAPS` (R8, R334). -/
def State.cmdQueryCaps (s : State) (k : OutCmd) (p : Bytes) : Answer :=
  let out := field p 0 8
  if !k.outOk out then s.says .badPacket
  else (some { code := .done, outAddr := out, data := s.descriptor }, s)

/-- The pending classes as a mask (R342). -/
def pendingMask (m : Map (Nat × BitVec 8)) : Nat := (m.map fun e => 2 ^ e.1).sum

/-- Clears the classes that an acknowledgement covers (R331). -/
def ackPending (seq : BitVec 8) (m : Map (Nat × BitVec 8)) : Map (Nat × BitVec 8) :=
  Map.keep (fun _ e => 128 ≤ (seq - e.2).toNat) m

/-- `ACK_ATTENTION` (R331, R342). -/
def State.cmdAckAttention (s : State) (p : Bytes) : Answer :=
  let after := ackPending (BitVec.ofNat 8 (field p 0 1)) s.attnPending
  ({ s with attnPending := after } : State).says .done (le 2 (pendingMask s.attnPending) ++ le 2 (pendingMask after))

/-- An attention log entry's 32 bytes (R342). -/
def AttnEvent.bytes (e : AttnEvent) : Bytes :=
  le 1 e.seq ++ le 1 e.cls ++ le 1 e.level ++ zeros 5 ++ le 8 e.time ++ le 8 e.accession ++ le 8 e.detail

/-- `QUERY_FAULT` (R342, R368): entries from `FIRST` back from the newest; what is older than the log is zeros. -/
def State.cmdQueryFault (s : State) (k : OutCmd) (p : Bytes) : Answer :=
  let sel := field p 0 1
  let first := field p 4 4
  let n := field p 8 4
  let out := field p 16 8
  if 1 < sel || n < 1 || 256 < n || !k.outOk out then s.says .badPacket
  else
    let data := (List.range n).flatMap fun i =>
      if sel = 0 then ((s.attnLog[first + i]?).map AttnEvent.bytes).getD (zeros 32)
      else ((s.lodge.faults[first + i]?).map FaultRec.bytes).getD (zeros 64)
    (some { code := .done, outAddr := out, data := data }, s)

/-- Whether `READ_COUNTERS` or `CTR_CLEAR` names counters that exist (R344). -/
def State.countersExist (s : State) (unit inst first n : Nat) : Bool :=
  match unitCounters unit with
  | none => false
  | some m => 1 ≤ n && n ≤ 512 && first + n ≤ m && inst < s.unitInstances unit

/-- `READ_COUNTERS` (R344). A tenant reads only its own violations. -/
def State.cmdReadCounters (s : State) (k : OutCmd) (p : Bytes) : Answer :=
  let unit := field p 0 1
  let inst := field p 2 2
  let first := field p 4 2
  let n := field p 6 2
  let out := field p 8 8
  if k.ctx ≠ 0 && !(unit = 0x08 && inst = k.ctx) then s.says .notPermitted
  else if !s.countersExist unit inst first n || !k.outOk out then s.says .badPacket
  else
    let data := (countUp first 1 n).flatMap fun i => (s.counter (unit, i) inst).bytes
    (some { code := .done, outAddr := out, data := data }, s)

/-- `TIME_READ` (R334). -/
def State.cmdTimeRead (s : State) : Answer := s.says .done (le 8 s.now ++ le 1 s.lodge.syncState)

end Sys2Proof.Machine
end

