-- ==== Sys2Proof/Machine/ContextCmds.lean ====
section
/-! DEFINITION. The meanings of the context and ring commands: `CTX_CREATE`, `CTX_DESTROY`, `CTX_RESET`,
`CTX_SUSPEND`, `CTX_RESUME`, `CTX_QUERY` (R349 to R352), `RING_BIND` and `RING_UNBIND` (R324, R345), and the quota
checks that `POOL_QUOTA` shares (R227, R229). -/

namespace Sys2Proof.Machine

/-! ### Quotas (R227, R229) -/

/-- Reads the seven quota fields of R229 in table order. -/
def Quota.read (b : Bytes) : Quota :=
  { atticGuarantee := field b 0 8, atticLimit := field b 8 8, cellarPinLimit := field b 16 8
    pantryCellarLimit := field b 24 8, pantryLimit := field b 32 8, spillBase := field b 40 8
    spillLength := field b 48 8 }

/-- The seven fields as bytes. -/
def Quota.bytes (q : Quota) : Bytes :=
  le 8 q.atticGuarantee ++ le 8 q.atticLimit ++ le 8 q.cellarPinLimit ++ le 8 q.pantryCellarLimit
    ++ le 8 q.pantryLimit ++ le 8 q.spillBase ++ le 8 q.spillLength

/-- Whether every field keeps its unit (R229). -/
def Quota.unitsOk (q : Quota) : Bool :=
  q.pantryCellarLimit % 4096 = 0 && q.pantryLimit % 4096 = 0 && q.spillBase % pageBytes = 0
    && q.spillLength % pageBytes = 0

/-- The sum of R229: guarantees, save areas and the model charge. -/
def State.poolClaims (s : State) : Nat :=
  (s.liveCtxs.map fun e => e.2.quota.atticGuarantee + e.2.savePages).sum + s.modelCharge

/-- The cellar in service in bytes (R8). -/
def State.cellarBytes (s : State) : Nat := s.arraysInService.length * 12582912

/-- The cellar claims of all contexts (R227). -/
def State.cellarClaims (s : State) : Nat :=
  (s.liveCtxs.map fun e => e.2.quota.cellarPinLimit * granuleBytes + e.2.quota.pantryCellarLimit).sum

/-- Whether the claims fit the pool (R229) and the cellar (R227). -/
def State.claimsFit (s : State) : Bool :=
  (s.poolClaims : Int) ≤ s.poolCapacity && s.cellarClaims + 16777216 ≤ s.cellarBytes

/-! ### Contexts -/

/-- Pages of a save area (R350). -/
def savePagesOf (arrays threads : Nat) : Nat :=
  ceilDiv (arrays * 2162688 + arrays * threads * 1024 + arrays * 40960 + 65536) pageBytes

/-- The lowest context ID that is `UNUSED` (R349). -/
def State.freeCtx (s : State) : Option Nat :=
  (List.range (s.ctxs.length + 1)).findSome? fun i =>
    if i + 1 ≤ 16383 && (s.ctx (i + 1)).state == .unused then some (i + 1) else none

/-- `CTX_CREATE` (R349, R350, R353, R398). -/
def State.cmdCtxCreate (s : State) (h : Nat) (p : Bytes) : Answer :=
  let id := field p 0 2
  let cls := field p 2 1
  let arrays := field p 3 1
  let threads := field p 4 1
  let model := field p 8 8
  let q := Quota.read (p.drop 16)
  let st := (s.ctx id).state
  let save := savePagesOf arrays threads
  if 16383 < id || 3 < cls || arrays < 1 || 64 < arrays || threads < 1 || 64 < threads || model = 0 || !q.unitsOk
      || (id ≠ 0 && (st == .active || st == .suspending || st == .suspended)) then s.says .badPacket
  else if (id ≠ 0 && st == .draining) || (s.memory.model == .loading && s.memory.modelId.toNat = model)
      || s.lodge.probation = 1 then s.says .busyRetry
  else match if id = 0 then s.freeCtx else some id with
    | none => (some (s.refusal 5), s)
    | some c =>
      if s.memory.model != .none && s.memory.modelId.toNat ≠ model then (some (s.refusal 4), s)
      else match s.allocate 3 save with
        | none => (some (s.refusal 3), s)
        | some s1 =>
          let s2 := s1.modCtx c fun x =>
            { state := .active, generation := x.generation, priority := cls, maxArrays := arrays, maxThreads := threads
              model := BitVec.ofNat 64 model, quota := q, savePages := save }
          if !s2.claimsFit then (some (s.refusal 3), s)
          else
            let s3 := if s2.memory.model == .none then
                s2.modMem fun m => { m with model := .resident, modelId := BitVec.ofNat 64 model }
              else s2
            (s3.modCmd h fun k => { k with object := some c }).says .done
              (le 2 c ++ le 2 (s3.gen c) ++ le 4 save)

/-- Whether a context that parameters name does not exist (R335). -/
def State.noCtx (s : State) (c : Nat) : Bool := c = 0 || 16383 < c || (s.ctx c).state == .unused

/-- `CTX_DESTROY` and `CTX_RESET` (R351). -/
def State.cmdDrain (s : State) (h : Nat) (p : Bytes) (destroy : Bool) : Answer :=
  let c := field p 0 2
  if s.noCtx c then s.says .noSuchContext
  else if (s.ctx c).state == .draining then s.says .busyRetry
  else ((s.startDrain c h destroy)).waits h (.drain c)

/-- `CTX_SUSPEND` (R351). A context that is being restored is saved again. -/
def State.cmdCtxSuspend (s : State) (h : Nat) (p : Bytes) : Answer :=
  let c := field p 0 2
  if s.noCtx c then s.says .noSuchContext
  else match (s.ctx c).state with
    | .draining | .unused => s.says .busyRetry
    | .active => (s.suspendCtx c .host 0).waits h (.suspend c)
    | .suspending => (s.modCtx c fun x => { x with cause := .host }).waits h (.suspend c)
    | .suspended =>
      let s1 := if (s.ctx c).restoring then s.renameThreads c (moveThread c true) else s
      (s1.modCtx c fun x => { x with cause := .host, restoring := false }).says .done

/-- `CTX_RESUME` (R231, R351, R356). -/
def State.cmdCtxResume (s : State) (h : Nat) (p : Bytes) : Answer :=
  let c := field p 0 2
  let x := s.ctx c
  if s.noCtx c then s.says .noSuchContext
  else if x.state == .draining || x.state == .suspending then s.says .busyRetry
  else if x.notice.spilled + x.notice.dropped ≠ 0 then (s.modCtx c fun x => { x with notice := {} }).says .evicted
  else if x.state == .active then s.says .done
  else
    let s1 := (s.modCtx c fun x => { x with resumeCmd := some (x.resumeCmd.getD h)
                                            resumeAt := if x.resumeCmd.isSome then x.resumeAt else s.now }).modCmd h
      fun k => { k with work := .resume c }
    let s2 := s1.readmit c
    if (s2.ctx c).restoring then (none, s2)
    else (none, s2.interim h .queued (s2.admitRecord 1 0 0 (s2.waitItems.idxOf (.context c)) 0))

/-- A context state's code (R347). -/
def CtxState.code : CtxState → Nat
  | .unused => 0 | .active => 1 | .suspending => 2 | .suspended => 3 | .draining => 4

/-- A suspend cause's code (R352). -/
def SuspendCause.code : SuspendCause → Nat
  | .none => 0 | .host => 1 | .displaced => 2

/-- The snapshot record of a context (R352). -/
def State.ctxRecord (s : State) (c : Nat) : Bytes :=
  let x := s.ctx c
  let mine := s.launches.filter fun e => e.2.ctx == c
  let held := (s.stashesOf c).filter fun e => e.state != .downgraded
  le 2 c ++ le 2 x.generation ++ le 1 x.state.code ++ le 1 x.cause.code ++ le 1 x.priority ++ le 1 x.maxArrays
    ++ le 1 x.maxThreads ++ zeros 3 ++ le 4 (mine.filter fun e => !e.2.admitted).length ++ le 8 x.model.toNat
    ++ le 4 x.savePages ++ le 4 (mine.filter fun e => e.2.admitted).length ++ le 8 (s.framesHeld c)
    ++ le 8 s.poolCapacity.toNat ++ le 8 s.freeFrames ++ le 8 (chargeOf (held.filter (·.inCellar)))
    ++ le 8 (chargeOf (held.filter fun e => !e.inCellar)) ++ le 8 x.pantryPeak ++ le 4 x.pantryDowngrades ++ zeros 4
    ++ le 8 x.notice.spilled ++ le 8 x.notice.dropped ++ le 8 x.notice.firstDropped ++ le 8 x.notice.time
    ++ le 4 x.preemptCount ++ zeros 4 ++ le 8 x.lastPreempt ++ le 8 x.lastElapsed ++ le 8 x.lastQueued
    ++ le 8 x.lastSuspended ++ le 8 x.lastContended ++ le 4 x.lastSlowdown ++ zeros 4 ++ le 8 x.totalElapsed
    ++ le 8 x.totalLost ++ x.quota.bytes ++ zeros 8

/-- `CTX_QUERY` (R351, R352). -/
def State.cmdCtxQuery (s : State) (k : OutCmd) (p : Bytes) : Answer :=
  let c := field p 0 2
  let out := field p 8 8
  if k.ctx ≠ 0 && k.ctx ≠ c then s.says .notPermitted
  else if s.noCtx c then s.says .noSuchContext
  else if !k.outOk out then s.says .badPacket
  else (some { code := .done, outAddr := out, data := s.ctxRecord c }, s)

/-! ### Rings (R324, R345) -/

/-- Whether a ring's table entry is valid (R325). -/
def Ring.valid (r : Ring) : Bool :=
  r.cmdBase % 4096 = 0 && r.replyBase % 4096 = 0 && 7 ≤ r.cmdLog2 && r.cmdLog2 ≤ 16 && 6 ≤ r.replyLog2
    && r.replyLog2 ≤ 16

/-- A ring is bound: its indices and `OUTSTANDING` are 0 (R325). -/
def Ring.bindTo (r : Ring) (c : Nat) : Ring :=
  { r with state := .bound, stopCause := 0, boundCtx := c, cmdHead := 0, replyTail := 0, cmdTail := 0, replyHead := 0
           outstanding := 0, backlogSince := 0 }

/-- `RING_BIND` (R324). A ring that is not `UNBOUND`, or whose entry is not valid, is refused, and so is ring 0 for a
tenant (notes/assumptions/30.md). -/
def State.cmdRingBind (s : State) (p : Bytes) : Answer :=
  let n := field p 0 2
  let c := field p 2 2
  if c ≠ 0 && s.noCtx c then s.says .noSuchContext
  else if c ≠ 0 && (s.ctx c).state == .draining then s.says .busyRetry
  else if (s.ring n).state != .unbound || !(s.ring n).valid || (n = 0 && c ≠ 0) then s.says .badPacket
  else (s.modRing n fun r => r.bindTo c).says .done

/-- `RING_UNBIND` (R324, R345). A ring that is `UNBOUND` or `DRAINING` is refused (notes/assumptions/30.md). -/
def State.cmdRingUnbind (s : State) (k : OutCmd) (p : Bytes) : Answer :=
  let n := field p 0 2
  let st := (s.ring n).state
  if n = 0 || (k.header.session = 0 && n = k.header.ring) || !(st == .bound || st == .stopped) then s.says .badPacket
  else (s.modRing n fun r => { r with state := .draining }).says .done

end Sys2Proof.Machine
end

