-- ==== Sys2Proof/Machine/MemoryCmds.lean ====
section
/-! DEFINITION. The meanings of the memory commands (R217 to R229, R238 to R240, R338, R486). -/

namespace Sys2Proof.Machine

/-! ### Mapping (R217, R220, R221) -/

/-- The pages of a whole-page range. -/
def pagesOf (base len : Nat) : List Nat := unitsOf pageBytes base len

/-- Whether a base and a length are whole pages of the device range. -/
def wholePages (base len : Nat) : Bool := base % pageBytes = 0 && len % pageBytes = 0 && base + len ≤ deviceEnd

/-- Maps pages with new frames, whose every line is ordinary; they read as zero (R217, R220). The hint of a `DROPPED` page
stays: it was not unmapped (R226). -/
def State.mapPages (s : State) (ps : List Nat) (owner : Owner) (cls : Nat) (rw : Bool) (st : PageState) : State :=
  ps.foldl (fun s i =>
    let hint := ((Map.get? s.memory.pages i).map (·.hint)).getD 0
    ((s.forgetLost i).freshFrame s.takeFrame).modMem fun m =>
      { m with pages := Map.put m.pages i
                 { owner := owner, cls := cls, rw := rw, state := st, frame := s.takeFrame, hint := hint } }) s

/-- `MEM_MAP` (R217). -/
def State.cmdMemMap (s : State) (k : OutCmd) (p : Bytes) : Answer :=
  let base := field p 0 8
  let len := field p 8 8
  let cls := field p 16 1
  let acc := field p 17 1
  let ps := pagesOf base len
  let taken := fun (i : Nat) => (Map.get? s.memory.pages i).any fun q => q.state != .dropped || q.owner != .ctx k.ctx
  if !wholePages base len || 2 < cls || 1 < acc || ps.any taken then s.says .badPacket
  else match s.ctxAllocate k.ctx ps.length with
    | none => s.says .refusedCapacity
    | some s1 => (s1.mapPages ps (.ctx k.ctx) cls (acc = 1) .resident).says .done

/-- Unmaps the pages of a range (R220). -/
def State.unmapRange (s : State) (base len : Nat) : State := (pagesOf base len).foldl State.unmapPage s

/-- `MEM_UNMAP` (R220, R221, R486): it waits for the repairs in its range. A `DROPPED` page of the issuer is
unmapped too. -/
def State.cmdMemUnmap (s : State) (h : Nat) (k : OutCmd) (p : Bytes) : Answer :=
  let base := field p 0 8
  let len := field p 8 8
  let mine := fun (i : Nat) => (Map.get? s.memory.pages i).any fun q => q.owner == .ctx k.ctx
  if !wholePages base len || !(pagesOf base len).all mine then s.says .badPacket
  else if (s.repairingIn base len).isEmpty then (s.unmapRange base len).says .done
  else s.waits h (.unmap base len)

/-- `MEM_UNMAP` commands whose repairs have ended go on (R221). -/
def State.unmapPump (s : State) : State :=
  s.host.commands.foldl (fun s e => match e.2.work with
    | .unmap base len =>
      if (s.repairingIn base len).isEmpty then (s.unmapRange base len).finishCmd e.1 (Reply.of .done) else s
    | _ => s) s

/-! ### Pins and hints (R225, R226) -/

/-- Whether a page is the context's own and mapped, or a pool page. -/
def State.pinnable (s : State) (c i : Nat) : Bool :=
  (Map.get? s.memory.pages i).any fun q => q.isMapped && (q.owner == .ctx c || q.owner == .pool)

/-- Granules that a context pins. -/
def State.pinsOf (s : State) (c : Nat) : Nat := (s.memory.granules.filter fun e => e.2.pins.contains c).length

/-- Makes room in a slice for one granule, where a cache granule can leave (R223, R225). -/
def State.sliceRoom (s : State) (a : Nat) : Option State :=
  let leave := fun (v : Nat) => let r := s.freeGranule v; if r.1 then some r.2 else none
  if s.sliceUse a < 192 && s.cellarUse + s.pantryGranules < 192 * s.arraysInService.length then some s
  else match s.oldestCache (· == a) with
    | some v => leave v
    | none => if s.sliceUse a < 192 then (s.oldestCache fun _ => true).bind leave else none

/-- A context's pin of a granule, with the slice that it is placed in. -/
def State.pin (s : State) (c g a : Nat) : State :=
  s.modGranule g fun x => { x with pins := if x.pins.contains c then x.pins else c :: x.pins, home := x.home.or (some a) }

/-- Pins a granule in the first slice of a list that has room (R225). A granule that such a slice holds stays there, and one
that another context pins stays where that pin placed it. A page that is away has no granule in the cellar (R215): its pin is
placed when the page returns. -/
def State.pinGranule (s : State) (c g : Nat) (slices : List Nat) : Option State :=
  let x := Map.getD s.memory.granules g {}
  let away := (Map.get? s.memory.pages (g / 32)).any Page.isAway
  if away || !x.pins.isEmpty then some (s.pin c g (slices.headD 0))
  else match slices.find? x.within with
    | some a => some (s.pin c g a)
    | none => slices.findSome? fun a => (s.sliceRoom a).map fun s1 =>
        (s1.pin c g a).modGranule g fun x => { x with switchTo := some (some a) }

/-- The pinned granules of a page that has returned go back to their slices, where there is room (R225, R230). -/
def State.placePins (s : State) (i : Nat) : State :=
  (countUp (i * 32) 1 32).foldl (fun (s : State) g =>
    let x := Map.getD s.memory.granules g {}
    match x.home with
    | none => s
    | some a =>
      if x.pins.isEmpty || x.slice.isSome || x.switchTo.isSome then s
      else match s.sliceRoom a with
        | none => s
        | some s1 => s1.modGranule g fun x => { x with switchTo := some (some a) }) s

/-- Pins granules round-robin over slices, or none (R225). -/
def State.pinAll (s : State) (c : Nat) (gs slices : List Nat) : Option State :=
  (gs.zipIdx).foldl (fun o g => o.bind fun s => s.pinGranule c g.1 (slices.rotateLeft (g.2 % max slices.length 1)))
    (some s)

/-- `MEM_PIN` (R225, R486). -/
def State.cmdMemPin (s : State) (k : OutCmd) (p : Bytes) : Answer :=
  let base := field p 0 8
  let len := field p 8 8
  let mask := field p 16 8
  let flags := field p 24 1
  let gs := unitsOf granuleBytes base len
  let named := (List.range 64).filter fun a => bitOf mask a
  let slices := if mask = 0 then s.arraysInService else named
  if named.any fun a => s.variant.arrays ≤ a then s.says .unsupported
  else if named.any fun a => !s.arraysInService.contains a then s.says .busyRetry
  else if base % granuleBytes ≠ 0 || len % granuleBytes ≠ 0 || 1 < flags then s.says .badPacket
  else if !gs.all fun g => s.pinnable k.ctx (g / 32) then s.says .badPacket
  else if flags = 1 then
    (gs.foldl (fun s g => s.modGranule g fun x =>
      let left := x.pins.filter (· ≠ k.ctx)
      { x with pins := left, home := if left.isEmpty then none else x.home }) s).says .done
  else
    let fresh := gs.filter fun g => !(Map.getD s.memory.granules g {}).pins.contains k.ctx
    if (s.ctx k.ctx).quota.cellarPinLimit < s.pinsOf k.ctx + fresh.length then s.says .refusedCapacity
    else match s.pinAll k.ctx fresh slices with
      | none => s.says .refusedCapacity
      | some s1 => s1.says .done

/-- `PREFETCH` of one granule: it is promoted where there is room, or where an older cache granule can leave; which
slice it enters, the spec leaves open (notes/assumptions/31.md). A page with no frame has nothing to promote (R215). -/
def State.prefetch (s : State) (g : Nat) : Bool × State :=
  let x := Map.getD s.memory.granules g {}
  let as := s.arraysInService
  let a := as.getD (g % max as.length 1) 0
  if (Map.get? s.memory.pages (g / 32)).any Page.isAway then (false, s)
  else if x.slice.isSome || x.switchTo.isSome then (true, s)
  else
    let older := match s.oldestCache (· == a) with
      | some v =>
        let y := Map.getD s.memory.granules v {}
        y.cold || y.lastTouch ≤ x.lastTouch
      | none => false
    if s.sliceUse a < 192 || older then
      match s.sliceRoom a with
      | some s1 => (true, s1.modGranule g fun x => { x with switchTo := some (some a) })
      | none => (false, s)
    else (false, s)

/-- Retries the repair of the lost lines of a page (R226, R244). -/
def State.retryRepairs (s : State) (i : Nat) : State :=
  (s.lostIn (i * pageBytes) pageBytes).foldl (fun s l =>
    (s.modMem fun m =>
      { m with lost := m.lost.filter (· ≠ l)
               lostPages := m.lostPages.map fun e => if e.1 = i then (e.1, l :: e.2) else e }).startRepair l) s

/-- One page's hint (R226): `COLD` needs a cache granule, and `REPAIR` a lost line of a page that has its frame, to act on. -/
def State.hintPage (s : State) (c hint i : Nat) : State :=
  let gs := countUp (i * 32) 1 32
  if !s.pinnable c i then s.count cHintsIgnored 0
  else match hint with
    | 0 => gs.foldl (fun s g => if Map.has s.memory.granules g then
        s.modGranule g fun x => { x with cold := false } else s) (s.modPage i fun q => { q with hint := 0 })
    | 1 =>
      let (ok, s1) := gs.foldl (fun (a : Bool × State) g =>
        let (b, s2) := a.2.prefetch g
        (a.1 && b, s2)) (true, s)
      if ok then s1 else s1.count cHintsIgnored 0
    | 2 =>
      let held := gs.filter fun g => (Map.getD s.memory.granules g {}).slice.isSome
      if held.isEmpty then s.count cHintsIgnored 0
      else held.foldl (fun s g => s.modGranule g fun x => { x with cold := true }) s
    | 3 => s.modPage i fun q => { q with hint := 3 }
    | _ =>
      if (Map.get? s.memory.pages i).any Page.isAway || (s.lostIn (i * pageBytes) pageBytes).isEmpty then
        s.count cHintsIgnored 0
      else s.retryRepairs i

/-- `MEM_HINT` (R226): a hint that cannot act on a page is counted. -/
def State.cmdMemHint (s : State) (k : OutCmd) (p : Bytes) : Answer :=
  let base := field p 0 8
  let len := field p 8 8
  let hint := field p 16 1
  if !wholePages base len || 4 < hint then s.says .badPacket
  else ((pagesOf base len).foldl (fun s i => s.hintPage k.ctx hint i) s).says .done

/-! ### Copies and fills (R338, R486) -/

/-- Begins the return of the spilled pages of ranges for a context (R230). -/
def State.returnRanges (s : State) (c : Nat) (rs : List (Nat × Nat)) : Option State :=
  s.beginReturns (s.allocClass c) (rs.flatMap fun r => s.awayPages r.1 r.2).eraseDups

/-- `MEM_COPY` (R338, R427, R486). -/
def State.cmdMemCopy (s : State) (h : Nat) (k : OutCmd) (p : Bytes) : Answer :=
  let src := field p 0 8
  let dst := field p 8 8
  let len := field p 16 8
  let fl := field p 24 1
  let srcHost := bitOf fl 0
  let dstHost := bitOf fl 1
  if 2 < fl || len % 16 ≠ 0 || 1073741824 < len || src % 16 ≠ 0 || dst % 16 ≠ 0
      || (!srcHost && !dstHost && rangesMeet (src, len) (dst, len))
      || (!srcHost && !s.canRead k.ctx src len) || (!dstHost && !s.canWrite k.ctx dst len) then s.says .badPacket
  else
    let rs := (if srcHost then [] else [(src, len)]) ++ (if dstHost then [] else [(dst, len)])
    match s.returnRanges k.ctx rs with
    | none => s.says .refusedCapacity
    | some s1 => s1.waits h (if srcHost then .copyIn dst len else .copy src dst len dstHost)

/-- `MEM_FILL` (R338, R486). -/
def State.cmdMemFill (s : State) (h : Nat) (k : OutCmd) (p : Bytes) : Answer :=
  let dst := field p 0 8
  let len := field p 8 8
  if len % 16 ≠ 0 || 1073741824 < len || dst % 16 ≠ 0 || !s.canWrite k.ctx dst len then s.says .badPacket
  else match s.returnRanges k.ctx [(dst, len)] with
    | none => s.says .refusedCapacity
    | some s1 => s1.waits h (.fill dst len (BitVec.ofNat 64 (field p 16 8)))

/-- A pattern repeated little-endian over n bytes (R338). -/
def patternBytes (w : Word) (n : Nat) : Bytes := ((List.replicate (n / 8) (le 8 w.toNat)).flatten)

/-- The destination lines of a copy that come from lost lines (R244). -/
def State.lostTargets (s : State) (src dst len : Nat) : List Nat :=
  ((s.lostIn src len).flatMap fun l =>
    let a := max (l * lineBytes) src
    let b := min ((l + 1) * lineBytes) (src + len)
    unitsOf lineBytes (dst + (a - src)) (b - a)).eraseDups

/-- A local copy or fill writes its range (R243, R244, R338, R426, R427), once its pages are back and no line it
meets is under repair. -/
def State.copyGo (s : State) (h : Nat) : State :=
  match s.cmd? h with
  | none => s
  | some k =>
    let away := fun (a n : Nat) => !(s.awayPages a n).isEmpty
    match k.work with
    | .fill dst len w =>
      if away dst len || !s.writable [(dst, len)] then s
      else if !s.canWrite k.ctx dst len then s.finishCmd h (Reply.of .badPacket)
      else (s.store dst (patternBytes w len)).finishCmd h (Reply.of .done)
    | .copy src dst len dstHost =>
      if away src len || (!dstHost && away dst len) then s
      else if !s.canRead k.ctx src len || (!dstHost && !s.canWrite k.ctx dst len) then
        s.finishCmd h (Reply.of .badPacket)
      else
        let (s1, ready) := s.sourcesReady [(src, len)]
        if !ready || (!dstHost && !s1.writable [(dst, len)]) then s1
        else
          let lost := !(s1.lostIn src len).isEmpty
          let s2 := (s1.touch src len).countLost src len
          let code := Reply.of (if lost then .weightLost else .done)
          if dstHost then
            match (unitsOf pageBytes src len).findSome? fun i => s2.loanOf (i * pageBytes) with
            | some id => (s2.countSuppressed id len).finishCmd h (Reply.of .done)
            | none => ((countUp 0 16 (len / 16)).foldl (fun (s : State) o =>
                if (s.lostIn (src + o) 16).isEmpty then s.busWrite (dst + o) (s.bytesAt (src + o) 16) else s) s2).finishCmd
                  h code
          else
            let ls := s2.lostTargets src dst len
            (((s2.store dst (s2.bytesAt src len)).markLost ls).bind src len dst len).finishCmd h code
    | _ => s

/-- A copy whose host read fails leaves each 16-byte unit of its destination old or new (R486): a free bit for each tells, and
the host's bytes are free. -/
def State.copyCut (s : State) (dst len : Nat) : State :=
  (countUp dst 16 (len / 16)).foldl (fun (s : State) a =>
    let (i, s1) := s.free 17
    if (Config.freeValue i).getLsbD 0 then s1.store a (Config.freeBytes (i + 1) 16) else s1) s

/-- The bytes of a host read arrive for a `MEM_COPY`, or the read fails (R486). -/
def State.copyInGo (s : State) (h : Nat) (dst len : Nat) (data : BusData) : State :=
  match data with
  | .error =>
    let c := ((s.cmd? h).map (·.ctx)).getD 0
    let s1 := if (s.awayPages dst len).isEmpty && s.canWrite c dst len then s.copyCut dst len else s
    (s1.count cDmaReadErrors 0).finishCmd h (Reply.of .badPacket)
  | .bytes bs =>
    let c := ((s.cmd? h).map (·.ctx)).getD 0
    if !(s.awayPages dst len).isEmpty || !s.writable [(dst, len)] then s
    else if !s.canWrite c dst len then s.finishCmd h (Reply.of .badPacket)
    else (s.store dst (padTo len bs)).finishCmd h (Reply.of .done)

/-! ### `POOL_QUOTA` (R227, R229) -/

/-- The fields that a mask selects, from one set of quotas into another. -/
def Quota.select (old new : Quota) (mask : Nat) : Quota :=
  { atticGuarantee := if bitOf mask 0 then new.atticGuarantee else old.atticGuarantee
    atticLimit := if bitOf mask 1 then new.atticLimit else old.atticLimit
    cellarPinLimit := if bitOf mask 2 then new.cellarPinLimit else old.cellarPinLimit
    pantryCellarLimit := if bitOf mask 3 then new.pantryCellarLimit else old.pantryCellarLimit
    pantryLimit := if bitOf mask 4 then new.pantryLimit else old.pantryLimit
    spillBase := if bitOf mask 5 then new.spillBase else old.spillBase
    spillLength := if bitOf mask 6 then new.spillLength else old.spillLength }

/-- `POOL_QUOTA` (R229, R338): a setting that raises a claim beyond the pool or the cellar is refused. -/
def State.cmdPoolQuota (s : State) (p : Bytes) : Answer :=
  let c := field p 0 2
  let mask := field p 4 4
  let new := Quota.read (p.drop 8)
  if 127 < mask then s.says .badPacket
  else if s.noCtx c then s.says .noSuchContext
  else if !(Quota.select {} new mask).unitsOk then s.says .badPacket
  else
    let s1 := s.modCtx c fun x => { x with quota := x.quota.select new mask }
    if (s.poolClaims < s1.poolClaims && s1.poolCapacity < (s1.poolClaims : Int))
        || (s.cellarClaims < s1.cellarClaims && s1.cellarBytes < s1.cellarClaims + 16777216) then
      s.says .refusedCapacity
    else s1.says .done

/-! ### `PROVENANCE_SET` (R238, R239) -/

/-- What is left of a record outside a range: the part before it and the part after it (R239). -/
def Provenance.outside (r : Provenance) (base len : Nat) : List Provenance :=
  let stop := r.base + r.length
  let keep := fun (a b : Nat) => r.stale.filter fun g => a ≤ g * granuleBytes && g * granuleBytes < b
  (if r.base < base then
      let e := min base stop
      [{ r with length := e - r.base, stale := keep r.base e }]
    else [])
  ++ (if base + len < stop then
      let b := max (base + len) r.base
      [{ r with base := b, length := stop - b, stale := keep b stop
                sources := r.sources.map fun x => { x with address := x.address + (b - r.base) } }]
    else [])

/-- Whether a range lies within one slot range of a region (R239). -/
def Region.holdsSlot (r : Region) (base len : Nat) : Bool := r.holds (base, len) ||
  (r.base1 ≤ base && base + len ≤ r.base1 + r.length)

/-- `PROVENANCE_SET` (R238, R239). -/
def State.cmdProvenance (s : State) (k : OutCmd) (p : Bytes) : Answer :=
  let base := field p 0 8
  let len := field p 8 8
  let n := field p 0x10 1
  let track := field p 0x11 1
  let region := field p 0x12 2
  let srcs := (List.range n).map fun i =>
    ({ kind := field p (0x20 + 16 * i) 1, device := field p (0x22 + 16 * i) 2, address := field p (0x28 + 16 * i) 8 } : Source)
  let badSrc := fun (x : Source) => x.kind < 1 || 3 < x.kind || (x.kind ≠ 2 && x.device ≠ 0)
  if !s.variant.partyWall && (srcs.take 3).any (·.kind = 1) then s.says .unsupported
  else if base % granuleBytes ≠ 0 || len % granuleBytes ≠ 0 || 3 < n || 1 < track || (track = 0 && region ≠ 0)
      || srcs.any badSrc then s.says .badPacket
  else if !s.canRead k.ctx base len then s.says .badPacket
  else if srcs.any fun x => x.kind = 2 && (s.suppressedBy base len x.device).isSome then s.says .notPermitted
  else if track = 1 && (srcs.any (·.kind ≠ 2)
      || !((s.regions k.ctx)[region]?).any fun r => r.holdsSlot base len) then s.says .badPacket
  else
    let old := s.memory.provenance.flatMap fun r =>
      if rangesMeet (r.base, r.length) (base, len) then r.outside base len else [r]
    let new : List Provenance := old ++ (if n = 0 || len = 0 then [] else
      [{ base := base, length := len, slotMatch := track = 1, region := region, origin := k.ctx, sources := srcs }])
    if 16384 < new.length then s.says .refusedCapacity
    else (s.modMem fun m => { m with provenance := new }).says .done

end Sys2Proof.Machine
end

