-- ==== Sys2Proof/Machine/SecurityCmds.lean ====
section
/-! DEFINITION. The Strongroom's commands and the resident model: loans (R420 to R424), attestation (R428 to R430),
`IDENTITY_READ` (R416, R417, R433), `MODEL_LOAD` and `MODEL_EVICT` (R353 to R355, R425). -/

namespace Sys2Proof.Machine

/-- A security event: a pinned Catalogue entry of a command and attention class 7 (R331, R449). -/
def State.alarm (s : State) (k : OutCmd) (cls index code : Nat) : State :=
  let (e, s1) := s.cmdEntry k cls index code
  s1.raise 7 3 e

/-- A pinned entry of a command (R449). -/
def State.pinEntry (s : State) (k : OutCmd) (cls index : Nat) : State :=
  let (e, s1) := s.cmdEntry k cls index 0
  s1.catalogue { e with pinned := true }

/-! ### Loan records (R420, R421) -/

/-- Bytes of a loan's signature (R420). -/
def loanSigBytes (alg : Nat) : Nat := if alg = 1 then 35664 else 29792

/-- Whether bytes of a record are all zero. -/
def zeroAt (b : Bytes) (off n : Nat) : Bool := ((b.drop off).take n).all (· == 0)

/-- The device entries of a record. -/
def loanEntries (b : Bytes) : List Bytes :=
  (List.range (field b 6 2)).map fun i => (b.drop (256 + 1624 * i)).take 1624

/-- Whether numbers strictly rise. -/
def rising : List Nat → Bool
  | [] => true
  | [_] => true
  | a :: b :: xs => a < b && rising (b :: xs)

/-- Whether a record keeps the layout of R420. -/
def loanWellFormed (b : Bytes) (len : Nat) : Bool :=
  let n := field b 6 2
  let alg := field b 0x30 1
  field b 0 4 = 0x524E4C54 && field b 4 2 = 1 && 1 ≤ n && n ≤ 4096 && field b 8 8 ≠ 0 && field b 0x28 8 % 4096 = 0
    && (alg = 1 || alg = 2) && zeroAt b 0x31 15 && zeroAt b 0x80 128 && (alg = 2 || zeroAt b 0x70 16)
    && len = 256 + 1624 * n + loanSigBytes alg && rising ((loanEntries b).map fun e => field e 0 2)
    && (loanEntries b).all fun e => zeroAt e 2 6 && zeroAt e 0x650 8

/-- The weight key that a record's entry for a device holds, where it decapsulates and unwraps (R421). -/
def loanKey (b : Bytes) (dev : Nat) : Option Bytes :=
  ((loanEntries b).find? fun e => field e 0 2 = dev).bind fun e =>
    (Config.decapsulate ((e.drop 8).take 1568)).bind fun ss =>
      Config.keyUnwrap (Config.hkdf ss (le 8 (field b 8 8)) (ascii "EOMIR-LOAN" ++ le 2 dev) 32) ((e.drop 0x628).take 40)

/-- Why a record is refused, in the order of R422: a code, and whether attention class 7 is raised; none where it is
good, with its key. -/
def State.loanCheck (s : State) (b : Bytes) (len : Nat) : Except (Code × Bool) Bytes :=
  let n := field b 6 2
  let alg := field b 0x30 1
  let pk := (b.drop 0x40).take (if alg = 1 then 48 else 64)
  let signed := b.take (256 + 1624 * n)
  let before := field b 0x18 8
  let after := field b 0x20 8
  let id := BitVec.ofNat 64 (field b 8 8)
  let digest := Config.sha256 b
  if !loanWellFormed b len then .error (.badPacket, false)
  else if !Config.verify alg pk signed (b.drop (256 + 1624 * n)) then .error (.notPermitted, true)
  else if !(loanEntries b).any fun e => field e 0 2 = s.lodge.deviceId then .error (.notPermitted, false)
  else if ((before ≠ 0 || after ≠ 0) && s.lodge.syncState = 0) || s.now < before || (after ≠ 0 && after ≤ s.now) then
    .error (.notPermitted, false)
  else match loanKey b s.lodge.deviceId with
    | none => .error (.notPermitted, true)
    | some key =>
      if (s.loan? id).any fun l => l.digest = digest then .error (.done, false)
      else if (s.loan? id).isSome || s.strongroom.loans.any fun l => l.model.toNat = field b 0x10 8 then
        .error (.notPermitted, false)
      else if 64 ≤ s.strongroom.loans.length then .error (.refusedCapacity, false)
      else .ok key

/-- `LOAN_PRESENT` (R422, R432): the record is read from the host. No session presents a loan. -/
def State.cmdLoanPresent (s : State) (h : Nat) (k : OutCmd) (p : Bytes) : Answer :=
  if k.header.session ≠ 0 then s.says .notPermitted
  else if s.catalogueFull then s.says .busyRetry
  else s.waits h (.loan (field p 8 4))

/-- The record of a `LOAN_PRESENT` has been read, or its read failed (R422). -/
def State.loanArrives (s : State) (h len : Nat) (data : BusData) : State :=
  match s.cmd? h, data with
  | none, _ => s
  | some _, .error => ((s.count cDmaReadErrors 0).count cLoanRefusals 0).finishCmd h (Reply.of .badPacket)
  | some k, .bytes bs =>
    let b := padTo len bs
    let id := field b 8 8
    match s.loanCheck b len with
    | .error (.done, _) => s.finishCmd h (Reply.of .done)
    | .error (c, loud) =>
      let s1 := s.count cLoanRefusals 0
      (if loud then s1.alarm k 10 id c.num else s1).finishCmd h (Reply.of c)
    | .ok key =>
      let l : Loan :=
        { id := BitVec.ofNat 64 id, model := BitVec.ofNat 64 (field b 0x10 8), notBefore := field b 0x18 8
          notAfter := field b 0x20 8, weightBytes := field b 0x28 8
          devices := (loanEntries b).map fun e => field e 0 2, digest := Config.sha256 b, key := key, presenter := k.ctx }
      let s1 := (s.modSr fun r => { r with loans := r.loans ++ [l] }).count cLoanPresents 0
      (s1.pinEntry k 10 id).finishCmd h (Reply.of .done)

/-! ### Revocation (R423, R424) -/

/-- Pages bound to a loan. -/
def State.boundPages (s : State) (id : Word) : List Nat :=
  (s.memory.pages.filter fun e => e.2.loan == some id).map (·.1)

/-- Whether a context holds a page bound to a loan: its own, or one of the pool that it reads (R219, R423). -/
def State.holdsBound (s : State) (c : Nat) (id : Word) : Bool :=
  s.memory.pages.any fun e => e.2.loan == some id && (e.2.owner == .ctx c || e.2.owner == .pool)

/-- Whether a context that holds a bound page of a loan has a command running (R423). -/
def State.loanBusy (s : State) (id : Word) : Bool :=
  s.launches.any fun e => e.2.admitted && s.holdsBound e.2.ctx id

/-- A loan is revoked (R423): its pages are unmapped, and its key is gone. -/
def State.revokeLoan (s : State) (id : Word) : State :=
  ((s.boundPages id).foldl State.unmapPage s).modSr fun r => { r with loans := r.loans.filter fun l => l.id ≠ id }

/-- `LOAN_REVOKE` (R423, R432). -/
def State.cmdLoanRevoke (s : State) (k : OutCmd) (p : Bytes) : Answer :=
  let id := BitVec.ofNat 64 (field p 0 8)
  if k.header.session ≠ 0 then s.says .notPermitted
  else match s.loan? id with
    | none => s.says .badPacket
    | some l =>
      if k.ctx ≠ 0 && l.presenter ≠ k.ctx then s.says .notPermitted
      else if s.loanBusy id || s.catalogueFull then s.says .busyRetry
      else (((s.revokeLoan id).count cLoanRevocations 0).pinEntry k 10 id.toNat).says .done

/-- `LOAN_EXPIRY` (R424): a loan past its time is revoked once none of its commands runs. -/
def execLoanExpiry (loan : Word) (s : State) : Host.Outcome State Fault Refusal :=
  .next (match s.loan? loan with
    | none => s
    | some l =>
      if l.notAfter = 0 || s.now < l.notAfter || s.loanBusy loan then s
      else ((s.revokeLoan loan).count cLoanRevocations 0).catalogue
        { unitEntry 11 10 loan.toNat with pinned := true })

/-! ### Attestation (R428 to R430) -/

/-- `ATTEST` (R428, R430). -/
def State.cmdAttest (s : State) (h : Nat) (k : OutCmd) (p : Bytes) : Answer :=
  let out := field p 32 8
  if !k.outOk out then s.says .badPacket
  else if s.strongroom.window || 17 ≤ s.strongroom.quotes.length then s.says .busyRetry
  else (s.modSr fun r => { r with quotes := r.quotes ++
    [{ handle := h, nonce := p.take 32, ctx := k.ctx, generation := s.gen k.ctx, outAddr := out }] }).waits h .quote

/-- The manufacture certificate (R416). -/
def State.certificate (s : State) : Bytes :=
  let rest := fun (a n : Nat) => (countUp a 1 n).map Config.certificateByte
  le 4 0x54435A54 ++ le 2 1 ++ le 2 s.variant.partCode ++ le 8 Config.serial.toNat ++ le 8 Config.fleetId.toNat
    ++ rest 0x18 1624 ++ le 32 Config.configSignerHash.toNat ++ zeros 112 ++ rest 0x700 29792

/-- The active firmware slot. -/
def State.activeFw (s : State) : FwSlot := s.lodge.slots.getD s.lodge.activeSlot {}

/-- Whether a CHIP reset is under way (R429). -/
def State.chipResetting (s : State) : Bool := s.host.resetBusy && s.host.resetDomain == 4

/-- The signed part of a quote (R428). -/
def State.quoteBody (s : State) (q : QuoteReq) : Bytes :=
  let ls := s.strongroom.loans.map fun l => le 8 l.id.toNat ++ le 8 l.model.toNat ++ le 32 l.digest.toNat
  let flags := 1 + 2 * b2n s.chipResetting + 4 * b2n s.lodge.trace.running + 8 * b2n (s.lodge.stagedFw.any (·.verified))
  le 4 0x544F5154 ++ le 2 1 ++ le 2 s.variant.partCode ++ le 8 Config.serial.toNat ++ le 2 s.lodge.deviceId
    ++ le 2 s.lodge.incarnation ++ le 2 q.ctx ++ le 2 q.generation ++ le 8 s.now ++ padTo 32 q.nonce
    ++ le 32 Config.bootRomMeasurement.toNat ++ le 32 s.activeFw.digest.toNat ++ le 32 s.lodge.cfgDigest.toNat
    ++ le 4 s.activeFw.version ++ le 1 s.serviceLevel ++ le 1 flags ++ le 2 s.strongroom.loans.length
    ++ le 8 s.strongroom.debugAccesses ++ le 8 s.strongroom.lastDebug ++ le 8 Config.fleetId.toNat
    ++ le 32 (Config.sha256 s.certificate).toNat ++ zeros 32 ++ padTo 3072 ls.flatten

/-- The quote at the head of the queue is signed and written, and its command completes (R428). Once no quote is left,
an activation that waits opens its window (R430). -/
def State.signQuote (s : State) : State :=
  match s.strongroom.quotes with
  | [] => s
  | q :: qs =>
    let b := s.quoteBody q
    let s1 := (s.modSr fun r => { r with quotes := qs }).count cQuotes 0
    let s2 := s1.finishCmd q.handle
      { code := .done, outAddr := q.outAddr, data := b ++ padTo 35664 (Config.identitySign b) }
    if qs.isEmpty && (Map.vals s2.host.commands).any (fun k => k.work == .activate) then
      s2.modSr fun r => { r with window := true }
    else s2

/-- `QUOTE_SIGNED` (R428). -/
def execQuoteSigned (s : State) : Host.Outcome State Fault Refusal := .next s.signQuote

/-- A Strongroom state's code (R433). -/
def SrState.code : SrState → Nat
  | .reconstructing => 0 | .ready => 1 | .failed => 2

/-- The Strongroom record as a context sees it (R433). -/
def State.strongroomRecord (s : State) (c : Nat) : Bytes :=
  let ls := s.strongroom.loans.map fun l =>
    if c = 0 || l.presenter = c then
      le 8 l.id.toNat ++ le 8 l.model.toNat ++ le 2 l.presenter ++ zeros 2 ++ le 4 (s.boundPages l.id).length
        ++ l.suppressed.bytes
    else zeros 32
  le 1 s.strongroom.state.code ++ zeros 1 ++ le 2 s.strongroom.loans.length ++ zeros 4 ++ le 8 Config.fleetId.toNat
    ++ [cLoanPresents, cLoanRefusals, cLoanRevocations, cTransfersSuppressed, cBytesSuppressed, cSealedChunkFails,
        cQuotes, cDebugAccesses].flatMap (fun c => (s.counter c 0).bytes) ++ padTo 2048 ls.flatten

/-- `IDENTITY_READ` (R417, R433). -/
def State.cmdIdentity (s : State) (k : OutCmd) (p : Bytes) : Answer :=
  let sel := field p 0 1
  let out := field p 8 8
  if sel < 1 || 2 < sel || !k.outOk out then s.says .badPacket
  else (some { code := .done, outAddr := out, data := if sel = 1 then s.certificate else s.strongroomRecord k.ctx }, s)

/-! ### The resident model (R353 to R355, R425) -/

/-- The loan present for a model. -/
def State.modelLoan (s : State) (model : Word) : Option Loan := s.strongroom.loans.find? fun l => l.model == model

/-- Bytes of the sealed form of n plaintext bytes (R425). -/
def sealedBytes (n : Nat) : Nat := n + 32 * ceilDiv n 65536

/-- Whether loads other than one are in progress. -/
def State.otherLoads (s : State) (h : Nat) : Bool :=
  s.host.commands.any fun e => e.1 ≠ h && match e.2.work with
    | .loadHost .. | .loadFabric .. => true
    | _ => false

/-- What the model becomes when a load has ended: while others run it is `LOADING`; then its pages are readable
(R354). -/
def State.settleModel (s : State) (h : Nat) : State :=
  if s.otherLoads h then s
  else
    let any := s.modelCharge ≠ 0 || !s.liveCtxs.isEmpty
    s.modMem fun m =>
      { m with model := if any then .resident else .none
               modelId := if any then m.modelId else 0
               pages := Map.mapVals (fun _ q => if q.state == .loading then { q with state := .resident } else q) m.pages }

/-- A load ends without its data: its pages are released, and its reads with it (R354). -/
def State.loadFail (s : State) (h dst len : Nat) (r : Reply) : State :=
  let s1 := (unitsOf pageBytes dst len).foldl State.unmapPage s
  let s2 := s1.modFabric fun f => { f with requests := f.requests.filter fun e => e.2.unit != .modelLoad h }
  (s2.settleModel h).finishCmd h r

/-- Opens sealed chunks (R425): the plaintext of `left` bytes, from the chunks that a source holds; none where a
chunk is bad. `next` is the index expected. -/
def openChunks (l : Loan) : Nat → Nat → Option Nat → Bytes → Option Bytes
  | 0, _, _, _ => none
  | fuel + 1, left, next, b =>
    if left = 0 then some []
    else
      let idx := field b 0 4
      let n := field b 4 4
      let text := (b.drop 16).take n
      let iv := le 8 l.id.toNat ++ le 4 idx
      let aad := le 8 l.id.toNat ++ le 8 l.model.toNat ++ b.take 16
      let tag := BitVec.ofNat 128 (field b (16 + n) 16)
      if n ≠ min left 65536 || !zeroAt b 8 8 || ceilDiv l.weightBytes 65536 ≤ idx || next.any (· ≠ idx)
          || Config.gcmTag l.key iv aad text ≠ tag then none
      else (openChunks l fuel (left - n) (some (idx + 1)) (b.drop (32 + n))).map fun r =>
        padTo n (Config.gcmCrypt l.key iv text) ++ r

/-- The data of a load has arrived: the pages hold it, bound to the model's loan where one is present (R354,
R425). -/
def State.loadData (s : State) (h : Nat) (model : Word) (dst len : Nat) (tight : Bool) (bs : Bytes) : State :=
  let loan := s.modelLoan model
  let plain := if tight then loan.bind fun l => openChunks l (len / 4096 + 1) len none bs else some (padTo len bs)
  match plain, s.cmd? h with
  | none, some k =>
    ((s.count cSealedChunkFails 0).alarm k 10 ((loan.map fun l => l.id.toNat).getD 0) Code.badPacket.num).loadFail h dst len
      (Reply.of .badPacket)
  | some d, _ =>
    let s1 := s.store dst d
    let s2 := match loan with
      | none => s1
      | some l => (unitsOf pageBytes dst len).foldl (fun s i => s.modPage i fun q => { q with loan := some l.id }) s1
    (s2.settleModel h).finishCmd h (Reply.of .done)
  | none, none => s

/-- `MODEL_LOAD` (R219, R354, R398, R425). -/
def State.cmdModelLoad (s : State) (h : Nat) (p : Bytes) : Answer :=
  let id := field p 0 8
  let model := BitVec.ofNat 64 id
  let kind := field p 8 1
  let src := field p 0x10 8
  let dst := field p 0x18 8
  let len := field p 0x20 8
  let ps := unitsOf pageBytes dst len
  if id = 0 || kind < 1 || 2 < kind || src % 4096 ≠ 0 || dst % pageBytes ≠ 0 || len % 4096 ≠ 0 || deviceEnd < dst + len
      || ps.any (Map.has s.memory.pages) then s.says .badPacket
  else if s.lodge.probation = 1 then s.says .busyRetry
  else if s.memory.model != .none && s.memory.modelId ≠ model then (some (s.refusal 4), s)
  else if s.poolCapacity < ((s.poolClaims + ps.length : Nat) : Int) then (some (s.refusal 3), s)
  else match s.allocate 3 ps.length with
    | none => (some (s.refusal 3), s)
    | some s1 =>
      let s2 := (s1.mapPages ps .pool 0 false .loading).modMem fun m => { m with model := .loading, modelId := model }
      let loan := s.modelLoan model
      if kind = 1 then s2.waits h (.loadHost model dst len loan.isSome)
      else
        let dev := devOf (BitVec.ofNat 64 src)
        let tight := loan.any fun l => !l.devices.contains dev
        let n := if tight then sealedBytes len else len
        let s3 := (pieces (n / 4096 + 2) (locOf (BitVec.ofNat 64 src)) n).foldl (fun (s : State) q =>
          (s.request tReadReq dev 0 (globalAddr dev q.1) q.2 (.modelLoad h)).2) s2
        let s4 := s3.modCmd h fun k => { k with work := .loadFabric model (BitVec.ofNat 64 src) dst len tight }
        (none, if n = 0 then s4.loadData h model dst len tight [] else s4)

/-- The host read of a load arrives, or fails (R354). -/
def State.loadHostGo (s : State) (h : Nat) (model : Word) (dst len : Nat) (tight : Bool) : BusData → State
  | .error => (s.count cDmaReadErrors 0).loadFail h dst len (Reply.of .badPacket)
  | .bytes bs => s.loadData h model dst len tight bs

/-- A fabric read of a load is answered: its data is kept, and the last one completes the load. -/
def State.loadFabricGo (s : State) (h : Nat) (off : Nat) (bs : Bytes) : State :=
  match s.cmd? h with
  | none => s
  | some k => match k.work with
    | .loadFabric model _ dst len tight =>
      let s1 := s.modCmd h fun k => { k with data := Map.put k.data off bs }
      if s1.fabric.requests.any fun e => e.2.unit == .modelLoad h then s1
      else s1.loadData h model dst len tight ((Map.vals (Map.put k.data off bs)).flatten)
    | _ => s

/-- `MODEL_EVICT` (R18, R355). -/
def State.cmdModelEvict (s : State) (p : Bytes) : Answer :=
  let model := BitVec.ofNat 64 (field p 0 8)
  let pool := (s.memory.pages.filter fun e => e.2.owner == .pool).map (·.1)
  if s.memory.model != .resident || s.memory.modelId ≠ model then s.says .badPacket
  else if s.twin.stream.any fun t => t.toMirror && (s.ctx t.ctx).model == model then s.says .busyRetry
  else if s.liveCtxs.any fun e => e.2.model == model then s.says .notPermitted
  else ((pool.foldl State.unmapPage s).modMem fun m =>
    { m with model := .none, modelId := 0, poolSequence := m.poolSequence + 1 }).says .done

end Sys2Proof.Machine
end

