-- ==== Sys2Proof/Machine/LaunchCmds.lean ====
section
/-! DEFINITION. The meanings of `LAUNCH` and `BATCH_SUBMIT` (R339, R340, R358, R364), `FENCE` (R343), `STEP_COMMIT`
(R200) and `STEP_ABANDON` (R202). -/

namespace Sys2Proof.Machine

/-- The parameters of R339 as a launch record. -/
def State.readLaunch (s : State) (h : Nat) (k : OutCmd) (p : Bytes) : Launch :=
  let tt := field p 0x28 8
  { ctx := k.ctx, gen := s.gen k.ctx, handle := h, entry := BitVec.ofNat 64 (field p 0 8)
    mask := BitVec.ofNat 64 (field p 8 8), threadsPerArray := field p 0x10 1, policyContinue := field p 0x11 1 = 1
    step := BitVec.ofNat 64 (field p 0x18 8), argBlock := BitVec.ofNat 64 (field p 0x20 8), timetable := tt
    slotCount := if tt = 0 then 0 else field (s.bytesAt tt 32) 4 4, trapArea := field p 0x30 8
    trainTable := field p 0x38 8, takenAt := s.now, cls := (s.ctx k.ctx).priority }

/-- Whether a timetable keeps R340: its header, and its extent with the timer area, in `RW` mappings. -/
def State.timetableOk (s : State) (c tt : Nat) : Bool :=
  let b := s.bytesAt tt 32
  let n := field b 4 4
  tt = 0 || (s.canWrite c tt 32 && field b 0 2 = 1 && field b 2 2 = 0 && zeroAt b 8 24 && 1 ≤ n && n ≤ 65536
    && s.canWrite c tt (32 + 64 * n))

/-- Whether the parameters of a launch keep the rules of R340 that give `BAD_PACKET`, the training table's left
out. -/
def State.launchOk (s : State) (l : Launch) (policy : Nat) : Bool :=
  l.entry.toNat % 16 = 0 && devOf l.entry = s.lodge.deviceId && 1 ≤ l.threadsPerArray && l.threadsPerArray ≤ 64
    && policy ≤ 1 && l.trapArea % 64 = 0 && s.canWrite l.ctx l.trapArea 262144 && s.timetableOk l.ctx l.timetable
    && (l.argBlock = 0 || s.ownsRange l.ctx l.argBlock.toNat 1)

/-- Whether a loan that a context's pages are bound to has run out (R424). -/
def State.loanExpired (s : State) (c : Nat) : Bool :=
  s.strongroom.loans.any fun l => l.notAfter ≠ 0 && l.notAfter ≤ s.now && s.holdsBound c l.id

/-- `LAUNCH` and `BATCH_SUBMIT` (R178, R340, R358, R364, R424). -/
def State.cmdLaunch (s : State) (h : Nat) (k : OutCmd) (p : Bytes) : Answer :=
  let l := s.readLaunch h k p
  let id := s.nextLaunch
  if (List.range 64).any fun a => bitOf l.mask.toNat a && s.variant.arrays ≤ a then s.says .unsupported
  else if s.maskWaits l then s.says .busyRetry
  else if !s.launchOk l (field p 0x11 1) then s.says .badPacket
  else if s.loanExpired k.ctx then s.says .notPermitted
  else if l.trainTable ≠ 0 && s.tableBusy k.ctx id then s.says .busyRetry
  else if l.trainTable ≠ 0 && (s.readTrain k.ctx l.trainTable).isNone then s.says .badPacket
  else
    let s1 := ({ s with launches := Map.put s.launches id l, nextLaunch := id + 1 } : State).modCmd h fun k =>
      { k with work := .launch id }
    (none, s1.submit id)

/-- `FENCE` (R343). -/
def State.cmdFence (s : State) (h : Nat) (k : OutCmd) : Answer :=
  let others := s.host.commands.filter fun e => e.1 ≠ h && e.2.header.ring = k.header.ring
    && e.2.header.session = k.header.session
  if others.isEmpty then s.says .done else s.waits h .fence

/-- `STEP_COMMIT` (R200): a recorded outcome is returned again; otherwise it is held, and for an `ABANDONED` step
with no launch it proceeds at once. -/
def State.cmdStepCommit (s : State) (h : Nat) (k : OutCmd) (p : Bytes) : Answer :=
  let step := field p 0 8
  let gid := field p 8 2
  match s.guard? k.ctx step, s.group? k.ctx gid with
  | none, _ => s.says .badPacket
  | some _, none => s.says .badPacket
  | some g, some _ => match g.outcome with
    | some (c, fl, fd) => (some { code := c, failLogical := fl, failDevice := fd }, s)
    | none =>
      let s1 := (s.modGuard k.ctx step fun g => { g with held := g.held ++ [(h, gid)] }).modCmd h fun k =>
        { k with work := .commit k.ctx step }
      if g.state == .abandoned && (s.stepLaunches k.ctx step).isEmpty && !s.committing k.ctx step then
        (none, s1.commitStart k.ctx step)
      else (none, s1)

/-- Whether a step without a record may receive one (R202). -/
def State.mayAbandon (s : State) (c step : Nat) : Bool :=
  let held := (s.guards.filter fun g => g.ctx == c).map (·.step)
  ((s.ctx c).latestStep.all fun m => step ≤ m + 1) && (held.length < 4 || (least held).any (· < step))

/-- `STEP_ABANDON` (R202). -/
def State.cmdStepAbandon (s : State) (k : OutCmd) (p : Bytes) : Answer :=
  let step := field p 0 8
  match s.guard? k.ctx step with
  | some g => match g.state with
    | .opened => ((s.modGuard k.ctx step fun g => { g with state := .abandoned }).count cStepsAbandoned 0).says .done
    | .abandoned => s.says .done
    | .committing => s.says .busyRetry
    | .committed => s.says .notPermitted
  | none =>
    if s.mayAbandon k.ctx step then ((s.makeGuard k.ctx step .abandoned).count cStepsAbandoned 0).says .done
    else s.says .badPacket

end Sys2Proof.Machine
end

