-- ==== Sys2Proof/Machine/TwinCmds.lean ====
section
/-! DEFINITION. The meanings of the checkpoint and twin commands: `CKPT_BEGIN` (R402), `CKPT_DRAIN` (R405),
`CKPT_RESTORE` (R406, R407), `TWIN_STATE` (R399, R400) and `TWIN_ADOPT` (R408), with the pairing that links and
packets also bring about. notes/assumptions/29.md says what the model fixes here. -/

namespace Sys2Proof.Machine

/-! ### `CKPT_BEGIN` (R402) -/

/-- Reads n range entries of 16 bytes. -/
def rangeTable (b : Bytes) (n : Nat) : List (Nat × Nat) :=
  (List.range n).map fun i => (field b (16 * i) 8, field b (16 * i + 8) 8)

/-- Whether a list of ranges keeps R402: whole pages, mapped by the context, and apart from each other. -/
def State.rangesOk (s : State) (c : Nat) (rs : List (Nat × Nat)) : Bool :=
  (rs.all fun r => r.1 % pageBytes = 0 && r.2 % pageBytes = 0 && r.2 ≠ 0 && s.ownsRange c r.1 r.2) && disjointRanges rs

/-- Whether a `LAUNCH` of a context is running (R402, R407). -/
def State.launchRuns (s : State) (c : Nat) : Bool := s.launches.any fun e => e.2.ctx == c && e.2.admitted

/-- The mirror's size in bytes (R400). -/
def Twin.mirrorBytes (w : Twin) : Nat := w.mirrorGib * 2 ^ 30

/-- The bytes of the entries that stay beside a new one: the `CURRENT` ones (R401). -/
def Twin.currentBytes (w : Twin) : Nat := ((w.own.filter fun e => e.state == .current).map (·.bytes)).sum

/-- Where a new snapshot lies in the twin's mirror: at its start, or at its end while `CURRENT` holds the start. -/
def Twin.newOffset (w : Twin) (bytes : Nat) : Nat :=
  if w.own.any fun e => e.state == .current && e.offset = 0 then w.mirrorBytes - bytes else 0

/-- Whether a loan of the pages of ranges leaves out a checkpoint's destination (R427). -/
def State.loanForbids (s : State) (loans : List Word) (toHost : Bool) (dev : Nat) : Bool :=
  loans.any fun l => toHost || s.outsideSet l dev

/-- `CKPT_BEGIN` (R402, R427, R230). -/
def State.cmdCkptBegin (s : State) (h : Nat) (k : OutCmd) (p : Bytes) : Answer :=
  let id := field p 0 8
  let target := field p 8 1
  let kind := field p 9 1
  let n := field p 10 2
  let dst := field p 16 8
  let rs := rangeTable (p.drop 32) n
  let mirror := target = 1
  let loans := s.loansOf (rangePages rs)
  let bytes := (rs.map (·.2)).sum
  if mirror && !s.variant.partyWall then s.says .unsupported
  else if id = 0 || target < 1 || 2 < target || n < 1 || 254 < n || p.length < 32 + 16 * n
      || (if mirror then kind ≠ 0 || dst ≠ 0 else kind < 1 || 2 < kind || dst % 4096 ≠ 0) || !s.rangesOk k.ctx rs then
    s.says .badPacket
  else if (mirror && s.twin.state == .single)
      || s.loanForbids loans (kind = 1) (if mirror then s.twin.twinDevice else devOf (BitVec.ofNat 64 dst)) then
    s.says .notPermitted
  else if s.launchRuns k.ctx || (s.guards.any fun g => g.ctx == k.ctx && g.state == .committing) || s.twin.stream.isSome
      || (mirror && ((s.port 0).state != .active || !s.twin.peerReady)) then s.says .busyRetry
  else if mirror && s.twin.mirrorBytes < bytes + s.twin.currentBytes then s.says .refusedCapacity
  else match s.beginReturns (s.ctx k.ctx).priority ((rangePages rs).filter fun i =>
      (Map.get? s.memory.pages i).any Page.isAway) with
    | none => s.says .refusedCapacity
    | some s1 =>
      let ckpt := BitVec.ofNat 64 id
      let step := (s.ctx k.ctx).committedStep
      let entry : MirrorEntry :=
        { ownerDevice := s.lodge.deviceId, state := .incoming, ownerCtx := k.ctx, ckptId := ckpt, step := step, bytes := bytes
          offset := s.twin.newOffset bytes, beginTime := s.now, ranges := rs, loans := loans }
      let stream : Stream :=
        { handle := h, ctx := k.ctx, ckptId := ckpt, toMirror := mirror, toHost := kind = 1, dst := BitVec.ofNat 64 dst
          step := step, beginTime := s.now, ranges := rs, left := rangePages rs }
      let s2 := s1.modTwin fun w =>
        { w with stream := some stream
                 own := if mirror then twoEntries ((w.own.filter fun e => e.state != .incoming) ++ [entry]) else w.own }
      let s3 := (s2.count cCkptsBegun 0).modCmd h fun k => { k with work := .ckptBegin }
      (none, s3.streamGo)

/-! ### `CKPT_DRAIN` (R405) -/

/-- `CKPT_DRAIN` (R405, R427). -/
def State.cmdCkptDrain (s : State) (h : Nat) (k : OutCmd) (p : Bytes) : Answer :=
  let ckpt := BitVec.ofNat 64 (field p 0 8)
  let kind := field p 8 1
  let dst := field p 16 8
  if !s.variant.partyWall then s.says .unsupported
  else match s.twin.ownEntry ckpt with
    | none => s.says .badPacket
    | some e =>
      if k.ctx ≠ 0 && k.ctx ≠ e.ownerCtx then s.says .notPermitted
      else if kind < 1 || 2 < kind || (kind = 2 && dst % 16 ≠ 0) then s.says .badPacket
      else if e.state == .lost then ((s.count cTwinCopiesLost 0)).says .twinCopyLost
      else if e.state != .current then s.says .badPacket
      else if s.loanForbids e.loans (kind = 1) (devOf (BitVec.ofNat 64 dst)) then s.says .notPermitted
      else
        let job : MirrorJob :=
          { handle := h, isDrain := true, ckptId := ckpt, ownerDevice := e.ownerDevice, toHost := kind = 1
            dst := BitVec.ofNat 64 dst, ctx := e.ownerCtx, ranges := e.ranges, step := e.step, offset := e.offset, size := e.bytes }
        let s1 := (s.modTwin fun w => { w with jobs := w.jobs ++ [job] }).modCmd h fun k => { k with work := .ckptDrain [] }
        (none, s1.jobGo h)

/-! ### `CKPT_RESTORE` (R406, R407) -/

/-- The header of an image (R406). -/
structure ImageHead where
  count : Nat
  ckptId : Word
  step : Nat
  ownerCtx : Nat
  size : Nat
  digest : Nat
  ok : Bool
  deriving DecidableEq, Repr

/-- Reads an image's header from its 128 bytes. -/
def ImageHead.read (b : Bytes) : ImageHead :=
  { count := field b 6 2, ckptId := BitVec.ofNat 64 (field b 8 8), step := field b 0x10 8, ownerCtx := field b 0x1A 2
    size := field b 0x28 8, digest := field b 0x30 32
    ok := field b 0 4 = 0x504B4354 && field b 4 2 = 1 && 1 ≤ field b 6 2 && field b 6 2 ≤ 254 }

/-- Where an image's data starts (R406). -/
def ImageHead.dataAt (h : ImageHead) : Nat := ceilDiv (128 + 16 * h.count) 4096 * 4096

/-- Bytes of the whole image. -/
def ImageHead.total (h : ImageHead) : Nat := h.dataAt + h.size

/-- Whether every range lies in `RW` mappings of a context (R407). -/
def State.restorable (s : State) (c : Nat) (rs : List (Nat × Nat)) : Bool :=
  rs.all fun r => r.1 + r.2 ≤ deviceEnd && s.canWrite c r.1 r.2

/-- The next read of an image from a global address: its header, then the rest up to 4 KiB at a time. -/
def State.restoreFetch (s : State) (h : Nat) (ctx : Nat) (src : Word) (off len : Nat) : State :=
  (s.request tReadReq (devOf src) ctx (src + BitVec.ofNat 64 off) (min len (4096 - (src.toNat + off) % 4096)) (.drainWrite h)).2

/-- `CKPT_RESTORE` (R407, R410, R230). -/
def State.cmdCkptRestore (s : State) (h : Nat) (k : OutCmd) (p : Bytes) : Answer :=
  let ckpt := BitVec.ofNat 64 (field p 0 8)
  let kind := field p 8 1
  let owner := field p 10 2
  let src := field p 16 8
  if kind = 1 && !s.variant.partyWall then s.says .unsupported
  else if kind < 1 || 3 < kind || (kind = 1 && src ≠ 0) || (kind = 3 && src % 16 ≠ 0) then s.says .badPacket
  else if kind = 1 then
    let dev := if owner = 0 then s.lodge.deviceId else owner
    match s.twin.own.find? fun e => e.ckptId == ckpt && e.state != .empty && e.ownerDevice = dev with
    | none => if s.twin.adoptedLost then (some s.copyLost, s.count cTwinCopiesLost 0) else s.says .badPacket
    | some e =>
      if e.ownerCtx ≠ k.ctx then s.says .notPermitted
      else if e.state == .lost then (some s.copyLost, s.count cTwinCopiesLost 0)
      else if e.state != .current || !s.restorable k.ctx e.ranges then s.says .badPacket
      else if s.launchRuns k.ctx then s.says .busyRetry
      else match s.returnRanges k.ctx e.ranges with
        | none => s.says .refusedCapacity
        | some s1 =>
          let job : MirrorJob :=
            { handle := h, isDrain := false, ckptId := ckpt, ownerDevice := e.ownerDevice, ctx := k.ctx, ranges := e.ranges
              step := e.step, offset := e.offset, size := e.bytes }
          let s2 := ((s1.modTwin fun w => { w with jobs := w.jobs ++ [job] }).count cRestores 0).modCmd h fun k =>
            { k with work := .ckptRestore true }
          (none, s2.jobGo h)
  else if s.launchRuns k.ctx then s.says .busyRetry
  else
    let job : MirrorJob :=
      { handle := h, isDrain := false, ckptId := ckpt, ownerDevice := s.lodge.deviceId, toHost := kind = 2
        dst := BitVec.ofNat 64 src, ctx := k.ctx }
    let s1 := ((s.modTwin fun w => { w with jobs := w.jobs ++ [job] }).count cRestores 0).modCmd h fun k =>
      { k with work := .ckptRestore false }
    (none, if kind = 2 then s1 else s1.restoreFetch h k.ctx (BitVec.ofNat 64 src) 0 128)

/-- What the header of a stored image answers before anything is written; none where it may be restored (R407). -/
def State.headRefused (s : State) (j : MirrorJob) (head : ImageHead) : Option Code :=
  if !head.ok || head.ckptId ≠ j.ckptId then some .badPacket
  else if head.ownerCtx ≠ j.ctx then some .notPermitted
  else none

/-- A stored image has been read whole: its ranges are checked, their pages returned (R230), written, and the digest
compared; where that differs, what the ranges hold is open (R407). -/
def State.restoreImage (s : State) (h : Nat) (j : MirrorJob) (image : Bytes) : State :=
  let head := ImageHead.read image
  let table := (image.drop 128).take (16 * head.count)
  let rs := rangeTable table head.count
  let data := (image.drop head.dataAt).take head.size
  if (rs.map (·.2)).sum ≠ head.size || !s.restorable j.ctx rs then s.endJob h (Reply.of .badPacket)
  else if rs.any fun r => !(s.awayPages r.1 r.2).isEmpty then
    match s.returnRanges j.ctx rs with
    | none => s.endJob h (Reply.of .refusedCapacity)
    | some s1 => s1.modTwin fun w => { w with jobs := w.jobs.map fun x => if x.handle = h then { x with ranges := rs } else x }
  else
    let place := fun (s : State) (bs : Bytes) => (rs.foldl (fun (r : State × Nat) x =>
      (r.1.store x.1 ((bs.drop r.2).take x.2), r.2 + x.2)) (s, 0)).1
    if (Config.sha256 (table ++ data)).toNat = head.digest then
      (place s data).endJob h { code := .done, result := le 8 head.step }
    else
      let (i, s1) := s.free head.size
      (place s1 (Config.freeBytes i head.size)).endJob h (Reply.of .badPacket)

/-- Bytes of a stored image arrive for a restore (R407): after the header the rest is asked for. A read of the bus
gives the header first and then all that follows it. -/
def State.restoreData (s : State) (h : Nat) (bs : Bytes) : State :=
  match s.job? h with
  | none => s
  | some j =>
    let data := j.data ++ bs
    let head := ImageHead.read data
    if data.length < 128 then s.endJob h (Reply.of .badPacket)
    else match s.headRefused j head with
      | some c => s.endJob h (Reply.of c)
      | none =>
        let s1 := s.modTwin fun w => { w with jobs := w.jobs.map fun x => if x.handle = h then { x with data := data } else x }
        if data.length < head.total then
          if j.toHost then (if j.data.isEmpty then s1 else s1.endJob h (Reply.of .badPacket))
          else s1.restoreFetch h j.ctx j.dst data.length (head.total - data.length)
        else s1.restoreImage h j data

/-- A drain or restore goes on where the memory it needs is ready: one of the mirror, or a stored image that is read whole
(R230). -/
def State.jobWake (s : State) (h : Nat) : State :=
  match s.job? h with
  | none => s
  | some j =>
    if !(s.cmd? h).any fun k => k.work == .ckptRestore false then s.jobGo h
    else if 128 ≤ j.data.length && (ImageHead.read j.data).total ≤ j.data.length then s.restoreImage h j j.data
    else s

/-! ### Pairing (R399, R400) -/

/-- Whether P0 is `ACTIVE` to a device (R399, R408). -/
def State.linkedTo (s : State) (dev : Nat) : Bool := (s.port 0).state == .active && (s.port 0).neighbourDevice = dev

/-- Both modules have named each other with equal `MIRROR_GIB`: the pair is made (R399). -/
def State.tryPair (s : State) : State :=
  if s.twin.state == .single && s.twin.offered.isSome && s.twin.offered == s.twin.received
      && s.linkedTo s.twin.twinDevice then
    ((s.modTwin fun w => { w with offered := none, received := none }).setPair .paired).dirSync
  else s

/-- A module that waits to be paired offers itself to the device it names (R413). -/
def State.offerPair (s : State) : State :=
  match s.twin.offered with
  | none => s
  | some (d, g) => if s.twin.state == .single && s.linkedTo d then s.twinSend 0x01 0 (le 2 g) else s

/-- P0 is `ACTIVE`, or the twin has said `HELLO`: the directory and a waiting offer are sent (R413). -/
def State.twinUp (s : State) : State :=
  if s.linkedTo s.twin.twinDevice then (s.dirSync.offerPair).tryPair else s

/-- The record that `TWIN_STATE` `QUERY` writes (R400). -/
def State.twinRecord (s : State) : Bytes :=
  let w := s.twin
  le 1 w.state.code ++ zeros 1 ++ le 2 w.twinDevice ++ le 2 (Map.getD s.fabric.incarnations w.twinDevice 0)
    ++ le 2 w.mirrorGib ++ le 8 w.lastDrainedId.toNat ++ le 8 w.lastDrainedStep ++ le 8 w.stateTime
    ++ (w.held ++ w.own).flatMap MirrorEntry.entryBytes
    ++ (List.range 8).flatMap fun i => (s.counter (0x10, i) 0).bytes

/-- Sets the mirror reservation (R216, R400): before full service after a cold start it is not taken yet. -/
def State.reserveMirror (s : State) (gib : Nat) : State :=
  (s.modTwin fun w => { w with mirrorGib := gib }).modMem fun m =>
    { m with mirrorTaken := m.mirrorTaken || s.serviceLevel = 2 }

/-- `PAIR` (R399, R400, R409). -/
def State.pairWith (s : State) (dev gib : Nat) : Answer :=
  let holds := !(liveEntries s.twin.held).isEmpty
  if gib ≠ s.twin.mirrorGib && holds then s.says .notPermitted
  else if s.twin.mirrorGib < gib && (s.freeFrames : Int) < (gib - s.twin.mirrorGib) * 512 then s.says .refusedCapacity
  else if s.twin.state == .adopting then
    if dev ≠ s.twin.twinDevice then s.says .badPacket
    else if s.twin.adoptRole ≠ 1 then s.says .done
    else ((s.twinSend 0x01 0 (le 2 gib)).modTwin fun w => { w with survivorCopied := true }).settleAdoption.says .done
  else if s.twin.state == .paired then
    if dev ≠ s.twin.twinDevice then s.says .badPacket else (s.reserveMirror gib).says .done
  else
    let s1 := (s.reserveMirror gib).modTwin fun w => { w with twinDevice := dev, offered := some (dev, gib) }
    ((s1.offerPair).tryPair).says .done

/-- `DISCARD` (R400): an entry that this module holds, or its own in the twin's mirror, is freed; a drain or restore
of it ends. An entry that a stream is filling is not named by it. -/
def State.discardEntry (s : State) (ckpt : Word) : State :=
  let hit := fun (e : MirrorEntry) => e.ckptId == ckpt && e.state != .empty && e.state != .incoming
  let jobs := s.twin.jobs.filter fun j => j.ckptId == ckpt && !(j.toHost || j.dst ≠ 0) || j.ckptId == ckpt && j.isDrain
  let s1 := if s.twin.own.any hit then
      (jobs.foldl (fun (s : State) j => s.endJob j.handle (Reply.of .badPacket)) s).modTwin fun w =>
        { w with own := twoEntries (w.own.filter fun e => !hit e) }
    else s
  let s2 := s1.freeHeld hit
  (if s2.twin.state == .single then s2 else s2.dirSync ckpt).settleAdoption

/-- `TWIN_STATE` (R400). -/
def State.cmdTwinState (s : State) (k : OutCmd) (p : Bytes) : Answer :=
  let action := field p 0 1
  let dev := field p 2 2
  let gib := field p 4 2
  let out := field p 16 8
  if !s.variant.partyWall then s.says .unsupported
  else if 3 < action || 128 < gib || gib % 2 = 1 || (action = 0 && !k.outOk out)
      || (action = 1 && (dev = 0xFFFF || dev = s.lodge.deviceId)) then s.says .badPacket
  else if action = 0 then (some { code := .done, outAddr := out, data := s.twinRecord }, s)
  else if action = 1 then s.pairWith dev gib
  else if action = 2 then
    (if s.twin.state == .single then s.modTwin fun w => { w with offered := none, twinDevice := 0xFFFF }
     else (s.twinSend 0x02 0 []).unpair).says .done
  else (s.discardEntry (BitVec.ofNat 64 (field p 8 8))).says .done

/-- The survivor sends the spare the entries that it adopts, with its record of the former module (R408). -/
def State.sendAdopt (s : State) : State :=
  let mine := (liveEntries s.twin.held).filter (·.adopted)
  s.twinSend 0x09 0 (le 4 mine.length ++ zeros 4 ++ le 8 s.twin.peerDrained.1.toNat ++ le 8 s.twin.peerDrained.2
    ++ mine.flatMap MirrorEntry.wire)

/-- `TWIN_ADOPT` (R408, R411). Its `MIRROR_GIB` becomes the reservation as it stands, even where it is smaller than the entries
that the survivor holds, or larger than the free frames, which R408 names no refusal for (DESIGN CHOICE,
notes/assumptions/60.md). -/
def State.cmdTwinAdopt (s : State) (p : Bytes) : Answer :=
  let role := field p 0 1
  let dev := field p 2 2
  let former := field p 4 2
  let gib := field p 6 2
  let w := s.twin
  if !s.variant.partyWall then s.says .unsupported
  else if role < 1 || 2 < role || dev = 0xFFFF || dev = s.lodge.deviceId || 128 < gib || gib % 2 = 1
      || (role = 2 && former ≠ 0) then s.says .badPacket
  else if w.state == .adopting && w.adoptRole = role && w.twinDevice = dev && w.adoptFormer = former && w.mirrorGib = gib then
    s.says .done
  else if w.state != .single || (role = 2 && !(liveEntries w.held).isEmpty) then s.says .badPacket
  else if !s.linkedTo dev then s.says .busyRetry
  else if role = 1 && w.held.any (fun e => e.ownerDevice = former && e.state == .lost) then s.says .twinCopyLost
  else
    let own := fun (e : MirrorEntry) => if role = 1 && e.ownerDevice = former && e.state != .empty then
      { e with ownerDevice := dev, adopted := true } else e
    let s1 := (s.reserveMirror gib).modTwin fun w =>
      { w with twinDevice := dev, adoptRole := role, adoptFormer := former, survivorCopied := false, offered := none
               received := none, held := w.held.map own, adoptedLost := false }
    let s2 := s1.setPair .adopting
    (if role = 1 then s2.sendAdopt else s2.dirSync).says .done

end Sys2Proof.Machine
end

