-- ==== Sys2Proof/Machine/LinkOps.lean ====
section
/-! DEFINITION. Link operations that port events, `PORT_STATE`, the `PORT` reset and the change to full service share:
width and rate (R247), entering and leaving `ACTIVE` (R250, R251, R253), keys (R265), the replay window (R255), and
the packets of a frame (R257, R261, R262, R264). -/

namespace Sys2Proof.Machine

/-! ### Width and rate (R247) -/

/-- The lane groups of a width, lowest first. -/
def laneGroups (width : Nat) : List Nat :=
  (List.range (16 / width)).map fun g => (2 ^ width - 1) * 2 ^ (width * g)

/-- The width and lanes that a port takes: the widest permitted width of which a group locks whole, and of groups the
lower-numbered one. -/
def lockedLanes (lanes minWidth : Nat) : Option (Nat × Nat) :=
  [16, 8, 4].findSome? fun w =>
    if w < minWidth then none
    else ((laneGroups w).find? fun m => lanes &&& m == m).map fun m => (w, m)

/-- The rate at which a port trains: the highest that the module, its setting and the neighbour permit. -/
def State.trainingRate (s : State) (p neighbour : Nat) : Nat :=
  let x := s.port p
  min (min s.permittedRate (if x.maxRate = 0 then 128 else x.maxRate)) neighbour

/-! ### Changes of state -/

/-- A port state's code (R250). -/
def PortState.code : PortState → Nat
  | .disabled => 0 | .down => 1 | .training => 2 | .keying => 3 | .active => 4 | .retraining => 5 | .failed => 6

/-- A port enters a state, and its last change is stamped (R283). -/
def State.setPort (s : State) (p : Nat) (st : PortState) : State :=
  s.modPort p fun x => { x with state := st, lastChange := s.now }

/-- The entry of an attention event of a port (R251, R448). -/
def portEntry (p : Nat) : CatEntry := unitEntry 5 5 p

/-- `PORTS_IN_SERVICE` changes: so does the descriptor (R8). -/
def State.capsChanged (s : State) : State :=
  if s.deviceReady then { s with capsSequence := s.capsSequence + 1 } else s

/-- The weights of `REQ`, `WRITE`, `COLL` and `TWIN` in a round (R262). -/
def vcWeights : List Nat := [0, 0, 1, 4, 4, 2]

/-- What a port keeps when its link starts afresh: its settings, counters and queue (R375). -/
def Port.unlink (x : Port) : Port :=
  { x with nextSeq := 0, replay := [], wire := [], round := vcWeights, rxSlots := [], rxStream := []
           creditsDue := List.replicate 8 0, nonceSent := [], confirmSent := none, lastRx := 1023, nakSent := false, ackDue := false, keyed := false
           helloDone := false, syncDone := false, localNonce := [], txKey := [], rxKey := [], txSalt := [], rxSalt := []
           txFrames := 0, rxFrames := 0, sinceIdle := 0, replayTimes := [], authTimes := [] }

/-- Requests to devices that have lost their last port start their timers, whether they were queued at a port or waited on
their flow's (R274); a `HELLO` whose flow has lost its port is sent again once one is up (R268). -/
def State.startCutTimers (s : State) : State :=
  let cut := (s.fabric.requests.filter fun e => e.2.timer.isNone && e.2.port.all (fun p => !s.portUp p)
      && s.cutOff e.2.out.type e.2.out.packet.dstDevice).foldl
    (fun (s : State) e => s.startTimer e.1) s
  cut.modFabric fun f => { f with helloed := f.helloed.filter fun d =>
    (Map.get? f.flows (flowKey d 0)).any fun q => s.portUp (q % 8) }

/-- The part of a stream that waits on P0 is sent again when the port returns (R404). -/
def State.dropSnapshots (s : State) (p : Nat) : State :=
  if p ≠ 0 then s
  else s.modPort 0 fun x => { x with queue := x.queue.filter fun o =>
    !(o.type == tTwin && (o.packet.operation = 3 || o.packet.operation = 5)) }

/-- The class 6 event of a port that leaves `ACTIVE` or falls from a planned retraining, with its record where it was
no command (R251, R367). -/
def State.portFault (s : State) (p : Nat) (command : Bool) : State :=
  let s1 := s.capsChanged.raise 6 2 (portEntry p)
  if command then s1 else s1.fault 0x0010 5 p

/-- A port leaves `ACTIVE` (R250, R251): its packets wait for credits no longer (R261). `planned` is a retraining of R253. -/
def State.leaveActive (s : State) (p : Nat) (st : PortState) (planned command : Bool) : State :=
  let s1 := (((List.range 8).foldl (fun (s : State) v => s.endStall p v) s).setPort p st).modPort p fun x =>
    { x with leftActive := s.now, oldWidth := x.width, oldRate := x.rate, planned := planned, keyed := false
             helloDone := false, syncDone := false, localNonce := [], replayTimes := [], authTimes := [] }
  let s2 := s1.count cRetrains p (b2n (st == .retraining))
  let s3 := if st == .retraining then s2 else s2.dropSnapshots p
  let s4 := if planned then s3 else s3.portFault p command
  s4.startCutTimers

/-- A retraining that had no success falls to `TRAINING` (R250); a planned one is then a fault (R251). -/
def State.fallToTraining (s : State) (p : Nat) : State :=
  let x := s.port p
  let s1 := ((s.setPort p .training).modPort p fun y => { y.unlink with planned := false }).dropSnapshots p
  (if x.planned then s1.portFault p false else s1).startCutTimers

/-- A port enters `FAILED` with a cause of R283 (R250, R251, R367). -/
def State.portFail (s : State) (p cause : Nat) : State :=
  let s1 := if (s.port p).state == .active then s.leaveActive p .failed false false else s.setPort p .failed
  let s2 := ((s1.modPort p fun x => { x.unlink with failCause := cause, planned := false }).dropSnapshots p).startCutTimers
  let s3 := if cause = 1 || cause = 3 then s2.raise 7 3 (portEntry p) else s2
  s3.fault 0x0011 5 p

/-- A port enters `ACTIVE` (R250, R251, R261): its receivers grant their buffers, and what waited goes on. Only a
planned retraining that comes back no narrower and no slower raises nothing. -/
def State.enterActive (s : State) (p : Nat) : State :=
  let x := s.port p
  let s1 := (s.setPort p .active).modPort p fun y =>
    { y with credits := (List.range 8).map vcBuffer, planned := false, failCause := 0, lastProgress := s.now }
  let narrow := x.width < x.oldWidth || x.rate < x.oldRate
  let s2 := if x.planned then s1 else s1.capsChanged.raise 6 (if narrow then 2 else 1) (portEntry p)
  let s3 := s2.pump
  if p = 0 then s3.streamResume else s3

/-- A port whose keys are confirmed, whose neighbour has answered and, on a new link, whose first time exchange is
over is `ACTIVE` (R250). -/
def State.tryActive (s : State) (p : Nat) : State :=
  let x := s.port p
  if x.keyed && x.helloDone && (x.state == .retraining || (x.state == .keying && x.syncDone)) then s.enterActive p else s

/-! ### Keys (R265) -/

/-- A port starts its keying: it sends a nonce of its own with its device ID and incarnation (R265; their order:
notes/assumptions/2.md). -/
def State.startKeying (s : State) (p : Nat) : State :=
  let (n, s1) := s.random 32
  s1.modPort p fun x => { x with localNonce := n, keyed := false, helloDone := false, syncDone := false
                                 nonceSent := n ++ le 2 s.lodge.deviceId ++ le 2 s.lodge.incarnation, confirmSent := none }

/-- The key and salt of one direction, from the device that sends (notes/assumptions/2.md). -/
def linkKeys (nonces : Bytes) (a ia b ib sender : Nat) : Bytes × Bytes :=
  let k := padTo 36 (Config.hkdf Config.fleetLinkKey nonces (le 2 a ++ le 2 b ++ le 2 ia ++ le 2 ib ++ le 2 sender) 36)
  (k.take 32, k.drop 32)

/-- The 96-bit IV of a frame (R264). -/
def frameIv (salt : Bytes) (frame : Nat) : Bytes := salt ++ le 8 frame

/-- The tag of a frame (R264). -/
def frameTag (key salt : Bytes) (frame a b : Nat) (slots : Bytes) : BitVec 128 :=
  Config.gcmTag key (frameIv salt frame) (le 8 frame ++ le 2 a ++ le 2 b) slots

/-- The confirmation tag that a sender's key gives over the exchange (R265, notes/assumptions/2.md). -/
def confirmTag (key salt nonces : Bytes) : BitVec 128 := Config.gcmTag key (frameIv salt 0) nonces []

/-! ### The replay window (R255) -/

/-- What an acknowledgement leaves unacknowledged: everything after the flit it names. -/
def ackReplay (ack : Nat) (replay : List (Nat × Bytes)) : List (Nat × Bytes) :=
  if replay.any (·.1 = ack) then (replay.dropWhile (·.1 ≠ ack)).drop 1 else replay

/-- `FLIT_HDR` (R254): a flit of a kind with its sequence number, the acknowledgement that is due, and `NAK` (R255, R256). -/
def Port.flitHeader (x : Port) (kind seq : Nat) : Bytes :=
  le 4 (kind * 2 ^ 30 + seq % 1024 * 2 ^ 20 + x.lastRx % 1024 * 2 ^ 10 + 2 ^ 9 * b2n (x.ackDue || x.nakSent)
    + 2 ^ 8 * b2n x.nakSent)

/-- The 256 bytes of a flit (R254). -/
def flitBytes (header slots : Bytes) : Bytes :=
  let body := header ++ padTo 240 slots
  let crc := body ++ le 6 (Config.flitCrc body).toNat
  crc ++ le 6 (Config.flitFec crc).toNat

/-- An idle flit (R249), which carries the acknowledgement that is due. -/
def Port.idleFlit (x : Port) : Bytes := flitBytes (x.flitHeader 2 0) []

/-- Times of the last 1 ms, with the present. -/
def lastMs (now : Nat) (ts : List Nat) : List Nat := now :: ts.filter fun t => now < t + 1000000

/-- Flits leave a port: an idle flit comes first where 2,048 flits would otherwise pass without one (R249). -/
def Port.sendFlits (x : Port) (fs : List Bytes) : Port :=
  if 2047 < x.sinceIdle + fs.length then { x with wire := x.idleFlit :: fs, sinceIdle := fs.length }
  else { x with wire := fs, sinceIdle := x.sinceIdle + fs.length }

/-- The acknowledgement and `NAK` of a flit: a `NAK` resends every flit after the one it names, as it was sent (R255). -/
def State.takeAck (s : State) (p : Nat) (f : Flit) : State :=
  if !f.ackValid then s
  else
    let s1 := s.modPort p fun x => { x with replay := ackReplay f.ackSeq x.replay }
    if !f.nak || (s1.port p).replay.isEmpty then s1
    else (s1.modPort p fun x =>
      { x.sendFlits (x.replay.map (·.2)) with replayTimes := lastMs s.now x.replayTimes }).count cReplays p

/-! ### Frames (R257, R261, R262, R264) -/

/-- Slots of a frame beside its tag: 32 flits of 15 (R264). -/
def frameSlots : Nat := 479

/-- The position and size of a channel's oldest packet, where it has credits for all of its slots (R261). -/
def headOf (q : List OutPacket) (credits : List Nat) (vc : Nat) : Option (Nat × Nat) :=
  match q.findIdx? fun o => o.packet.vc = vc with
  | none => none
  | some i => (q[i]?).bind fun o =>
    let n := slotsOf o.type o.packet
    if n ≤ credits.getD vc 0 then some (i, n) else none

/-- The channel whose turn it is, of those that can send: `CTRL`, then `RSP`, then what a round has left. -/
def nextVc (able : Nat → Bool) (round : List Nat) : Option (Nat × List Nat) :=
  if able 0 then some (0, round)
  else if able 1 then some (1, round)
  else
    let pick := fun (r : List Nat) => ([2, 3, 4, 5].find? fun v => able v && r.getD v 0 ≠ 0).map fun v =>
      (v, modAt r v (· - 1))
    (pick round).or (pick vcWeights)

/-- The packets that a frame takes, with what is left of the queue, the credits and the round, and the slots used. A frame
ends before a packet that does not fit into it, which is then the first of the next (notes/assumptions/58.md). -/
def fillFrame (q : List OutPacket) (credits : List Nat) (used : Nat) (round : List Nat) :
    Nat → List OutPacket × List OutPacket × List Nat × List Nat × Nat
  | 0 => ([], q, credits, round, used)
  | fuel + 1 =>
    match nextVc (fun v => (headOf q credits v).isSome) round with
    | none => ([], q, credits, round, used)
    | some (v, round') => match headOf q credits v with
      | none => ([], q, credits, round, used)
      | some (i, n) =>
        if frameSlots < used + n then ([], q, credits, round, used)
        else
          let (out, q', c', r', u') := fillFrame (q.eraseIdx i) (modAt credits v (· - n)) (used + n) round' fuel
          ((q[i]?).toList ++ out, q', c', r', u')

/-- The flits of a frame's slots, fifteen slots each (R254, R264). -/
def Port.dataFlits (x : Port) (slots : Bytes) : List (Nat × Bytes) :=
  (List.range (ceilDiv slots.length 240)).map fun i =>
    let seq := (x.nextSeq + i) % 1024
    (seq, flitBytes (x.flitHeader 0 seq) ((slots.drop (240 * i)).take 240))

/-- A frame as it leaves a port: its packets' slots, encrypted, and its tag slot (R264). -/
def State.frameSlotBytes (s : State) (p : Nat) (out : List OutPacket) : Bytes :=
  let x := s.port p
  let own := s.lodge.deviceId
  let text := out.flatMap fun o => Packet.slots o.type o.packet
  let cipher := padTo text.length (Config.gcmCrypt x.txKey (frameIv x.txSalt x.txFrames) text)
  cipher ++ le 16 (frameTag x.txKey x.txSalt x.txFrames (min own x.neighbourDevice) (max own x.neighbourDevice) cipher).toNat

/-- A packet header enters the trace (R465). -/
def State.traceHeader (s : State) (p type : Nat) (k : Packet) : State :=
  s.trace 3 p k.ctxId (le 1 type ++ le 2 k.dstDevice ++ le 2 k.length ++ le 4 k.tag)

/-- A packet as it leaves: with the time, and a `TIME_RSP` with t3 (R258, R279). -/
def State.leaves (s : State) (o : OutPacket) : OutPacket :=
  let k := { o.packet with time := BitVec.ofNat 64 s.now }
  { o with packet := if o.type == tTimeRsp then { k with payload := patch k.payload 8 (le 8 s.lodge.time16) } else k }

/-- The transmitter closes a frame (R264): packets that have credits leave in the order of arbitration, encrypted and with
the frame's tag, and requests among them start their timers (R274). Before `ACTIVE`, only `CTRL` leaves. The frame waits
where the replay buffer has no room (R255). -/
def State.closeFrame (s : State) (p : Nat) : State :=
  let x := s.port p
  let credits := if x.state == .active then x.credits else if x.keyed then [vcBuffer 0] else []
  let (out, left, after, round, used) := fillFrame x.queue credits 0 x.round x.queue.length
  let flits := ceilDiv (used + 1) 15
  if out.isEmpty || 1023 < x.replay.length + flits then s
  else
    let sent := out.map s.leaves
    let fs := x.dataFlits (s.frameSlotBytes p sent)
    let s1 := s.modPort p fun y =>
      { y.sendFlits (fs.map (·.2)) with
        queue := left, lastFrame := sent, credits := if y.state == .active then after else y.credits, round := round
        nextSeq := (y.nextSeq + flits) % 1024, replay := y.replay ++ fs
        txFrames := y.txFrames + 1, ackDue := false, lastProgress := s.now
        syncSent := if out.any fun o => o.type == tTimeSync then s.lodge.time16 else y.syncSent }
    out.foldl (fun (s : State) o =>
      let s1 := s.traceHeader p o.type o.packet
      if s1.isRequest o then s1.startTimer o.packet.tag else s1) (s1.count cFlitsTx p flits)

end Sys2Proof.Machine
end

