-- ==== Sys2Proof/Machine/Snapshot.lean ====
section
/-! DEFINITION. The fault mailbox (R369 to R373), the health record (R396), and snapshots (R332, R374). What the model
reads into the entries is in notes/assumptions/34.md. -/

namespace Sys2Proof.Machine

/-! ### Health (R395, R396) -/

/-- The weight and the half-life in minutes of each health class (R395). -/
def healthClasses : List (Nat × Nat) := [
  (40, 10080), (40, 10080), (150, 43200), (5, 10080), (120, 43200), (2, 1440), (8, 1440), (40, 10080), (1, 1440),
  (100, 10080), (10, 1440), (60, 10080), (4, 1440), (200, 4320), (200, 43200)]

/-- Fractional bits of a rate (notes/assumptions/12.md). -/
def rateUnit : Nat := 2 ^ 96

/-- The weighted sum of the rates (R395). -/
def Lodge.penalties (l : Lodge) : Nat := ((l.rates.zip healthClasses).map fun e => e.2.1 * e.1).sum

/-- The health score (R395). -/
def Lodge.score (l : Lodge) : Nat := 1000 - l.penalties / rateUnit

/-- The health record (R396). -/
def Lodge.health (l : Lodge) : Bytes :=
  le 2 l.score ++ le 1 l.probation ++ zeros 1 ++ le 4 l.evidence ++ le 4 (satTo 0xFFFFFFFF (l.observedSeconds / 3600))
    ++ zeros 4 ++ le 8 l.lastEventTime ++ le 8 l.lastProbation
    ++ (l.rates.zip healthClasses).flatMap (fun e => le 2 (satTo 0xFFFF (16 * e.2.1 * e.1 / rateUnit)))
    ++ zeros 2 ++ zeros 64

/-! ### Array entries (R371) -/

/-- The instructions that hold an array: that in the middle of its m-chunk, those with passes in the array, those
whose landing fills have begun, and those whose first pass has started (R371). The spec does not say whether an instruction of
a suspended context, whose fold R54 has saved away, is in the array when the array is reset: it counts as one, and traps as
its context resumes (DESIGN CHOICE, notes/assumptions/55.md). -/
def State.arrayHolders (s : State) (a : Nat) : List (ThreadId × Nat) :=
  let x := s.array a
  let half := fun (h : LandingHalf) => (h.owner.map fun o => (o.1, o.2.1)).toList
  let pair := if a % 2 = 1 then (s.matrixOps (a - 1)).filter fun o => o.2.isPair else []
  let begun := ((s.matrixOps a) ++ pair).filter fun o =>
    o.2.phase != .finished && (o.2.fold.started ≠ 0 || o.2.fold.auxStarted ≠ 0)
  (x.holder.toList ++ (x.passes.map fun q => (q.owner, q.op)) ++ half x.halfA ++ half x.halfB
    ++ begun.map fun o => (o.1, o.2.id)).eraseDups

/-- The state of an array as the mailbox tells it (R371). -/
def State.arrayCode (s : State) (a : Nat) : Nat :=
  let x := s.array a
  if s.variant.arrays ≤ a then 7
  else match x.service with
    | .gone => 6
    | .pending => 8
    | .resetting => 5
    | .serving =>
      if x.asleep then 4
      else if !x.passes.isEmpty then 1
      else match s.nextPasses a with
        | (t, o, p) :: _ =>
          if !(needFronts x.fronted [(t, o, p)]).isEmpty && !(x.halfOf (t, o.id, p)).any (fun h => h.state == .landed) then 2
          else if !o.pairReady (t.array ≠ a) then 3 else 1
        | [] => if (s.matrixOps a).any fun o => s.runnable o.1 o.2 && o.2.isPair && !s.canTake a o.2 then 3 else 0

/-- The address of the landing fill that an array waits for. -/
def State.waitAddress (s : State) (a : Nat) : Nat := match s.nextPasses a with
  | [] => 0
  | (t, o, p) :: _ =>
    let aux := t.array ≠ a
    let d := (o.stationary aux).1
    ((s.fillRanges t o aux p).head?.map fun r => (globalAddr d.dev r.1).toNat).getD 0

/-- The contexts beside one that have a ready m-chunk for an array. -/
def State.readyOthers (s : State) (a c : Nat) : Nat :=
  (((s.matrixOps a).filter fun o => s.runnable o.1 o.2 && o.2.nextPass false < o.2.passTotal false).map
    fun o => (s.thread o.1).ctx).eraseDups.filter (· ≠ c) |>.length

/-- An array entry (R371). -/
def State.arrayEntry (s : State) (a : Nat) : Bytes :=
  let x := s.array a
  let code := s.arrayCode a
  let held := (s.arrayHolders a).findSome? fun h => (s.op? h.1 h.2).map fun o => (h.1, o)
  let c := (held.map fun h => (s.thread h.1).ctx).getD 0
  let number := held.map fun h =>
    let aux := h.1.array ≠ a
    let p := ((x.passes.find? fun q => q.owner == h.1 && q.op == h.2.id).map (·.number)).getD (h.2.nextPass aux)
    (p, h.2.passTotal aux)
  le 1 code ++ le 1 (b2n (held.any fun h => h.1.array ≠ a)) ++ le 2 c ++ le 2 (s.gen c)
    ++ le 1 ((held.map fun h => h.1.index % 64).getD 0xFF) ++ zeros 1 ++ le 4 ((number.map (·.1)).getD 0)
    ++ le 4 ((number.map (·.2)).getD 0) ++ (s.counter cPassesRun a).bytes ++ le 8 x.lastProgress
    ++ le 8 (s.now - x.lastProgress) ++ le 8 ((held.map fun h => h.2.pc.toNat).getD 0)
    ++ le 8 (if code = 2 then s.waitAddress a else 0) ++ le 2 (s.readyOthers a c) ++ zeros 6

/-! ### Port entries (R372) -/

/-- A port entry (R372). -/
def State.portEntryBytes (s : State) (p : Nat) : Bytes :=
  if s.variant.ports ≤ p then le 1 0xFF ++ le 1 0xFF ++ zeros 4 ++ le 1 0xFF ++ le 1 0xFF ++ zeros 56
  else
    let x := s.port p
    let o := x.queue.head?
    let k := o.map (·.packet)
    let t := o.bind (·.thread)
    let out := s.fabric.requests.filter fun e => e.2.port == some p
    le 1 x.state.code ++ le 1 ((k.map (·.vc)).getD 0xFF) ++ le 2 ((k.map (·.ctxId)).getD 0)
      ++ le 2 ((k.map (·.ctxGeneration)).getD 0) ++ le 1 ((t.map (·.index % 64)).getD 0xFF)
      ++ le 1 ((t.map (·.array)).getD 0xFF) ++ le 2 ((k.map (·.dstDevice)).getD 0) ++ zeros 2
      ++ le 4 ((o.map fun o => slotsOf o.type o.packet - x.credits.getD o.packet.vc 0).getD 0)
      ++ le 8 ((o.map fun o => s.now - o.since).getD 0) ++ le 8 x.lastProgress ++ le 8 (s.now - x.lastProgress)
      ++ le 4 out.length ++ zeros 4 ++ le 8 ((out.map fun e => s.now - e.2.out.since).foldl max 0) ++ zeros 8

/-! ### The mailbox (R369, R370) -/

/-- The reset domain under way; 0 for none. -/
def State.resetCode (s : State) : Nat := if s.host.resetBusy then s.host.resetDomain else 0

/-- The header of the mailbox (R370). -/
def State.mailboxHead (s : State) (seq cause : Nat) : Bytes :=
  let h := s.host
  let live := s.ctxs.filter fun e => e.2.state != .unused
  let bound := h.rings.filter fun e => e.2.state == .bound
  le 2 1 ++ le 2 seq ++ le 2 s.lodge.incarnation ++ le 2 s.lodge.deviceId ++ le 8 s.now ++ le 1 cause
    ++ le 1 s.serviceLevel ++ le 1 s.resetCode ++ zeros 1 ++ le 4 h.stewardBeat.toNat ++ le 8 (s.now - h.beatTime)
    ++ le 8 h.lastCmdTime ++ le 2 h.lastCmdRing ++ le 2 h.lastCmdOpcode ++ le 2 live.length
    ++ le 2 (satTo 0xFFFF bound.length) ++ le 4 (s.lodge.nextFault - 1) ++ zeros 4 ++ le 8 h.lastResetTime
    ++ (s.counter cDrainsForced 0).bytes ++ (s.counter cDrainItemsForced 0).bytes ++ (s.counter cTxnCommitted 0).bytes
    ++ (s.counter cTxnAborted 0).bytes ++ (s.counter cTxnReplays 0).bytes ++ zeros 152

/-- The mailbox as hardware fills it now (R369). -/
def State.mailboxNow (s : State) (seq cause : Nat) : Bytes :=
  padTo 0x1400 (s.mailboxHead seq cause ++ (List.range 64).flatMap s.arrayEntry ++ (List.range 6).flatMap s.portEntryBytes)
    ++ padTo 0xC00 s.lodge.health ++ padTo 0x4000 ((s.lodge.faults.take 256).flatMap FaultRec.bytes)

/-- A snapshot is taken (R332, R374). -/
def State.takeSnapshot (s : State) (cause : Nat) : State :=
  let seq := s.host.snapshotSeq + 1
  (s.modHost fun h =>
    { h with snapshotBusy := false, snapshotSeq := seq, snapshotTime := s.now, snapshotCause := cause
             mailbox := s.mailboxNow seq.toNat cause }).count cSnapshots 0

/-- `SNAPSHOT_REQ` (R332): a request while `BUSY` is set is ignored. -/
def execSnapshotReq (value : BitVec 32) (s : State) : Host.Outcome State Fault Refusal :=
  .next (if value.getLsbD 0 && s.lodge.phase != .off then s.modHost fun h => { h with snapshotBusy := true } else s)

/-- `SNAPSHOT_COMPLETE` (R332). -/
def execSnapshotComplete (s : State) : Host.Outcome State Fault Refusal :=
  .next (if s.host.snapshotBusy then s.takeSnapshot 1 else s)

end Sys2Proof.Machine
end

