-- ==== Sys2Proof/Machine/MgmtOps.lean ====
section
/-! DEFINITION. What management commands, bring-up and resets share: firmware images and slots (R441 to R443),
configuration blobs (R445 to R447), transaction records (R385, R388 to R390), and the end of a session (R439). The
choices the model makes here are in notes/assumptions/35.md. -/

namespace Sys2Proof.Machine

/-- Bytes of a signature by SLH-DSA-SHA2-256s (R442). -/
def signature256s : Nat := 29792

/-- SHA-256 as the 32 bytes that records hold (notes/assumptions/2.md). -/
def sha256Bytes (b : Bytes) : Bytes := le 32 (Config.sha256 b).toNat

/-- What is wrong with an image: its signature, or anything else (R441, R447). -/
inductive ImageFault where
  | signature | form
  deriving DecidableEq, Repr

/-! ### Firmware (R442, R443) -/

/-- The version of a firmware image that passes every check of R442. -/
def checkFirmware (b : Bytes) : Except ImageFault Nat :=
  let n := field b 0x0C 4
  if b.length < 64 || field b 0 4 ≠ 0x49574654 || field b 4 2 ≠ 1 || field b 6 2 ≠ 0 || field b 0x30 16 ≠ 0
      || 33554432 < n || b.length ≠ 64 + n + signature256s then .error .form
  else if !Config.verifyRoot (b.take (64 + n)) (b.drop (64 + n)) then .error .signature
  else if (b.drop 0x10).take 32 ≠ sha256Bytes ((b.drop 64).take n) then .error .form
  else .ok (field b 8 4)

/-- Copies the staged image into the fallback slot, which becomes the active one (R443). -/
def State.activateFirmware (s : State) : State :=
  match s.lodge.stagedFw with
  | none => s
  | some g =>
    let slot : FwSlot := { version := field g.data 8 4, digest := Config.sha256 g.data }
    let k := 1 - s.lodge.activeSlot
    s.modLodge fun l => { l with slots := setAt l.slots k slot, activeSlot := k, stagedFw := none }

/-- Whether a staged `FW_ACTIVATE` may be applied (R443). -/
def State.firmwareReady (s : State) : Bool :=
  s.lodge.stagedFw.any fun g => g.verified && s.lodge.settings.minFwVersion ≤ field g.data 8 4

/-! ### Configuration (R445 to R447) -/

/-- Reads n entries of a blob; none where one breaks its form. What is left must be empty. -/
def cfgEntries : Nat → Bytes → Option (List (Nat × Bytes))
  | 0, b => if b.isEmpty then some [] else none
  | n + 1, b =>
    let len := field b 2 2
    let padded := ceilDiv len 8 * 8
    let v := (b.drop 8).take len
    if b.length < 8 + padded || field b 4 4 ≠ 0 || ((b.drop (8 + len)).take (padded - len)).any (· ≠ 0) then none
    else (cfgEntries n (b.drop (8 + padded))).map ((field b 0 2, v) :: ·)

/-- The number that an entry's value of 1 to 8 bytes holds, where it lies in a range. -/
def cfgNumber (v : Bytes) (lo hi : Nat) : Option Nat :=
  if 1 ≤ v.length && v.length ≤ 8 && lo ≤ leNat v && leNat v ≤ hi then some (leNat v) else none

/-- One entry applied to the settings (R446); none where it is not listed or out of range. -/
def Settings.apply (c : Settings) (serial code : Nat) (v : Bytes) : Option Settings :=
  let num := fun (lo hi : Nat) (f : Nat → Settings) => (cfgNumber v lo hi).map f
  match code with
  | 0x0001 => if serial = 0 then none else num 0 0xFFFE fun n => { c with deviceId := some n }
  | 0x0002 =>
    if v.length ≠ 32 || 16 ≤ c.operatorKeys.length then none
    else some { c with operatorKeys := c.operatorKeys ++ [BitVec.ofNat 256 (leNat v)] }
  | 0x0003 => if v.length ≠ 17 || 128 < field v 16 1 then none else some { c with mgmtAddress := v }
  | 0x0004 => num 0 0xFFFFFFFF fun n => { c with minFwVersion := n }
  | 0x0010 => num 0 3 fun n => { c with timeSource := n }
  | 0x0011 =>
    if v.length < 1 || 6 < v.length || v.any (fun b => 5 < b.toNat) then none
    else some { c with timeParents := v.map (·.toNat) }
  | 0x0012 => num 0 127 fun n => { c with ptpDomain := n }
  | 0x0020 => num 400 1800 fun n => { c with powerCapDefault := n }
  | 0x0021 => num 1 10000 fun n => { c with arrayIdleUs := n }
  | 0x0022 => (cfgNumber v 0 10000000).bind fun n => if n = 0 || 100 ≤ n then some { c with atticIdleUs := n } else none
  | 0x0023 => num 10 60000 fun n => { c with telemetryMs := n }
  | 0x0030 => num 10 10000 fun n => { c with promoteWindowUs := n }
  | 0x0031 => num 1 50 fun n => { c with migrateShare := n }
  | 0x0032 => num 20 200 fun n => { c with repairBudgetUs := n }
  | 0x0033 => num 16 65536 fun n => { c with queueLimit := n }
  | 0x0034 => num 1 600 fun n => { c with twinGraceS := n }
  | _ => none

/-- The settings that a blob's entries give; a code may be repeated only where R446 says so. -/
def cfgSettings (serial : Nat) : List Nat → Settings → List (Nat × Bytes) → Option Settings
  | _, c, [] => some c
  | seen, c, (code, v) :: es =>
    if code ≠ 2 && seen.contains code then none
    else (c.apply serial code v).bind fun c1 => cfgSettings serial (code :: seen) c1 es

/-- The settings and the sequence of a blob that passes the checks on the blob itself (R445, R446). -/
def checkConfig (b : Bytes) : Except ImageFault (Settings × Nat) :=
  let at_ := b.length - signature256s
  let serial := field b 0x10 8
  if b.length < 128 + signature256s then .error .form
  else if sha256Bytes ((b.drop 0x40).take 64) ≠ le 32 Config.configSignerHash.toNat
      || !Config.verify 2 ((b.drop 0x40).take 64) (b.take at_) (b.drop at_) then .error .signature
  else if field b 0 4 ≠ 0x47464354 || field b 4 2 ≠ 1 || 256 < field b 6 2 || field b 0x20 32 ≠ 0
      || field b 8 8 ≠ Config.fleetId.toNat || (serial ≠ 0 && serial ≠ Config.serial.toNat) then .error .form
  else match (cfgEntries (field b 6 2) ((b.take at_).drop 128)).bind (cfgSettings serial [] {}) with
    | none => .error .form
    | some c => .ok (c, field b 0x18 8)

/-- What `CFG_WRITE` comes to (R447): a code and whether it raises attention class 7, or the settings and sequence to
apply; none where the blob is the one in effect. -/
def State.cfgOutcome (s : State) (b : Bytes) : Except (Code × Bool) (Option (Settings × Nat)) :=
  match checkConfig b with
  | .error .signature => .error (.notPermitted, true)
  | .error .form => .error (.badPacket, false)
  | .ok (c, seq) =>
    if !s.lodge.cfgValid || s.lodge.cfgSequence < seq then .ok (some (c, seq))
    else if seq < s.lodge.cfgSequence then .error (.badPacket, false)
    else if Config.sha256 b = s.lodge.cfgDigest then .ok none
    else .error (.notPermitted, false)

/-- A configuration takes effect: all of it but the device ID, which waits for a reset (R447). -/
def State.applyConfig (s : State) (b : Bytes) (c : Settings) (seq : Nat) : State :=
  s.modLodge fun l =>
    { l with settings := c, cfgSequence := seq, cfgDigest := Config.sha256 b, cfgStored := b, cfgValid := true }

/-! ### Sessions (R439) -/

/-- A session closes; where it is told, it is sent `CLOSE`. Its commands in flight go on, and their replies go
nowhere. -/
def State.closeSession (s : State) (id : Nat) (tell : Bool) : State :=
  let s1 := s.modLodge fun l =>
    { l with sessions := l.sessions.filter fun x => x.id ≠ id
             mgmtSent := if tell then l.mgmtSent ++ [(id, 6, [])] else l.mgmtSent }
  s1.catalogue (lodgeEntry 14 id)

/-- Sessions whose operator key is no longer enrolled close (R447). -/
def State.closeUnenrolled (s : State) : State :=
  let bad := s.lodge.sessions.filter fun x =>
    !s.lodge.settings.operatorKeys.contains x.keyHash && x.keyHash ≠ Config.configSignerHash
  bad.foldl (fun (s : State) x => s.closeSession x.id true) s

/-! ### Transaction records (R385, R388 to R390) -/

/-- The record of a transaction. -/
def State.txn? (s : State) (id : Word) : Option Txn := s.lodge.txns.find? fun t => t.id == id

/-- Changes the record of a transaction. -/
def State.modTxn (s : State) (id : Word) (f : Txn → Txn) : State :=
  s.modLodge fun l => { l with txns := l.txns.map fun t => if t.id == id then f t else t }

/-- Keeps every open record, and of the closed ones the first n. -/
def keepTxns : Nat → List Txn → List Txn
  | _, [] => []
  | n, t :: ts =>
    if t.state == .opened then t :: keepTxns n ts
    else match n with
      | 0 => keepTxns 0 ts
      | m + 1 => t :: keepTxns m ts

/-- A transaction changes its state; the change has its Catalogue entry (R388, R448). The latest change stands first,
and the last 4,096 closed records are kept (R389). -/
def State.moveTxn (s : State) (e : CatEntry) (t : Txn) (st : TxnState) (failed : Nat := 0xFFFF) : State :=
  let s1 := s.catalogue { e with objectClass := 15, objectIndex := t.id.toNat, txn := t.id }
  let t1 := { t with state := st, failedIndex := failed, time := s.now, accession := s1.lastAccession, committing := false }
  let s2 := s1.modLodge fun l => { l with txns := keepTxns 4096 (t1 :: l.txns.filter fun x => x.id != t.id) }
  (s2.count cTxnCommitted 0 (b2n (st == .committed))).count cTxnAborted 0 (b2n (st == .aborted))

/-- Whether a joinable command's effect survives a CHIP reset (R386). -/
def survivesReset (op : Nat) : Bool := op = 0x0A01 || op = 0x0A02 || op = 0x0A09 || op = 0x0A0B

/-- Whether a transaction staged a command whose effect a CHIP reset loses (R386, R390). `TWIN_STATE` and `TWIN_ADOPT`
keep what *Twin pairing and checkpoints* says, which is in MRAM (R411). -/
def Txn.volatile (t : Txn) : Bool :=
  t.staged.any fun c => !survivesReset c.opcode && c.opcode ≠ 0x0603 && c.opcode ≠ 0x0604

/-- A surviving effect that an interrupted commit still owes is carried out (R390). -/
def State.oweEffect (s : State) (c : StagedCmd) : State :=
  if c.opcode = 0x0A01 then (if s.firmwareReady then s.activateFirmware.catalogue (lodgeEntry 8 0) else s)
  else if c.opcode = 0x0A02 then
    match s.lodge.stagedCfg with
    | none => s
    | some g => match s.cfgOutcome g.data with
      | .ok (some (x, seq)) => (s.applyConfig g.data x seq).catalogue (lodgeEntry 9 seq)
      | _ => s
  else if c.opcode = 0x0A09 then s.modLodge fun l => { l with powerCap := field c.params 0 2 }
  else if c.opcode = 0x0A0B then s.modLodge fun l => { l with probation := 1 }
  else s

/-- Transaction records at a CHIP or MODULE reset (R390). `left` gives the stage index from which an interrupted commit
has not yet applied its commands. -/
def State.resetTxns (s : State) (left : Txn → Nat) : State :=
  s.lodge.txns.foldl (fun (s : State) t =>
    match t.state with
    | .opened =>
      if t.committing then
        ((t.staged.drop (left t)).foldl State.oweEffect s).moveTxn (lodgeEntry 15 0) t .committed
      else s.moveTxn (lodgeEntry 15 0) t .aborted
    | .void => s
    | _ => if t.volatile then s.modTxn t.id fun x => { x with state := .void } else s) s

end Sys2Proof.Machine
end

