-- ==== Sys2Proof/Machine/Resets.lean ====
section
/-! DEFINITION. The reset domains of R375: what each clears and keeps, how one waits for or supersedes another (R380),
the self-check of an array (R378), the retirement of a pseudo-channel (R237), and the commands that start a reset
(R333, R320, R367). What the model reads into them is in notes/assumptions/36.md. -/

namespace Sys2Proof.Machine

/-! ### `ARRAY` (R55, R378) -/

/-- An array holds nothing any more. -/
def ArrayState.cleared (x : ArrayState) (service : ArrayService) : ArrayState :=
  { service := service, lastProgress := x.lastProgress, lastPass := x.lastPass }

/-- An array keeps nothing of instructions that are gone. -/
def ArrayState.without (x : ArrayState) (gone : List (ThreadId × Nat)) : ArrayState :=
  let half := fun (h : LandingHalf) => if h.owner.any fun o => gone.contains (o.1, o.2.1) then ({} : LandingHalf) else h
  let lost := x.fronted.any fun o => gone.contains (o.1, o.2.1)
  { x with halfA := half x.halfA, halfB := half x.halfB, passes := x.passes.filter fun q => !gone.contains (q.owner, q.op)
           holder := if x.holder.any gone.contains then none else x.holder
           fronted := if lost then none else x.fronted }

/-- An `ARRAY` reset begins: the threads whose instructions hold the array trap, every tag of it is `INCOMPLETE`,
and the array is empty (R55, R160, R378). A wait for its landing that it ends counts (R27). -/
def State.beginArrayReset (s0 : State) (a : Nat) : State :=
  let s := s0.endMiss a
  let gone := s.arrayHolders a
  let s1 := { s with
    arrays := s.arrays.mapIdx fun i (x : ArrayState) => if i = a then x.cleared .resetting else x.without gone
    tags := s.tags.map fun (g : Tag) => if g.array == a then { g with incomplete := true } else g }
  (gone.foldl (fun (s : State) h => match s.op? h.1 h.2 with
    | some o => s.opTrap h.1 o trReset
    | none => s) s1).sequenceAll

/-- The array has passed its self-check (R378). -/
def State.arrayPasses (s : State) (a : Nat) : State :=
  (s.modArray a fun x => x.cleared .serving).sequenceAll

/-- The array has failed its self-check: it leaves service, every thread on its sequencer traps, and an `MMAB` that
waited for it as its partner does too, with the wait counted (R50, R378). Those that had begun their passes trapped as the
reset began (R55). -/
def State.arrayFails (s : State) (a : Nat) : State :=
  let s1 := ((s.modArray a fun x => x.cleared .gone).capsChanged.raise 2 1 (unitEntry 1 16 a)).fault 0x0031 1 a 1
  let mine := ((Map.keys s1.threads).map keyThread).filter fun t => t.array == a
  let s2 := mine.foldl (fun (s : State) t =>
    let x := s.thread t
    if x.state == .running || x.state == .waiting || x.state == .suspended then s.trap t x.pc x.word trReset else s) s1
  let s3 := (s2.matrixOps a).foldl (fun (s : State) o => s.opTrap o.1 o.2 trReset) s2
  let pairs := if a % 2 = 1 then (s3.matrixOps (a - 1)).filter fun o =>
    o.2.isPair && o.2.phase == .queued && o.2.cond.isNone && o.2.late.isNone else []
  (pairs.foldl (fun (s : State) o => s.opTrap o.1 o.2 trUnavailable)
    (if pairs.isEmpty then s3 else s3.endMiss (a - 1))).sequenceAll

/-! ### `PORT` (R250, R375) -/

/-- A port that has failed trains again by a command (R250). -/
def State.retrainFailed (s : State) (p : Nat) : State :=
  (s.setPort p .training).modPort p fun y => { y.unlink with failCause := 0 }

/-- A `PORT` reset begins: link state, replay buffer and keys are cleared, and an `ACTIVE` port retrains (R250, R375).
-/
def State.beginPortReset (s : State) (p : Nat) (command : Bool) : State :=
  match (s.port p).state with
  | .active => (s.leaveActive p .retraining false command).modPort p Port.unlink
  | .failed => if command then s.retrainFailed p else s.modPort p Port.unlink
  | .keying => (s.modPort p Port.unlink).startKeying p
  | _ => s.modPort p Port.unlink

/-! ### `CHIP` (R374, R376, R379) -/

/-- The incarnation that follows one (R376). -/
def nextIncarnation (i : Nat) : Nat := if 0xFFFF ≤ i then 1 else i + 1

/-- Counters that a CHIP reset keeps: those of the Lodge and the Strongroom (R375, R393). -/
def keptCounter (k : Nat) : Bool := 0x11 ≤ k / 2 ^ 40

/-- The stage index from which a commit that is under way has not applied its commands: that of the one it waits for,
or else the next. A commit that met a loss of power keeps it in its record. -/
def State.commitNext (s : State) (t : Txn) : Nat :=
  if t.failedIndex ≠ 0xFFFF then t.failedIndex
  else match s.host.commands.findSome? fun e => match e.2.work with
    | .commitTxn id _ n => if id == t.id then some (e.1, n) else none
    | _ => none with
  | none => t.staged.length
  | some (h, n) =>
    ((Map.vals s.host.commands).findSome? fun k => k.parent.bind fun q => if q.1 = h then some q.2 else none).getD n

/-- Corrected errors counted, attic and cellar together (R395). -/
def State.correctedErrors (s : State) : Nat := (s.counter cAtticCe 0).value + (s.counter cCellarCe 0).value

/-- Replays counted over all ports (R395). -/
def State.replays (s : State) : Nat := ((List.range s.variant.ports).map fun p => (s.counter cReplays p).value).sum

/-- The host interface after a CHIP reset: the always-on registers stay, and so does what is on the host's side. -/
def HostIf.afterChip (h : HostIf) (now : Nat) : HostIf :=
  { bus := h.bus, nextHandle := h.nextHandle, snapshotBusy := h.snapshotBusy, snapshotSeq := h.snapshotSeq
    snapshotTime := h.snapshotTime, snapshotCause := h.snapshotCause, mailbox := h.mailbox, resetBusy := h.resetBusy
    resetDomain := h.resetDomain, resetTarget := h.resetTarget, resetOrigin := h.resetOrigin, resetCount := h.resetCount
    resetsWaiting := h.resetsWaiting, lastRead := h.lastRead, lastPoisoned := h.lastPoisoned
    lastUnsupported := h.lastUnsupported, beatTime := now, lastResetTime := h.lastResetTime
    perst := h.perst }

/-- The memory after a CHIP reset: the attic is in self-refresh with its stacks and its interleave, the relocation table
stands, and every frame of the pool waits for zeroing (R228, R379). -/
def State.memoryAfterChip (s : State) : Memory :=
  let m := s.memory
  { zeroing := s.framesUsed + m.zeroing, relocated := m.relocated, retiringRows := m.retiringRows
    rowErrors := m.rowErrors, channels := m.channels, channelErrors := m.channelErrors, channelFrames := m.channelFrames
    relocationFullRaised := m.relocationFullRaised, stacksServing := m.stacksServing, selfRefresh := m.stacksServing
    mirrorTaken := m.mirrorTaken, poolSequence := m.poolSequence }

/-- The Party Wall after a CHIP reset: pair state and directories are in MRAM, and the mirror keeps its contents (R401,
R411). -/
def Twin.afterChip (w : Twin) : Twin :=
  { w with stream := none, jobs := [], offered := none, received := none
           own := twoEntries (w.own.filter fun e => e.state != .incoming) }

/-- Everything on the chip is cleared but what R375 and R379 keep; bring-up goes on at the boot ROM (R461). -/
def State.clearChip (s : State) : State :=
  { s with
    counters := Map.keep (fun k _ => keptCounter k) s.counters
    stewardRunning := false, deviceReady := false, serviceLevel := 0, capsSequence := 0, fp64Serving := false
    laneRate := 64, permittedRate := 64
    host := s.host.afterChip s.now, ctxs := [], launches := [], admitting := [], threads := []
    arrays := List.replicate 64 {}, tags := [], memory := s.memoryAfterChip, stashes := [], trains := [], guards := []
    fabric := {}, coll := {}, twin := s.twin.afterChip
    strongroom := { s.strongroom with quotes := [], window := false }
    lodge := { s.lodge with phase := .firmware, trace := {}, correctedBase := s.lodge.correctedBase - s.correctedErrors
                            replaysBase := s.lodge.replaysBase - s.replays } }

/-- A CHIP reset begins: a snapshot is taken unless one is `BUSY` (R374), transactions are settled (R390), the
incarnation advances (R376) and the chip is cleared (R379). -/
def State.beginChipReset (s : State) : State :=
  let s1 := s.healthEvent 11
  let s2 := if s1.host.snapshotBusy then s1 else s1.takeSnapshot 2
  let s3 := (s2.resetTxns s2.commitNext).modLodge fun l => { l with incarnation := nextIncarnation l.incarnation }
  s3.clearChip

/-! ### Power and `MODULE` (R375, R390, R401, R451, R461) -/

/-- Entries of a mirror whose data is lost (R401). -/
def lostEntries (es : List MirrorEntry) : List MirrorEntry :=
  es.map fun e => if e.state == .empty then e else { e with state := .lost }

/-- What MRAM keeps of the Lodge (R375, R434). -/
def Lodge.inMram (l : Lodge) : Lodge :=
  { catalogue := l.catalogue, nextAccession := l.nextAccession, nearFullRaised := l.nearFullRaised, faults := l.faults
    nextFault := l.nextFault, rates := l.rates, events := l.events, lastEventTime := l.lastEventTime
    lastProbation := l.lastProbation, probation := l.probation, settings := l.settings, cfgSequence := l.cfgSequence
    cfgDigest := l.cfgDigest, cfgStored := l.cfgStored, cfgValid := l.cfgValid, slots := l.slots
    activeSlot := l.activeSlot, stagedFw := l.stagedFw, stagedCfg := l.stagedCfg, nextSession := l.nextSession
    mgmtSent := l.mgmtSent, incarnation := l.incarnation, timeSaved := l.timeSaved, txns := l.txns
    inputShort := l.inputShort, inputLost := l.inputLost, leak := l.leak, inputMv := l.inputMv }

/-- The module with every domain off: what is left is in MRAM (R375, R475). -/
def State.powerDown (s : State) : State :=
  { variant := s.variant, pending := s.pending
    host := { bus := s.host.bus, nextHandle := s.host.nextHandle, perst := s.host.perst
              lastRead := s.host.lastRead, lastPoisoned := s.host.lastPoisoned, lastUnsupported := s.host.lastUnsupported }
    nextLaunch := s.nextLaunch, nextOp := s.nextOp, nextOrder := s.nextOrder
    memory := { relocated := s.memory.relocated, channels := s.memory.channels, channelFrames := s.memory.channelFrames }
    twin := { s.twin.afterChip with mirror := [], held := lostEntries s.twin.held }
    strongroom := { draws := s.strongroom.draws }
    lodge := s.lodge.inMram, freeIndex := s.freeIndex }

/-- The records of the commits under way keep how far they are: MRAM holds them through a loss of power (R390, R475). -/
def State.keepCommits (s : State) : State :=
  s.modLodge fun l => { l with txns := l.txns.map fun t => if t.committing then { t with failedIndex := s.commitNext t } else t }

/-- Device time as MRAM has it when the power goes: the last value saved, which is at most 1 s old (R451), so that no later
stamp comes before an earlier one (R16; notes/assumptions/59.md). -/
def State.keepTime (s : State) : State :=
  s.modLodge fun l => { l with timeSaved := max l.timeSaved (l.time16 / 65536 + 1 - 1000000000) }

/-- The 48 V input is lost (R475): every domain goes off. -/
def State.powerOff (s : State) : State := s.keepCommits.keepTime.powerDown.modLodge fun l => { l with inputLost := true }

/-- Whether the moisture sensor reads dry: after a leak the reading is open (R478). -/
def State.sensorDry (s : State) : Bool × State :=
  if !s.lodge.leak then (true, s)
  else
    let (i, s1) := s.free 1
    let dry := (Config.freeValue i).getLsbD 0
    (dry, s1.modLodge fun l => { l with leak := !dry })

/-- Every domain but the always-on one goes off (R459, R478): its registers, the Lodge with its sessions, attention and
the mailbox stand. -/
def State.shutDown (s : State) : State :=
  let s1 := s.keepCommits.keepTime
  let off := s1.powerDown
  { off with
    counters := Map.keep (fun k _ => keptCounter k) s1.counters
    attnSeq := s1.attnSeq, attnPending := s1.attnPending, attnLog := s1.attnLog
    host := { s1.host.afterChip s1.now with resetBusy := false, resetsWaiting := [] }
    strongroom := { s1.strongroom with quotes := [], window := false }
    lodge := { s1.lodge with phase := .shutdown, trace := {}, countdown := none, withholding := false, throttling := false
                             correctedBase := s1.lodge.correctedBase - s1.correctedErrors
                             replaysBase := s1.lodge.replaysBase - s1.replays } }

/-- Relocations become post-package repairs of the stacks wherever spare rows remain, and their slots are free (R236): a free
bit for each tells (notes/assumptions/59.md). -/
def State.repairPackage (s : State) : State :=
  s.memory.relocated.foldl (fun (s : State) row =>
    let (i, s1) := s.free 1
    if (Config.freeValue i).getLsbD 0 then s1.modMem fun m => { m with relocated := m.relocated.filter (· ≠ row) } else s1) s

/-- The always-on domain starts: time resumes at the saved value plus 1 s, the Strongroom reconstructs its keys, and the
Curator turns relocations into repairs (R236, R415, R451, R461). -/
def State.wakeUp (s : State) : State :=
  s.repairPackage.modLodge fun l => { l with phase := .keys, time16 := (l.timeSaved + 1000000000) * 65536 }

/-- A MODULE reset begins (R375, R390, R393). -/
def State.beginModuleReset (s : State) : State :=
  let s1 := (s.resetTxns s.commitNext).modLodge fun l => { l with incarnation := nextIncarnation l.incarnation }
  s1.keepTime.powerDown.wakeUp

/-! ### Starting and ending resets (R333, R375, R380) -/

/-- A reset starts; a port that has not to retrain, and a retirement that fails, are over at once. A MODULE reset after a
leak needs the sensor dry (R478). -/
def State.beginReset (s : State) (domain target origin : Nat) : State :=
  let s1 := s.modHost fun h =>
    { h with resetBusy := true, resetDomain := domain, resetTarget := target, resetOrigin := origin }
  match domain with
  | 1 => s1.beginArrayReset target
  | 2 => s1.beginChannelReset target
  | 3 =>
    let s2 := s1.beginPortReset target (origin = 3)
    if (s2.port target).state == .retraining then s2 else s2.endReset
  | 4 => s1.beginChipReset
  | _ =>
    let (dry, s2) := s.sensorDry
    if dry then s2.beginModuleReset.modHost fun h => { h with resetBusy := true, resetDomain := 5, resetOrigin := origin }
    else s2

/-- Whether a reset that waited still has its subject. -/
def State.resetStands (s : State) (domain target : Nat) : Bool :=
  match domain with
  | 1 => (s.array target).service == .serving
  | 2 => s.channelStands target
  | 3 => target < s.variant.ports
  | _ => true

/-- The resets that wait run one after another, as far as each is over at once (R380). -/
def State.nextResets : Nat → State → State
  | 0, s => s
  | n + 1, s =>
    match s.host.resetBusy, s.host.resetsWaiting with
    | false, (d, t, o) :: rest =>
      let s1 := s.modHost fun h => { h with resetsWaiting := rest }
      nextResets n (if s1.resetStands d t then s1.beginReset d t o else s1)
    | _, _ => s

/-- The reset under way is over, and the next one starts (R380). -/
def State.resetDone (s : State) : State := State.nextResets s.host.resetsWaiting.length s.endReset

/-- A reset is asked for other than by `RESET_REQ` (R380): a CHIP or MODULE reset supersedes a narrower one; anything
else waits for the reset under way, but what is narrower and not hardware's is discarded during a CHIP or MODULE reset.
-/
def State.requestReset (s : State) (domain target origin : Nat) : State :=
  let h := s.host
  if !h.resetBusy then (if s.resetStands domain target then s.beginReset domain target origin else s)
  else if h.resetDomain < domain && 4 ≤ domain then
    (s.modHost fun h => { h with resetsWaiting := h.resetsWaiting.filter fun r => r.1 = 2 || r.1 = 4 }).beginReset
      domain target origin
  else if 4 ≤ h.resetDomain && origin ≠ 4 then s
  else s.modHost fun h => { h with resetsWaiting := h.resetsWaiting ++ [(domain, target, origin)] }

/-- A `PORT` reset is over once its port is no longer `RETRAINING` (R375). -/
def State.portResetOver (s : State) (p : Nat) : State :=
  if s.host.resetBusy && s.host.resetDomain = 3 && s.host.resetTarget = p && (s.port p).state != .retraining then
    s.resetDone
  else s

/-! ### `RESET_REQ` (R333) -/

/-- Whether the chip is powered and its state stands. -/
def State.chipOn (s : State) : Bool :=
  !(s.lodge.phase == .off || s.lodge.phase == .keys || s.lodge.phase == .shutdown)

/-- A write of `RESET_REQ` (R333). -/
def State.resetReq (s : State) (key : Byte) (domain target : Nat) : State :=
  let fits := match domain with
    | 1 => target < s.variant.arrays && (s.array target).service == .serving
    | 2 | 3 => s.resetStands domain target
    | 4 => target = 0
    | _ => false
  if !s.chipOn then s
  else if key ≠ 0xA5 || !fits || s.host.resetBusy then s.count cResetReqIgnored 0
  else (if domain = 1 then s.healthEvent 10 else s).beginReset domain target 1

/-- `RESET_REQ` with domain `ARRAY` (R333, R378). -/
def execArrayReset (key : Byte) (target : BitVec 16) (s : State) : Host.Outcome State Fault Refusal :=
  .next (s.resetReq key 1 target.toNat)

/-- `RESET_REQ` with domain `CHANNEL` (R237, R333). -/
def execChannelReset (key : Byte) (target : BitVec 16) (s : State) : Host.Outcome State Fault Refusal :=
  .next (s.resetReq key 2 target.toNat)

/-- `RESET_REQ` with domain `PORT` (R333, R375). -/
def execPortReset (key : Byte) (target : BitVec 16) (s : State) : Host.Outcome State Fault Refusal :=
  .next (s.resetReq key 3 target.toNat)

/-- `RESET_REQ` with domain `CHIP` (R333, R379). -/
def execChipReset (key : Byte) (target : BitVec 16) (s : State) : Host.Outcome State Fault Refusal :=
  .next (s.resetReq key 4 target.toNat)

/-! ### PCIe resets (R320, R321, R470) -/

/-- A PCIe reset maps to the CHIP domain; during a CHIP or MODULE reset it is discarded (R320, R380, R470). -/
def State.pcieReset (s : State) : State :=
  if !s.chipOn || s.chipResetting || (s.host.resetBusy && s.host.resetDomain = 5) then s else s.requestReset 4 0 2

/-- `PERST_ASSERT` (R320, R470). -/
def execPerstAssert (s : State) : Host.Outcome State Fault Refusal :=
  .next ((s.modHost fun h => { h with perst := true }).pcieReset)

/-- `PERST_DEASSERT` (R321). -/
def execPerstDeassert (s : State) : Host.Outcome State Fault Refusal :=
  .next (s.modHost fun h => { h with perst := false })

/-- `HOT_RESET` (R320, R337): the link goes down and trains again. -/
def execHotReset (s : State) : Host.Outcome State Fault Refusal := .next s.pcieReset

/-- `FUNCTION_LEVEL_RESET` (R320): the link stays up. -/
def execFunctionLevelReset (s : State) : Host.Outcome State Fault Refusal := .next s.pcieReset

/-- `LINK_DISABLE` (R320). -/
def execLinkDisable (s : State) : Host.Outcome State Fault Refusal :=
  .next s.pcieReset

/-! ### Internal errors and self-checks (R367, R378) -/

/-- `ARRAY_INTERNAL_ERROR` (R367, R380): hardware performs an `ARRAY` reset. One detected during a reset is recorded too. -/
def execArrayInternalError (array : Nat) (s : State) : Host.Outcome State Fault Refusal :=
  let c := ((s.arrayHolders array).head?.map fun h => (s.thread h.1).ctx).getD 0
  let exposed := (s.array array).service == .serving
    || (s.host.resetBusy && array < s.variant.arrays && (s.array array).service != .gone)
  .next (if exposed then (s.fault 0x0030 1 array 1 c).requestReset 1 array 4 else s)

/-- `ARRAY_SELF_CHECK_DONE` (R378). -/
def execArraySelfCheckDone (array : Nat) (passed : Bool) (s : State) : Host.Outcome State Fault Refusal :=
  .next (if s.host.resetBusy && s.host.resetDomain = 1 && s.host.resetTarget = array
      && (s.array array).service == .resetting then
    (if passed then s.arrayPasses array else s.arrayFails array).resetDone
  else s)

/-- `CHIP_INTERNAL_ERROR` (R367): hardware performs a CHIP reset. -/
def execChipInternalError (s : State) : Host.Outcome State Fault Refusal :=
  .next (if s.chipOn then (s.fault 0x0041 7 0 4).requestReset 4 0 4 else s)

/-- `CHANNEL_COPY_COMPLETE` (R237): every line of the channel has been read, those that could not be are under repair, and the
retirement is over. -/
def execChannelCopyComplete (channel : Nat) (s : State) : Host.Outcome State Fault Refusal :=
  .next (if !s.memory.copyingChannels.contains channel then s
    else
      let mine := fun (x : Nat) => (atticChannel (x * lineBytes) (32 * s.stacksInService)).1 = channel
      let s0 := (s.badLines mine).foldl State.scrubLine s
      let s1 := (s0.modMem fun m => { m with copyingChannels := m.copyingChannels.filter (· ≠ channel) }).fault 0x0005 4
        channel 2
      if s1.host.resetBusy && s1.host.resetDomain = 2 && s1.host.resetTarget = channel then s1.resetDone else s1)

end Sys2Proof.Machine
end

