-- ==== Sys2Proof/Machine/FabricCmds.lean ====
section
/-! DEFINITION. The meanings of the fabric commands: `PORT_STATE` (R282, R283), `ROUTE_SET` (R284), `TIMEOUT_SET`
(R285), `GROUP_DEFINE` (R287 to R289) and `PERMUTE_PLAN` (R310, R311). -/

namespace Sys2Proof.Machine

/-! ### Ports (R282, R283) -/

/-- The port record (R283). -/
def State.portRecord (s : State) (p : Nat) : Bytes :=
  let x := s.port p
  let live := fun (n : Nat) => if x.state == .active then n else 0
  le 1 x.state.code ++ le 1 (live x.width) ++ le 2 (live x.rate) ++ le 2 (live x.laneMask.toNat)
    ++ le 2 x.neighbourDevice ++ le 2 x.neighbourIncarnation ++ le 1 x.neighbourPort ++ le 1 x.failCause ++ zeros 4
    ++ le 8 x.lastChange

/-- What an action other than `QUERY` does to a port (R250). Where R250 has no trigger for it, only the settings are
stored. `RETRAIN` is a `PORT` reset (R375). -/
def State.portAction (s : State) (p action : Nat) : State :=
  let x := s.port p
  if action = 1 then
    (if x.state == .disabled then s.setPort p .down else if x.state == .failed then s.retrainFailed p else s)
  else if action = 3 then s.requestReset 3 p 3
  else if x.state == .disabled then s
  else
    let s1 := if x.state == .active then s.leaveActive p .disabled false true
      else if x.state == .retraining && x.planned then (s.setPort p .disabled).portFault p true else s.setPort p .disabled
    (((s1.modPort p fun y => { y.unlink with planned := false }).dropSnapshots p).startCutTimers).portResetOver p

/-- `PORT_STATE` (R282). -/
def State.cmdPortState (s : State) (h : Nat) (k : OutCmd) (p : Bytes) : Answer :=
  let port := field p 0 1
  let action := field p 1 1
  let rate := field p 2 2
  let width := field p 4 1
  if k.ctx ≠ 0 && action ≠ 0 then s.says .notPermitted
  else if port < 6 && s.variant.ports ≤ port then s.says .unsupported
  else if 5 < port || 3 < action || (action ≠ 0 && (!([0, 32, 64, 128].contains rate) || !([0, 4, 8, 16].contains width))) then
    s.says .badPacket
  else if action = 0 then (s.modCmd h fun k => { k with object := none }).says .done (s.portRecord port)
  else
    let s1 := (s.modPort port fun x =>
      { x with maxRate := rate, minWidth := if width = 0 then x.minWidth else width }).portAction port action
    s1.says .done (s1.portRecord port)

/-! ### Routes, broadcast sets and timeouts (R284, R285) -/

/-- The route entries of a `ROUTE_SET`: first device, count and mask. -/
def routeEntries (p : Bytes) (n : Nat) : List (Nat × Nat × Nat) :=
  (List.range n).map fun i => (field p (8 + 8 * i) 2, field p (10 + 8 * i) 2, field p (12 + 8 * i) 1)

/-- Whether a route entry names only ports that are fitted, and devices up to 0xFFFE (R284). -/
def State.routeOk (s : State) (e : Nat × Nat × Nat) : Bool :=
  e.2.2 < 2 ^ s.variant.ports && 1 ≤ e.2.1 && e.1 + e.2.1 ≤ 0xFFFF

/-- Replaces the routes of one entry's range (R284). -/
def setRoutes (m : Map Nat) (e : Nat × Nat × Nat) : Map Nat :=
  (countUp e.1 1 e.2.1).foldl (fun m d => if e.2.2 = 0 then Map.erase m d else Map.put m d e.2.2) m

/-- Flows whose routes changed move once they have no outstanding request (R275). -/
def State.reroute (s : State) (old : Map Nat) : State :=
  s.modFabric fun f => { f with flows := Map.mapVals (fun key q =>
    if Map.getD old (key / 8) 0 = Map.getD f.routes (key / 8) 0 then q else q % 8 + 8) f.flows }

/-- `ROUTE_SET` (R284). -/
def State.cmdRouteSet (s : State) (k : OutCmd) (p : Bytes) : Answer :=
  let kind := field p 0 1
  let n := field p 2 2
  let c := field p 4 2
  if formBad 0x0501 p then s.says .badPacket
  else if kind = 0 then
    let es := routeEntries p n
    if k.ctx ≠ 0 then s.says .notPermitted
    else if p.length < 8 + 8 * n || !es.all s.routeOk || (List.range n).any (fun i => field p (13 + 8 * i) 3 ≠ 0) then
      s.says .badPacket
    else
      let old := s.fabric.routes
      let s1 := s.modFabric fun f => { f with routes := es.foldl setRoutes f.routes }
      ((s1.reroute old).settleFlows.pump).says .done
  else if k.ctx ≠ 0 && k.ctx ≠ c then s.says .notPermitted
  else if s.noCtx c then s.says .noSuchContext
  else
    let ds := (List.range n).map fun i => field p (8 + 2 * i) 2
    if 1 < kind || 64 < n || p.length < 8 + 2 * n || ds.any (· = 0xFFFF) then s.says .badPacket
    else (s.modCtx c fun x => { x with broadcast := ds }).says .done

/-- Whether a request has not left its port: it has none yet, or waits in its queue (R285). -/
def State.unsent (s : State) (tag : Nat) (r : Request) : Bool :=
  match r.port with
  | none => true
  | some p => (s.port p).queue.any fun o => o.packet.tag = tag && s.isRequest o

/-- `TIMEOUT_SET` (R285): requests that have been sent keep the timeout they were sent with. -/
def State.cmdTimeoutSet (s : State) (k : OutCmd) (p : Bytes) : Answer :=
  let c := field p 0 2
  let us := field p 4 4
  if k.ctx ≠ 0 && k.ctx ≠ c then s.says .notPermitted
  else if c ≠ 0 && s.noCtx c then s.says .noSuchContext
  else if us < 5 || 1000000 < us then s.says .badPacket
  else
    let s1 := if c = 0 then s.modFabric fun f => { f with timeoutUs := us }
      else s.modCtx c fun x => { x with fabricTimeout := some us }
    (s1.modFabric fun f => { f with requests := Map.mapVals (fun tag r =>
      if s1.unsent tag r then { r with timeoutUs := s1.timeoutOf r.owner } else r) f.requests }).says .done

/-! ### Groups (R287 to R289) -/

/-- A run entry of a group (R288). -/
structure GroupRun where
  logical : Nat
  length : Nat
  device : Nat
  stride : Nat
  ctx : Nat
  reserved : Nat
  deriving DecidableEq, Repr

/-- Reads the run entries of a `GROUP_DEFINE`. -/
def groupRuns (p : Bytes) (n : Nat) : List GroupRun :=
  (List.range n).map fun i =>
    let b := p.drop (16 + 12 * i)
    { logical := field b 0 2, length := field b 2 2, device := field b 4 2, stride := field b 6 2, ctx := field b 8 2
      reserved := field b 10 2 }

/-- Whether a run keeps the rules of R288, and its devices those of R289. -/
def GroupRun.ok (r : GroupRun) : Bool :=
  1 ≤ r.length && (r.stride ≠ 0 || r.length = 1) && 1 ≤ r.ctx && r.ctx ≤ 16383 && r.reserved = 0
    && r.device + (r.length - 1) * r.stride ≤ 0xFFFE

/-- A run's members: logical index, device and context (R288). -/
def GroupRun.members (r : GroupRun) : List (Nat × Nat × Nat) :=
  (List.range r.length).map fun i => (r.logical + i, r.device + i * r.stride, r.ctx)

/-- The members of runs in logical order, where the logical indices are 0 to n − 1, each once, and no pair appears
twice (R289). -/
def membersOf (rs : List GroupRun) (n : Nat) : Option (List (Nat × Nat)) :=
  let all := rs.foldl (fun (m : Map (Nat × Nat)) r => r.members.foldl (fun m e => Map.put m e.1 e.2) m) []
  let ms := Map.vals all
  if (rs.map (·.length)).sum = n && Map.keys all == List.range n && ms.eraseDups.length = n then some ms else none

/-- Whether a collective, a bucket reduction or a flag exchange of a group is outstanding (R289): a bucket's reduction until
the bucket has left `REDUCING`. -/
def State.groupBusy (s : State) (c g : Nat) : Bool :=
  s.coll.active.any fun e => e.2.ctx = c && e.2.group = g && (e.2.stage ≤ 1 || (match e.2.unit with
    | .bucket x b => (s.bucket? x b).any (fun k => k.state == .reducing) && s.bucketColl x b == some e.2
    | _ => false))

/-- The collectives of a group that have ended are forgotten: its sequences restart (R289). -/
def State.forgetColls (s : State) (c g : Nat) : State :=
  s.modCe fun x => { x with active := Map.keep (fun _ k => !(k.ctx = c && k.group = g)) x.active }

/-- `GROUP_DEFINE` (R287, R289). -/
def State.cmdGroupDefine (s : State) (k : OutCmd) (p : Bytes) : Answer :=
  let g := field p 0 2
  let n := field p 2 2
  let count := field p 4 2
  let flags := field p 6 2
  let epoch := field p 8 4
  let key := groupKey k.ctx g
  let old := Map.get? s.coll.groups key
  let rs := groupRuns p n
  if g < 1 || 4095 < g || 1 < flags || 340 < n then s.says .badPacket
  else if flags = 1 then
    if old.isNone then s.says .badPacket
    else if s.groupBusy k.ctx g then s.says .busyRetry
    else ((s.forgetColls k.ctx g).modCe fun x => { x with groups := Map.erase x.groups key }).says .done
  else if n < 1 || count < 1 || p.length < 16 + 12 * n || !rs.all GroupRun.ok then s.says .badPacket
  else match membersOf rs count with
    | none => s.says .badPacket
    | some ms =>
      if !ms.contains (s.lodge.deviceId, k.ctx) || old.any (fun (q : CollGroup) => epoch ≤ q.epoch) then s.says .badPacket
      else if s.groupBusy k.ctx g then s.says .busyRetry
      else
        let rest := Map.erase s.coll.groups key
        if 256 ≤ (rest.filter fun e => e.1 / 4096 = k.ctx).length || 65536 < (rest.map fun e => e.2.runs).sum + n then
          s.says .refusedCapacity
        else
          let new : CollGroup :=
            { epoch := epoch, members := ms, runs := n, own := ms.idxOf (s.lodge.deviceId, k.ctx) }
          ((s.forgetColls k.ctx g).modCe fun x => { x with groups := Map.put x.groups key new }).says .done

/-! ### Re-sharding plans (R310, R311) -/

/-- Reads the chunk entries of a `PERMUTE_PLAN`. -/
def planChunks (p : Bytes) (n : Nat) : List Chunk :=
  (List.range n).map fun i =>
    let b := p.drop (16 + 24 * i)
    { srcLogical := field b 0 2, dstLogical := field b 2 2, length := field b 4 4, srcAddress := field b 8 8
      dstAddress := field b 16 8 }

/-- Whether a chunk's own fields keep R310. -/
def Chunk.ok (x : Chunk) : Bool :=
  x.length % 4096 = 0 && 4096 ≤ x.length && x.length ≤ 2 ^ 30 && x.srcAddress % 4096 = 0 && x.dstAddress % 4096 = 0

/-- The source and destination ranges of a plan on a member. -/
def srcRanges (cs : List Chunk) (m : Nat) : List (Nat × Nat) :=
  (cs.filter fun x => x.srcLogical = m).map fun x => (x.srcAddress, x.length)
def dstRanges (cs : List Chunk) (m : Nat) : List (Nat × Nat) :=
  (cs.filter fun x => x.dstLogical = m).map fun x => (x.dstAddress, x.length)

/-- Whether a plan passes the checks of its seal (R311). -/
def State.sealOk (s : State) (c : Nat) (g : CollGroup) (cs : List Chunk) : Bool :=
  let ms := (cs.flatMap fun x => [x.srcLogical, x.dstLogical]).eraseDups
  ms.all fun m => m < g.members.length && disjointRanges (srcRanges cs m) && disjointRanges (dstRanges cs m)
    && ((dstRanges cs m).all fun d => (srcRanges cs m).all fun r => r == d || !rangesMeet r d)
    && (m ≠ g.own || (srcRanges cs m ++ dstRanges cs m).all fun r => s.canWrite c r.1 r.2)

/-- Whether a running `PERMUTE` uses a plan (R311). -/
def State.planBusy (s : State) (c plan : Nat) : Bool :=
  s.coll.active.any fun e => e.2.ctx = c && e.2.op = opPermute && e.2.plan = plan && e.2.stage ≤ 1

/-- `PERMUTE_PLAN` (R310, R311). `DELETE` of a plan that is absent, and `APPEND` to one that is not being built with
the same group and epoch, are refused (notes/assumptions/33.md). -/
def State.cmdPermutePlan (s : State) (k : OutCmd) (p : Bytes) : Answer :=
  let id := field p 0 2
  let g := field p 2 2
  let n := field p 4 2
  let flags := field p 6 2
  let epoch := field p 8 4
  let key := groupKey k.ctx id
  let old := Map.get? s.coll.plans key
  let cs := planChunks p n
  if id < 1 || 16 < id || 170 < n || 7 < flags || p.length < 16 + 24 * n || !cs.all Chunk.ok then s.says .badPacket
  else if flags % 2 = 1 then
    if old.isNone then s.says .badPacket
    else if s.planBusy k.ctx id then s.says .busyRetry
    else (s.modCe fun x => { x with plans := Map.erase x.plans key }).says .done
  else
    let append := bitOf flags 1
    let fits := fun (q : Plan) => !q.sealed && q.group = g && q.epoch = epoch
    if append && !old.any fits then s.says .badPacket
    else if s.planBusy k.ctx id then s.says .busyRetry
    else
      let all := (if append then (old.map (·.chunks)).getD [] else []) ++ cs
      if 65536 < all.length then s.says .refusedCapacity
      else if !bitOf flags 2 then
        (s.modCe fun x => { x with plans := Map.put x.plans key ({ group := g, epoch := epoch, chunks := all } : Plan) }).says .done
      else if (s.group? k.ctx g).any fun q => s.sealOk k.ctx q all then
        (s.modCe fun x =>
          { x with plans := Map.put x.plans key ({ group := g, epoch := epoch, chunks := all, sealed := true } : Plan) }).says .done
      else (s.modCe fun x => { x with plans := Map.erase x.plans key }).says .badPacket

end Sys2Proof.Machine
end

