-- ==== Sys2Proof/Machine/BarAccess.lean ====
section
/-! DEFINITION. The host's accesses to the BARs: the register map of BAR0 (R322, R323, R325), doorbells (R326), register
writes, and the window of BAR2 (R337, R230, R243, R427). notes/assumptions/37.md says what the model fixes here. -/

namespace Sys2Proof.Machine

/-! ### Reading BAR0 (R322, R323, R325) -/

/-- A ring's table entry as bytes (R325). -/
def Ring.bytes (r : Ring) : Bytes :=
  let code := match r.state with
    | .unbound => 0 | .bound => 1 | .draining => 2 | .stopped => 3
  le 8 r.cmdBase ++ le 8 r.replyBase ++ le 1 r.cmdLog2 ++ le 1 r.replyLog2 ++ le 1 code ++ le 1 r.stopCause
    ++ le 2 r.boundCtx ++ zeros 2 ++ le 4 r.cmdHead.toNat ++ le 4 r.replyTail.toNat ++ le 4 r.cmdTail.toNat
    ++ le 4 r.replyHead.toNat ++ le 4 r.outstanding ++ zeros 20

/-- `DEVICE_STATUS` (R322). -/
def State.deviceStatus (s : State) : Nat := b2n s.deviceReady + 2 * b2n s.stewardRunning + 4 * s.serviceLevel

/-- The blocks of BAR0 below the ring table, each with its offset (R322). Write-only registers read zero. -/
def State.bar0Blocks (s : State) : List (Nat × Bytes) := [
  (0x0000, le 4 0x455A4C54 ++ le 2 s.variant.partCode ++ zeros 2 ++ le 2 s.lodge.deviceId ++ le 2 s.lodge.incarnation
    ++ le 4 s.deviceStatus ++ le 4 s.host.stewardBeat.toNat ++ zeros 4 ++ le 8 Config.serial.toNat),
  (0x1000, le 8 s.now),
  (0x2008, le 4 (b2n s.host.snapshotBusy + s.host.snapshotSeq.toNat * 2 ^ 16) ++ zeros 4 ++ le 8 s.host.snapshotTime),
  (0x2020, le 4 (b2n s.host.resetBusy + s.host.resetDomain * 2 ^ 8 + s.host.resetCount.toNat * 2 ^ 16)),
  (0x3000, le 8 s.host.bar2Base ++ le 2 s.host.bar2Ctx),
  (0x10000, s.host.mailbox)]

/-- A byte of BAR0. -/
def State.bar0Byte (s : State) (a : Nat) : Byte :=
  if 0x400000 ≤ a then (s.ring ((a - 0x400000) / 64)).bytes.getD (a % 64) 0
  else (s.bar0Blocks.findSome? fun b =>
    if b.1 ≤ a && a < b.1 + b.2.length then b.2[a - b.1]? else none).getD 0

/-- Bytes of BAR0. -/
def State.bar0 (s : State) (a n : Nat) : Bytes := (List.range n).map fun i => s.bar0Byte (a + i)

/-- What a read of a BAR returned. -/
def State.answerRead (s : State) (bs : Bytes) (poisoned unsupported : Bool) : State :=
  s.modHost fun h => { h with lastRead := bs, lastPoisoned := poisoned, lastUnsupported := unsupported }

/-- `DEVICE_TIME_LOW_READ` (R323): the read returns the low half and latches the high half. -/
def execDeviceTimeLowRead (s : State) : Host.Outcome State Fault Refusal :=
  .next ((s.modHost fun h => { h with timeLatch := BitVec.ofNat 32 (s.now / 2 ^ 32) }).answerRead (le 4 s.now) false false)

/-! ### Doorbells (R321, R324, R326) -/

/-- A ring 0 that is `UNBOUND` with a valid table entry is bound by a doorbell write (R324). -/
def State.bindRing0 (s : State) (n : Nat) : State :=
  if n = 0 && (s.ring 0).state == .unbound && (s.ring 0).valid then s.modRing 0 fun r => r.bindTo 0 else s

/-- A doorbell write (R326). -/
def State.ringDoorbell (s : State) (n width : Nat) (value : Word) : State :=
  if !s.deviceReady || width ≠ 8 then s.count cDoorbellIgnored 0
  else
    let s1 := s.bindRing0 n
    if (s1.ring n).state != .bound then s1.count cDoorbellIgnored 0
    else
      let s2 := (s1.modRing n fun r =>
        { r with cmdTail := value.setWidth 32, replyHead := (value >>> 32).setWidth 32
                 backlogSince := if r.waiting = 0 then s.now else r.backlogSince }).count cDoorbells 0
      let r := s2.ring n
      if r.cmdSize < r.waiting || r.replySize < r.unread then s2.stopRing n 2 else s2

/-- `DOORBELL` (R326). -/
def execDoorbell (ring width : Nat) (value : Word) (s : State) : Host.Outcome State Fault Refusal :=
  .next (if ring < 65536 then s.ringDoorbell ring width value else s)

/-- `RING_DRAIN_COMPLETE` (R324). -/
def execRingDrainComplete (ring : Nat) (s : State) : Host.Outcome State Fault Refusal := .next (s.settleRing ring)

/-! ### Register writes (R13, R322, R325, R333) -/

/-- A write to a ring's table entry: the writable fields change while the ring is `UNBOUND` (R325). -/
def State.writeRingEntry (s : State) (n off : Nat) (bs : Bytes) : State :=
  let r := s.ring n
  if r.state != .unbound then s
  else
    let b := patch r.bytes off bs
    s.modRing n fun r =>
      { r with cmdBase := field b 0 8, replyBase := field b 8 8, cmdLog2 := field b 0x10 1, replyLog2 := field b 0x11 1 }

/-- `REGISTER_WRITE`: a write to a register of BAR0 that has no row of its own. During a CHIP reset only `SNAPSHOT_REQ`
and `RESET_REQ` are served (R337). A `RESET_REQ` of another width is ignored and counted, as one that names no domain is
(R333). -/
def State.writeRegister (s : State) (off width : Nat) (value : Word) : State :=
  let bs := (le 8 value.toNat).take width
  let v := value.toNat
  if off = 0x2000 then
    (if v % 2 = 1 then s.modHost fun h => { h with snapshotBusy := true } else s)
  else if off = 0x2018 then
    (if width = 8 then s.resetReq (BitVec.ofNat 8 (nbits v 63 56)) (nbits v 3 0) (nbits v 23 8)
     else s.count cResetReqIgnored 0)
  else if s.chipResetting then s
  else if 0x3000 ≤ off && off < 0x3008 then
    s.modHost fun h => { h with bar2Base := field (patch (le 8 h.bar2Base) (off - 0x3000) bs) 0 8 }
  else if 0x3008 ≤ off && off < 0x300A then
    s.modHost fun h => { h with bar2Ctx := field (patch (le 2 h.bar2Ctx) (off - 0x3008) bs) 0 2 }
  else if 0x100000 ≤ off && off < 0x180000 then s.ringDoorbell ((off - 0x100000) / 8) (if off % 8 = 0 then width else 0) value
  else if 0x400000 ≤ off && off < 0x800000 then s.writeRingEntry ((off - 0x400000) / 64) (off % 64) bs
  else s

/-- `REGISTER_WRITE` (R322). -/
def execRegisterWrite (offset width : Nat) (value : Word) (s : State) : Host.Outcome State Fault Refusal :=
  .next (if s.lodge.phase == .off then s else s.writeRegister offset width value)

/-! ### BAR2 (R337) -/

/-- Whether the window reaches a page. -/
def State.bar2Reaches (s : State) (write : Bool) (i : Nat) : Bool :=
  i * pageBytes < deviceEnd && match Map.get? s.memory.pages i with
  | none => false
  | some p =>
    let c := s.host.bar2Ctx
    p.isMapped && (c = 0 || p.owner == .ctx c || p.owner == .pool) && (!write || (p.rw && p.owner != .pool))

/-- The loan of a range, where it has one; the host is outside every set (R427). -/
def State.boundTo (s : State) (a n : Nat) : Option Word :=
  (unitsOf pageBytes a n).findSome? fun i => (Map.get? s.memory.pages i).bind (·.loan)

/-- The return of the spilled pages of a range for the host, as the class of their owner (R229, R230). -/
def State.hostReturns (s : State) (is : List Nat) : Option State :=
  is.foldl (fun o i => o.bind fun s => s.beginReturn (match (Map.get? s.memory.pages i).map Page.owner with
    | some (Owner.ctx c) => s.allocClass c
    | _ => 3) i) (some s)

/-- A BAR2 read is carried out, or waits for a page's return or a repair (R230, R243, R244, R427). -/
def State.bar2Get (s : State) (a n : Nat) : State :=
  if !(unitsOf pageBytes a n).all (s.bar2Reaches false) then (s.count cBar2Violations 0).answerRead (zeros n) false false
  else match s.boundTo a n with
    | some id => ((s.countSuppressed id n).count cBar2Violations 0).answerRead (zeros n) false false
    | none =>
      let wait := fun (s : State) => s.modHost fun h => { h with readsWaiting := h.readsWaiting ++ [(a, n)] }
      match s.awayPages a n with
      | [] =>
        let s1 := (s.checkRead a n).touch a n
        if !(s1.repairingIn a n).isEmpty then wait s1
        else if !(s1.lostIn a n).isEmpty then ((s1.countLost a n).count cBar2Poisoned 0).answerRead (zeros n) true false
        else s1.answerRead (s1.bytesAt a n) false false
      | is => match s.hostReturns is with
        | some s1 => wait s1
        | none => (s.count cBar2Poisoned 0).answerRead (zeros n) true false

/-- `BAR2_READ` (R337). -/
def execBar2Read (offset len : Nat) (s : State) : Host.Outcome State Fault Refusal :=
  .next (if !s.deviceReady then s.answerRead (zeros len) false true else s.bar2Get (s.host.bar2Base + offset) len)

/-- A BAR2 write is carried out, or waits for a page's return or a repair; what cannot be written is discarded. -/
def State.bar2Put (s : State) (a : Nat) (bs : Bytes) : State :=
  let n := bs.length
  let wait := fun (s : State) => s.modHost fun h => { h with writesWaiting := h.writesWaiting ++ [(a, bs)] }
  if !s.host.writesWaiting.isEmpty then wait s
  else if !(unitsOf pageBytes a n).all (s.bar2Reaches true) || (s.boundTo a n).isSome then s.count cBar2Violations 0
  else match s.awayPages a n with
    | [] => if (s.repairingIn a n).isEmpty then s.store a bs else wait s
    | is => match s.hostReturns is with
      | some s1 => wait s1
      | none => s

/-- `BAR2_WRITE` (R337): a posted write. -/
def execBar2Write (offset : Nat) (data : Bytes) (s : State) : Host.Outcome State Fault Refusal :=
  .next (if s.deviceReady then s.bar2Put (s.host.bar2Base + offset) data else s)

/-- What waits on the host's side goes on, in its order (R230, R243). -/
def State.bar2Pump (s : State) : State :=
  let h := s.host
  let s1 := s.modHost fun h => { h with readsWaiting := [], writesWaiting := [] }
  let s2 := h.writesWaiting.foldl (fun (s : State) w => s.bar2Put w.1 w.2) s1
  h.readsWaiting.foldl (fun (s : State) r => s.bar2Get r.1 r.2) s2

/-- A page's return has failed: a read of it completes poisoned, and a write to it is discarded (R230). -/
def State.bar2Fail (s : State) (i : Nat) : State :=
  let h := s.host
  let hit := fun (a n : Nat) => (unitsOf pageBytes a n).contains i
  let s1 := s.modHost fun h =>
    { h with readsWaiting := h.readsWaiting.filter fun r => !hit r.1 r.2
             writesWaiting := h.writesWaiting.filter fun w => !hit w.1 w.2.length }
  (h.readsWaiting.filter fun r => hit r.1 r.2).foldl (fun (s : State) r =>
    (s.count cBar2Poisoned 0).answerRead (zeros r.2) true false) s1

end Sys2Proof.Machine
end

