-- ==== Sys2Proof/Machine/Scalar.lean ====
section
/-! DEFINITION. Scalar instructions (R125), predicates (R124), branches (R119, R127), scalar memory
(R126), descriptor instructions (R483) and `SREAD` (R111). -/

namespace Sys2Proof.Machine

/-! ### Arithmetic and compares (R125) -/

/-- All 64 bits of `IMM`. -/
def immAll : Nat := 2 ^ 64 - 1

/-- SD ← SA op SB/`IMM`. -/
def useAlu : ScalarUse := { sd := 31, sa := 31, sb := 31, imm := immAll, choice := true }
/-- SD ← SB/`IMM`. -/
def useMov : ScalarUse := { sd := 31, sb := 31, imm := immAll, choice := true }
/-- PD ← SA cmp SB/`IMM`. -/
def useCmp : ScalarUse := { sa := 31, sb := 31, pd := true, imm := immAll, choice := true }
/-- PD ← predicate op predicate. -/
def usePred : ScalarUse := { sa := 7, sb := 7, pd := true }
/-- PD ← NOT predicate. -/
def usePnot : ScalarUse := { sa := 7, pd := true }

/-- Writes SD and goes on. -/
def State.writeReg (s : State) (t : ThreadId) (r : BitVec 5) (v : Word) : State :=
  s.modThread t fun x => { x.setReg r v with pc := x.pc + 16 }

/-- Writes PD and goes on. -/
def State.writePred (s : State) (t : ThreadId) (p : BitVec 3) (v : Bool) : State :=
  s.modThread t fun x => { x.setPred p v with pc := x.pc + 16 }

/-- An arithmetic instruction (R125). -/
def State.alu (s : State) (t : ThreadId) (minor : Nat) (w : ScalarWord) (f : Word → Word → Word) : State :=
  s.issueScalar t 0x01 minor w useAlu fun x s =>
    s.writeReg t w.sd (f (x.reg w.sa) (secondOperand w x))

/-- A compare (R125). -/
def State.compare (s : State) (t : ThreadId) (minor : Nat) (w : ScalarWord) (f : Word → Word → Bool) :
    State :=
  s.issueScalar t 0x01 minor w useCmp fun x s =>
    s.writePred t w.pd (f (x.reg w.sa) (secondOperand w x))

/-- A predicate instruction (R124). -/
def State.predOp (s : State) (t : ThreadId) (minor : Nat) (w : ScalarWord) (f : Bool → Bool → Bool) :
    State :=
  s.issueScalar t 0x01 minor w usePred fun x s =>
    s.writePred t w.pd (f (x.pred (w.sa.setWidth 3)) (x.pred (w.sb.setWidth 3)))

/-- `MULHU` (R125). -/
def mulHigh (a b : Word) : Word := BitVec.ofNat 64 (a.toNat * b.toNat / 2 ^ 64)
/-- Shift counts are taken modulo 64 (R125). -/
def shiftCount (b : Word) : Nat := b.toNat % 64
/-- Signed minimum (R125). -/
def minSigned (a b : Word) : Word := if a.slt b then a else b
/-- Signed maximum (R125). -/
def maxSigned (a b : Word) : Word := if a.slt b then b else a

/-- `ADD` (R125). -/
def execAdd (t : ThreadId) (w : ScalarWord) (s : State) : Host.Outcome State Fault Refusal :=
  .next (s.alu t 0x00 w fun a b => a + b)
/-- `SUB` (R125). -/
def execSub (t : ThreadId) (w : ScalarWord) (s : State) : Host.Outcome State Fault Refusal :=
  .next (s.alu t 0x01 w fun a b => a - b)
/-- `MUL` (R125). -/
def execMul (t : ThreadId) (w : ScalarWord) (s : State) : Host.Outcome State Fault Refusal :=
  .next (s.alu t 0x02 w fun a b => a * b)
/-- `MULHU` (R125). -/
def execMulhu (t : ThreadId) (w : ScalarWord) (s : State) : Host.Outcome State Fault Refusal :=
  .next (s.alu t 0x03 w mulHigh)
/-- `AND` (R125). -/
def execAnd (t : ThreadId) (w : ScalarWord) (s : State) : Host.Outcome State Fault Refusal :=
  .next (s.alu t 0x04 w fun a b => a &&& b)
/-- `OR` (R125). -/
def execOr (t : ThreadId) (w : ScalarWord) (s : State) : Host.Outcome State Fault Refusal :=
  .next (s.alu t 0x05 w fun a b => a ||| b)
/-- `XOR` (R125). -/
def execXor (t : ThreadId) (w : ScalarWord) (s : State) : Host.Outcome State Fault Refusal :=
  .next (s.alu t 0x06 w fun a b => a ^^^ b)
/-- `SHL` (R125). -/
def execShl (t : ThreadId) (w : ScalarWord) (s : State) : Host.Outcome State Fault Refusal :=
  .next (s.alu t 0x07 w fun a b => a <<< shiftCount b)
/-- `SHR` (R125). -/
def execShr (t : ThreadId) (w : ScalarWord) (s : State) : Host.Outcome State Fault Refusal :=
  .next (s.alu t 0x08 w fun a b => a >>> shiftCount b)
/-- `SRA` (R125). -/
def execSra (t : ThreadId) (w : ScalarWord) (s : State) : Host.Outcome State Fault Refusal :=
  .next (s.alu t 0x09 w fun a b => a.sshiftRight (shiftCount b))
/-- `MIN` (R125). -/
def execMin (t : ThreadId) (w : ScalarWord) (s : State) : Host.Outcome State Fault Refusal :=
  .next (s.alu t 0x0A w minSigned)
/-- `MAX` (R125). -/
def execMax (t : ThreadId) (w : ScalarWord) (s : State) : Host.Outcome State Fault Refusal :=
  .next (s.alu t 0x0B w maxSigned)
/-- `MOV` (R124). -/
def execMov (t : ThreadId) (w : ScalarWord) (s : State) : Host.Outcome State Fault Refusal :=
  .next (s.issueScalar t 0x01 0x0C w useMov fun x s => s.writeReg t w.sd (secondOperand w x))

/-- `CMPEQ` (R125). -/
def execCmpeq (t : ThreadId) (w : ScalarWord) (s : State) : Host.Outcome State Fault Refusal :=
  .next (s.compare t 0x10 w fun a b => a == b)
/-- `CMPNE` (R125). -/
def execCmpne (t : ThreadId) (w : ScalarWord) (s : State) : Host.Outcome State Fault Refusal :=
  .next (s.compare t 0x11 w fun a b => a != b)
/-- `CMPLT`, signed (R125). -/
def execCmplt (t : ThreadId) (w : ScalarWord) (s : State) : Host.Outcome State Fault Refusal :=
  .next (s.compare t 0x12 w fun a b => a.slt b)
/-- `CMPLTU` (R125). -/
def execCmpltu (t : ThreadId) (w : ScalarWord) (s : State) : Host.Outcome State Fault Refusal :=
  .next (s.compare t 0x13 w fun a b => a.ult b)
/-- `CMPLE`, signed (R125). -/
def execCmple (t : ThreadId) (w : ScalarWord) (s : State) : Host.Outcome State Fault Refusal :=
  .next (s.compare t 0x14 w fun a b => a.sle b)
/-- `CMPLEU` (R125). -/
def execCmpleu (t : ThreadId) (w : ScalarWord) (s : State) : Host.Outcome State Fault Refusal :=
  .next (s.compare t 0x15 w fun a b => a.ule b)

/-- `PAND` (R124). -/
def execPand (t : ThreadId) (w : ScalarWord) (s : State) : Host.Outcome State Fault Refusal :=
  .next (s.predOp t 0x18 w fun a b => a && b)
/-- `POR` (R124). -/
def execPor (t : ThreadId) (w : ScalarWord) (s : State) : Host.Outcome State Fault Refusal :=
  .next (s.predOp t 0x19 w fun a b => a || b)
/-- `PXOR` (R124). -/
def execPxor (t : ThreadId) (w : ScalarWord) (s : State) : Host.Outcome State Fault Refusal :=
  .next (s.predOp t 0x1A w fun a b => a != b)
/-- `PNOT` (R124). -/
def execPnot (t : ThreadId) (w : ScalarWord) (s : State) : Host.Outcome State Fault Refusal :=
  .next (s.issueScalar t 0x01 0x1B w usePnot fun x s => s.writePred t w.pd (!x.pred (w.sa.setWidth 3)))

/-! ### Branches (R119, R127) -/

/-- Goes to a target: one that is not on the module, or not a multiple of 16, gives the `ACCESS` trap
at the branch (R119). -/
def State.goto (s : State) (t : ThreadId) (word : InstrWord) (target : Word)
    (link : Option (BitVec 5)) : State :=
  let x := s.thread t
  if devOf target ≠ s.lodge.deviceId || target.toNat % 16 ≠ 0 then s.trap t x.pc word (trAccess target)
  else s.modThread t fun x => match link with
    | none => { x with pc := target }
    | some r => { x.setReg r (x.pc + 16) with pc := target }

/-- `BR` (R127). -/
def execBr (t : ThreadId) (w : ScalarWord) (s : State) : Host.Outcome State Fault Refusal :=
  .next (s.issueScalar t 0x03 0x00 w { imm := immAll } fun x s =>
    s.goto t (scalarBits w 0x03 0x00) (x.pc + w.imm) none)
/-- `CALL` (R127). -/
def execCall (t : ThreadId) (w : ScalarWord) (s : State) : Host.Outcome State Fault Refusal :=
  .next (s.issueScalar t 0x03 0x01 w { sd := 31, imm := immAll } fun x s =>
    s.goto t (scalarBits w 0x03 0x01) (x.pc + w.imm) (some w.sd))
/-- `JMP` (R127). -/
def execJmp (t : ThreadId) (w : ScalarWord) (s : State) : Host.Outcome State Fault Refusal :=
  .next (s.issueScalar t 0x03 0x02 w { sa := 31 } fun x s =>
    s.goto t (scalarBits w 0x03 0x02) (x.reg w.sa) none)
/-- `EXIT` (R127). -/
def execExit (t : ThreadId) (w : ScalarWord) (s : State) : Host.Outcome State Fault Refusal :=
  .next (s.issueScalar t 0x03 0x03 w {} fun x s =>
    if x.ops.isEmpty then s.exitThread t else s.waitFor t (scalarBits w 0x03 0x03) .exit)

/-! ### Scalar memory (R126, R243, R244) -/

/-- A local read by a thread: outside the mappings it traps (R120); a line under repair holds the thread,
which issues again when the repair ends (R243); a lost line gives `WEIGHT_LOST` (R244). `before` is the
state before the issue was counted. -/
def State.threadRead (s before : State) (t : ThreadId) (word : InstrWord) (a : Word) (n : Nat)
    (write : Bool) (body : State → State) : State :=
  let x := s.thread t
  let l := locOf a
  if !(if write then s.canWrite x.ctx l n else s.canRead x.ctx l n) then s.trap t x.pc word (trAccess a)
  else
    let s1 := s.checkRead l n
    match s1.repairingIn l n with
    | r :: _ => (before.checkRead l n).waitFor t word (.memory r)
    | [] =>
      if (s1.lostIn l n).isEmpty then body (s1.touch l n)
      else (s1.countLost l n).trap t x.pc word (trCondition .weightLost 0 a)

/-- A local write by a thread (R120, R243). -/
def State.threadWrite (s before : State) (t : ThreadId) (word : InstrWord) (a : Word) (bs : Bytes) : State :=
  let x := s.thread t
  let l := locOf a
  if !s.canWrite x.ctx l bs.length then s.trap t x.pc word (trAccess a)
  else match s.repairingIn l bs.length with
    | r :: _ => before.waitFor t word (.memory r)
    | [] => (s.store l bs).advance t

/-- Whether a store of a thread that is not yet acknowledged meets n bytes at a global address (R139). -/
def State.storeMeets (s : State) (x : Thread) (a : Word) (n : Nat) : Bool :=
  x.storesOut.any fun tag => (Map.get? s.fabric.requests tag).any fun r =>
    let b := r.out.packet.address
    devOf b == devOf a && rangesMeet (locOf b, r.out.packet.length) (locOf a, n)

/-- A thread's read or atomic of another module waits for its own earlier stores to the same bytes, which another
virtual channel carries (R139); then it issues again. -/
def State.afterStores (s before : State) (t : ThreadId) (word : InstrWord) (a : Word) (n : Nat) (go : State) : State :=
  if s.storeMeets (s.thread t) a n then before.waitFor t word .stores else go

/-- A read from another module (R126): the aligned 16-byte units that hold the bytes are asked for; a
device with no route ends it at once (R275). -/
def State.remoteRead (s : State) (t : ThreadId) (word : InstrWord) (a : Word) (n : Nat)
    (w : Nat → Wait) : State :=
  let x := s.thread t
  let d := devOf a
  if !s.hasRoute d then
    (s.noRoute.noteCode x.launch .peerTimeout).trap t x.pc word (trCondition .peerTimeout d)
  else
    let lo := locOf a - locOf a % 16
    let (tag, s1) := s.request tReadReq d x.ctx (globalAddr d lo) (max 16 n) (.load t) (thread := some t)
    s1.waitFor t word (w tag)

/-- A store to another module: it is sent, as the whole 16-byte units of its packet (R259, notes/assumptions/22.md), and
the thread goes on (R126, R149). -/
def State.remoteStore (s : State) (t : ThreadId) (word : InstrWord) (a : Word) (bs : Bytes) : State :=
  let x := s.thread t
  let d := devOf a
  if !s.hasRoute d then
    (s.noRoute.noteCode x.launch .peerTimeout).trap t x.pc word (trCondition .peerTimeout d)
  else
    let (tag, s1) := s.writeRequest d x.ctx (locOf a) bs (.store t x.pc word) (some t)
    (s1.modThread t fun x => { x with storesOut := x.storesOut ++ [tag] }).advance t

/-- The address of a scalar access: SA + `IMM` (R126). -/
def accessAddr (w : ScalarWord) (x : Thread) : Word := x.reg w.sa + w.imm

/-- The value that loaded bytes give (R126). -/
def loaded (signed : Bool) (bs : Bytes) : Word :=
  let v := leNat bs
  if signed then BitVec.ofInt 64 (sext (8 * bs.length) v) else BitVec.ofNat 64 v

/-- `LD` and `LDS` (R126). -/
def State.load (s : State) (t : ThreadId) (minor : Nat) (signed : Bool) (w : ScalarWord) : State :=
  let word := scalarBits w 0x02 minor
  s.issueScalar t 0x02 minor w { sd := 31, sa := 31, imm := immAll, var := 3 } fun x s1 =>
    let a := accessAddr w x
    let n := 2 ^ w.var.toNat
    if a.toNat % n ≠ 0 then s1.trap t x.pc word (trMisaligned a)
    else if devOf a = 0xFFFF then s1.trap t x.pc word (trOperand 5 10)
    else if devOf a ≠ s1.lodge.deviceId then
      s1.afterStores s t word a n (s1.remoteRead t word a n fun tag => .load w.sd.toNat n (locOf a % 16) signed tag)
    else s1.threadRead s t word a n false fun s2 =>
      s2.writeReg t w.sd (loaded signed (s2.bytesAt (locOf a) n))

/-- `LD` (R126). -/
def execLd (t : ThreadId) (w : ScalarWord) (s : State) : Host.Outcome State Fault Refusal :=
  .next (s.load t 0x00 false w)
/-- `LDS` (R126). -/
def execLds (t : ThreadId) (w : ScalarWord) (s : State) : Host.Outcome State Fault Refusal :=
  .next (s.load t 0x01 true w)
/-- `ST` (R126). -/
def execSt (t : ThreadId) (w : ScalarWord) (s : State) : Host.Outcome State Fault Refusal :=
  let word := scalarBits w 0x02 0x02
  .next (s.issueScalar t 0x02 0x02 w { sa := 31, sb := 31, imm := immAll, var := 3 } fun x s1 =>
    let a := accessAddr w x
    let n := 2 ^ w.var.toNat
    let bs := le n (x.reg w.sb).toNat
    if a.toNat % n ≠ 0 then s1.trap t x.pc word (trMisaligned a)
    else if devOf a = 0xFFFF then s1.trap t x.pc word (trOperand 5 10)
    else if devOf a ≠ s1.lodge.deviceId then s1.remoteStore t word a bs
    else s1.threadWrite s t word a bs)

/-- The value an atomic operation stores, or none where it stores nothing (R126). -/
def atomicNew (op : Nat) (old src cmp : Word) : Option Word :=
  match op with
  | 0 => some (old + src)
  | 1 => some src
  | 2 => if old = cmp then some src else none
  | 3 => some (maxSigned old src)
  | 4 => some (minSigned old src)
  | 5 => some (old &&& src)
  | 6 => some (old ||| src)
  | _ => none

/-- An atomic operation on 8 bytes at a local address (R126). -/
def State.atomicAt (s : State) (a op : Nat) (src cmp : Word) : State :=
  match atomicNew op (BitVec.ofNat 64 (leNat (s.bytesAt a 8))) src cmp with
  | none => s
  | some v => s.store a (le 8 v.toNat)

/-- `ATOM` (R126). -/
def execAtom (t : ThreadId) (w : ScalarWord) (s : State) : Host.Outcome State Fault Refusal :=
  let word := scalarBits w 0x02 0x03
  .next (s.issue t word w.pred w.pneg
      (scalarLegal w { sd := 31, sa := 31, sb := 31, imm := immAll, var := 7 } && w.var != 7) fun x s1 =>
    let a := accessAddr w x
    let op := w.var.toNat
    if a.toNat % 8 ≠ 0 then s1.trap t x.pc word (trMisaligned a)
    else if devOf a = 0xFFFF then s1.trap t x.pc word (trOperand 5 10)
    else if devOf a ≠ s1.lodge.deviceId then
      let d := devOf a
      s1.afterStores s t word a 8 (if !s1.hasRoute d then
        (s1.noRoute.noteCode x.launch .peerTimeout).trap t x.pc word (trCondition .peerTimeout d)
      else
        let cmp : Nat := if op = 2 then (x.reg w.sd).toNat else 0
        let (tag, s2) := s1.request tAtomicReq d x.ctx a 16 (.load t) (x.reg w.sb) (le 16 cmp) op
          (thread := some t)
        s2.waitFor t word (.atom w.sd.toNat tag))
    else s1.threadRead s t word a 8 true fun s2 =>
      let old := BitVec.ofNat 64 (leNat (s2.bytesAt (locOf a) 8))
      (s2.atomicAt (locOf a) op (x.reg w.sb) (x.reg w.sd)).writeReg t w.sd old)

/-! ### Descriptor instructions (R483) and `SREAD` (R111) -/

/-- `DLD` (R483). -/
def execDld (t : ThreadId) (w : ScalarWord) (s : State) : Host.Outcome State Fault Refusal :=
  let word := scalarBits w 0x04 0x00
  .next (s.issueScalar t 0x04 0x00 w { sd := 15, sa := 31, imm := immAll } fun x s1 =>
    let a := accessAddr w x
    if a.toNat % 32 ≠ 0 then s1.trap t x.pc word (trMisaligned a)
    else if devOf a = 0xFFFF then s1.trap t x.pc word (trOperand 5 10)
    else if devOf a ≠ s1.lodge.deviceId then
      s1.afterStores s t word a 32 (s1.remoteRead t word a 32 fun tag => .descLoad w.sd.toNat tag)
    else s1.threadRead s t word a 32 false fun s2 =>
      s2.modThread t fun y =>
        { y.setDescr (w.sd.setWidth 4) (BitVec.ofNat 256 (leNat (s2.bytesAt (locOf a) 32))) with
          pc := y.pc + 16 })

/-- `DST` (R483). -/
def execDst (t : ThreadId) (w : ScalarWord) (s : State) : Host.Outcome State Fault Refusal :=
  let word := scalarBits w 0x04 0x01
  .next (s.issueScalar t 0x04 0x01 w { sd := 15, sa := 31, imm := immAll } fun x s1 =>
    let a := accessAddr w x
    let bs := le 32 (x.descr (w.sd.setWidth 4)).toNat
    if a.toNat % 32 ≠ 0 then s1.trap t x.pc word (trMisaligned a)
    else if devOf a = 0xFFFF then s1.trap t x.pc word (trOperand 5 10)
    else if devOf a ≠ s1.lodge.deviceId then s1.remoteStore t word a bs
    else s1.threadWrite s t word a bs)

/-- The lowest bit and the width of the descriptor field that `VAR` selects (R483). -/
def descField : Nat → Option (Nat × Nat)
  | 0 => some (0, 64) | 1 => some (64, 12) | 2 => some (76, 12) | 3 => some (88, 32)
  | 4 => some (120, 8) | 5 => some (128, 6) | 6 => some (136, 48) | 7 => some (184, 16)
  | 8 => some (200, 8) | _ => none

/-- Replaces a field of a descriptor by the low bits of a value (R483). -/
def setDescField (d : Descr) (lo width : Nat) (v : Word) : Descr :=
  BitVec.ofNat 256 (d.toNat - bits d (lo + width - 1) lo * 2 ^ lo + (v.toNat % 2 ^ width) * 2 ^ lo)

/-- `DSET` (R483). -/
def execDset (t : ThreadId) (w : ScalarWord) (s : State) : Host.Outcome State Fault Refusal :=
  .next (s.issueScalar t 0x04 0x02 w { sd := 15, sb := 31, imm := immAll, var := 15, choice := true }
    fun x s =>
      match descField w.var.toNat with
      | none => s.trap t x.pc (scalarBits w 0x04 0x02) (trOperand 5 11)
      | some (lo, n) =>
        s.modThread t fun y =>
          { y.setDescr (w.sd.setWidth 4)
              (setDescField (y.descr (w.sd.setWidth 4)) lo n (secondOperand w x)) with
            pc := y.pc + 16 })

/-- `DGET` (R483). -/
def execDget (t : ThreadId) (w : ScalarWord) (s : State) : Host.Outcome State Fault Refusal :=
  .next (s.issueScalar t 0x04 0x03 w { sd := 31, sa := 15, var := 15 } fun x s =>
    match descField w.var.toNat with
    | none => s.trap t x.pc (scalarBits w 0x04 0x03) (trOperand 5 11)
    | some (lo, n) =>
      s.writeReg t w.sd (BitVec.ofNat 64 (bits (x.descr (w.sa.setWidth 4)) (lo + n - 1) lo)))

/-- `PARTNER_STATE` of an array (R50, R111). -/
def State.partnerState (s : State) (a : Nat) : Nat :=
  if a % 2 = 1 then 3
  else if s.variant.arrays ≤ a + 1 || (s.array (a + 1)).service == .gone then 2
  else if (s.array (a + 1)).service == .serving && !(s.array (a + 1)).asleep then 0 else 1

/-- Where the argument block of a thread's launch lies; 0 where it has none (R339). -/
def State.argBlock (s : State) (x : Thread) : Nat := ((s.launch? x.launch).map fun l => l.argBlock.toNat).getD 0

/-- The special value of a selector (R111); none for one not listed. -/
def State.special (s : State) (t : ThreadId) (x : Thread) : Nat → Option Nat
  | 0x00 => some t.index
  | 0x01 => some t.array
  | 0x02 => some s.lodge.deviceId
  | 0x03 => some x.ctx
  | 0x04 => some (s.gen x.ctx)
  | 0x05 => some s.lodge.incarnation
  | 0x06 => some (((s.launch? x.launch).map fun l => l.step.toNat).getD 0)
  | 0x07 => some s.now
  | 0x08 => some (globalAddr s.lodge.deviceId (s.argBlock x)).toNat
  | 0x09 => some (((s.launch? x.launch).map fun l => l.threads).getD 0)
  | 0x0A => some x.rank
  | 0x0B => some x.slotIndex.toNat
  | 0x0C => some x.slotKind
  | 0x0D => some x.slotStage
  | 0x0E => some x.slotMicroBatch
  | 0x0F => some x.nfSticky.toNat
  | 0x10 => some x.condCode
  | 0x11 => some (s.partnerState t.array)
  | _ => none

/-- `SREAD` (R111, R483). The address of the argument block of a launch that names none is a free value
(notes/assumptions/1.md). -/
def execSread (t : ThreadId) (w : ScalarWord) (s : State) : Host.Outcome State Fault Refusal :=
  .next (s.issueScalar t 0x04 0x04 w { sd := 31, imm := 0xFF } fun x s =>
    if w.imm.toNat = 8 && s.argBlock x = 0 then
      let (i, s1) := s.free 1
      s1.writeReg t w.sd (Config.freeValue i)
    else match s.special t x w.imm.toNat with
    | none => s.trap t x.pc (scalarBits w 0x04 0x04) (trOperand 5 11)
    | some v => s.writeReg t w.sd (BitVec.ofNat 64 v))

end Sys2Proof.Machine
end

