-- ==== Sys2Proof/Machine/Sync.lean ====
section
/-! DEFINITION. Synchronisation instructions: `FENCE`, `SEM_INIT`, `SEM_POST`, `SEM_WAIT`, `BARRIER`
(R140 to R145) and `SLOT` (R147), with the events that end their waits. -/

namespace Sys2Proof.Machine

/-- A synchronisation instruction issues: `CG`, `RMODE`, `OVF_IEEE` and `REC` are zero (R122, R140). -/
def State.issueSync (s : State) (t : ThreadId) (minor : Nat) (w : TileWord) (u : TileUse)
    (body : InstrWord → Thread → State → State) : State :=
  let word := tileBits w 0x60 minor
  s.issue t word w.pred w.pneg (tileLegal w { u with group := false }) (body word)

/-- `IMM`[31:0]. -/
def semN (w : TileWord) : Nat := bits w.imm 31 0
/-- The predicate that `VAR`[2:0] names. -/
def predOf (w : TileWord) : Nat := bits w.var 2 0
/-- The group mask of `SEM_POST` and `BARRIER`. -/
def groupMask (w : TileWord) : Nat := bits w.imm 39 32

/-- `FENCE` (R140). R122 names four flag fields that are zero for synchronisation instructions; `NOTRAP` is a field that
only the ones that can meet a condition use (R140, R143), and for `FENCE`, `SEM_INIT` and `BARRIER` it is an unused field,
which must be zero (R122, R124; DEDUCED, notes/assumptions/51.md). -/
def execFence (t : ThreadId) (w : TileWord) (s : State) : Host.Outcome State Fault Refusal :=
  .next (s.issueSync t 0x03 w { noTrap := false, var := 15, imm := 0xFF } fun word _ s =>
    (s.waitFor t word (.fence (bits w.imm 7 0) (predOf w) (bitOf w.var.toNat 3))).settle t)

/-- An instruction that is over, and met no condition, clears the predicate that it names (R140). -/
def State.clearPred (s : State) (t : ThreadId) (pc : Word) (pred : Nat) : State :=
  if (s.thread t).state == .running && (s.thread t).pc != pc then
    s.modThread t fun x => x.setPred (BitVec.ofNat 3 pred) false
  else s

/-- `SEM_INIT` (R140, R142): it meets no condition, so the predicate that `VAR` names is cleared. -/
def execSemInit (t : ThreadId) (w : TileWord) (s : State) : Host.Outcome State Fault Refusal :=
  .next (s.issueSync t 0x02 w { s1 := true, noTrap := false, var := 7, imm := 0xFFFFFFFF } fun word x s1 =>
    let a := x.reg w.s1
    if a.toNat % 16 ≠ 0 then s1.trap t x.pc word (trMisaligned a)
    else if devOf a ≠ s1.lodge.deviceId then s1.trap t x.pc word (trOperand 5 10)
    else (s1.threadWrite s t word a (le 4 (semN w) ++ le 2 x.ctx ++ le 2 (s1.gen x.ctx) ++ zeros 8)).clearPred t x.pc
      (predOf w))

/-- `SEM_POST` (R140, R142, R278): it waits for its groups as `FENCE` does, then posts. -/
def execSemPost (t : ThreadId) (w : TileWord) (s : State) : Host.Outcome State Fault Refusal :=
  .next (s.issueSync t 0x01 w { s1 := true, var := 7, imm := 0xFFFFFFFFFF } fun word x s1 =>
    let a := x.reg w.s1
    if a.toNat % 16 ≠ 0 then s1.trap t x.pc word (trMisaligned a)
    else if semN w = 0 then s1.trap t x.pc word (trOperand 5 11)
    else if devOf a = 0xFFFF && (s1.ctx x.ctx).broadcast.isEmpty then s1.trap t x.pc word (trOperand 5 10)
    else (s1.waitFor t word
      (.semPost a (semN w) (groupMask w) (predOf w) w.noTrap false [] 0xFFFF)).settle t)

/-- A wait that the count satisfies subtracts n and goes on (R140, R143). -/
def State.semTake (s : State) (t : ThreadId) (a : Word) (n pred : Nat) : State :=
  (s.store (locOf a) (le 4 ((s.sem (locOf a)).count - n))).modThread t fun x =>
    { x.setPred (BitVec.ofNat 3 pred) false with state := .running, wait := none, pc := x.pc + 16 }

/-- `SEM_WAIT` (R140, R142, R143). -/
def execSemWait (t : ThreadId) (w : TileWord) (s : State) : Host.Outcome State Fault Refusal :=
  .next (s.issueSync t 0x00 w { s1 := true, var := 7, imm := 0xFFFFFFFF } fun word x s1 =>
    let a := x.reg w.s1
    let n := semN w
    let m := s1.sem (locOf a)
    if a.toNat % 16 ≠ 0 then s1.trap t x.pc word (trMisaligned a)
    else if n = 0 then s1.trap t x.pc word (trOperand 5 11)
    else if devOf a ≠ s1.lodge.deviceId then s1.trap t x.pc word (trOperand 5 10)
    else if (s1.semRefused x.ctx (locOf a)).isSome then s1.trap t x.pc word (trAccess a)
    else match s1.repairingIn (locOf a) 16 with
      | r :: _ => s.waitFor t word (.memory r)
      | [] =>
        if m.owner = 0 then s1.trap t x.pc word (trOperand 6 12)
        else
          match s1.semFails x.ctx m with
          | some c => (s1.modThread t fun x => { x with word := word }).failWait t (predOf w) w.noTrap c
          | none => if n ≤ m.count then s1.semTake t a n (predOf w)
            else s1.waitFor t word (.semWait a n (predOf w) w.noTrap))

/-- `SEM_WAIT_COMPLETE` (R143): a held wait succeeds or fails; `cycles` is the time it was held. -/
def execSemWaitComplete (t : ThreadId) (cycles : Nat) (s : State) : Host.Outcome State Fault Refusal :=
  let x := s.thread t
  .next (match x.state, x.wait with
    | .waiting, some (.semWait a n pred nt) =>
      let m := s.sem (locOf a)
      if m.owner = 0 then s
      else match s.semFails x.ctx m with
        | some c => ((s.count cSemWait t.array cycles).modThread t fun x => { x with wait := none }).failWait t pred nt c
        | none => if n ≤ m.count then (s.count cSemWait t.array cycles).semTake t a n pred else s
    | _, _ => s)

/-- `BARRIER` (R140, R145). -/
def execBarrier (t : ThreadId) (w : TileWord) (s : State) : Host.Outcome State Fault Refusal :=
  .next (s.issueSync t 0x04 w { noTrap := false, var := 7, imm := 0xFFFFFF000F } fun word _ s =>
    (s.waitFor t word (.barrier (bits w.imm 3 0) (bits w.imm 31 16) (groupMask w) (predOf w) false)).settle t)

/-- `SLOT` (R147). -/
def execSlot (t : ThreadId) (w : TileWord) (s : State) : Host.Outcome State Fault Refusal :=
  .next (s.issueSync t 0x05 w { var := 7 } fun word _ s =>
    (s.waitFor t word (.slotEnd (predOf w) w.noTrap)).slotStep t)

/-- `SLOT_END` (R147). -/
def execSlotEnd (launch : Nat) (s : State) : Host.Outcome State Fault Refusal :=
  .next (if s.slotOver launch then s.endSlot launch else s)

/-- `SLOT_GATE_OPEN` (R147): the wait of a launch's gate ends. -/
def execSlotGateOpen (launch cycles : Nat) (s : State) : Host.Outcome State Fault Refusal :=
  .next (match s.launch? launch with
    | none => s
    | some l =>
      if l.gate ≠ .held then s
      else
        let (g, s1) := s.tryGate l (s.slotEntry l (l.slot.getD 0))
        if g = .held then s else s1.settleGate launch g (some cycles))

end Sys2Proof.Machine
end

