-- ==== Sys2Proof/Machine/MgmtCmds.lean ====
section
/-! DEFINITION. The meanings of the management-only commands (R398, R431, R440 to R450, R458, R464 to R466). The choices
the model makes here are in notes/assumptions/38.md. -/

namespace Sys2Proof.Machine

/-! ### Firmware and configuration (R441, R443, R447) -/

/-- The image of a kind that is staged (R441). -/
def State.stagedImage (s : State) (kind : Nat) : Option Staged :=
  if kind = 1 then s.lodge.stagedFw else s.lodge.stagedCfg

/-- Replaces the staged image of a kind. -/
def State.setStaged (s : State) (kind : Nat) (g : Option Staged) : State :=
  s.modLodge fun l => if kind = 1 then { l with stagedFw := g } else { l with stagedCfg := g }

/-- The version of a staged image that verifies (R441, R442, R445). -/
def checkImage (kind : Nat) (b : Bytes) : Except ImageFault Nat :=
  if kind = 1 then checkFirmware b
  else match checkConfig b with
    | .ok _ => .ok (field b 4 2)
    | .error e => .error e

/-- `FW_STAGE` (R441). -/
def State.cmdFwStage (s : State) (k : OutCmd) (p : Bytes) : Answer :=
  let kind := field p 0 1
  let fl := field p 1 1
  let n := field p 2 2
  let held := if bitOf fl 0 then [] else ((s.stagedImage kind).map Staged.data).getD []
  if kind < 1 || 2 < kind || 3 < fl || n < 8 || 4088 < n || n % 8 ≠ 0 || p.length < 8 + n || field p 4 4 ≠ held.length then
    s.says .badPacket
  else
    let image := held ++ (p.drop 8).take n
    if !bitOf fl 1 then (s.setStaged kind (some { data := image })).says .done
    else match checkImage kind image with
      | .ok v => (s.setStaged kind (some { data := image, verified := true })).says .done
          (le 4 v ++ zeros 4 ++ (sha256Bytes image).take 16)
      | .error .form => (s.setStaged kind none).says .badPacket
      | .error .signature =>
        if s.catalogueFull then s.says .busyRetry
        else ((s.setStaged kind none).alarm k (if kind = 1 then 8 else 9) 0 Code.notPermitted.num).says .notPermitted

/-- `FW_ACTIVATE` at its commit (R430, R443): the window opens once no quote is being signed. -/
def State.cmdFwActivate (s : State) (h : Nat) : Answer :=
  if !s.firmwareReady then s.says .notPermitted
  else if s.catalogueFull then s.says .busyRetry
  else (s.modSr fun r => { r with window := r.quotes.isEmpty }).waits h .activate

/-- `CFG_WRITE` at its commit (R447). -/
def State.cmdCfgWrite (s : State) (k : OutCmd) : Answer :=
  match s.lodge.stagedCfg with
  | none => s.says .badPacket
  | some g =>
    if !g.verified then s.says .badPacket
    else match s.cfgOutcome g.data with
      | .error (c, loud) => (if loud then s.alarm k 9 0 c.num else s).says c
      | .ok none => s.says .done
      | .ok (some (c, seq)) =>
        if s.catalogueFull then s.says .busyRetry
        else (((s.applyConfig g.data c seq).modLodge fun l => { l with stagedCfg := none }).pinEntry k 9 seq).says .done

/-! ### Debug (R431, R464) -/

/-- An operator's access is logged before it takes effect (R431). -/
def State.debugEntry (s : State) (k : OutCmd) (cls index : Nat) : State :=
  let s1 := (s.pinEntry k cls index).count cDebugAccesses 0
  s1.modSr fun r => { r with debugAccesses := r.debugAccesses + 1, lastDebug := s1.lastAccession }

/-- Bytes of a debug space (R464); none for one that is not listed. The key storage has no stated size. -/
def State.spaceBytes (s : State) (space : Nat) : Option Nat :=
  match space with
  | 1 => some deviceEnd
  | 2 => some (s.variant.arrays * 12582912)
  | 3 => some (s.stackFrames * pageBytes)
  | 4 => some 16777216
  | 5 => some (2 ^ 64)
  | 6 => some (s.lodge.trace.pages * pageBytes)
  | _ => none

/-- The local address whose byte an address of spaces 1 to 3 holds, where it holds one. -/
def State.debugPlace (s : State) (space x : Nat) : Option Nat :=
  if space = 1 then (if (s.page? x).any fun q => q.state != .dropped then some x else none)
  else if space = 2 then
    let gs := (s.memory.granules.filter fun e => e.2.slice == some (x / 12582912)).map (·.1)
    (gs[x % 12582912 / granuleBytes]?).map fun g => g * granuleBytes + x % granuleBytes
  else
    ((s.memory.pages.find? fun e => e.2.state != .dropped && !e.2.isAway && e.2.frame = x / pageBytes).map fun e =>
      e.1 * pageBytes + x % pageBytes).filter fun a => !(Map.getD s.memory.granules (a / granuleBytes) {}).dirty

/-- A range of a debug space, cut at 4 KiB boundaries. -/
def debugPieces (x n : Nat) : List (Nat × Nat) := pieces (n / 4096 + 2) x n

/-- The reads that a debug access makes of memory (R233, R234, R464). -/
def State.debugTouch (s : State) (space x n : Nat) : State :=
  (debugPieces x n).foldl (fun (s : State) q => match s.debugPlace space q.1 with
    | some a => (s.checkRead a q.2).touch a q.2
    | none => s) s

/-- A byte that a debug read of spaces 1 to 3 gives; none where nothing is stored, or its line is lost. -/
def State.debugByte (s : State) (space x : Nat) : Option Byte :=
  ((s.debugPlace space x).filter fun a => !s.lineLost (a / lineBytes)).map fun a => cellRead s.memory.bytes a

/-- Whether a debug access waits: a page of the device range is on its way back (R230), or a line that it reads is under
repair (R243). -/
def State.debugHeld (s : State) (space x n : Nat) : Bool :=
  (space = 1 && !(s.awayPages x n).isEmpty) || (1 ≤ space && space ≤ 3 && (debugPieces x n).any fun q =>
    (s.debugPlace space q.1).any fun a => !(s.repairingIn a q.2).isEmpty)

/-- What a debug read gives (R464). A byte that the spec gives no value is a free value; the read of a lost line is counted
(R244). -/
def State.debugBytes (s : State) (space x n : Nat) : Bytes × State :=
  if space = 4 then (s.bar0 x n, s)
  else if space = 5 then (zeros n, s)
  else if space = 6 then (padTo n (s.lodge.trace.buffer.drop x), s)
  else
    let s1 := (debugPieces x n).foldl (fun (s : State) q => match s.debugPlace space q.1 with
      | some a => s.countLost a q.2
      | none => s) s
    let (i, s2) := s1.free n
    ((List.range n).map fun j => (s1.debugByte space (x + j)).getD ((Config.freeValue (i + j)).setWidth 8), s2)

/-- A debug read goes on (R464). -/
def State.debugRead (s : State) (h : Nat) (p : Bytes) : Answer :=
  let space := field p 0 1
  let n := field p 2 2
  let x := field p 8 8
  let s1 := if 1 ≤ space && space ≤ 3 then s.debugTouch space x n else s
  if s1.debugHeld space x n then s1.waits h (.debug false p)
  else
    let (bs, s2) := s1.debugBytes space x n
    (some { code := .done, data := bs }, s2)

/-- A debug write goes on (R464): an ordinary write of the addressed bytes; what holds no byte takes none. -/
def State.debugWrite (s : State) (h : Nat) (p : Bytes) : Answer :=
  let space := field p 0 1
  let n := field p 2 2
  let x := field p 8 8
  if s.debugHeld space x n then s.waits h (.debug true p)
  else
    ((debugPieces x n).foldl (fun (s : State) q => match s.debugPlace space q.1 with
      | some a => s.store a ((p.drop (16 + (q.1 - x))).take q.2)
      | none => s) s).says .done

/-- The spilled pages that a debug access of the device range names come back first (R230). -/
def State.debugReturn (s : State) (space x n : Nat) : Option State :=
  if space = 1 then s.beginReturns 3 (s.awayPages x n) else some s

/-- `DEBUG_READ` (R230, R464). -/
def State.cmdDebugRead (s : State) (h : Nat) (k : OutCmd) (p : Bytes) : Answer :=
  let space := field p 0 1
  let n := field p 2 2
  let x := field p 8 8
  if n < 8 || 4096 < n || n % 8 ≠ 0 || !(s.spaceBytes space).any fun m => x + n ≤ m then s.says .badPacket
  else if s.catalogueFull then s.says .busyRetry
  else match (s.debugEntry k 12 x).debugReturn space x n with
    | none => s.says .refusedCapacity
    | some s1 => s1.debugRead h p

/-- `DEBUG_WRITE` (R230, R464). -/
def State.cmdDebugWrite (s : State) (h : Nat) (k : OutCmd) (p : Bytes) : Answer :=
  let space := field p 0 1
  let n := field p 2 2
  let x := field p 8 8
  if n < 8 || 4080 < n || n % 8 ≠ 0 || p.length < 16 + n || 3 < space
      || !(s.spaceBytes space).any fun m => x + n ≤ m then s.says .badPacket
  else if s.catalogueFull then s.says .busyRetry
  else match (s.debugEntry k 12 x).debugReturn space x n with
    | none => s.says .refusedCapacity
    | some s1 => s1.debugWrite h p

/-- Debug accesses that waited for a page or a line go on (R230, R243). -/
def State.debugPump (s : State) : State :=
  s.host.commands.foldl (fun (s : State) e => match e.2.work with
    | .debug write p => match if write then s.debugWrite e.1 p else s.debugRead e.1 p with
      | (some r, s1) => s1.finishCmd e.1 r
      | (none, s1) => s1
    | _ => s) s

/-! ### Trace (R465) -/

/-- The trace buffer's frames wait for zeroing. -/
def State.releaseTrace (s : State) : State :=
  (s.modMem fun m => { m with zeroing := m.zeroing + s.lodge.trace.pages }).modLodge fun l => { l with trace := {} }

/-- `TRACE_START` (R431, R465). -/
def State.cmdTraceStart (s : State) (k : OutCmd) (p : Bytes) : Answer :=
  let sources := field p 0 2
  let ports := field p 2 1
  let pages := field p 4 4
  if 63 < sources || pages < 1 || 512 < pages then s.says .badPacket
  else if s.lodge.trace.running || s.catalogueFull then s.says .busyRetry
  else match s.releaseTrace.allocate 3 pages with
    | none => s.says .refusedCapacity
    | some s1 =>
      ((s1.debugEntry k 13 pages).modLodge fun l =>
        { l with trace := { running := true, sources := sources, ports := ports, arrays := BitVec.ofNat 64 (field p 8 8)
                            pages := pages } }).says .done

/-- `TRACE_STOP` (R431, R465). -/
def State.cmdTraceStop (s : State) (k : OutCmd) (p : Bytes) : Answer :=
  let fl := field p 0 1
  let t := s.lodge.trace
  if 1 < fl then s.says .badPacket
  else if s.catalogueFull then s.says .busyRetry
  else
    let s1 := (s.debugEntry k 13 0).modLodge fun l => { l with trace := { l.trace with running := false } }
    (if fl = 1 then s1.releaseTrace else s1).says .done (le 8 t.written ++ le 8 t.dropped)

/-! ### The Catalogue and counters (R391, R392, R449, R450) -/

/-- Unpins every entry up to an accession number, and records it (R450). -/
def State.unpin (s : State) (k : OutCmd) (through : Nat) : State :=
  let s1 := s.modLodge fun l =>
    { l with catalogue := l.catalogue.map fun e =>
        if e.accession ≤ through then { e with pinned := false, reserved := false } else e }
  let s2 := s1.modLodge fun l => { l with nearFullRaised := l.nearFullRaised && 393216 < l.pinnedCount }
  let (e, s3) := s2.cmdEntry k 14 through 0
  s3.catalogue { e with pinned := true, reserved := true }

/-- `LOG_READ` (R450). -/
def State.cmdLogRead (s : State) (k : OutCmd) (p : Bytes) : Answer :=
  let first := field p 0 8
  let n := field p 8 2
  let fl := field p 10 2
  let through := field p 16 8
  if n < 1 || 32 < n || 3 < fl then s.says .badPacket
  else
    let log := s.lodge.catalogue
    let es := (log.filter fun e => first ≤ e.accession && (!bitOf fl 0 || e.pinned)).take n
    let result := le 2 es.length ++ zeros 6 ++ le 8 ((log.head?.map (·.accession)).getD 0)
    let held := (log.filter fun e => e.reserved && through < e.accession).length
    if bitOf fl 1 && 1024 ≤ held then s.says .busyRetry
    else
      (some { code := .done, result := result, data := es.flatMap CatEntry.bytes },
        if bitOf fl 1 then s.unpin k through else s)

/-- The counters that `CTR_CLEAR` selects, with their instances (R344, R440). -/
def State.selected (s : State) (unit inst first n : Nat) : List (CtrId × Nat) :=
  if unit = 0xFF then
    (countUp 1 1 10).flatMap fun u => (List.range (s.unitInstances u)).flatMap fun i =>
      (List.range ((unitCounters u).getD 0)).map fun c => ((u, c), i)
  else (countUp first 1 n).map fun c => ((unit, c), inst)

/-- A value as a Catalogue entry holds it: its SHA-256 where it is longer than 32 bytes (R448). -/
def catValue (b : Bytes) : BitVec 256 × Bool :=
  if 32 < b.length then (Config.sha256 b, true) else (BitVec.ofNat 256 (leNat b), false)

/-- `CTR_CLEAR` (R392): what a class-5 or class-8 health event counts goes on from where it was (R395). -/
def State.cmdCtrClear (s : State) (k : OutCmd) (p : Bytes) : Answer :=
  let unit := field p 0 1
  let inst := field p 2 2
  let first := field p 4 2
  let n := field p 6 2
  if unit ≠ 0xFF && !s.countersExist unit inst first n then s.says .badPacket
  else
    let cs := s.selected unit inst first n
    let old := cs.flatMap fun c => (s.counter c.1 c.2).bytes
    let keys := cs.map fun c => ctrKey c.1 c.2
    let s1 : State := { s with counters := Map.keep (fun key _ => !keys.contains key) s.counters }
    let s2 := s1.modLodge fun l =>
      { l with correctedBase := l.correctedBase - (s.correctedErrors - s1.correctedErrors : Int)
               replaysBase := l.replaysBase - (s.replays - s1.replays : Int) }
    let (e, s3) := s2.cmdEntry k 11 (ctrKey (unit, first) inst) 0
    let (v, d) := catValue old
    let (w, _) := catValue (zeros old.length)
    (s3.catalogue { e with old := v, new := w, digest := d }).says .done

/-- `POWER_CAP` (R440, R458). -/
def State.cmdPowerCap (s : State) (p : Bytes) : Answer :=
  let w := field p 0 2
  if w < 400 || 1800 < w then s.says .badPacket
  else (s.modLodge fun l => { l with powerCap := w }).says .done

/-- `RESET_MODULE` (R466): the reply goes before the reset. -/
def State.cmdResetModule (s : State) (h : Nat) (k : OutCmd) (p : Bytes) : Answer :=
  if field p 0 1 ≠ 0xA5 then s.says .badPacket
  else if s.catalogueFull then s.says .busyRetry
  else (none, ((s.pinEntry k 17 0).finishCmd h (Reply.of .done)).requestReset 5 0 5)

/-! ### Probation (R398) -/

/-- `PROBATION_TEST` at its commit (R398). -/
def State.cmdProbation (s : State) (h : Nat) : Answer :=
  if !s.liveCtxs.isEmpty || s.memory.model != .none then s.says .notPermitted
  else (s.modLodge fun l => { l with probation := 1 }).waits h .probation

/-- The rates after a test that passed: only that of class 13 is not 0 (R398). -/
def passedRates : List Nat := (List.replicate 15 0).set 13 rateUnit

/-- A probation test has ended (R398): the outcome's `RESULT`, and the Lodge's records. -/
def State.probationEnds (s : State) (failed : Option (Nat × Nat)) : Bytes × State :=
  match failed with
  | none =>
    (le 1 1 ++ zeros 4, s.modLodge fun l =>
      { l with rates := passedRates, events := List.replicate 15 0, evidence := 0, observedSeconds := 0, probation := 2
               lastProbation := s.now })
  | some (unit, index) =>
    (le 1 2 ++ zeros 1 ++ le 1 unit ++ le 2 index,
      (s.modLodge fun l => { l with probation := 3, lastProbation := s.now }).fault 0x0070 unit index)

end Sys2Proof.Machine
end

