-- ==== Sys2Proof/Machine/TxnCmds.lean ====
section
/-! DEFINITION. Transactions: beginning, joining, committing, aborting and asking (R385 to R389), their timeout (R385),
and the ends of what a commit waits for (R383, R398, R430, R443). notes/assumptions/39.md says what the model fixes. -/

namespace Sys2Proof.Machine

/-- Where a command comes from: a ring or a management session (R385, R448). -/
def cmdOrigin (h : CmdHeader) : Nat × Nat := if h.session ≠ 0 then (2, h.session) else (1, h.ring)

/-- A transaction state's code (R388). -/
def TxnState.code : TxnState → Nat
  | .opened => 1 | .committed => 2 | .aborted => 3 | .void => 4

/-- The answer for a transaction that is closed (R389). -/
def State.replayed (s : State) (t : Txn) : Answer :=
  (s.count cTxnReplays 0).says .txnReplayed (le 1 t.state.code ++ zeros 7 ++ le 8 t.accession)

/-- Whether a transaction belongs to a command's origin. -/
def Txn.ownedBy (t : Txn) (h : CmdHeader) : Bool := (t.origin, t.originIndex) == cmdOrigin h

/-- `TXN_BEGIN` (R385, R389). A record that is `VOID` is replaced (R390). -/
def State.cmdTxnBegin (s : State) (k : OutCmd) (p : Bytes) : Answer :=
  let id := field p 0 8
  let kind := field p 8 1
  let ms := field p 12 4
  if k.header.session = 0 && k.header.ring ≠ 0 then s.says .notPermitted
  else if id = 0 || 2 ^ 63 ≤ id || kind < 1 || 5 < kind || (ms ≠ 0 && (ms < 100 || 600000 < ms)) then s.says .badPacket
  else match (s.txn? (BitVec.ofNat 64 id)).filter fun t => t.state != .void with
    | some t => s.replayed t
    | none =>
      if 16 ≤ (s.lodge.txns.filter fun t => t.state == .opened).length then s.says .refusedCapacity
      else
        let (e, s1) := s.cmdEntry k 15 id 0
        let t : Txn :=
          { id := BitVec.ofNat 64 id, kind := kind, origin := (cmdOrigin k.header).1, originIndex := (cmdOrigin k.header).2
            timeoutMs := if ms = 0 then 10000 else ms }
        (s1.moveTxn { e with new := BitVec.ofNat 256 kind } t .opened).says .done

/-- `TXN_ABORT` (R388, R389). -/
def State.cmdTxnAbort (s : State) (k : OutCmd) (p : Bytes) : Answer :=
  match s.txn? (BitVec.ofNat 64 (field p 0 8)) with
  | none => s.says .badPacket
  | some t => match t.state with
    | .void => s.says .badPacket
    | .committed | .aborted => s.replayed t
    | .opened =>
      if !t.ownedBy k.header then s.says .notPermitted
      else
        let (e, s1) := s.cmdEntry k 15 t.id.toNat 0
        (s1.moveTxn e { t with staged := [] } .aborted).says .done

/-- `TXN_QUERY` (R388). -/
def State.cmdTxnQuery (s : State) (p : Bytes) : Answer :=
  match s.txn? (BitVec.ofNat 64 (field p 0 8)) with
  | none => s.says .badPacket
  | some t => s.says .done (le 1 t.state.code ++ le 1 t.kind ++ le 1 t.origin ++ zeros 1 ++ le 2 t.staged.length
      ++ le 2 t.failedIndex ++ le 8 t.time ++ le 8 t.accession)

/-! ### Joining (R386) -/

/-- The joinable commands (R386). -/
def joinable : List Nat :=
  [0x0100, 0x0101, 0x0102, 0x0106, 0x0107, 0x0200, 0x0201, 0x0202, 0x0206, 0x0207, 0x0500, 0x0501, 0x0502, 0x0503,
   0x0504, 0x0603, 0x0604, 0x0A01, 0x0A02, 0x0A08, 0x0A09, 0x0A0B]

/-- Whether a transaction has staged the creation of a context. -/
def Txn.creates (t : Txn) (c : Nat) : Bool := t.staged.any fun x => x.opcode = 0x0100 && field x.params 0 2 = c

/-- The checks of a joinable command that its parameters alone decide (R386). -/
def State.staticOk (s : State) (k : OutCmd) (p : Bytes) : Bool :=
  let q := Quota.read (p.drop (if k.opcode = 0x0100 then 16 else 8))
  match k.opcode with
  | 0x0100 => field p 0 2 ≤ 16383 && field p 2 1 ≤ 3 && 1 ≤ field p 3 1 && field p 3 1 ≤ 64 && 1 ≤ field p 4 1
      && field p 4 1 ≤ 64 && field p 8 8 ≠ 0 && q.unitsOk
  | 0x0106 => field p 0 2 ≠ 0 || field p 2 2 = 0
  | 0x0107 => field p 0 2 ≠ 0 && (k.header.session ≠ 0 || field p 0 2 ≠ k.header.ring)
  | 0x0206 => field p 4 4 ≤ 127 && (Quota.select {} q (field p 4 4)).unitsOk
  | 0x0500 => field p 0 1 ≤ 5 && field p 1 1 ≤ 3
      && (field p 1 1 = 0 || ([0, 32, 64, 128].contains (field p 2 2) && [0, 4, 8, 16].contains (field p 4 1)))
  | 0x0501 =>
    let n := field p 2 2
    if field p 0 1 = 0 then
      8 + 8 * n ≤ p.length && (routeEntries p n).all s.routeOk && (List.range n).all fun i => field p (13 + 8 * i) 3 = 0
    else field p 0 1 = 1 && n ≤ 64 && 8 + 2 * n ≤ p.length && (List.range n).all fun i => field p (8 + 2 * i) 2 ≠ 0xFFFF
  | 0x0504 => 5 ≤ field p 4 4 && field p 4 4 ≤ 1000000
  | 0x0603 => field p 0 1 ≤ 3 && field p 4 2 ≤ 128 && field p 4 2 % 2 = 0 && (field p 0 1 ≠ 0 || k.outOk (field p 16 8))
      && (field p 0 1 ≠ 1 || (field p 2 2 ≠ 0xFFFF && field p 2 2 ≠ s.lodge.deviceId))
  | 0x0604 => 1 ≤ field p 0 1 && field p 0 1 ≤ 2 && field p 2 2 ≠ 0xFFFF && field p 2 2 ≠ s.lodge.deviceId
      && field p 6 2 ≤ 128 && field p 6 2 % 2 = 0 && (field p 0 1 = 1 || field p 4 2 = 0)
  | 0x0A08 => field p 0 1 = 0xFF || s.countersExist (field p 0 1) (field p 2 2) (field p 4 2) (field p 6 2)
  | 0x0A09 => 400 ≤ field p 0 2 && field p 0 2 ≤ 1800
  | _ => true

/-- The first of the checks of R386 that a joinable command fails, once the units that it needs are found (R335): a context
that neither exists nor is staged, or its own parameters. -/
def State.joinFault (s : State) (k : OutCmd) (t : Txn) (p : Bytes) : Option Code :=
  if (namedCtx k.opcode p).any fun c => s.noCtx c && !t.creates c then some .noSuchContext
  else if !s.staticOk k p then some .badPacket
  else none

/-- A command that joins a transaction (R386, R389): it is staged, and changes nothing else. -/
def State.joinCmd (s : State) (h : Nat) (k : OutCmd) (p : Bytes) : Answer :=
  match s.txn? k.header.txnId with
  | none => s.says .badPacket
  | some t => match t.state with
    | .void => s.says .badPacket
    | .committed | .aborted => s.replayed t
    | .opened =>
      if !t.ownedBy k.header then s.says .notPermitted
      else if !joinable.contains k.opcode then s.says .badPacket
      else match s.joinFault k t p with
        | some c => s.says c
        | none =>
          if 256 ≤ t.staged.length then s.says .refusedCapacity
          else
            let s1 := s.modTxn t.id fun x =>
              { x with staged := x.staged ++ [{ opcode := k.opcode, header := k.header, params := p }] }
            (s1.modCmd h fun k => { k with object := none }).says .done (le 2 t.staged.length ++ le 1 1)

/-! ### Committing (R387) -/

/-- The meaning of a joinable command of context 0 when it is applied. -/
def State.stagedBody (s : State) (h : Nat) (k : OutCmd) (p : Bytes) : Answer :=
  match k.opcode with
  | 0x0100 => s.cmdCtxCreate h p
  | 0x0101 => s.cmdDrain h p true
  | 0x0102 => s.cmdDrain h p false
  | 0x0106 => s.cmdRingBind p
  | 0x0107 => s.cmdRingUnbind k p
  | 0x0206 => s.cmdPoolQuota p
  | 0x0500 => s.cmdPortState h k p
  | 0x0501 => s.cmdRouteSet k p
  | 0x0504 => s.cmdTimeoutSet k p
  | 0x0603 => s.cmdTwinState k p
  | 0x0604 => s.cmdTwinAdopt p
  | 0x0A01 => s.cmdFwActivate h
  | 0x0A02 => s.cmdCfgWrite k
  | 0x0A08 => s.cmdCtrClear k p
  | 0x0A09 => s.cmdPowerCap p
  | 0x0A0B => s.cmdProbation h
  | _ => s.says .badPacket

/-- A staged command starts as a child of its commit: the child's handle, and its answer. -/
def State.startStaged (s : State) (h i : Nat) (c : StagedCmd) : Nat × Answer :=
  let g := s.host.nextHandle
  let k : OutCmd :=
    { header := c.header, opcode := c.opcode, ctx := 0, generation := 0, takenAt := s.now, work := .drain 0
      object := objectOf c.opcode c.params, parent := some (h, i) }
  let s1 := s.modHost fun x => { x with nextHandle := g + 1, commands := Map.put x.commands g k }
  (g, s1.stagedBody g k c.params)

/-- What a staged command waits for, taken as having come; for the checks of a commit alone. -/
def State.forceStaged (s : State) (g : Nat) : State :=
  match (s.cmd? g).map OutCmd.work with
  | some (Work.drain c) => s.endDrain c
  | some Work.activate => s.activateFirmware
  | _ => s

/-- The checks of a commit in stage order, each as though the earlier commands had been applied: the first that
fails (R387). -/
def checkStaged (h : Nat) : State → Nat → List StagedCmd → Option (Nat × Code)
  | _, _, [] => none
  | s, i, c :: cs =>
    let (g, a, s1) := s.startStaged h i c
    match a with
    | none => checkStaged h (s1.forceStaged g) (i + 1) cs
    | some r => if r.code == .done then checkStaged h (s1.finishCmd g r) (i + 1) cs else some (i, r.code)

/-- The entries that a commit writes: those of commands not applied carry `BUSY_RETRY` and zeros (R387). -/
def commitEntries (es : Map (Nat × Nat × Bytes)) (cs : List StagedCmd) : Bytes :=
  (cs.zipIdx).flatMap fun c =>
    let e := Map.getD es c.2 (c.1.opcode, Code.busyRetry.num, [])
    le 2 c.2 ++ le 2 c.1.opcode ++ le 2 e.2.1 ++ zeros 2 ++ padTo 24 e.2.2

/-- A commit ends: the record, the entries and the reply (R387); then sessions whose key is no longer enrolled close
(R447). -/
def State.commitEnds (s : State) (h : Nat) (t : Txn) (out : Nat) : State :=
  match s.cmd? h with
  | none => s
  | some k =>
    let (e, s1) := s.cmdEntry k 15 t.id.toNat 0
    let s2 := (s1.moveTxn e t .committed).finishCmd h
      { code := .done, result := le 2 t.staged.length ++ le 2 0xFFFF ++ le 2 0, outAddr := out
        data := commitEntries k.entries t.staged }
    if t.staged.any fun c => c.opcode = 0x0A02 then s2.closeUnenrolled else s2

/-- A commit goes on: its staged commands run one after another in stage order, each once the one before has ended. -/
def commitPump (h : Nat) : Nat → State → State
  | 0, s => s
  | n + 1, s =>
    match s.cmd? h with
    | none => s
    | some k => match k.work with
      | .commitTxn id out next =>
        if (Map.vals s.host.commands).any fun x => x.parent.any fun q => q.1 = h then s
        else match s.txn? id with
          | none => s
          | some t => match t.staged[next]? with
            | none => s.commitEnds h t out
            | some c =>
              let s1 := s.modCmd h fun x => { x with work := .commitTxn id out (next + 1) }
              let (g, a, s2) := s1.startStaged h next c
              commitPump h n (match a with
                | some r => s2.finishCmd g r
                | none => s2)
      | _ => s

/-- `TXN_COMMIT` (R387, R389). -/
def State.cmdTxnCommit (s : State) (h : Nat) (k : OutCmd) (p : Bytes) : Answer :=
  let out := field p 8 8
  match s.txn? (BitVec.ofNat 64 (field p 0 8)) with
  | none => s.says .badPacket
  | some t => match t.state with
    | .void => s.says .badPacket
    | .committed | .aborted => s.replayed t
    | .opened =>
      if !t.ownedBy k.header then s.says .notPermitted
      else if !k.outOk out then s.says .badPacket
      else if s.catalogueFull && t.staged.any (fun c => c.opcode = 0x0A01 || c.opcode = 0x0A02) then s.says .busyRetry
      else match checkStaged h s 0 t.staged with
        | some (i, c) =>
          let (e, s1) := s.cmdEntry k 15 t.id.toNat c.num
          let s2 := s1.moveTxn e t .aborted i
          (some { code := c, result := le 2 t.staged.length ++ le 2 i ++ le 2 c.num, outAddr := out
                  data := commitEntries [] t.staged }, s2)
        | none =>
          let s1 := (s.modTxn t.id fun x => { x with committing := true }).modCmd h fun x =>
            { x with work := .commitTxn t.id out 0 }
          (none, commitPump h (t.staged.length + 1) s1)

/-- Commits that wait go on. -/
def State.settleCommits (s : State) : State :=
  s.host.commands.foldl (fun (s : State) e => match e.2.work with
    | .commitTxn .. => commitPump e.1 257 s
    | _ => s) s

/-- Whether a commit holds a command back (R387): of context 0, one that reads or changes what a commit may; of a
tenant, one whose context the transaction names, or that reads or changes what is the whole module's. -/
def State.commitHolds (s : State) (ctx op : Nat) : Bool :=
  s.lodge.txns.any fun t => t.committing &&
    (if ctx = 0 then !([0x0000, 0x0001, 0x0002, 0x0003, 0x0004, 0x0006, 0x0402, 0x0700, 0x0701, 0x0800, 0x0803, 0x0A07].contains op)
     else op = 0x0005 || (0x0500 ≤ op && op ≤ 0x0604) || t.creates ctx
      || t.staged.any fun c => namedCtx c.opcode c.params == some ctx)

/-! ### Events -/

/-- `TXN_TIMEOUT` (R385): an open transaction that is not committed in its time is aborted and recorded. -/
def execTxnTimeout (txn : Word) (s : State) : Host.Outcome State Fault Refusal :=
  .next (match s.txn? txn with
    | none => s
    | some t =>
      if t.state == .opened && !t.committing && t.time + t.timeoutMs * 1000000 ≤ s.now then
        (s.moveTxn (lodgeEntry 15 0) { t with staged := [] } .aborted).fault 0x0061 10 0
      else s)

/-- `CONTEXT_DRAIN_COMPLETE` (R383, R384). -/
def execContextDrainComplete (ctx : Nat) (s : State) : Host.Outcome State Fault Refusal :=
  .next (s.drainComplete ctx).settleCommits

/-- `DRAIN_FORCE` (R383). -/
def execDrainForce (ctx : Nat) (s : State) : Host.Outcome State Fault Refusal := .next (s.drainForce ctx).settleCommits

/-- `COMMIT_WINDOW_CLOSE` (R430, R443): the new image runs, and a pinned entry holds both versions. -/
def execCommitWindowClose (s : State) : Host.Outcome State Fault Refusal :=
  .next (match s.host.commands.find? fun e => e.2.work == .activate with
    | none => s
    | some (g, k) =>
      if !s.strongroom.window then s
      else
        let s1 := s.activateFirmware.modSr fun r => { r with window := false }
        let (e, s2) := s1.cmdEntry k 8 0 0
        ((s2.catalogue { e with old := BitVec.ofNat 256 s.activeFw.version, new := BitVec.ofNat 256 s1.activeFw.version }).finishCmd
          g (Reply.of .done)).settleCommits)

/-- `PROBATION_TEST_DONE` (R398). -/
def execProbationTestDone (failed : Option (Nat × Nat)) (s : State) : Host.Outcome State Fault Refusal :=
  .next (match s.host.commands.find? fun e => e.2.work == .probation with
    | none => s
    | some (g, _) =>
      let (result, s1) := s.probationEnds failed
      (s1.finishCmd g { code := .done, result := result }).settleCommits)

end Sys2Proof.Machine
end

