-- ==== Sys2Proof/Machine/Serve.lean ====
section
/-! DEFINITION. Requests that arrive from other modules: what drops a packet (R269, R270), the checks of a request (R271,
R272), violations (R276, R277), and how each request is served (R141, R194, R230, R242 to R244, R273, R427). What the
model reads into them is in notes/assumptions/40.md. -/

namespace Sys2Proof.Machine

/-! ### Which packets are dropped -/

/-- Whether a type is a response (R270). -/
def isResponse (type : Nat) : Bool :=
  type == tReadRsp || type == tWriteAck || type == tAtomicRsp || type == tSemAck || type == tRepairRsp

/-- Whether a port delivers packets of a type: an `ACTIVE` one, and for `CTRL` one whose keys are confirmed (R250,
R268). -/
def State.delivers (s : State) (p type : Nat) : Bool :=
  p < s.variant.ports && ((s.port p).state == .active || ((s.port p).keyed && 0x20 ≤ type))

/-- `HELLO` to a sender whose incarnation differs, at most once per 100 µs (R269). -/
def State.helloAgain (s : State) (dev : Nat) : State :=
  if (Map.get? s.fabric.helloAt dev).any fun t => s.now < t + 100000 then s
  else (s.modFabric fun f => { f with helloAt := Map.put f.helloAt dev s.now }).hello dev

/-- Whether a source's (context, generation) pair is retired (R270). -/
def State.isRetired (s : State) (dev c g : Nat) : Bool := (Map.getD s.fabric.retired dev []).contains (c, g)

/-- A packet that is dropped with no response (R269, R270); none where it goes on. -/
def State.staleDrop (s : State) (p type : Nat) (k : Packet) : Option State :=
  if type == tHello || type == tHelloRsp then none
  else if k.dstIncarnation ≠ s.lodge.incarnation then some (s.count cStaleIncarnation p)
  else if Map.get? s.fabric.incarnations k.srcDevice ≠ some k.srcIncarnation then
    some ((s.count cStaleIncarnation p).helloAgain k.srcDevice)
  else if !isResponse type && s.isRetired k.srcDevice k.ctxId k.ctxGeneration then some (s.count cStaleGeneration p)
  else none

/-! ### Form (R257 to R260, R271) -/

/-- Whether the range of a request keeps R259: whole 16-byte units within 4 KiB. An atomic works on 8 bytes at a multiple of
8 (R126, R271; DEDUCED, notes/assumptions/22.md). -/
def rangeOk (type : Nat) (k : Packet) : Bool :=
  let a := locOf k.address
  if type == tReadReq || type == tWriteReq then
    k.length % 16 = 0 && a % 16 = 0 && a % 4096 + k.length ≤ 4096
      && k.span.all fun r => type == tWriteReq && r.1 < r.2 && r.2 ≤ k.length
  else if type == tAtomicReq then k.length = 16 && a % 8 = 0
  else if type == tSemPost then k.length = 0 && a % 16 = 0
  else k.length % 16 = 0

/-- Whether a packet's unused fields are zero (R258, R260). -/
def unusedZero (type : Nat) (k : Packet) : Bool :=
  k.flags76 = 0 && (k.select || !k.byTag) && (type == tReadReq || !k.select) && (isResponse type || k.status = 0)
    && (type == tAtomicReq || type == tColl || type == tTwin || k.operation = 0)
    && (if type == tReadReq then (if k.select then !k.byTag || k.operand.toNat < 65536 else k.operand = 0)
        else if type == tWriteReq then k.operand = 0
        else if type == tAtomicReq then k.operation ≤ 6 && leNat (k.payload.drop (if k.operation = 2 then 8 else 0)) = 0
        else true)

/-- Whether a packet's form is good (R257 to R260). -/
def formOk (type : Nat) (k : Packet) : Bool :=
  vcOf type == some k.vc && k.length ≤ 4096 && k.payload.length = payloadOf type k && devOf k.address = k.dstDevice
    && rangeOk type k && unusedZero type k

/-! ### Violations (R276, R277) -/

/-- A violation is counted, and a request answered as though it had been carried out. -/
def State.violates (s : State) (type : Nat) (k : Packet) (cause inst : Nat) : State :=
  let s1 := s.violation cause inst
  if type == tReadReq then s1.respond tReadRsp k k.length 0 (zeros k.length)
  else if type == tWriteReq then s1.respond tWriteAck k 0
  else if type == tAtomicReq then s1.respond tAtomicRsp k 0
  else if type == tSemPost then s1.respond tSemAck k 0
  else s1

/-- Whether a packet's type, and of a collective or twin packet its sub-operation, is listed (R260, R306, R413). -/
def listed (type op : Nat) : Bool :=
  if type == tColl then 1 ≤ op && op ≤ 12 else if type == tTwin then 1 ≤ op && op ≤ 9 else (vcOf type).isSome

/-- Packets of unlisted types and sub-operations that stand at the front of a port's receive buffer are violations of cause
`MALFORMED`, dropped with no answer (R260, R276, R277, R306), where R269 and R270 do not drop them first. -/
def State.dropUnlistedN (p : Nat) : Nat → State → State
  | 0, s => s
  | n + 1, s => match (s.port p).front with
    | none => s
    | some r =>
      if listed r.1 r.2.operation || !s.delivers p r.1 then s
      else
        let s1 := (s.modPort p Port.take).traceHeader p r.1 r.2
        State.dropUnlistedN p n ((s1.staleDrop p r.1 r.2).getD (s1.violation 1 p))

/-- Drops every packet of an unlisted type from the front of a port's receive buffer, which holds a packet in each 48 bytes at
most. -/
def State.dropUnlisted (s : State) (p : Nat) : State := State.dropUnlistedN p ((s.port p).rxStream.length / 48) s

/-- Takes a packet of a type out of a port's receive buffer, where it stands at its front and the port delivers its type
(R264); the part of the payload that `span` names is no field of the header (notes/assumptions/22.md). -/
def State.takeFront (s : State) (p type : Nat) (k : Packet) : Option State :=
  if s.delivers p type && (s.port p).front == some (type, { k with span := none }) then
    some ((s.modPort p Port.take).traceHeader p type k)
  else none

/-- A packet that has arrived: one that is stale is dropped, one of bad form or for another module is a violation, and
the rest goes to its type's own meaning (R269 to R271). -/
def State.receive (s : State) (p type : Nat) (k : Packet) (go : State → State) : State :=
  match s.takeFront p type k with
  | none => s
  | some s1 => (match s1.staleDrop p type k with
    | some s2 => s2
    | none =>
      if !formOk type k then s1.violates type k 1 p
      else if k.dstDevice ≠ s.lodge.deviceId then s1.violates type k 2 p
      else go s1).dropUnlisted p

/-! ### Checks 3 to 5 (R271, R272) -/

/-- The owning context of an admitted request, 0 for the pool; or the cause of its violation and what that is counted
under. -/
def State.admits (s : State) (p type : Nat) (k : Packet) : Except (Nat × Nat) Nat :=
  let a := locOf k.address
  let write := type != tReadReq
  match if a < deviceEnd then s.page? a else none with
  | none => .error (3, p)
  | some q =>
    if !q.isMapped then .error (3, p)
    else match q.owner with
      | .pool =>
        if k.ctxId = 0 && !write then .ok 0
        else if !s.poolPeer k.srcDevice k.ctxId then .error (4, 0)
        else if write then .error (5, 0) else .ok 0
      | .ctx ct =>
        if (s.ctx ct).state == .draining || (k.ctxId = 0 && !write) then .error (3, p)
        else if !s.isPeer ct k.srcDevice k.ctxId then .error (4, ct)
        else if write && !q.rw then .error (5, ct) else .ok ct

/-! ### Service -/

/-- A request waits at its port (R230, R243). -/
def State.hold (s : State) (p type : Nat) (k : Packet) : State :=
  s.modFabric fun f => { f with waiting := f.waiting ++ [(p, type, k)] }

/-- A request whose line or page is not at hand waits for it; one whose page cannot be returned is not answered
(R230). The cycles that it waits for a repair or a relocation are counted (R243, notes/assumptions/5.md). -/
def State.whenHere (s : State) (p type : Nat) (k : Packet) (ct a n : Nat) (go : State → State) : State :=
  match s.awayPages a n with
  | i :: _ => match s.beginReturn (s.allocClass ct) i with
    | some s1 => s1.hold p type k
    | none => s
  | [] =>
    let s1 := if type == tWriteReq then s else s.checkRead a n
    if (s1.repairingIn a n).isEmpty then go s1 else (s1.countFree cRepairWait 0).hold p type k

/-- Refuses a read with the code that says why (R273). -/
def State.refuseRead (s : State) (type : Nat) (k : Packet) (c : Code) : State :=
  s.respond type k 0 (BitVec.ofNat 64 c.num) [] 1

/-- Reads for another module (R230, R243, R244, R273, R427). The answer to a selecting instruction carries the version of
the slot that it was resolved to, 0 outside every region (R196, notes/assumptions/25.md). -/
def State.readFor (s : State) (p : Nat) (k : Packet) (ct a : Nat) (version : Word := 0) : State :=
  let n := k.length
  match s.suppressedBy a n k.srcDevice with
  | some id => (s.countSuppressed id n).respond tReadRsp k n version (zeros n)
  | none => s.whenHere p tReadReq k ct a n fun s1 =>
    if (s1.lostIn a n).isEmpty then (s1.touch a n).respond tReadRsp k n version (s1.bytesAt a n)
    else (s1.countLost a n).refuseRead tReadRsp k .weightLost

/-- A `READ_REQ` that is admitted (R194, R273): the cycles of a wait for a version are counted at the owner (R213). -/
def State.serveRead (s : State) (p : Nat) (k : Packet) (ct : Nat) : State :=
  let a := locOf k.address
  match if k.select then regionFit (s.regions ct) [(a, k.length)] else .outside with
  | .partly => s.refuseRead tReadRsp k .badPacket
  | .outside => s.readFor p k ct a
  | .inside g => match (s.regions ct)[g]? with
    | none => s.readFor p k ct a
    | some r => match s.resolve ct r k.operand.toNat k.operand.toNat k.byTag with
      | .waits => (s.countFree cVersionWait 0).hold p tReadReq k
      | .mismatch => s.refuseRead tReadRsp k .shardVersionMismatch
      | .slot j => s.readFor p k ct ((a : Int) + r.shift j).toNat (BitVec.ofNat 64 (versionOf (if j = 0 then r.step0 else r.step1)))

/-- A request that is admitted, carried out (R126, R139, R144, R271). -/
def State.carryOut (s : State) (p type : Nat) (k : Packet) (ct : Nat) : State :=
  let a := locOf k.address
  if type == tReadReq then s.serveRead p k ct
  else if type == tWriteReq then
    let r := k.span.getD (0, k.length)
    s.whenHere p type k ct a k.length fun s1 =>
      (s1.store (a + r.1) ((k.payload.drop r.1).take (r.2 - r.1))).respond tWriteAck k 0
  else if type == tAtomicReq then
    s.whenHere p type k ct a 8 fun s1 =>
      if (s1.lostIn a 8).isEmpty then
        ((s1.touch a 8).atomicAt a k.operation k.operand (BitVec.ofNat 64 (field k.payload 0 8))).respond tAtomicRsp k 0
          (BitVec.ofNat 64 (leNat (s1.bytesAt a 8)))
      else (s1.countLost a 8).refuseRead tAtomicRsp k .weightLost
  else s.whenHere p type k ct a 16 fun s1 => (s1.semAdd 0 a k.operand.toNat).respond tSemAck k 0

/-- The answer of a Collective Engine to a packet: the header's ends are exchanged, and the tag is copied (R305, R306,
R308). -/
def State.collReply (s : State) (k : Packet) (sub operand : Nat) : State :=
  let h := CollHdr.parse k.payload
  let back : CollHdr := { h with dstCtx := k.ctxId, src := h.dst, dst := h.src, aFormat := 0, dFormat := 0, shape := 0 }
  let body := back.bytes
  let out : Packet := s.packet tColl k.srcDevice h.dstCtx (globalAddr k.srcDevice 0) 48 k.tag (BitVec.ofNat 64 operand) body sub
  s.emit { type := tColl, packet := out }

/-- A claim of a slot, or data for one (R316, R317): the slot's pages must be the receiving member's own and writable
(R315). The answer to a claim tells the slot's `DATA_LENGTH` (notes/assumptions/26.md). -/
def State.serveFww (s : State) (p : Nat) (k : Packet) : State :=
  let h := CollHdr.parse k.payload
  let a := locOf k.address
  let data := k.payload.drop 48
  let n := if k.operation = subClaim then 64 else data.length
  match s.admits p tColl k with
  | .error (cause, inst) => s.violation cause inst
  | .ok ct =>
    if ct ≠ h.dstCtx || !s.canWrite ct a n then s.violation 3 p
    else s.whenHere p tColl k ct a n fun s =>
      if k.operation = subClaim then
        let (number, won, len, s1) := s.claimSlot ct a h.src k.srcDevice k.ctxId
        s1.collReply k subClaimRsp (number + 65536 * b2n won + 2 ^ 32 * len)
      else
        let (taken, s1) := s.fillSlot ct a (k.operand.toNat % 65536) data
        s1.collReply k subFwwAck (65536 * b2n taken)

/-- A request of good form: checked and carried out, or a violation (R271). -/
def State.serve (s : State) (p type : Nat) (k : Packet) : State :=
  if type == tColl then s.serveFww p k
  else match s.admits p type k with
  | .error (cause, inst) => s.violates type k cause inst
  | .ok ct => s.carryOut p type k ct

/-- `READ_REQ` (R271, R273). -/
def execReadReq (port : Nat) (k : Packet) (s : State) : Host.Outcome State Fault Refusal :=
  .next (s.receive port tReadReq k fun s => s.serve port tReadReq k)

/-- `WRITE_REQ` (R271). -/
def execWriteReq (port : Nat) (k : Packet) (s : State) : Host.Outcome State Fault Refusal :=
  .next (s.receive port tWriteReq k fun s => s.serve port tWriteReq k)

/-- `ATOMIC_REQ` (R126, R271). -/
def execAtomicReq (port : Nat) (k : Packet) (s : State) : Host.Outcome State Fault Refusal :=
  .next (s.receive port tAtomicReq k fun s => s.serve port tAtomicReq k)

/-- `SEM_POST` from another module (R144, R271). -/
def execSemPostPacket (port : Nat) (k : Packet) (s : State) : Host.Outcome State Fault Refusal :=
  .next (s.receive port tSemPost k fun s => s.serve port tSemPost k)

/-! ### `REPAIR_READ` (R242) -/

/-- Whether the slot that holds an address has the step that a repair read asks for, which is 0 for a read that asks for
none too (R240, R242; DESIGN CHOICE, notes/assumptions/41.md). -/
def State.stepMatches (s : State) (ct a step : Nat) : Bool :=
  match (s.regions ct).findSome? fun r => r.slotAt a with
  | none => step = 0
  | some (st, n) => st == .valid && n = step

/-- Whether a repair read is refused before its line is read (R242, R427). -/
def State.repairRefused (s : State) (k : Packet) : Bool :=
  let a := locOf k.address
  match if a < deviceEnd && a % lineBytes = 0 && k.length = lineBytes then s.page? a else none with
  | none => true
  | some q =>
    let ct := match q.owner with
      | .ctx c => c
      | .pool => 0
    !q.isMapped || q.isAway || (ct ≠ 0 && (s.ctx ct).state == .draining) || !s.stepMatches ct a k.operand.toNat
      || (s.suppressedBy a lineBytes k.srcDevice).isSome

/-- Answers a repair read: the line, or a refusal. -/
def State.serveRepair (s : State) (k : Packet) : State :=
  let a := locOf k.address
  let s1 := match s.suppressedBy a lineBytes k.srcDevice with
    | some id => s.countSuppressed id lineBytes
    | none => s
  let s2 := if s.repairRefused k then s1 else s1.checkRead a lineBytes
  if s.repairRefused k || !(s2.repairingIn a lineBytes).isEmpty || !(s2.lostIn a lineBytes).isEmpty then
    s2.respond tRepairRsp k 0 0 [] 1
  else (s2.touch a lineBytes).respond tRepairRsp k lineBytes 0 (s2.bytesAt a lineBytes)

/-- `REPAIR_READ` (R242): what is wrong with it is a refusal and no violation, but for a packet on another type's
channel or for another module (R260, R272). -/
def execRepairRead (port : Nat) (k : Packet) (s : State) : Host.Outcome State Fault Refusal :=
  .next (match s.takeFront port tRepairRead k with
    | none => s
    | some s1 => (match s1.staleDrop port tRepairRead k with
      | some s2 => s2
      | none =>
        if k.vc ≠ 2 then s1.violation 1 port
        else if k.dstDevice ≠ s.lodge.deviceId then s1.violation 2 port
        else s1.serveRepair k).dropUnlisted port)

/-! ### What waited goes on (R221, R230, R243) -/

/-- The requests that wait at the ports are looked at again, in their order. -/
def State.serveWaiting (s : State) : State :=
  let w := s.fabric.waiting
  w.foldl (fun (s : State) r => s.serve r.1 r.2.1 r.2.2) (s.modFabric fun f => { f with waiting := [] })

/-- A slot, a guard or a launch has changed: the versioned reads of other modules that wait are looked at again
(R194). -/
def State.versionsReady (s : State) : State := if s.fabric.waiting.isEmpty then s else s.serveWaiting

/-- `TILE_INSTRUCTION_COMPLETE` (R136). -/
def execTileInstructionComplete (t : ThreadId) (id : Nat) (s : State) : Host.Outcome State Fault Refusal :=
  .next (s.completeInstruction t id).versionsReady

/-- `LAUNCH_COMPLETE` (R155). -/
def execLaunchComplete (launch : Nat) (s : State) : Host.Outcome State Fault Refusal :=
  .next (s.completeLaunch launch).versionsReady

/-- `COMMIT_POINT_REACHED` (R200). -/
def execCommitPointReached (ctx : Nat) (step : Word) (s : State) : Host.Outcome State Fault Refusal :=
  .next (s.commitPointReached ctx step.toNat).versionsReady

/-- The state that an outcome leaves, the state before it where there is none. -/
def nextOr (s : State) : Host.Outcome State Fault Refusal → State
  | .next t => t
  | _ => s

/-- An access of a thread that waited for a line is issued again. -/
def State.reissue (s : State) (t : ThreadId) (word : InstrWord) : State :=
  match decodeInstr t word with
  | some (.ld t w) => nextOr s (execLd t w s)
  | some (.lds t w) => nextOr s (execLds t w s)
  | some (.st t w) => nextOr s (execSt t w s)
  | some (.atom t w) => nextOr s (execAtom t w s)
  | some (.dld t w) => nextOr s (execDld t w s)
  | some (.dst t w) => nextOr s (execDst t w s)
  | some (.semWait t w) => nextOr s (execSemWait t w s)
  | _ => s

/-- The accesses of threads to a page that is about to be unmapped complete as though they had been issued before (R221). -/
def State.lastAccesses (s : State) : State :=
  s.threads.foldl (fun (s : State) e =>
    match e.2.wait with
    | some (.memory l) =>
      let t := keyThread e.1
      if e.2.state == .waiting && !Map.has s.memory.repairing l && s.unmapWaits l then
        (s.modThread t fun x => { x with state := .running, wait := none }).reissue t e.2.word
      else s
    | _ => s) s

/-- A page is back, or the repair of a line is over: what waited for it goes on, and then what waits to unmap it
(R221, R230, R243). -/
def State.memoryReady (s : State) : State :=
  let s1 := s.settleCommits.serveWaiting
  let s2 := (s1.streamGo.collPump).bar2Pump
  let s3 := (s2.twin.jobs.foldl (fun (s : State) j => s.jobWake j.handle) s2).debugPump
  s3.lastAccesses.unmapPump

end Sys2Proof.Machine
end

