-- ==== Sys2Proof/Machine/Requests.lean ====
section
/-! DEFINITION. How a module's own requests end: by a response (R271, R273), by their timeout (R274), or by a port that
fails (R275); and what each issuing unit makes of it. -/

namespace Sys2Proof.Machine

/-- How a request ended: answered, refused with a reason (R273), or expired (R274). -/
inductive Answered where
  | ok (operand : Word) (data : Bytes)
  | refused (reason : Nat)
  | expired
  deriving DecidableEq, Repr

/-! ### Threads (R126, R140, R149, R278) -/

/-- Whether a thread waits for the answer with a tag. -/
def Thread.awaits (x : Thread) (tag : Nat) : Bool := x.state == .waiting && match x.wait with
  | some (.load _ _ _ _ g) => g == tag
  | some (.atom _ g) => g == tag
  | some (.descLoad _ g) => g == tag
  | _ => false

/-- A load, an atomic or a `DLD` from another module ends (R126, R244, R483). -/
def State.loadAnswered (s : State) (t : ThreadId) (tag : Nat) (r : Request) (a : Answered) : State :=
  let x := s.thread t
  let dev := r.out.packet.dstDevice
  if !x.awaits tag then s
  else match a, x.wait with
    | .expired, _ => (s.noteCode x.launch .peerTimeout).trap t x.pc x.word (trCondition .peerTimeout dev)
    | .refused _, w =>
      let off := match w with
        | some (.load _ _ o _ _) => o
        | _ => 0
      (s.noteCode x.launch .weightLost).trap t x.pc x.word
        (trCondition .weightLost 0 (r.out.packet.address + BitVec.ofNat 64 off))
    | .ok _ bs, some (.load sd size off signed _) =>
      (s.wake t).writeReg t (BitVec.ofNat 5 sd) (loaded signed ((bs.drop off).take size))
    | .ok v _, some (.atom sd _) => (s.wake t).writeReg t (BitVec.ofNat 5 sd) v
    | .ok _ bs, some (.descLoad td _) => (s.wake t).modThread t fun y =>
        { y.setDescr (BitVec.ofNat 4 td) (BitVec.ofNat 256 (leNat bs)) with pc := y.pc + 16 }
    | .ok _ _, _ => s

/-- A store to another module is acknowledged or has expired (R126, R149). -/
def State.storeAnswered (s : State) (t : ThreadId) (pc : Word) (word : InstrWord) (tag dev : Nat) (a : Answered) : State :=
  if !(s.thread t).storesOut.contains tag then s
  else
    let s1 := s.modThread t fun x => { x with storesOut := x.storesOut.filter (· ≠ tag) }
    let x := s1.thread t
    let s2 := if a != .expired then s1
      else
        let s2 := s1.noteCode x.launch .peerTimeout
        if x.state == .running || x.state == .waiting || x.state == .suspended then
          s2.trap t pc word (trCondition .peerTimeout dev)
        else s2.count cTrapsSuppressed t.array (b2n (x.state == .trapped))
    s2.settle t

/-- A `SEM_POST` to another module is acknowledged or has expired (R140, R278). -/
def State.postAnswered (s : State) (t : ThreadId) (tag dev : Nat) (a : Answered) : State :=
  let x := s.thread t
  match x.state, x.wait with
  | .waiting, some (.semPost sa n m pred nt true tags bad) =>
    if !tags.contains tag then s
    else
      let bad' := if a == .expired then s.firstFailed x.ctx bad dev else bad
      let rest := tags.filter (· ≠ tag)
      if rest.isEmpty then s.postEnd t pred nt bad'
      else s.modThread t fun x => { x with wait := some (.semPost sa n m pred nt true rest bad') }
  | _, _ => s

/-! ### Tile instructions (R135, R194, R244, R273, R278) -/

/-- The operand that a selecting instruction's trap of R194 names. -/
def TileKind.sourceOperand : TileKind → Nat
  | .mma | .mmab => 2
  | _ => 1

/-- What an answered read leaves of an instruction. A response to a `VER_READ` brings the version (R196,
notes/assumptions/25.md). -/
def TileOp.readAnswered (o : TileOp) (tag : Nat) (k : Packet) (a : Answered) : TileOp :=
  let o1 := { o with awaited := o.awaited.filter (· ≠ tag) }
  match a with
  | .ok v bs => { o1 with fetched := putBytes o1.fetched (locOf k.address) bs
                          result := if o.kind == .verRead then v &&& 0xFFFF else o1.result }
  | .refused 0x22 => { o1 with cond := some (o1.cond.getD .shardVersionMismatch) }
  | .refused 0x40 => { o1 with late := some (o1.late.getD (trOperand o.kind.sourceOperand 11)) }
  | .refused _ => { o1 with fetchedLost := o1.fetchedLost ++ unitsOf lineBytes (locOf k.address) k.length }
  | .expired => { o1 with cond := some (o1.cond.getD .peerTimeout)
                          failDevice := if o1.cond.isNone then k.dstDevice else o1.failDevice }

/-- The pass for whose landing half a read with a tag was sent. -/
def ArrayState.fillOf (x : ArrayState) (tag : Nat) : Option (ThreadId × Nat × Nat) :=
  ([x.halfA, x.halfB].find? fun h => h.awaited.contains tag).bind (·.owner)

/-- A read for a landing fill has its answer (R26, R28, R30, R194): its bytes arrive, its line is poisoned, or the pass never
starts. A half that has been discarded takes nothing. -/
def State.fillAnswered (s : State) (t : ThreadId) (id tag : Nat) (k : Packet) (a : Answered) : State :=
  match (s.array t.array).fillOf tag with
  | none => s
  | some p =>
    let half := fun (s : State) (f : LandingHalf → LandingHalf) => s.modArray t.array fun x => x.modHalf p fun h =>
      f { h with awaited := h.awaited.filter (· ≠ tag) }
    let stop := fun (c : Code) (dev : Nat) => ((half (s.endMiss t.array) fun h => h).stopAt t id p.2.2 c dev).stopMatrix t id
    match a with
    | .ok _ bs => half s fun h => { h with fetched := putBytes h.fetched (locOf k.address) bs }
    | .refused 0x22 => (stop .shardVersionMismatch 0xFFFF).count cShardVersionMismatches 0
    | .refused 0x40 => (half s fun h => h).modOp t id fun o =>
        { o with late := some (o.late.getD (trOperand o.kind.sourceOperand 11)) }
    | .refused _ => half s fun h =>
        { h with fetchedLost := h.fetchedLost ++ unitsOf lineBytes (locOf k.address) k.length }
    | .expired => stop .peerTimeout k.dstDevice

/-- A read of a remote tile has its answer; with the last one the instruction goes on. -/
def State.tileReadAnswered (s : State) (t : ThreadId) (id tag : Nat) (k : Packet) (a : Answered) : State :=
  match s.op? t id with
  | none => s
  | some o =>
    if !o.awaited.contains tag then s.fillAnswered t id tag k a
    else
      let o1 := o.readAnswered tag k a
      let s1 := (s.modOp t id fun _ => o1).count cShardVersionMismatches 0 (b2n (a == .refused 0x22 && o.cond.isNone))
      if !o1.awaited.isEmpty then s1 else s1.opGo t o1

/-- A write of a tile to another module is acknowledged or has expired (R278). -/
def State.tileWriteAnswered (s : State) (t : ThreadId) (id tag dev : Nat) (a : Answered) : State :=
  let c := (s.thread t).ctx
  s.modOp t id fun o =>
    if !o.awaited.contains tag then o
    else
      let o1 := { o with awaited := o.awaited.filter (· ≠ tag) }
      if a == .expired then
        { o1 with failDevice := s.firstFailed c o1.failDevice dev, cond := some (o1.cond.getD .peerTimeout) }
      else o1

/-! ### Units of the module -/

/-- A source of a repair has answered, or failed (R241). -/
def State.repairAnswered (s : State) (l tag : Nat) (a : Answered) : State :=
  if (Map.get? s.memory.repairing l).bind Repair.tag ≠ some tag then s
  else match a with
    | .ok _ bs => (s.repairDone l bs).memoryReady
    | _ => (s.repairFailed l).memoryReady

/-- A fabric read of a `MODEL_LOAD` has its answer (R354). -/
def State.loadReadAnswered (s : State) (h : Nat) (k : Packet) (a : Answered) : State :=
  match (s.cmd? h).map OutCmd.work with
  | some (Work.loadFabric _ src dst len _) => match a with
    | .ok _ bs => s.loadFabricGo h (locOf k.address - locOf src) bs
    | .refused _ => s.loadFail h dst len (Reply.of .weightLost)
    | .expired => s.loadFail h dst len { code := .peerTimeout, failDevice := k.dstDevice }
  | _ => s

/-- A command's transfer of a checkpoint has its answer (R402, R405, R407): a mirror read that expires is sent again
while the pair stands. -/
def State.transferAnswered (s : State) (h : Nat) (type : Nat) (k : Packet) (a : Answered) : State :=
  let peer : Reply := { code := .peerTimeout, failDevice := k.dstDevice }
  if type == tTwin then
    match a with
    | .ok _ bs => s.jobData h bs
    | .refused _ => (s.count cTwinCopiesLost 0).endJob h s.copyLost
    | .expired => s.jobGo h
  else if type == tWriteReq then
    match a with
    | .expired => if s.twin.stream.any fun t => t.handle = h then s.abandonStream peer else s.endJob h peer
    | _ => s.imageAck h
  else match a with
    | .ok _ bs => s.restoreData h bs
    | .refused _ => s.endJob h (Reply.of .weightLost)
    | .expired => s.endJob h peer

/-- The unit that issued a request goes on with its answer. -/
def State.answerUnit (s : State) (tag : Nat) (r : Request) (a : Answered) : State :=
  let k := r.out.packet
  match r.unit with
  | .load t => s.loadAnswered t tag r a
  | .store t pc word => s.storeAnswered t pc word tag k.dstDevice a
  | .post t => s.postAnswered t tag k.dstDevice a
  | .tileRead t o => s.tileReadAnswered t o tag k a
  | .tileWrite t o => s.tileWriteAnswered t o tag k.dstDevice a
  | .repair l => s.repairAnswered l tag a
  | .modelLoad h => s.loadReadAnswered h k a
  | .device => s
  | .probe c j => if a == .expired then s.collLost c (s.firstExpired c j (r.timer.getD 0 + r.timeoutUs * 1000)) else s
  | .claim c => match s.coll? c with
    | some x => match s.group? x.ctx x.group with
      | some g => if a == .expired then s.collLost c (x.slotMember g) else s
      | none => s
    | none => s
  | .drainWrite h => s.transferAnswered h r.out.type k a

/-- A request ends: its tag is retired, its unit goes on, a flow that waited for it moves, and what waited for its place is
sent (R259, R274, R275). -/
def State.endRequest (s : State) (tag : Nat) (a : Answered) : State :=
  match Map.get? s.fabric.requests tag with
  | none => s
  | some r =>
    let s1 := (s.retire tag).count cRemoteTimeouts (r.port.getD 0) (b2n (a == .expired))
    ((s1.answerUnit tag r a).settleFlow r.out.packet.dstDevice r.out.packet.vc).pump

/-! ### Responses -/

/-- The type of the response to a request. -/
def responseType (type : Nat) : Nat :=
  if type == tReadReq then tReadRsp else if type == tWriteReq then tWriteAck else if type == tAtomicReq then tAtomicRsp
  else if type == tSemPost then tSemAck else if type == tRepairRead then tRepairRsp else type

/-- A response completes the request of its tag; one with no such request is dropped and counted (R274, R275). -/
def State.answer (s : State) (p type : Nat) (k : Packet) : State :=
  match Map.get? s.fabric.requests k.tag with
  | none => s.count cLateResponse p
  | some r =>
    if responseType r.out.type == type && r.out.packet.dstDevice == k.srcDevice then
      s.endRequest k.tag (if k.status = 1 then .refused k.operand.toNat else .ok k.operand k.payload)
    else s.count cLateResponse p

/-- `READ_RSP` (R273). -/
def execReadRsp (port : Nat) (k : Packet) (s : State) : Host.Outcome State Fault Refusal :=
  .next (s.receive port tReadRsp k fun s => s.answer port tReadRsp k)

/-- `WRITE_ACK` (R135). -/
def execWriteAck (port : Nat) (k : Packet) (s : State) : Host.Outcome State Fault Refusal :=
  .next (s.receive port tWriteAck k fun s => s.answer port tWriteAck k)

/-- `ATOMIC_RSP` (R126). -/
def execAtomicRsp (port : Nat) (k : Packet) (s : State) : Host.Outcome State Fault Refusal :=
  .next (s.receive port tAtomicRsp k fun s => s.answer port tAtomicRsp k)

/-- `SEM_ACK` (R140). -/
def execSemAck (port : Nat) (k : Packet) (s : State) : Host.Outcome State Fault Refusal :=
  .next (s.receive port tSemAck k fun s => s.answer port tSemAck k)

/-- `REPAIR_RSP` (R241). -/
def execRepairRsp (port : Nat) (k : Packet) (s : State) : Host.Outcome State Fault Refusal :=
  .next (s.receive port tRepairRsp k fun s => s.answer port tRepairRsp k)

/-! ### Timeouts and port failures (R274, R275) -/

/-- Whether a request's fabric timeout has run out (R274). -/
def Request.over (r : Request) (now : Nat) : Bool := r.timer.any fun t => t + r.timeoutUs * 1000 ≤ now

/-- `FABRIC_TIMEOUT` (R274). -/
def execFabricTimeout (tag : Nat) (s : State) : Host.Outcome State Fault Refusal :=
  .next (if (Map.get? s.fabric.requests tag).any fun r => r.over s.now then s.endRequest tag .expired else s)

/-- Whether a packet belongs to a flow. -/
def inFlow (k : Packet) (dst vc : Nat) : Bool := k.dstDevice = dst && k.vc = vc

/-- The requests of a flow that have left by a port, in their order. -/
def State.sentBy (s : State) (dst vc p : Nat) (queued : List OutPacket) : List Nat :=
  let waits := fun (tag : Nat) => queued.any fun o => o.packet.tag = tag && s.isRequest o
  sortKeys ((s.fabric.requests.filter fun e => e.2.port == some p && inFlow e.2.out.packet dst vc && !waits e.1).map fun e =>
    ([e.2.out.since, e.1], e.1))

/-- Whether a request is sent again on a new port (R275). -/
def resentType (type : Nat) : Bool := type == tReadReq || type == tWriteReq || type == tRepairRead

/-- A flow whose port has failed moves to another port of its mask (R275): reads and writes without an answer are sent
again ahead of what waits, and atomics and posts end with `PEER_TIMEOUT`. -/
def State.flowMove (s : State) (dst vc : Nat) : State :=
  match Map.get? s.fabric.flows (flowKey dst vc) with
  | none => s
  | some q =>
    let old := q % 8
    match if s.portUp old then none else s.choosePort dst vc with
    | none => s
    | some n =>
      let queued := (s.port old).queue.filter fun o => inFlow o.packet dst vc
      let sent := s.sentBy dst vc old queued
      let type := fun (tag : Nat) => ((Map.get? s.fabric.requests tag).map fun r => r.out.type).getD 0
      let again := sent.filter fun tag => resentType (type tag)
      let dead := sent.filter fun tag => type tag == tAtomicReq || type tag == tSemPost
      let copies := again.filterMap fun tag => (Map.get? s.fabric.requests tag).map fun r =>
        { r.out with packet := s.stamp { r.out.packet with resent := true, dstIncarnation := 0 } }
      let moved := again ++ (queued.filter s.isRequest).map fun o => o.packet.tag
      let s0 := if queued.isEmpty then s else s.endStall old vc
      let s1 := ((s0.setFlow dst vc n).count cFlowMoves old).modPort old fun x =>
        { x with queue := x.queue.filter fun o => !inFlow o.packet dst vc }
      let s2 := (copies ++ queued).foldl (fun (s : State) o => s.enqueue n o) s1
      let s3 := moved.foldl (fun (s : State) tag => s.modRequest tag fun r => { r with port := some n }) s2
      (dead.foldl (fun (s : State) tag => s.endRequest tag .expired) s3).pump

/-- `FLOW_MOVE` (R275). -/
def execFlowMove (dest vc : Nat) (s : State) : Host.Outcome State Fault Refusal := .next (s.flowMove dest vc)

end Sys2Proof.Machine
end

