-- ==== Sys2Proof/Machine/Commands.lean ====
section
/-! DEFINITION. Commands of the host and of operators: what the Steward checks (R335), how it takes one from a ring
(R324 to R329) or a session (R438), and which meaning each opcode has (R334). notes/assumptions/6.md says what the
model fixes. -/

namespace Sys2Proof.Machine

/-! ### The meanings by opcode (R334) -/

/-- The device, context and ring commands. -/
def State.bodyLow (s : State) (h : Nat) (k : OutCmd) (p : Bytes) : Answer :=
  match k.opcode with
  | 0x0000 => s.cmdNop
  | 0x0001 => s.cmdHeartbeat p
  | 0x0002 => s.cmdQueryCaps k p
  | 0x0003 => s.cmdAckAttention p
  | 0x0004 => s.cmdQueryFault k p
  | 0x0005 => s.cmdReadCounters k p
  | 0x0006 => s.cmdTimeRead
  | 0x0100 => s.cmdCtxCreate h p
  | 0x0101 => s.cmdDrain h p true
  | 0x0102 => s.cmdDrain h p false
  | 0x0103 => s.cmdCtxSuspend h p
  | 0x0104 => s.cmdCtxResume h p
  | 0x0105 => s.cmdCtxQuery k p
  | 0x0106 => s.cmdRingBind p
  | 0x0107 => s.cmdRingUnbind k p
  | 0x0200 => s.cmdMemMap k p
  | 0x0201 => s.cmdMemUnmap h k p
  | 0x0202 => s.cmdMemPin k p
  | 0x0203 => s.cmdMemHint k p
  | 0x0204 => s.cmdMemCopy h k p
  | 0x0205 => s.cmdMemFill h k p
  | 0x0206 => s.cmdPoolQuota p
  | 0x0207 => s.cmdProvenance k p
  | _ => s.says .badPacket

/-- The model, loan, launch, fabric, checkpoint, identity and transaction commands. -/
def State.bodyMid (s : State) (h : Nat) (k : OutCmd) (p : Bytes) : Answer :=
  match k.opcode with
  | 0x0300 => s.cmdModelLoad h p
  | 0x0301 => s.cmdModelEvict p
  | 0x0302 => s.cmdLoanPresent h k p
  | 0x0303 => s.cmdLoanRevoke k p
  | 0x0400 => s.cmdLaunch h k p
  | 0x0401 => s.cmdLaunch h k p
  | 0x0402 => s.cmdFence h k
  | 0x0403 => s.cmdStepCommit h k p
  | 0x0404 => s.cmdStepAbandon k p
  | 0x0500 => s.cmdPortState h k p
  | 0x0501 => s.cmdRouteSet k p
  | 0x0502 => s.cmdGroupDefine k p
  | 0x0503 => s.cmdPermutePlan k p
  | 0x0504 => s.cmdTimeoutSet k p
  | 0x0600 => s.cmdCkptBegin h k p
  | 0x0601 => s.cmdCkptDrain h k p
  | 0x0602 => s.cmdCkptRestore h k p
  | 0x0603 => s.cmdTwinState k p
  | 0x0604 => s.cmdTwinAdopt p
  | 0x0700 => s.cmdAttest h k p
  | 0x0701 => s.cmdIdentity k p
  | 0x0800 => s.cmdTxnBegin k p
  | 0x0801 => s.cmdTxnCommit h k p
  | 0x0802 => s.cmdTxnAbort k p
  | 0x0803 => s.cmdTxnQuery p
  | _ => s.says .badPacket

/-- The management-only commands (R440); three of them run only as staged commands. -/
def State.bodyMgmt (s : State) (h : Nat) (k : OutCmd) (p : Bytes) : Answer :=
  match k.opcode with
  | 0x0A00 => s.cmdFwStage k p
  | 0x0A03 => s.cmdDebugRead h k p
  | 0x0A04 => s.cmdDebugWrite h k p
  | 0x0A05 => s.cmdTraceStart k p
  | 0x0A06 => s.cmdTraceStop k p
  | 0x0A07 => s.cmdLogRead k p
  | 0x0A08 => s.cmdCtrClear k p
  | 0x0A09 => s.cmdPowerCap p
  | 0x0A0A => s.cmdResetModule h k p
  | _ => s.says .badPacket

/-- The rules of a command's own chapter (R335, step 7). -/
def State.commandBody (s : State) (h : Nat) (k : OutCmd) (p : Bytes) : Answer :=
  if k.opcode < 0x0300 then s.bodyLow h k p
  else if k.opcode < 0x0A00 then s.bodyMid h k p
  else s.bodyMgmt h k p

/-! ### The checks (R335) -/

/-- Whether an issuer may issue a command (R334, R440): `ctx` is the context of its ring. -/
def Issuer.allows (i : Issuer) (ctx session : Nat) : Bool :=
  match i with
  | .any => true
  | .device => ctx = 0
  | .tenant => ctx ≠ 0
  | .session => session ≠ 0

/-- The first of the checks of R335, steps 1 to 3, that a command fails. -/
def checkForm (k : OutCmd) (p : Bytes) : Option Code :=
  let h := k.header
  let row := opcodeRow k.opcode
  let carrier := if h.session ≠ 0 then 0xFFFF else h.ring
  let short := formBad k.opcode p || row.any fun r => p.length < r.params || r.reserved.any fun f => field p f.1 f.2 ≠ 0
  if h.ringId.toNat ≠ carrier || h.reserved ≠ 0 || 16384 ≤ h.ctxId.toNat || short then some .badPacket
  else if h.ctxId.toNat ≠ k.ctx then some .notPermitted
  else match row with
    | none => some .badPacket
    | some r => if r.issuer.allows k.ctx h.session && !issuerBad k.opcode k.ctx p then none else some .notPermitted

/-- The commands that a Strongroom in `FAILED` leaves (R415). -/
def failedCommands : List Nat := [0x0000, 0x0002, 0x0004, 0x0701]

/-- The commands that the ROM recovery service accepts (R444). -/
def recoveryCommands : List Nat := [0x0700, 0x0800, 0x0801, 0x0802, 0x0803, 0x0A00, 0x0A01, 0x0A07, 0x0A0A]

/-- The commands that the Lodge and the Strongroom carry out alone, so that a session may issue them while the Steward
does not run (R6, R429; notes/assumptions/6.md). -/
def lodgeCommands : List Nat :=
  [0x0000, 0x0002, 0x0004, 0x0006, 0x0700, 0x0701, 0x0800, 0x0801, 0x0802, 0x0803, 0x0A00, 0x0A01, 0x0A02, 0x0A07, 0x0A09,
   0x0A0A]

/-- Whether a command must be tried again later, whatever its own rules say (R6, R415, R444). -/
def State.outOfService (s : State) (op : Nat) : Bool :=
  if s.lodge.phase == .recovery then !recoveryCommands.contains op
  else if s.strongroom.state == .failed && !failedCommands.contains op then true
  else !s.stewardRunning && !lodgeCommands.contains op

/-- Whether a command meets its context's eviction notice (R231). -/
def State.noticed (s : State) (k : OutCmd) : Bool :=
  let n := (s.ctx k.ctx).notice
  k.ctx ≠ 0 && 0x0200 ≤ k.opcode && k.opcode < 0x0500 && n.spilled + n.dropped ≠ 0

/-- A command that has been taken is checked and started (R335): it answers, or waits. A command that is to join a
transaction may name a context whose creation is staged there (R386). -/
def State.runCommand (s : State) (h : Nat) (k : OutCmd) (p : Bytes) : Answer :=
  match checkForm k p with
  | some c => s.says c
  | none =>
    if s.absentUnit k.opcode p then s.says .unsupported
    else if s.outOfService k.opcode || s.unitWaits k.opcode p then s.says .busyRetry
    else if k.header.txnId = 0 && (namedCtx k.opcode p).any s.noCtx then s.says .noSuchContext
    else if s.noticed k then (s.modCtx k.ctx fun x => { x with notice := {} }).says .evicted
    else if k.header.txnId ≠ 0 then s.joinCmd h k p
    else s.commandBody h k p

/-! ### Taking -/

/-- Whether a `FENCE` holds the commands of a ring or a session (R343). -/
def State.fenced (s : State) (ring session : Nat) : Bool :=
  (Map.vals s.host.commands).any fun k => k.work == .fence && k.header.ring = ring && k.header.session = session

/-- Whether a command is held by a firmware window (R430, R443) or a commit (R387). A request for a quote is taken in
the window, and refused. -/
def State.held (s : State) (ctx op : Nat) : Bool :=
  (s.strongroom.window && op ≠ 0x0700) || s.commitHolds ctx op

/-- The context a command's carrier is bound to. -/
def State.boundCtx (s : State) (h : CmdHeader) : Nat := if h.session ≠ 0 then 0 else (s.ring h.ring).boundCtx

/-- A command is taken and started: `mg` is its `SEQUENCE` on a session (R438). -/
def State.startCommand (s : State) (h : CmdHeader) (op : Nat) (p : Bytes) (mg : Nat) : State :=
  let c := s.boundCtx h
  let g := s.host.nextHandle
  let k : OutCmd :=
    { header := h, opcode := op, ctx := c, generation := s.gen c, takenAt := s.now, work := .drain 0, mgSequence := mg
      object := objectOf op p }
  let s1 := s.modHost fun x => { x with nextHandle := g + 1, commands := Map.put x.commands g k }
  let (a, s2) := (s1.traceCommand k 0).runCommand g k p
  match a with
  | some r => (s2.finishCmd g r).versionsReady
  | none => s2.versionsReady

/-- Entries that a command of n parameter bytes occupies (R327). -/
def entriesOf (n : Nat) : Nat := 1 + ceilDiv (n - 32) 64

/-- Whether the Steward takes the next command of a ring (R327). -/
def State.ringTakes (s : State) (n op params : Nat) : Bool :=
  let r := s.ring n
  s.stewardRunning && r.state == .bound && entriesOf params ≤ r.waiting
    && r.unread + r.outstanding + 1 ≤ r.replySize && !s.fenced n 0 && s.host.writesWaiting.isEmpty
    && (s.ctx r.boundCtx).state != .draining && !s.held r.boundCtx op

/-- The next command of a ring is taken (R325, R327): one with too many parameters stops the ring. -/
def State.takeFromRing (s : State) (h : CmdHeader) (op : Nat) (p : Bytes) : State :=
  let n := h.ring
  let r := s.ring n
  if 4096 < h.paramLength.toNat then
    if s.stewardRunning && r.state == .bound && r.waiting ≠ 0 then s.stopRing n 3 else s
  else if !s.ringTakes n op h.paramLength.toNat then s
  else
    let s1 := (s.modRing n fun r =>
      { r with cmdHead := r.cmdHead + BitVec.ofNat 32 (entriesOf h.paramLength.toNat), outstanding := r.outstanding + 1 }).count cCommandsTaken 0
    (s1.modHost fun x => { x with lastCmdTime := s.now, lastCmdRing := n, lastCmdOpcode := op }).startCommand h op
      (padTo h.paramLength.toNat p) 0

/-- Whether the Lodge takes a command of a session (R387, R438, R443). -/
def State.sessionTakes (s : State) (id op : Nat) : Bool :=
  s.lodge.phase != .off && (s.session? id).isSome && !s.fenced 0xFFFF id && !s.held 0 op

/-- The next command of a session is taken (R438). One with too many parameters, which has no ring to stop, is
malformed. -/
def State.takeFromSession (s : State) (h : CmdHeader) (op : Nat) (p : Bytes) (mg : Nat) : State :=
  let h1 := { h with ring := 0xFFFF }
  let s1 := s.modSession h.session fun x => { x with next := mg + 1 }
  if 4096 < h.paramLength.toNat then s1.startCommand { h1 with reserved := 1 } op [] mg
  else s1.startCommand h1 op (padTo h.paramLength.toNat p) mg

/-- A command packet is taken from the ring or the session that carries it. -/
def State.command (s : State) (op : Nat) (h : CmdHeader) (p : Bytes) : State :=
  if h.session ≠ 0 then
    match s.session? h.session with
    | none => s
    | some x => if s.sessionTakes h.session op then s.takeFromSession h op p x.next else s
  else s.takeFromRing h op p

/-- The header and the opcode that a command packet's first 64 bytes hold (R329). -/
def readHeader (ring session : Nat) (b : Bytes) : Nat × CmdHeader :=
  (field b 0 2,
    { ring := ring, session := session, ctxId := BitVec.ofNat 16 (field b 2 2), ringId := BitVec.ofNat 16 (field b 4 2)
      paramLength := BitVec.ofNat 16 (field b 6 2), sequence := BitVec.ofNat 32 (field b 8 4)
      reserved := BitVec.ofNat 32 (field b 12 4), hostTime := BitVec.ofNat 64 (field b 16 8)
      txnId := BitVec.ofNat 64 (field b 24 8) })

/-- `COMMAND_TAKE` (R325, R327): the entries of the next command have been read, or the read has failed. -/
def execCommandTake (ring : Nat) (entries : BusData) (s : State) : Host.Outcome State Fault Refusal :=
  .next (match entries with
    | .error =>
      if s.stewardRunning && (s.ring ring).state == .bound && (s.ring ring).waiting ≠ 0 then
        (s.count cDmaReadErrors 0).stopRing ring 1
      else s
    | .bytes b =>
      let (op, h) := readHeader ring 0 b
      s.takeFromRing h op (b.drop 32))

/-- `DMA_READ_COMPLETION` (R407, R422, R354, R486): the bytes that a command reads on the host's bus arrive, or the read
fails. -/
def execDmaReadCompletion (handle : Nat) (data : BusData) (s : State) : Host.Outcome State Fault Refusal :=
  .next (match (s.cmd? handle).map OutCmd.work with
    | some (Work.copyIn dst len) => s.copyInGo handle dst len data
    | some (Work.loadHost model dst len tight) => s.loadHostGo handle model dst len tight data
    | some (Work.loan len) => s.loanArrives handle len data
    | some (Work.ckptRestore false) =>
      if !((s.job? handle).any fun j => j.toHost) then s
      else match data with
        | .bytes b => s.restoreData handle b
        | .error => (s.count cDmaReadErrors 0).endJob handle (Reply.of .badPacket)
    | _ => s)

/-- `MEM_COPY_COMPLETE` (R338). -/
def execMemCopyComplete (handle : Nat) (s : State) : Host.Outcome State Fault Refusal := .next (s.copyGo handle)

/-! ### Sessions (R438) -/

/-- The commands of a session that arrived ahead are taken in their order, as far as they may. -/
def sessionPump (id : Nat) : Nat → State → State
  | 0, s => s
  | n + 1, s =>
    match s.session? id with
    | none => s
    | some x => match Map.get? x.ahead x.next with
      | none => s
      | some b =>
        let (op, h) := readHeader 0xFFFF id b
        if s.sessionTakes id op then
          sessionPump id n ((s.modSession id fun y => { y with ahead := Map.erase y.ahead x.next }).takeFromSession h op
            (b.drop 32) x.next)
        else s

/-- The waiting commands of every session go on. -/
def State.pumpSessions (s : State) : State :=
  s.lodge.sessions.foldl (fun (s : State) x => sessionPump x.id 65 s) s

/-- `STEWARD_BEAT_TICK` (R322): the Steward also goes on with the commands of sessions that waited. -/
def execStewardBeatTick (s : State) : Host.Outcome State Fault Refusal :=
  .next (if s.stewardRunning then
    (s.modHost fun h => { h with stewardBeat := h.stewardBeat + 1, beatTime := s.now }).pumpSessions
  else s)

end Sys2Proof.Machine
end

