-- ==== Sys2Proof/Machine/HostCmds.lean ====
section
/-! DEFINITION. The host commands: each row of the opcode table's first group is a command packet that the Steward takes
from the ring or the session that carries it, checks and starts (R327, R335, R438). What each one then does is its
meaning in the files that hold `State.cmd…`, which `State.commandBody` picks by its opcode. -/

namespace Sys2Proof.Machine

/-- Host command that does nothing and completes with DONE (R334): `State.cmdNop`. -/
def execNop (h : CmdHeader) (p : Bytes) (s : State) : Host.Outcome State Fault Refusal :=
  .next (s.command 0x0000 h p)

/-- Context-0 command that reports which arrays, ports and rings made no progress over a window of twice PERIOD_US (R341): `State.cmdHeartbeat`. -/
def execHeartbeat (h : CmdHeader) (p : Bytes) (s : State) : Host.Outcome State Fault Refusal :=
  .next (s.command 0x0001 h p)

/-- Writes one consistent 64-byte capability descriptor snapshot to OUT_ADDR (R8): `State.cmdQueryCaps`. -/
def execQueryCaps (h : CmdHeader) (p : Bytes) (s : State) : Host.Outcome State Fault Refusal :=
  .next (s.command 0x0002 h p)

/-- Clears each pending attention class whose sequence is at or before ACK_SEQ, and reports the pending masks before and after (R342): `State.cmdAckAttention`. -/
def execAckAttention (h : CmdHeader) (p : Bytes) (s : State) : Host.Outcome State Fault Refusal :=
  .next (s.command 0x0003 h p)

/-- Writes attention log entries or fault records to OUT_ADDR (R342): `State.cmdQueryFault`. -/
def execQueryFault (h : CmdHeader) (p : Bytes) (s : State) : Host.Outcome State Fault Refusal :=
  .next (s.command 0x0004 h p)

/-- Writes a range of one unit's 48-bit event counters, each with its sticky bit, to OUT_ADDR (R344): `State.cmdReadCounters`. -/
def execReadCounters (h : CmdHeader) (p : Bytes) (s : State) : Host.Outcome State Fault Refusal :=
  .next (s.command 0x0005 h p)

/-- Returns device time and SYNC_STATE in the reply RESULT (R334): `State.cmdTimeRead`. -/
def execTimeRead (h : CmdHeader) (p : Bytes) (s : State) : Host.Outcome State Fault Refusal :=
  .next (s.command 0x0006 h p)

/-- Creates a context with its class, limits, quotas, model and save area, or refuses it (R349): `State.cmdCtxCreate`. -/
def execCtxCreate (h : CmdHeader) (p : Bytes) (s : State) : Host.Outcome State Fault Refusal :=
  .next (s.command 0x0100 h p)

/-- Puts a context in DRAINING; once the drain ends the ID becomes UNUSED with an advanced generation (R351): `State.cmdDrain`. -/
def execCtxDestroy (h : CmdHeader) (p : Bytes) (s : State) : Host.Outcome State Fault Refusal :=
  .next (s.command 0x0101 h p)

/-- Drains a context and returns it to ACTIVE under a new generation, keeping its class, quotas, model and rings (R351): `State.cmdDrain`. -/
def execCtxReset (h : CmdHeader) (p : Bytes) (s : State) : Host.Outcome State Fault Refusal :=
  .next (s.command 0x0102 h p)

/-- Suspends a context at its pre-emption points; completes once the context is SUSPENDED (R351): `State.cmdCtxSuspend`. -/
def execCtxSuspend (h : CmdHeader) (p : Bytes) (s : State) : Host.Outcome State Fault Refusal :=
  .next (s.command 0x0103 h p)

/-- Queues a host-suspended context for re-admission; completes once it is ACTIVE (R351): `State.cmdCtxResume`. -/
def execCtxResume (h : CmdHeader) (p : Bytes) (s : State) : Host.Outcome State Fault Refusal :=
  .next (s.command 0x0104 h p)

/-- Writes a 256-byte context snapshot record to OUT_ADDR (R352): `State.cmdCtxQuery`. -/
def execCtxQuery (h : CmdHeader) (p : Bytes) (s : State) : Host.Outcome State Fault Refusal :=
  .next (s.command 0x0105 h p)

/-- Binds a ring to a target context and resets its indices (R324): `State.cmdRingBind`. -/
def execRingBind (h : CmdHeader) (p : Bytes) (s : State) : Host.Outcome State Fault Refusal :=
  .next (s.command 0x0106 h p)

/-- Moves a bound or stopped ring to DRAINING; ring 0 and the carrying ring are refused (R324): `State.cmdRingUnbind`. -/
def execRingUnbind (h : CmdHeader) (p : Bytes) (s : State) : Host.Outcome State Fault Refusal :=
  .next (s.command 0x0107 h p)

/-- Maps whole zeroed pages of a class and access into the issuing context, all or nothing (R217): `State.cmdMemMap`. -/
def execMemMap (h : CmdHeader) (p : Bytes) (s : State) : Host.Outcome State Fault Refusal :=
  .next (s.command 0x0200 h p)

/-- Unmaps pages, first waiting for any repair in progress to end (R221): `State.cmdMemUnmap`. -/
def execMemUnmap (h : CmdHeader) (p : Bytes) (s : State) : Host.Outcome State Fault Refusal :=
  .next (s.command 0x0201 h p)

/-- Pins or releases cellar granules against CELLAR_PIN_LIMIT (R225): `State.cmdMemPin`. -/
def execMemPin (h : CmdHeader) (p : Bytes) (s : State) : Host.Outcome State Fault Refusal :=
  .next (s.command 0x0202 h p)

/-- Applies a placement hint, or a repair retry, to a range of pages (R226): `State.cmdMemHint`. -/
def execMemHint (h : CmdHeader) (p : Bytes) (s : State) : Host.Outcome State Fault Refusal :=
  .next (s.command 0x0203 h p)

/-- Copies bytes between local memory and host or local memory (R338): `State.cmdMemCopy`. -/
def execMemCopy (h : CmdHeader) (p : Bytes) (s : State) : Host.Outcome State Fault Refusal :=
  .next (s.command 0x0204 h p)

/-- Fills a local range with a repeated 8-byte pattern (R338): `State.cmdMemFill`. -/
def execMemFill (h : CmdHeader) (p : Bytes) (s : State) : Host.Outcome State Fault Refusal :=
  .next (s.command 0x0205 h p)

/-- Sets the selected quota fields of a context, subject to the pool and cellar capacity checks (R229): `State.cmdPoolQuota`. -/
def execPoolQuota (h : CmdHeader) (p : Bytes) (s : State) : Host.Outcome State Fault Refusal :=
  .next (s.command 0x0206 h p)

/-- Writes or removes a provenance record naming clean sources for a range (R239): `State.cmdProvenance`. -/
def execProvenanceSet (h : CmdHeader) (p : Bytes) (s : State) : Host.Outcome State Fault Refusal :=
  .next (s.command 0x0207 h p)

/-- Loads model data from the host or the fabric into pinned pool pages (R354): `State.cmdModelLoad`. -/
def execModelLoad (h : CmdHeader) (p : Bytes) (s : State) : Host.Outcome State Fault Refusal :=
  .next (s.command 0x0300 h p)

/-- Releases the resident model's pool pages and returns the model state to NONE (R355): `State.cmdModelEvict`. -/
def execModelEvict (h : CmdHeader) (p : Bytes) (s : State) : Host.Outcome State Fault Refusal :=
  .next (s.command 0x0301 h p)

/-- Verifies a signed loan record, unwraps its weight key and makes the loan present (R422): `State.cmdLoanPresent`. -/
def execLoanPresent (h : CmdHeader) (p : Bytes) (s : State) : Host.Outcome State Fault Refusal :=
  .next (s.command 0x0302 h p)

/-- Unmaps and zeroes every bound page, then discards the loan's key (R423): `State.cmdLoanRevoke`. -/
def execLoanRevoke (h : CmdHeader) (p : Bytes) (s : State) : Host.Outcome State Fault Refusal :=
  .next (s.command 0x0303 h p)

/-- Checks a launch's parameters and structures and submits its threads for admission (R340): `State.cmdLaunch`. -/
def execLaunch (h : CmdHeader) (p : Bytes) (s : State) : Host.Outcome State Fault Refusal :=
  .next (s.command 0x0400 h p)

/-- Runs a host-formed serving batch exactly as a LAUNCH with no timetable or training table (R364): `State.cmdLaunch`. -/
def execBatchSubmit (h : CmdHeader) (p : Bytes) (s : State) : Host.Outcome State Fault Refusal :=
  .next (s.command 0x0401 h p)

/-- Ring command that completes when every earlier command on its ring has its final reply (R343): `State.cmdFence`. -/
def execFenceCommand (h : CmdHeader) (p : Bytes) (s : State) : Host.Outcome State Fault Refusal :=
  .next (s.command 0x0402 h p)

/-- Held until the step's commit point, then exchanges the clean flag over a group and reports the combined outcome (R200): `State.cmdStepCommit`. -/
def execStepCommit (h : CmdHeader) (p : Bytes) (s : State) : Host.Outcome State Fault Refusal :=
  .next (s.command 0x0403 h p)

/-- Marks a step's guard ABANDONED, or completes with a code set by the guard's state (R202): `State.cmdStepAbandon`. -/
def execStepAbandon (h : CmdHeader) (p : Bytes) (s : State) : Host.Outcome State Fault Refusal :=
  .next (s.command 0x0404 h p)

/-- Queries, enables, disables or retrains a Palex port and stores its rate and width settings (R282): `State.cmdPortState`. -/
def execPortState (h : CmdHeader) (p : Bytes) (s : State) : Host.Outcome State Fault Refusal :=
  .next (s.command 0x0500 h p)

/-- Replaces destination routes or a context's broadcast set, wholly or not at all (R284): `State.cmdRouteSet`. -/
def execRouteSet (h : CmdHeader) (p : Bytes) (s : State) : Host.Outcome State Fault Refusal :=
  .next (s.command 0x0501 h p)

/-- Defines, redefines or deletes a group of the issuing context (R289): `State.cmdGroupDefine`. -/
def execGroupDefine (h : CmdHeader) (p : Bytes) (s : State) : Host.Outcome State Fault Refusal :=
  .next (s.command 0x0502 h p)

/-- Builds, appends to or seals a re-sharding plan (R311): `State.cmdPermutePlan`. -/
def execPermutePlan (h : CmdHeader) (p : Bytes) (s : State) : Host.Outcome State Fault Refusal :=
  .next (s.command 0x0503 h p)

/-- Sets the fabric timeout of the module default or of one context (R285): `State.cmdTimeoutSet`. -/
def execTimeoutSet (h : CmdHeader) (p : Bytes) (s : State) : Host.Outcome State Fault Refusal :=
  .next (s.command 0x0504 h p)

/-- Takes a copy-on-write snapshot of ranges and streams it to the twin's mirror or to storage (R402): `State.cmdCkptBegin`. -/
def execCkptBegin (h : CmdHeader) (p : Bytes) (s : State) : Host.Outcome State Fault Refusal :=
  .next (s.command 0x0600 h p)

/-- Reads a CURRENT mirror entry from the twin and writes it as an image to storage (R405): `State.cmdCkptDrain`. -/
def execCkptDrain (h : CmdHeader) (p : Bytes) (s : State) : Host.Outcome State Fault Refusal :=
  .next (s.command 0x0601 h p)

/-- Writes a checkpoint from the mirror or from storage back into the owner context's ranges (R407): `State.cmdCkptRestore`. -/
def execCkptRestore (h : CmdHeader) (p : Bytes) (s : State) : Host.Outcome State Fault Refusal :=
  .next (s.command 0x0602 h p)

/-- Queries, pairs, unpairs or discards mirror entries of the twin pair (R400): `State.cmdTwinState`. -/
def execTwinState (h : CmdHeader) (p : Bytes) (s : State) : Host.Outcome State Fault Refusal :=
  .next (s.command 0x0603 h p)

/-- Starts the adoption of a spare by a survivor and re-owns the former module's entries to it (R408): `State.cmdTwinAdopt`. -/
def execTwinAdopt (h : CmdHeader) (p : Bytes) (s : State) : Host.Outcome State Fault Refusal :=
  .next (s.command 0x0604 h p)

/-- Writes a quote signed by the identity key over a nonce and the measurements (R428): `State.cmdAttest`. -/
def execAttest (h : CmdHeader) (p : Bytes) (s : State) : Host.Outcome State Fault Refusal :=
  .next (s.command 0x0700 h p)

/-- Writes the manufacture certificate or the Strongroom record to OUT_ADDR (R417): `State.cmdIdentity`. -/
def execIdentityRead (h : CmdHeader) (p : Bytes) (s : State) : Host.Outcome State Fault Refusal :=
  .next (s.command 0x0701 h p)

/-- Opens a transaction with a kind and a timeout (R385): `State.cmdTxnBegin`. -/
def execTxnBegin (h : CmdHeader) (p : Bytes) (s : State) : Host.Outcome State Fault Refusal :=
  .next (s.command 0x0800 h p)

/-- Checks every staged command against the state at commit, then applies all of them or none (R387): `State.cmdTxnCommit`. -/
def execTxnCommit (h : CmdHeader) (p : Bytes) (s : State) : Host.Outcome State Fault Refusal :=
  .next (s.command 0x0801 h p)

/-- Discards the staged commands of an open transaction (R388): `State.cmdTxnAbort`. -/
def execTxnAbort (h : CmdHeader) (p : Bytes) (s : State) : Host.Outcome State Fault Refusal :=
  .next (s.command 0x0802 h p)

/-- Returns the recorded state of a transaction (R388): `State.cmdTxnQuery`. -/
def execTxnQuery (h : CmdHeader) (p : Bytes) (s : State) : Host.Outcome State Fault Refusal :=
  .next (s.command 0x0803 h p)

/-- Stages a chunk of a firmware or configuration image and verifies the image at its last chunk (R441): `State.cmdFwStage`. -/
def execFwStage (h : CmdHeader) (p : Bytes) (s : State) : Host.Outcome State Fault Refusal :=
  .next (s.command 0x0A00 h p)

/-- Staged command that, at commit, copies the verified image into the fallback slot and switches to it (R443): `State.joinCmd`. -/
def execFwActivate (h : CmdHeader) (p : Bytes) (s : State) : Host.Outcome State Fault Refusal :=
  .next (s.command 0x0A01 h p)

/-- Staged command that, at commit, verifies and applies the staged configuration blob (R447): `State.joinCmd`. -/
def execCfgWrite (h : CmdHeader) (p : Bytes) (s : State) : Host.Outcome State Fault Refusal :=
  .next (s.command 0x0A02 h p)

/-- Logged operator read of a debug space in plaintext (R464): `State.cmdDebugRead`. -/
def execDebugRead (h : CmdHeader) (p : Bytes) (s : State) : Host.Outcome State Fault Refusal :=
  .next (s.command 0x0A03 h p)

/-- Logged operator write that acts as an ordinary write to a debug space (R464): `State.cmdDebugWrite`. -/
def execDebugWrite (h : CmdHeader) (p : Bytes) (s : State) : Host.Outcome State Fault Refusal :=
  .next (s.command 0x0A04 h p)

/-- Takes trace buffer frames from the pool and starts recording the selected sources (R465): `State.cmdTraceStart`. -/
def execTraceStart (h : CmdHeader) (p : Bytes) (s : State) : Host.Outcome State Fault Refusal :=
  .next (s.command 0x0A05 h p)

/-- Ends the trace, reports records written and dropped, and optionally releases the buffer (R465): `State.cmdTraceStop`. -/
def execTraceStop (h : CmdHeader) (p : Bytes) (s : State) : Host.Outcome State Fault Refusal :=
  .next (s.command 0x0A06 h p)

/-- Returns Catalogue entries and optionally unpins entries up to a given accession (R450): `State.cmdLogRead`. -/
def execLogRead (h : CmdHeader) (p : Bytes) (s : State) : Host.Outcome State Fault Refusal :=
  .next (s.command 0x0A07 h p)

/-- Clears the selected counters and their sticky bits and logs their old values (R392): `State.cmdCtrClear`. -/
def execCtrClear (h : CmdHeader) (p : Bytes) (s : State) : Host.Outcome State Fault Refusal :=
  .next (s.command 0x0A08 h p)

/-- Sets the input power cap (R458): `State.cmdPowerCap`. -/
def execPowerCap (h : CmdHeader) (p : Bytes) (s : State) : Host.Outcome State Fault Refusal :=
  .next (s.command 0x0A09 h p)

/-- Writes its reply and a pinned entry, then starts a MODULE reset within 10 ms (R466): `State.cmdResetModule`. -/
def execResetModule (h : CmdHeader) (p : Bytes) (s : State) : Host.Outcome State Fault Refusal :=
  .next (s.command 0x0A0A h p)

/-- Staged test of the arrays and memories that resets the health rates on a pass (R398): `State.joinCmd`. -/
def execProbationTest (h : CmdHeader) (p : Bytes) (s : State) : Host.Outcome State Fault Refusal :=
  .next (s.command 0x0A0B h p)

end Sys2Proof.Machine
end

