-- ==== Sys2Proof/Machine/MemEvents.lean ====
section
/-! DEFINITION. What the Curator does by itself: zeroing, migration, spilling and returning pages, repair, row
retirement, scrub, self-refresh and copy-on-write (R220 to R241, R384, R403, R457). notes/assumptions/41.md says what the
model fixes. -/

namespace Sys2Proof.Machine

/-- `FRAME_ZEROED` (R221, R384): frames that waited for zeroing are free. -/
def execFrameZeroed (frames : Nat) (s : State) : Host.Outcome State Fault Refusal :=
  .next (s.modMem fun m => { m with zeroing := m.zeroing - frames })

/-- Whether a line of a granule is under repair. -/
def State.granuleUnderRepair (s : State) (g : Nat) : Bool := !(s.repairingIn (g * granuleBytes) granuleBytes).isEmpty

/-- `GRANULE_SWITCH_COMPLETE` (R223 to R225): the granule is served from its new place, once its lines have been read
(R234). A line under repair keeps it where it is (R243). A pin's copy is no promotion, and a granule that changes its slice
stays dirty. -/
def execGranuleSwitchComplete (granule : Nat) (s : State) : Host.Outcome State Fault Refusal :=
  let x := Map.getD s.memory.granules granule {}
  .next (match x.switchTo with
    | none => s
    | some none => (s.freeGranule granule).2.memoryReady
    | some (some a) =>
      let s1 := s.checkRead (granule * granuleBytes) granuleBytes
      if s1.granuleUnderRepair granule then s1
      else
        let s2 := if x.slice.isSome then s1.forgetErrors granule false else s1
        ((s2.modGranule granule fun x => { x with slice := some a, switchTo := none, dirty := x.dirty && x.slice.isSome }).count
          cPromotions 0 (b2n (x.pins.isEmpty && x.slice.isNone))).memoryReady)

/-! ### Spilling and returning (R220, R230) -/

/-- Where a page's bytes stand in its owner's spill buffer. -/
def State.spillAddress (s : State) (p : Page) : Nat :=
  match p.owner with
  | .ctx c => (s.ctx c).quota.spillBase + p.spillSlot * pageBytes
  | .pool => 0

/-- `PAGE_SPILL_COMPLETE` (R220): the bytes stand in the spill buffer, and the frame is released. The spill reads the page
(R234), and waits where a line of it comes under repair (R243). -/
def execPageSpillComplete (page : Nat) (s : State) : Host.Outcome State Fault Refusal :=
  .next (match Map.get? s.memory.pages page with
    | none => s
    | some p =>
      if p.state != .spilling then s
      else
        let s0 := s.checkRead (page * pageBytes) pageBytes
        if !(s0.repairingIn (page * pageBytes) pageBytes).isEmpty then s0
        else
          let s1 := (s0.busWrite (s0.spillAddress p) (s0.bytesAt (page * pageBytes) pageBytes)).emptyGranules page
          (s1.modMem fun m => { m with zeroing := m.zeroing + 1 }).modPage page fun q => { q with state := .spilled })

/-- Whether a range touches a page. -/
def meetsPage (page a n : Nat) : Bool := (unitsOf pageBytes a n).contains page

/-- Whether a command waits for a page to be returned (R230). -/
def State.awaitsPage (s : State) (page : Nat) (k : OutCmd) : Bool :=
  match k.work with
  | .copyIn dst len => meetsPage page dst len
  | .fill dst len _ => meetsPage page dst len
  | .copy src dst len dstHost => meetsPage page src len || (!dstHost && meetsPage page dst len)
  | .debug _ p => field p 0 1 = 1 && meetsPage page (field p 8 8) (field p 2 2)
  | _ => false

/-- Whether a restore waits for a page to be returned (R230, R407). -/
def MirrorJob.awaitsPage (j : MirrorJob) (page : Nat) : Bool :=
  !j.isDrain && j.ranges.any fun r => meetsPage page r.1 r.2

/-- The commands that a failed return ends, with `BAD_PACKET` (R230). -/
def State.failCommands (s : State) (page : Nat) : State :=
  let bad := Reply.of .badPacket
  let s1 := s.finishWhere (s.awaitsPage page) bad
  let s2 := if s1.twin.stream.any fun t => t.left.contains page then s1.abandonStream bad else s1
  (s2.twin.jobs.filter fun j => j.awaitsPage page).foldl (fun (s : State) j => s.endJob j.handle bad) s2

/-- The launches and the restoring context that a failed return ends or puts off (R230). -/
def State.failAdmission (s : State) (c : Nat) : State :=
  let ids := s.admitting.filter fun id => (s.launch? id).any fun l => l.ctx == c
  let s1 := ids.foldl (fun (s : State) id => s.dropLaunch id (Reply.of .badPacket)) s
  if (s1.ctx c).restoring then (s1.renameThreads c (moveThread c true)).modCtx c fun x => { x with restoring := false }
  else s1

/-- A page's return has failed: it stays `SPILLED`, its frame is released, and what needed it ends (R230). -/
def State.returnFailed (s : State) (page : Nat) (p : Page) : State :=
  let s1 := ((s.modMem fun m => { m with zeroing := m.zeroing + 1 }).modPage page fun q => { q with state := .spilled }).count
    cDmaReadErrors 0
  let hit := fun (k : Packet) => meetsPage page (locOf k.address) k.length
  let s2 := (s1.modFabric fun f => { f with waiting := f.waiting.filter fun w => !hit w.2.2 }).bar2Fail page
  let s3 := s2.failCommands page
  match p.owner with
  | .ctx c => s3.failAdmission c
  | .pool => s3

/-- `PAGE_RETURN_COMPLETE` (R230). -/
def execPageReturnComplete (page : Nat) (ok : Bool) (s : State) : Host.Outcome State Fault Refusal :=
  .next (match Map.get? s.memory.pages page with
    | none => s
    | some p =>
      if p.state != .returning then s
      else if ok then
        (((s.modPage page fun q => { q with state := .resident }).count cPagesReturned 0).placePins page).memoryReady
      else (s.returnFailed page p).memoryReady)

/-! ### Repair (R241) -/

/-- `REPAIR_HOST_READ_DONE` (R241, R242): the line is supplied, or the source has failed. -/
def execRepairHostReadDone (line : Nat) (data : BusData) (s : State) : Host.Outcome State Fault Refusal :=
  .next (if !((Map.get? s.memory.repairing line).any fun r => r.hostRead) then s
    else match data with
      | .error => (s.repairFailed line).memoryReady
      | .bytes b => (s.repairDone line b).memoryReady)

/-- `REPAIR_BUDGET_EXPIRY` (R241): a source still asked has failed by then. -/
def execRepairBudgetExpiry (line : Nat) (s : State) : Host.Outcome State Fault Refusal :=
  .next (match Map.get? s.memory.repairing line with
    | none => s
    | some r => if r.since + s.lodge.settings.repairBudgetUs * 1000 ≤ s.now then
        ((s.count cRepairSourceFails 0 (b2n (r.tag.isSome || r.hostRead))).loseLine line).memoryReady else s)

/-- Whether a line of an attic row is under repair (R236). -/
def State.rowUnderRepair (s : State) (row : Nat) : Bool :=
  (Map.keys s.memory.repairing).any fun l => s.rowOf (s.atticAddr (l * lineBytes)) = row

/-- `ROW_RETIREMENT_COMPLETE` (R236): the row's lines are read as they are copied, and are then served from relocation
slots. A line under repair is copied once it is repaired. What waited for the row goes on. -/
def execRowRetirementComplete (row cycles : Nat) (s : State) : Host.Outcome State Fault Refusal :=
  .next (if !s.memory.retiringRows.contains row then s
    else
      let s1 := (s.badLines fun x => s.rowOf (x * lineBytes) = row).foldl State.scrubLine s
      if s1.rowUnderRepair row then s1
      else
        let s2 := ((s1.modMem fun m =>
          { m with retiringRows := m.retiringRows.filter (· ≠ row), relocated := m.relocated ++ [row] }).count cRowsRetired
            0).count cRepairWait 0 cycles
        let ls := s2.threads.filterMap fun e => match e.2.wait with
          | some (.memory l) => if s2.rowOf (s2.atticAddr (l * lineBytes)) = row then some l else none
          | _ => none
        (ls.foldl State.wakeLine s2).memoryReady)

/-! ### Scrub and self-refresh (R235, R457) -/

/-- A whole pass of the patrol scrub (R235): of the attic, or of the cellar with the Pantry's entries in it. -/
def State.scrub (s : State) (cellar : Bool) : State :=
  let s1 := if cellar then
      s.stashes.foldl State.checkStash (((Map.keys s.memory.cellarErrors).map (· / 32)).eraseDups.foldl State.checkLine s)
    else (s.badLines fun _ => true).foldl State.scrubLine s
  (s1.modMem fun m => { m with scrubbing := m.scrubbing && cellar }).count cScrubPasses 0

/-- `SCRUB_PASS` (R235). -/
def execScrubPass (cellar : Bool) (s : State) : Host.Outcome State Fault Refusal :=
  .next (if s.chipOn then (s.scrub cellar).memoryReady else s)

/-- `SCRUB_WAKE` (R235): the stacks in self-refresh wake for the scrub. -/
def execScrubWake (s : State) : Host.Outcome State Fault Refusal :=
  .next (if s.memory.selfRefresh.isEmpty || !s.chipOn then s
    else s.modMem fun m => { m with selfRefresh := [], scrubbing := true })

/-- `ATTIC_SELF_REFRESH_ENTRY` (R457): the interleave spreads every granule over every stack (R228), so a stack has had no
access where no granule has. -/
def execAtticSelfRefreshEntry (stack : Nat) (s : State) : Host.Outcome State Fault Refusal :=
  let idle := s.lodge.settings.atticIdleUs ≠ 0 && s.memory.granules.all fun e => e.2.lastTouch + s.lodge.settings.atticIdleUs ≤ s.now / 1000
  .next (if s.memory.stacksServing.contains stack && !s.memory.selfRefresh.contains stack && idle then
    s.modMem fun m => { m with selfRefresh := m.selfRefresh ++ [stack], scrubbing := false }
  else s)

/-- `ATTIC_SELF_REFRESH_EXIT` (R457). The cycles that passes wait meanwhile are counted as they start (R27). -/
def execAtticSelfRefreshExit (stack _cycles : Nat) (s : State) : Host.Outcome State Fault Refusal :=
  .next (s.modMem fun m => { m with selfRefresh := m.selfRefresh.filter (· ≠ stack) })

/-! ### Copy on write (R403) -/

/-- `COW_COPY_COMPLETE` (R403, R413): the write that waited goes on. -/
def execCowCopyComplete (page cycles : Nat) (s : State) : Host.Outcome State Fault Refusal :=
  .next (if s.twin.stream.any fun t => t.copying.contains page then
    (s.modTwin fun w =>
      { w with stream := w.stream.map fun t => { t with copying := t.copying.filter (· ≠ page) } }).count cCowWait 0 cycles
  else s)

end Sys2Proof.Machine
end

