-- ==== Sys2Proof/Machine/Links.lean ====
section
/-! DEFINITION. The link layer: what happens at a Palex port (R246 to R266). -/

namespace Sys2Proof.Machine

/-! ### Training (R247, R250, R252) -/

/-- A port goes on to `ACTIVE` where it may; then the twin hears of it, and a `PORT` reset is over (R250, R375, R413). -/
def State.settlePort (s : State) (p : Nat) : State :=
  let s1 := s.tryActive p
  if (s1.port p).state == .active && (s.port p).state != .active then
    (if p = 0 then s1.twinUp else s1).portResetOver p
  else s1

/-- `SIGNAL_DETECTED` (R250). -/
def execSignalDetected (port lanes : Nat) (s : State) : Host.Outcome State Fault Refusal :=
  .next (if (s.port port).state == .down && 4 ≤ lanes then s.setPort port .training else s)

/-- `SIGNAL_LOST` (R250). -/
def execSignalLost (port : Nat) (s : State) : Host.Outcome State Fault Refusal :=
  .next (if (s.port port).state == .training then s.setPort port .down else s)

/-- `TRAINING_TIMEOUT` (R250, R252, R283). -/
def execTrainingTimeout (port : Nat) (s : State) : Host.Outcome State Fault Refusal :=
  let x := s.port port
  .next (if x.state == .training && x.lastChange + 50000000 ≤ s.now then
    (s.setPort port .down).modPort port fun x => { x with failCause := 4 }
  else s)

/-- `FLIT_LOCK` (R247, R250): the port takes its width and rate, and starts its keying. -/
def execFlitLock (port : Nat) (lanes : BitVec 16) (neighbourRate : Nat) (s : State) : Host.Outcome State Fault Refusal :=
  let x := s.port port
  .next (match lockedLanes lanes.toNat x.minWidth with
    | none => s
    | some (w, m) =>
      let s1 := s.modPort port fun x =>
        { x with width := w, laneMask := BitVec.ofNat 16 m, rate := s.trainingRate port neighbourRate }
      if x.state == .training then (s1.setPort port .keying).startKeying port
      else if x.state == .retraining then s1.startKeying port
      else s)

/-- `LOSS_OF_LOCK` (R250). -/
def execLossOfLock (port : Nat) (s : State) : Host.Outcome State Fault Refusal :=
  .next (if (s.port port).state == .active then s.leaveActive port .retraining false false else s)

/-- `REPLAY_LIMIT` (R250): 64 replays within 1 ms. -/
def execReplayLimit (port : Nat) (s : State) : Host.Outcome State Fault Refusal :=
  let x := s.port port
  .next (if x.state == .active && 64 ≤ (x.replayTimes.filter fun t => s.now < t + 1000000).length then
    s.leaveActive port .retraining false false
  else s)

/-- `RETRAIN_TIMEOUT` (R250). -/
def execRetrainTimeout (port : Nat) (s : State) : Host.Outcome State Fault Refusal :=
  let x := s.port port
  .next (if x.state == .retraining && x.lastChange + 500000 ≤ s.now then (s.fallToTraining port).portResetOver port else s)

/-- `AUTH_FAILURE_LIMIT` (R250): eight authentication failures within 1 ms. -/
def execAuthFailureLimit (port : Nat) (s : State) : Host.Outcome State Fault Refusal :=
  let x := s.port port
  .next (if x.state == .active && 8 ≤ (x.authTimes.filter fun t => s.now < t + 1000000).length then s.portFail port 3 else s)

/-! ### Keying (R265, R267) -/

/-- The nonces of an exchange in ascending device ID order (R265). -/
def orderNonces (own dev : Nat) (mine theirs : Bytes) : Bytes := if own < dev then mine ++ theirs else theirs ++ mine

/-- The keys of one direction of a link, from the device that sends (R265). -/
def State.directionKeys (s : State) (nonces : Bytes) (dev inc sender : Nat) : Bytes × Bytes :=
  let own := s.lodge.deviceId
  if own < dev then linkKeys nonces own s.lodge.incarnation dev inc sender
  else linkKeys nonces dev inc own s.lodge.incarnation sender

/-- A key confirmation that fails (R250, R265): only a port in `KEYING` fails for it. -/
def State.keyingFails (s : State) (p cause : Nat) : State :=
  if (s.port p).state == .keying then s.portFail p cause else s

/-- `KEY_CONFIRMATION` (R265, R267, R268, R415): the port sends its own tag; where both ends hold the same keys, `HELLO`
follows. -/
def execKeyConfirmation (port : Nat) (nonce : Bytes) (device incarnation neighbourPort : Nat) (tag : BitVec 128)
    (s : State) : Host.Outcome State Fault Refusal :=
  let x := s.port port
  let own := s.lodge.deviceId
  let nonces := orderNonces own device x.localNonce nonce
  let (rxKey, rxSalt) := s.directionKeys nonces device incarnation device
  let (txKey, txSalt) := s.directionKeys nonces device incarnation own
  .next (if !(x.state == .keying || x.state == .retraining) || x.localNonce.isEmpty || x.keyed
      || s.strongroom.state != .ready then s
    else if own = 0xFFFF || device = 0xFFFF then s.keyingFails port 2
    else if device = own then s.keyingFails port 5
    else if confirmTag rxKey rxSalt nonces ≠ tag then
      ((s.modPort port fun x => { x with confirmSent := some (confirmTag txKey txSalt nonces) }).count cKeyConfirmFails
        port).keyingFails port 1
    else
      let s1 := s.modPort port fun x =>
        { x with keyed := true, neighbourDevice := device, neighbourIncarnation := incarnation, neighbourPort := neighbourPort, txFrames := 0, rxFrames := 0, txKey := txKey
                 txSalt := txSalt, rxKey := rxKey, rxSalt := rxSalt
                 confirmSent := some (confirmTag txKey txSalt nonces) }
      s1.enqueue port { type := tHello, packet := s1.packet tHello device 0 (globalAddr device 0) 0 0 })

/-! ### Flits (R249, R254 to R256, R261) -/

/-- A flit has arrived: what the FEC corrected is counted, and a bad CRC discards it and asks for a resend (R255). -/
def State.flitArrives (s : State) (p : Nat) (f : Flit) : State :=
  let s1 := s.count cFecCorrected p (b2n f.fecCorrected)
  if f.crcGood then s1
  else (s1.modPort p fun x => { x with nakSent := true, ackDue := true }).count cFlitCrcErrors p

/-- Whether a flit is one that R254 describes: of the kind that it is taken for, with its reserved bits zero. Another is
discarded (DESIGN CHOICE, notes/assumptions/58.md). -/
def Flit.known (f : Flit) (kind : Nat) : Bool := f.kind = kind && f.low = 0

/-- Whether flits of a port mean anything: the link has keys. -/
def Port.linked (x : Port) : Bool := x.keyed && (x.state == .keying || x.state == .active || x.state == .retraining)

/-- `DATA_FLIT_RX` (R255): it is accepted in sequence, with its slots and its acknowledgement, or discarded. -/
def execDataFlitRx (port : Nat) (f : Flit) (s : State) : Host.Outcome State Fault Refusal :=
  let x := s.port port
  .next (if !x.linked then s
    else
      let s1 := s.flitArrives port f
      if f.crcGood && Flit.known f 0 && f.seq = (x.lastRx + 1) % 1024 then
        ((s1.modPort port fun x => { x with lastRx := f.seq, nakSent := false, ackDue := true
                                            rxSlots := x.rxSlots ++ padTo 240 f.slots }).count cFlitsRx port).takeAck port f
      else s1)

/-- Credits are returned (R261): no more than the neighbour's buffer holds. The cycles that a packet waited are counted
by channel. -/
def State.takeCredits (s : State) (p : Nat) (credits : List Nat) : State :=
  let x := s.port p
  let s1 := (List.range 8).foldl (fun (s : State) v =>
    if x.shortOf v && credits.getD v 0 ≠ 0 then s.endStall p v else s) s
  s1.modPort p fun y =>
    { y with credits := (List.range 8).map fun v => min (vcBuffer v) (y.credits.getD v 0 + credits.getD v 0) }

/-- `CONTROL_FLIT_RX` (R254, R261). -/
def execControlFlitRx (port : Nat) (f : Flit) (credits : List Nat) (s : State) : Host.Outcome State Fault Refusal :=
  .next (if !(s.port port).linked then s
    else
      let s1 := s.flitArrives port f
      if !(f.crcGood && Flit.known f 1) then s1
      else
        let s2 := s1.takeAck port f
        if (s.port port).state == .active then s2.takeCredits port credits else s2)

/-- A control flit: the acknowledgement that is due, and in its first slot the credits that are returned, 16 bits for each
virtual channel (R254, R261; the slot's layout is a DESIGN CHOICE, notes/assumptions/58.md). -/
def Port.controlFlit (x : Port) : Bytes :=
  flitBytes (x.flitHeader 1 0) ((List.range 8).flatMap fun v => le 2 (x.creditsDue.getD v 0))

/-- `ACK_TIMER` (R256, R261): a control flit carries the acknowledgement, and the credits of slots that are free again. -/
def execAckTimer (port : Nat) (s : State) : Host.Outcome State Fault Refusal :=
  .next (if (s.port port).linked && ((s.port port).ackDue || (s.port port).creditsDue.any (· ≠ 0)) then
    s.modPort port fun x => { x.sendFlits [x.controlFlit] with ackDue := false, creditsDue := List.replicate 8 0 }
  else s)

/-- `IDLE_FLIT_INSERT` (R249): the idle flit also carries an acknowledgement that is due. -/
def execIdleFlitInsert (port : Nat) (s : State) : Host.Outcome State Fault Refusal :=
  .next (if (s.port port).linked then s.modPort port fun x => { x with wire := [x.idleFlit], sinceIdle := 0, ackDue := false }
  else s)

/-! ### Frames (R264, R266) -/

/-- `FRAME_CLOSE` (R264). -/
def execFrameClose (port : Nat) (s : State) : Host.Outcome State Fault Refusal :=
  .next (if (s.port port).linked then s.closeFrame port else s)

/-- The tag that a received frame must carry (R264). -/
def State.rxTag (s : State) (p : Nat) (slots : Bytes) : BitVec 128 :=
  let x := s.port p
  let own := s.lodge.deviceId
  let dev := x.neighbourDevice
  frameTag x.rxKey x.rxSalt x.rxFrames (min own dev) (max own dev) slots

/-- Whether the accepted flits of a port hold a frame: its slots and its tag slot. The flits' slots after the tag are no
part of another frame (notes/assumptions/58.md). -/
def Port.holdsFrame (x : Port) (slots : Bytes) (tag : BitVec 128) : Bool :=
  let frame := slots ++ le 16 tag.toNat
  slots.length % 16 = 0 && x.rxSlots.take frame.length == frame

/-- A frame that has verified delivers its packets to the port's receive buffers (R264). -/
def Port.deliverFrame (x : Port) (slots : Bytes) : Port :=
  { x with rxFrames := x.rxFrames + 1
           rxSlots := x.rxSlots.drop (240 * ceilDiv (slots.length / 16 + 1) 15)
           rxStream := x.rxStream ++ padTo slots.length (Config.gcmCrypt x.rxKey (frameIv x.rxSalt x.rxFrames) slots) }

/-- A frame whose tag fails is discarded, with the flits that came after it: the last good flit is the one before it, and
all of them are asked for again (R255, R266). -/
def Port.discardFrame (x : Port) (now : Nat) : Port :=
  { x with authTimes := lastMs now x.authTimes, nakSent := true, ackDue := true, rxSlots := []
           lastRx := (x.lastRx + 1024 - x.rxSlots.length / 240 % 1024) % 1024 }

/-- `ENCRYPTION_FRAME_RX` (R264, R266): a frame whose tag verifies delivers its packets, each by its own command, and those
of unlisted types are dropped as violations (R276); one whose tag fails is discarded, and its flits are asked for again. -/
def execEncryptionFrameRx (port : Nat) (slots : Bytes) (tag : BitVec 128) (s : State) : Host.Outcome State Fault Refusal :=
  .next (if !(s.port port).linked || !(s.port port).holdsFrame slots tag then s
    else if s.rxTag port slots = tag then (s.modPort port fun x => x.deliverFrame slots).dropUnlisted port
    else (s.modPort port fun x => x.discardFrame s.now).count cGcmAuthFails port)

end Sys2Proof.Machine
end

