-- ==== Sys2Proof/Machine/Packets.lean ====
section
/-! DEFINITION. Control packets (R268, R270, R279) and the servo of device time (R451 to R455). What the model reads into
them is in notes/assumptions/12.md and notes/assumptions/42.md. -/

namespace Sys2Proof.Machine

/-! ### Incarnations and generations (R268, R270) -/

/-- A sender's incarnation is recorded, and what waited for it goes on (R268). A twin that has been reset has forgotten
its streams: its `INCOMING` entry is discarded, and the module's own stream is sent again (R403, R404). -/
def State.recordIncarnation (s : State) (dev inc : Nat) : State :=
  let old := Map.get? s.fabric.incarnations dev
  let s1 := s.modFabric fun f =>
    { f with incarnations := Map.put f.incarnations dev inc, helloed := f.helloed.filter (· ≠ dev) }
  if dev = s.twin.twinDevice && old.any (· ≠ inc) then
    (s1.freeHeld fun e => e.state == .incoming && e.ownerDevice = dev).streamResume
  else s1

/-- The neighbour at a port whose link is being made (R268, R283): a packet from it has passed no switch. -/
def State.recordNeighbour (s : State) (p : Nat) (k : Packet) : State :=
  if (s.port p).state != .active && k.hops = 0 then
    s.modPort p fun x => { x with neighbourDevice := k.srcDevice, neighbourIncarnation := k.srcIncarnation }
  else s

/-- A `HELLO` or `HELLO_RSP` of the twin over P0 is followed by the directory (R413). -/
def State.twinHello (s : State) (p dev : Nat) : State :=
  if p = 0 && dev = s.twin.twinDevice then s.twinUp else s

/-- `HELLO` (R268): the sender's incarnation is recorded, and the module answers with its own. -/
def execHello (port : Nat) (k : Packet) (s : State) : Host.Outcome State Fault Refusal :=
  .next (s.receive port tHello k fun s =>
    let s1 := (s.recordIncarnation k.srcDevice k.srcIncarnation).recordNeighbour port k
    let r := { s1.packet tHelloRsp k.srcDevice 0 (globalAddr k.srcDevice 0) 0 k.tag with dstIncarnation := k.srcIncarnation }
    let s2 := if (s1.port port).state == .active then s1.emit { type := tHelloRsp, packet := r }
      else s1.enqueue port { type := tHelloRsp, packet := r }
    s2.pump.twinHello port k.srcDevice)

/-- `TIME_SYNC` to the neighbour at a port (R279). -/
def State.sendTimeSync (s : State) (p : Nat) : State :=
  let d := (s.port p).neighbourDevice
  s.enqueue p { type := tTimeSync, packet := s.packet tTimeSync d 0 (globalAddr d 0) 0 0 }

/-- `HELLO_RSP` (R250, R268): what waited for it goes on; a port in `KEYING` exchanges time next. -/
def execHelloRsp (port : Nat) (k : Packet) (s : State) : Host.Outcome State Fault Refusal :=
  .next (s.receive port tHelloRsp k fun s =>
    let s1 := (s.recordIncarnation k.srcDevice k.srcIncarnation).recordNeighbour port k
    let s2 := if (s1.port port).state == .active then s1.twinHello port k.srcDevice
      else
        let s3 := s1.modPort port fun x => { x with helloDone := true }
        if (s3.port port).state == .keying then s3.sendTimeSync port else s3
    (s2.pump).settlePort port)

/-- `GEN_RETIRE` (R270): the last 1,024 retired pairs of each source are kept. -/
def execGenRetire (port : Nat) (k : Packet) (s : State) : Host.Outcome State Fault Refusal :=
  .next (s.receive port tGenRetire k fun s => s.modFabric fun f =>
    let kept := (k.ctxId, k.ctxGeneration) :: Map.getD f.retired k.srcDevice []
    { f with retired := Map.put f.retired k.srcDevice (kept.take 1024) })

/-! ### The servo (R451, R452, R454) -/

/-- What the count of exchanges says of a lock: it comes after 16 in a row within 10 ns, and goes after 16 in a row
above 40 ns. The offset is in units of 2⁻¹⁶ ns. -/
def lockStep (off : Int) (good bad : Nat) (locked : Bool) : Nat × Nat × Bool :=
  let g := if off.natAbs ≤ 655360 then good + 1 else 0
  let b := if 2621440 < off.natAbs then bad + 1 else 0
  (g, b, if locked then b < 16 else 16 ≤ g)

/-- The rate that removes a quarter of an offset over the next 1 ms, 25,000 cycles, within ±200 ppm of a cycle's
40 ns. -/
def servoRate (off : Int) : Int := max (-524) (min 524 (off.tdiv 100000))

/-- The `SYNC_STATE` that the locks give (R452). -/
def Lodge.syncNow (l : Lodge) : Nat :=
  if l.sourceBehind || l.settings.timeSource = 0 then 0
  else if l.ptpLocked && l.settings.timeSource ≠ 2 then 1
  else if l.locked && l.settings.timeSource ≠ 1 then 2
  else 0

/-- A lock is reported as it comes; a lock that is lost, only after 1 s (R452). -/
def State.reportSync (s : State) : State :=
  s.modLodge fun l =>
    if l.sourceBehind then { l with syncState := 0 }
    else if l.syncNow ≠ 0 then { l with syncState := l.syncNow, lastLocked := l.time16 / 65536 }
    else l

/-- The Catalogue entry of a change of device time (R448, R451). -/
def timeEntry : CatEntry := lodgeEntry 18 0

/-- The first exchange after time resumed finds its source ahead: one forward step joins it (R451). -/
def State.stepTime (s : State) (off : Int) : State :=
  let old := s.now
  let s1 := s.modLodge fun l => { l with time16 := l.time16 + off.toNat, everLocked := true }
  s1.catalogue { timeEntry with old := BitVec.ofNat 256 old, new := BitVec.ofNat 256 s1.now }

/-- An exchange with a source that steers: a step, slewing, or no following at all (R451, R454). -/
def State.steer (s : State) (off : Int) (ptp : Bool) : State :=
  if !s.lodge.everLocked && 0 < off then s.stepTime off
  else if off < -(10000000000 * 65536) then
    s.modLodge fun l => { l with sourceBehind := true, locked := false, ptpLocked := false, goodExchanges := 0, ptpGood := 0
                                 behindAt := if l.sourceBehind then l.behindAt else l.time16 / 65536 }
  else s.modLodge fun l =>
    let (g, b, k) := if ptp then lockStep off l.ptpGood l.ptpBad l.ptpLocked
      else lockStep off l.goodExchanges l.badExchanges l.locked
    let l1 := { l with sourceBehind := false, rate16 := servoRate off, everLocked := true }
    if ptp then { l1 with ptpGood := g, ptpBad := b, ptpLocked := k }
    else { l1 with goodExchanges := g, badExchanges := b, locked := k }

/-- An exchange is measured. Under `TIME_SOURCE` 3 the servo follows PTP while it is locked to it, or has no lock over
Palex (R452). -/
def State.measured (s : State) (off : Int) (ptp : Bool) : State :=
  let l := s.lodge
  let follows := match l.settings.timeSource with
    | 0 => false
    | 1 => ptp
    | 2 => !ptp
    | _ => if ptp then l.ptpLocked || !l.locked else !l.ptpLocked
  let s1 := if follows then s.steer off ptp
    else s.modLodge fun l =>
      let (g, b, k) := if ptp then lockStep off l.ptpGood l.ptpBad l.ptpLocked
        else lockStep off l.goodExchanges l.badExchanges l.locked
      if ptp then { l with ptpGood := g, ptpBad := b, ptpLocked := k }
      else { l with goodExchanges := g, badExchanges := b, locked := k }
  s1.reportSync

/-- The port over which the module follows its parent (R454). -/
def State.parentPort (s : State) : Option Nat := s.lodge.settings.timeParents.find? fun p => (s.port p).state == .active

/-- Without an `ACTIVE` parent port there is no lock over Palex (R454). -/
def State.checkParents (s : State) : State :=
  if s.parentPort.isNone then s.modLodge fun l => { l with locked := false, goodExchanges := 0 } else s

/-! ### Time exchange (R279) -/

/-- `TIME_SYNC` (R279): the answer leaves by the port it came by, and is stamped with t3 as it leaves. -/
def execTimeSync (port : Nat) (k : Packet) (s : State) : Host.Outcome State Fault Refusal :=
  .next (s.receive port tTimeSync k fun s =>
    let pay := le 8 s.lodge.time16 ++ zeros 8 ++ le 8 k.operand.toNat ++ zeros 8
    s.enqueue port { type := tTimeRsp
                     packet := s.packet tTimeRsp k.srcDevice 0 (globalAddr k.srcDevice 0) 32 k.tag 0 pay })

/-- A difference of two times modulo 2⁶⁴, as a signed number. -/
def timeDiff (a b : Nat) : Int := (BitVec.ofNat 64 a - BitVec.ofNat 64 b).toInt

/-- The link delay and offset that an exchange gives, in units of 2⁻¹⁶ ns (R279). -/
def exchange (t1 t2 t3 t4 cf cr : Nat) : Int × Int :=
  let df := timeDiff t2 t1 - cf
  let dr := timeDiff t4 t3 - cr
  ((df + dr) / 2, (df - dr) / 2)

/-- `TIME_RSP` (R250, R279, R454). -/
def execTimeRsp (port : Nat) (k : Packet) (s : State) : Host.Outcome State Fault Refusal :=
  .next (s.receive port tTimeRsp k fun s =>
    let (delay, off) := exchange (s.port port).syncSent (field k.payload 0 8) (field k.payload 8 8) s.lodge.time16
      (field k.payload 16 8) k.operand.toNat
    let s1 := s.modPort port fun x => { x with lastDelay := delay, lastOffset := off, syncDone := true }
    (if s1.parentPort = some port then s1.measured off false else s1).settlePort port)

/-- `TIME_SYNC_TIMER` (R279). -/
def execTimeSyncTimer (s : State) : Host.Outcome State Fault Refusal :=
  .next ((s.portsWhere fun x => x.state == .active).foldl State.sendTimeSync s).checkParents

/-! ### Time (R451 to R453) -/

/-- `TIME_SAVE` (R451). -/
def execTimeSave (s : State) : Host.Outcome State Fault Refusal :=
  .next (if s.lodge.phase == .off then s else s.modLodge fun l => { l with timeSaved := l.time16 / 65536 })

/-- `SYNC_LOSS` (R452): after 1 s without a lock the last rate is held, and `SYNC_STATE` is 0. -/
def execSyncLoss (s : State) : Host.Outcome State Fault Refusal :=
  let s1 := s.checkParents
  .next (if s1.lodge.syncNow = 0 && s1.lodge.lastLocked + 1000000000 ≤ s1.now then
    s1.modLodge fun l => { l with syncState := 0 }
  else s1)

/-- `PTP_MESSAGE` (R452, R453): the offset of the master's time, in units of 2⁻¹⁶ ns, that the exchange of IEEE 1588
messages gives. -/
def execPtpMessage (offset : Int) (s : State) : Host.Outcome State Fault Refusal :=
  .next (if s.lodge.phase == .off then s else s.measured offset true)

/-- `SOURCE_BEHIND_ENTRY` (R451): an entry each minute while the source lags by more than 10 s. -/
def execSourceBehindEntry (s : State) : Host.Outcome State Fault Refusal :=
  .next (if s.lodge.sourceBehind && s.lodge.behindAt ≤ s.now then
    (s.catalogue timeEntry).modLodge fun l => { l with behindAt := s.now + 60000000000 }
  else s)

end Sys2Proof.Machine
end

