-- ==== Sys2Proof/Machine/CollPackets.lean ====
section
/-! DEFINITION. Packets of collectives as the Collective Engine receives them (R298, R302, R305 to R308, R316, R317). What
the model reads into them is in notes/assumptions/26.md. -/

namespace Sys2Proof.Machine

/-- A packet that no collective takes any more (R302, R308). -/
def State.lateColl (s : State) : State := s.count cCollLateDrops 0

/-- The group that a header names, where its context lives. -/
def State.headerGroup (s : State) (h : CollHdr) : Option CollGroup :=
  let st := (s.ctx h.dstCtx).state
  if st == .active || st == .suspending || st == .suspended then s.group? h.dstCtx h.group else none

/-- Whether a header names the sender and this module as members (R308). -/
def State.memberOk (s : State) (g : CollGroup) (k : Packet) (h : CollHdr) : Bool :=
  g.members[h.src]? == some (k.srcDevice, k.ctxId) && g.members[h.dst]? == some (s.lodge.deviceId, h.dstCtx)

/-- A `COLL` packet of a sub-operation that has arrived, other than a `PROBE`: the checks of R308, steps 1 to 3. -/
def State.collArrives (s : State) (p sub : Nat) (k : Packet) (go : Packet → CollHdr → State → State) : State :=
  if k.operation ≠ sub then s
  else s.receive p tColl k fun s =>
    let h := CollHdr.parse k.payload
    if k.payload.length < 48 then s.violation 1 p
    else match s.headerGroup h with
      | none => s.lateColl
      | some g =>
        if !s.memberOk g k h then s.violation 4 h.dstCtx
        else if sub ≠ subProbeRsp && h.epoch ≠ g.epoch then s.lateColl
        else go k h s

/-- A packet belongs to the collective of its key (R308): one that has ended drops it, and one that has not started
keeps what may come before it (R307). -/
def State.matchColl (s : State) (k : Packet) (h : CollHdr) : State :=
  let keeps := k.operation = subReady || k.operation = subArrive || k.operation = subFlag
  let same := fun (x : Packet) => x.operation = k.operation && CollHdr.parse x.payload == h && x.srcDevice = k.srcDevice
  let keep := fun (s : State) =>
    if !keeps then s.lateColl
    else if s.coll.early.any same then s
    else s.modCe fun e => { e with early := e.early ++ [k] }
  match s.collOf h with
  | none => keep s
  | some id => match (s.coll? id).map (·.stage) with
    | some 0 => keep s
    | some 1 => (s.collNote id k).collStep id
    | _ => s.lateColl

/-- `COLL_DATA` (R307). -/
def execCollData (port : Nat) (k : Packet) (s : State) : Host.Outcome State Fault Refusal :=
  .next (s.collArrives port subData k fun k h s => s.matchColl k h)

/-- `COLL_RESULT` (R307). -/
def execCollResult (port : Nat) (k : Packet) (s : State) : Host.Outcome State Fault Refusal :=
  .next (s.collArrives port subResult k fun k h s => s.matchColl k h)

/-- `PIECE_ACK` (R299, R307). -/
def execPieceAck (port : Nat) (k : Packet) (s : State) : Host.Outcome State Fault Refusal :=
  .next (s.collArrives port subPieceAck k fun k h s => s.matchColl k h)

/-- `READY` (R307). -/
def execReady (port : Nat) (k : Packet) (s : State) : Host.Outcome State Fault Refusal :=
  .next (s.collArrives port subReady k fun k h s => s.matchColl k h)

/-- `ARRIVE` (R307). -/
def execArrive (port : Nat) (k : Packet) (s : State) : Host.Outcome State Fault Refusal :=
  .next (s.collArrives port subArrive k fun k h s => s.matchColl k h)

/-- `FLAG` (R304, R307). -/
def execFlag (port : Nat) (k : Packet) (s : State) : Host.Outcome State Fault Refusal :=
  .next (s.collArrives port subFlag k fun k h s => s.matchColl k h).versionsReady

/-! ### Probes (R302, R308) -/

/-- The `OPERAND` of a probe's answer: the epoch held, the collective's state, whether the context is suspended, and the
member that a collective ended by a condition names. -/
def State.probeAnswer (s : State) (g : CollGroup) (h : CollHdr) : Nat :=
  let c := (s.collOf h).bind s.coll?
  let stage := (c.map (·.stage)).getD 0
  g.epoch + 2 ^ 32 * stage + 2 ^ 40 * b2n ((s.ctx h.dstCtx).state != .active)
    + 2 ^ 48 * (if stage = 3 then (c.map (·.failLogical)).getD 0xFFFF else 0xFFFF)

/-- `PROBE` (R308, R382): answered at once, unless the context is `DRAINING`. -/
def execProbe (port : Nat) (k : Packet) (s : State) : Host.Outcome State Fault Refusal :=
  .next (if k.operation ≠ subProbe then s else s.receive port tColl k fun s =>
    let h := CollHdr.parse k.payload
    if k.payload.length < 48 then s.violation 1 port
    else if (s.ctx h.dstCtx).state == .draining then s.lateColl
    else match s.headerGroup h with
      | none => s.collReply k subProbeRsp (2 ^ 48 * 0xFFFF)
      | some g =>
        if !s.memberOk g k h then s.violation 4 h.dstCtx
        else s.collReply k subProbeRsp (s.probeAnswer g h))

/-- A member has answered a probe (R290, R308). -/
def State.probed (s : State) (id j operand : Nat) : State :=
  match s.coll? id with
  | none => s
  | some c => match s.group? c.ctx c.group with
    | none => s
    | some g =>
      let s1 := s.modColl id fun c => { c with probed := Map.put c.probed j s.now }
      if c.stage ≠ 1 then s
      else if c.epoch < operand % 2 ^ 32 then
        ((s1.count cCollEpochMismatch 0).count cCollPeerTimeouts 0).collFail id .peerTimeout j
      else if operand / 2 ^ 32 % 256 = 3 && (s.awaited c g).contains j then s1.collLost id (operand / 2 ^ 48)
      else s1

/-- `PROBE_RSP` (R302, R308): an answer belongs to the probe of its tag, whose epoch and `MATCH` it carries. -/
def execProbeRsp (port : Nat) (k : Packet) (s : State) : Host.Outcome State Fault Refusal :=
  .next (s.collArrives port subProbeRsp k fun k h s =>
    match (Map.get? s.fabric.requests k.tag).map (·.unit) with
    | some (ReqUnit.probe id j) => match s.coll? id with
      | none => s.lateColl
      | some c =>
        if c.epoch ≠ h.epoch || c.matchKey ≠ h.matchKey || c.kind ≠ h.kind || j ≠ h.src then s.lateColl
        else (s.endRequest k.tag (.ok k.operand [])).probed id j k.operand.toNat
    | _ => s.lateColl)

/-- A context's `PROBE_INTERVAL` in ns: the smaller of 100 µs and a quarter of its fabric timeout (R302). -/
def State.probeEvery (s : State) (c : Nat) : Nat := min 100000 (s.timeoutOf c * 250)

/-- `PROBE_INTERVAL` (R302): the members still awaited are probed again. A suspended context sends nothing (R300). -/
def execProbeInterval (coll : Nat) (s : State) : Host.Outcome State Fault Refusal :=
  .next (match s.coll? coll with
    | none => s
    | some c => match s.group? c.ctx c.group with
      | none => s
      | some g =>
        if c.stage ≠ 1 || (s.ctx c.ctx).state != .active then s
        else (s.awaited c g ++ s.unacked c).eraseDups.foldl (fun (s : State) j =>
          if Map.getD c.probed j 0 + s.probeEvery c.ctx ≤ s.now then s.probe coll j else s) s)

/-! ### First-writer-wins slots (R315 to R317) -/

/-- `FWW_CLAIM` (R316): the slot's state decides, whether or not this member takes part. -/
def execFwwClaim (port : Nat) (k : Packet) (s : State) : Host.Outcome State Fault Refusal :=
  .next (s.collArrives port subClaim k fun k _ s => s.serveFww port k)

/-- `FWW_DATA` (R316, R317). -/
def execFwwData (port : Nat) (k : Packet) (s : State) : Host.Outcome State Fault Refusal :=
  .next (s.collArrives port subFwwData k fun k _ s => s.serveFww port k)

/-- `FWW_CLAIM_RSP` (R316): the answer belongs to the claim of its tag. -/
def execFwwClaimRsp (port : Nat) (k : Packet) (s : State) : Host.Outcome State Fault Refusal :=
  .next (s.collArrives port subClaimRsp k fun k _ s =>
    match (Map.get? s.fabric.requests k.tag).map (·.unit) with
    | some (ReqUnit.claim id) =>
      let v := k.operand.toNat
      ((s.endRequest k.tag (.ok k.operand [])).claimed id (v % 65536) (bitOf v 16) (v / 2 ^ 32)).collStep id
    | _ => s.lateColl)

/-- `FWW_DATA_ACK` (R317): data dropped as late means that the put has lost. -/
def execFwwDataAck (port : Nat) (k : Packet) (s : State) : Host.Outcome State Fault Refusal :=
  .next (s.collArrives port subFwwAck k fun k h s =>
    match s.collOf h with
    | none => s.lateColl
    | some id =>
      if !(s.coll? id).any fun c => c.stage = 1 && c.op = opFwwPut then s.lateColl
      else (s.modColl id fun c =>
        { c with acked := Map.put c.acked h.src (Map.getD c.acked h.src 0 + 1)
                 lost := c.lost || !bitOf k.operand.toNat 16 }).collStep id)

/-- `FWW_CLAIM_EXPIRY` (R317). -/
def execFwwClaimExpiry (addr : Nat) (s : State) : Host.Outcome State Fault Refusal :=
  .next (match Map.get? s.coll.claims addr with
    | none => s
    | some c =>
      if c.since + 2 * s.timeoutOf c.ctx * 1000 ≤ s.now then (s.releaseSlot addr).count cFwwClaimsExpired 0 else s)

end Sys2Proof.Machine
end

