-- ==== Sys2Proof/Machine/TwinPackets.lean ====
section
/-! DEFINITION. Packets of the Party Wall (R399 to R405, R408 to R410, R413): pairing, the holder's side of a checkpoint
stream, reads of the mirror, and the directories that two modules of a pair keep alike. What the model reads into them
is in notes/assumptions/29.md. -/

namespace Sys2Proof.Machine

/-- Whether a module may send twin packets here: the twin or the adoption partner (R413), and with an offer or its
withdrawal also the neighbour at P0. -/
def State.twinMay (s : State) (sub dev : Nat) : Bool :=
  s.variant.partyWall && ((s.twin.state != .single && dev = s.twin.twinDevice)
    || ((sub = 1 || sub = 2) && s.twin.state == .single && s.linkedTo dev))

/-- A twin packet of a sub-operation that has arrived (R413). -/
def State.twinPacket (s : State) (p sub : Nat) (k : Packet) (go : Packet → State → State) : State :=
  if k.operation ≠ sub then s
  else s.receive p tTwin k fun s =>
    if k.ctxId = 0 && s.twinMay sub k.srcDevice then go k s else s.violation 1 p

/-! ### Pairing (R399, R409) -/

/-- `PAIR_OFFER`: a module that waits for it is paired; the survivor of an adoption has issued `PAIR` (R399, R409). -/
def execPairOffer (port : Nat) (k : Packet) (s : State) : Host.Outcome State Fault Refusal :=
  .next (s.twinPacket port 1 k fun k s =>
    match s.twin.state with
    | .single => (s.modTwin fun w => { w with received := some (k.srcDevice, field k.payload 0 2) }).tryPair
    | .adopting => if s.twin.adoptRole = 2 then (s.modTwin fun w => { w with survivorCopied := true }).settleAdoption else s
    | .paired => s)

/-- `UNPAIR`: the module follows (R399). -/
def execUnpair (port : Nat) (k : Packet) (s : State) : Host.Outcome State Fault Refusal :=
  .next (s.twinPacket port 2 k fun _ s =>
    if s.twin.state == .single then s.modTwin fun w => { w with received := none } else s.unpair)

/-- The pair's grace is over: P0 has not been `ACTIVE` to the twin or partner for `TWIN_GRACE` (R399, R410). -/
def execTwinGraceExpiry (s : State) : Host.Outcome State Fault Refusal :=
  .next (if s.twin.state != .single && s.stewardRunning && !s.linkedTo s.twin.twinDevice
      && (s.port 0).leftActive + s.lodge.settings.twinGraceS * 1000000000 ≤ s.now then s.unpair else s)

/-! ### The holder's side of a stream (R401 to R404) -/

/-- The entry that a sender's stream fills. -/
def MirrorEntry.fills (e : MirrorEntry) (dev : Nat) (ckpt : Word) : Bool :=
  e.state == .incoming && e.ownerDevice = dev && e.ckptId == ckpt

/-- The holder's `INCOMING` entry for a stream: it is made by the stream's first data, in place of one that the sender
has given up (R401). -/
def State.openIncoming (s : State) (dev : Nat) (ckpt : Word) (off : Nat) : State :=
  if s.twin.held.any fun e => e.fills dev ckpt then s
  else
    let s1 := s.freeHeld fun e => e.state == .incoming
    let entry : MirrorEntry := { ownerDevice := dev, state := .incoming, ckptId := ckpt, offset := off, beginTime := s.now }
    s1.modTwin fun w => { w with held := twoEntries ((liveEntries w.held).take 1 ++ [entry]) }

/-- Whether the mirror takes data of a stream: its frames are reserved, the data lies in them, and the entry has not
been lost (R216, R401). -/
def State.mirrorTakes (s : State) (dev : Nat) (ckpt : Word) (off n : Nat) : Bool :=
  s.memory.mirrorTaken && off + n ≤ s.twin.mirrorBytes
    && !(s.twin.held.any fun e => e.state == .lost && e.ownerDevice = dev && e.ckptId == ckpt)

/-- `SNAP_DATA`: the data lies at its offset, and a whole page is acknowledged (R403, R404). -/
def execSnapData (port : Nat) (k : Packet) (s : State) : Host.Outcome State Fault Refusal :=
  .next (s.twinPacket port 3 k fun k s =>
    let off := locOf k.address
    let over_ := off + k.payload.length
    if !s.mirrorTakes k.srcDevice k.operand off k.payload.length then s
    else
      let s1 := (s.openIncoming k.srcDevice k.operand off).modTwin fun w =>
        { w with mirror := cellsWrite w.mirror off k.payload
                 held := w.held.map fun e => if e.fills k.srcDevice k.operand then
                   { e with bytes := max e.bytes (over_ - e.offset) } else e }
      let s2 := s1.count cMirrorBytesRx 0 k.payload.length
      if over_ % pageBytes = 0 then s2.twinSend 4 k.operand [] over_ else s2)

/-- `SNAP_ACK` (R404). -/
def execSnapAck (port : Nat) (k : Packet) (s : State) : Host.Outcome State Fault Refusal :=
  .next (s.twinPacket port 4 k fun k s => s.streamAck k.operand (locOf k.address))

/-- `INCOMING` becomes `CURRENT` with the fields of its entry (R401, R413); a snapshot of the survivor in the spare is
one of the conditions of R409. -/
def State.commitIncoming (s : State) (dev : Nat) (e : MirrorEntry) : State :=
  let s1 := s.freeHeld fun x => !x.fills dev e.ckptId
  let s2 := s1.modTwin fun w =>
    { w with held := twoEntries [{ e with ownerDevice := dev, state := .current }]
             survivorCopied := w.survivorCopied || (w.state == .adopting && w.adoptRole = 2) }
  s2.settleAdoption

/-- `SNAP_COMMIT` (R401, R402): one that is sent again is acknowledged again. -/
def execSnapCommit (port : Nat) (k : Packet) (s : State) : Host.Outcome State Fault Refusal :=
  .next (s.twinPacket port 5 k fun k s =>
    let e := (MirrorEntry.parse k.payload).1
    let again := s.twin.held.any fun x => x.state == .current && x.ownerDevice = k.srcDevice && x.ckptId == k.operand
      && x.beginTime = e.beginTime
    if s.twin.held.any fun x => x.fills k.srcDevice k.operand then
      (s.commitIncoming k.srcDevice { e with ckptId := k.operand }).twinSend 4 k.operand [] (locOf k.address)
    else if again then s.twinSend 4 k.operand [] (locOf k.address)
    else s)

/-! ### Reads of the mirror (R241, R401, R405, R407) -/

/-- The loan of an entry that keeps its bytes from a device: one whose set leaves the device out, or one that is not present
here, unless the entry's own owner asks (R242, R427; notes/assumptions/29.md). -/
def State.entryLoan (s : State) (e : MirrorEntry) (dev : Nat) : Option Word :=
  e.loans.find? fun id => match s.loan? id with
    | some l => !l.devices.contains dev
    | none => e.ownerDevice ≠ dev

/-- `MIRROR_READ`: only a `CURRENT` entry is read; the rest is refused (R401), and so is a module outside the set of a loan of
the entry (R242, R427). The answer reaches to the next 4 KiB boundary or to the entry's end (notes/assumptions/29.md). -/
def execMirrorRead (port : Nat) (k : Packet) (s0 : State) : Host.Outcome State Fault Refusal :=
  .next (s0.twinPacket port 6 k fun k s1 =>
    let a := locOf k.address
    let hit := s1.twin.held.find? fun e => e.state == .current && e.offset ≤ a && a < e.offset + e.bytes
    let n := (hit.map fun e => min (4096 - a % 4096) (e.offset + e.bytes - a)).getD 0
    let loan := hit.bind fun e => s1.entryLoan e k.srcDevice
    let ok := hit.isSome && loan.isNone
    let s := match loan with
      | some id => s1.countSuppressed id n
      | none => s1
    let data := if ok then cellsRead s.twin.mirror a n else []
    let r : Packet := { s.packet tTwin k.srcDevice 0 (globalAddr k.srcDevice a) data.length k.tag k.operand data 7 (b2n !ok) with
                        dstIncarnation := k.srcIncarnation }
    s.emit { type := tTwin, packet := r })

/-- `MIRROR_DATA`: a drain, restore or repair has its data or refusal (R241, R405, R407). -/
def execMirrorData (port : Nat) (k : Packet) (s : State) : Host.Outcome State Fault Refusal :=
  .next (s.twinPacket port 7 k fun k s => s.answer port tTwin k)

/-! ### Directories (R399 to R401, R408 to R411) -/

/-- What the twin says of the entries it has here: it knows whether they are drained and restored, and one that it has
given up or discarded is freed. -/
def State.syncHeld (s : State) (dev : Nat) (theirs : List MirrorEntry) (gone : Word) : State :=
  let told := fun (e : MirrorEntry) => theirs.find? fun o => o.ckptId == e.ckptId
  let s1 := s.freeHeld fun e => e.ownerDevice = dev && (told e).isNone && (e.state == .incoming || e.ckptId == gone)
  let upd := fun (e : MirrorEntry) => if e.ownerDevice = dev && e.state != .empty then
      match told e with
      | some o => { e with drained := o.drained, adopted := o.adopted }
      | none => e
    else e
  s1.modTwin fun w => { w with held := w.held.map upd }

/-- This module's entries as the twin holds them: what it has lost is lost, and what it no longer holds is gone. -/
def State.syncOwn (s : State) (theirs : List MirrorEntry) : State :=
  let mine := theirs.filter fun e => e.ownerDevice = s.lodge.deviceId && e.state != .empty
  let known := s.twin.own.filterMap fun e =>
    if e.state == .empty then none
    else match mine.find? fun x => x.ckptId == e.ckptId with
      | some x => some (if x.state == .lost then { e with state := .lost } else e)
      | none => if e.state == .incoming then some e else none
  let fresh := mine.filter fun x => x.state != .incoming && !(s.twin.own.any fun e => e.state != .empty && e.ckptId == x.ckptId)
  s.modTwin fun w => { w with own := twoEntries (fresh ++ known) }

/-- The twin has lost entries of this module: what used them ends (R401, R405, R407), and a spare that waited for them
ends its adoption (R410). -/
def State.mirrorLost (s : State) : State :=
  let lost := s.twin.own.filter fun e => e.state == .lost
  let s1 := if s.twin.stream.any fun t => t.toMirror && lost.any fun e => e.ckptId == t.ckptId then
      s.abandonStream (Reply.of .twinCopyLost) else s
  if s1.twin.state == .adopting && s1.twin.adoptRole = 2 && lost.any (·.adopted) then s1.unpair
  else (s1.twin.jobs.filter fun j => lost.any fun e => e.ckptId == j.ckptId).foldl
    (fun (s : State) j => (s.count cTwinCopiesLost 0).endJob j.handle s.copyLost) s1

/-- `DIR_SYNC` (R401, R411, R413): both modules' directories agree again. A survivor whose partner does not know the
entries it adopts sends them again (R408), and a discarded entry is answered with the directory. -/
def execDirSync (port : Nat) (k : Packet) (s : State) : Host.Outcome State Fault Refusal :=
  .next (s.twinPacket port 8 k fun k s =>
    let b := k.payload
    let all := parseEntries (min 2 (field b 0 4) + min 2 (field b 4 3)) (b.drop 24)
    let theirs := all.take (min 2 (field b 0 4))
    let ours := all.drop (min 2 (field b 0 4))
    let unknown := s.twin.state == .adopting && s.twin.adoptRole = 1 && (liveEntries s.twin.held).any fun e =>
      e.adopted && e.ckptId ≠ k.operand && !(ours.any fun o => o.ckptId == e.ckptId)
    let s1 := s.modTwin fun w => { w with peerDrained := (BitVec.ofNat 64 (field b 8 8), field b 16 8), peerReady := field b 7 1 = 1 }
    let s2 := ((s1.syncHeld k.srcDevice ours k.operand).syncOwn theirs).mirrorLost
    let s3 := if !unknown then s2 else if s2.twin.survivorCopied then s2.sendAdopt.twinSend 1 0 (le 2 s2.twin.mirrorGib)
      else s2.sendAdopt
    (if k.operand = 0 then s3 else s3.dirSync).settleAdoption)

/-- `ADOPT` (R408): the spare has the entries that the survivor holds for it, and the former module's last drained
image. -/
def execAdopt (port : Nat) (k : Packet) (s : State) : Host.Outcome State Fault Refusal :=
  .next (s.twinPacket port 9 k fun k s =>
    if s.twin.state != .adopting || s.twin.adoptRole ≠ 2 then s
    else
      let b := k.payload
      let es := (parseEntries (min 2 (field b 0 4)) (b.drop 24)).filter fun e =>
        !(s.twin.own.any fun x => x.state != .empty && x.ckptId == e.ckptId)
      s.modTwin fun w =>
        { w with own := twoEntries (liveEntries w.own ++ es), lastDrainedId := BitVec.ofNat 64 (field b 8 8)
                 lastDrainedStep := field b 16 8 })

end Sys2Proof.Machine
end

