-- ==== Sys2Proof/Machine/Bringup.lean ====
section
/-! DEFINITION. Bring-up (R415, R444, R461 to R463, R473), the 48 V input (R458, R475, R476), and thermal and leak
protection (R459, R478). What the model reads into them is in notes/assumptions/43.md. -/

namespace Sys2Proof.Machine

/-! ### The steps of bring-up -/

/-- `POWER_GOOD` (R451, R461, R473, R475): the always-on domain starts. After a loss of input the Lodge records it, and
the module stays down while its moisture sensor is wet (R478). -/
def execPowerGood (s : State) : Host.Outcome State Fault Refusal :=
  .next (if s.lodge.phase != .off || s.lodge.inputShort then s
    else
      let (dry, s1) := s.sensorDry
      let s2 := s1.wakeUp
      let s3 := if !s2.lodge.inputLost then s2
        else
          let s3 := s2.modLodge fun l => { l with inputLost := false, incarnation := nextIncarnation l.incarnation }
          (s3.resetTxns s3.commitNext).catalogue (lodgeEntry 17 0)
      if dry then s3 else s3.modLodge fun l => { l with phase := .shutdown })

/-- `KEY_RECONSTRUCTION` (R415): the Strongroom has its keys, or has failed. -/
def execKeyReconstruction (ok : Bool) (s : State) : Host.Outcome State Fault Refusal :=
  .next (if s.lodge.phase != .keys then s
    else
      let s1 := s.modLodge fun l => { l with phase := .firmware }
      if ok then s1.modSr fun r => { r with state := .ready }
      else (s1.modSr fun r => { r with state := .failed }).raise 7 3 (unitEntry 11 16 0))

/-- The Lodge applies the stored configuration as a transaction (R390, R461, R463). -/
def State.applyStored (s : State) : State :=
  if !s.lodge.cfgValid then s
  else
    let id := BitVec.ofNat 64 (2 ^ 63 + s.lodge.nextAccession)
    let s1 := s.catalogue { lodgeEntry 15 id.toNat with txn := id }
    let s2 := s1.moveTxn (lodgeEntry 15 0) { id := id, kind := 1, origin := 5 } .committed
    s2.modLodge fun l => { l with deviceId := l.settings.deviceId.getD 0xFFFF }

/-- Every fitted port is enabled (R250). -/
def State.enablePorts (s : State) : State :=
  (List.range s.variant.ports).foldl (fun (s : State) p =>
    let s1 := if (s.port p).state == .disabled then s.setPort p .down else s
    s1.modPort p fun x => { x with leftActive := s.now }) s

/-- Verified firmware starts: the Steward runs, and the configuration is applied (R444, R458, R461). -/
def State.startSteward (s : State) : State :=
  let s1 := ({ s with stewardRunning := true } : State).modHost fun h => { h with beatTime := s.now }
  let s2 := if s.chipResetting then s1 else s1.modLodge fun l => { l with powerCap := l.settings.powerCapDefault }
  (s2.applyStored.enablePorts).modLodge fun l => { l with phase := .checking }

/-- Neither slot holds firmware that verifies: the ROM recovery service runs (R444). -/
def State.recover (s : State) : State :=
  let s1 := s.modLodge fun l => { l with phase := .recovery }
  if s1.host.resetBusy then s1.resetDone else s1

/-- `FIRMWARE_VERIFIED` (R321, R444): the active slot boots, or the other one, or none. A conventional reset lasts until
`PERST#` is released. -/
def execFirmwareVerified (slot0 slot1 : Bool) (s : State) : Host.Outcome State Fault Refusal :=
  let a := s.lodge.activeSlot
  let ok := fun (i : Nat) => if i = 0 then slot0 else slot1
  let waits := s.host.perst && s.host.resetBusy && s.host.resetDomain = 4 && s.host.resetOrigin = 2
  .next (if s.lodge.phase != .firmware || waits then s
    else if ok a then s.startSteward
    else if ok (1 - a) then
      ((s.modLodge fun l => { l with activeSlot := 1 - a }).startSteward).raise 7 3 { lodgeEntry 8 (1 - a) with pinned := true }
    else s.recover)

/-- An array has been checked (R463). -/
def State.checkArray (s : State) (failed : List Nat) (a : Nat) : State :=
  if (s.array a).service != .pending then s
  else if failed.contains a then (s.modArray a fun x => { x with service := .gone }).fault 0x0031 1 a
  else s.modArray a fun x => { x with service := .serving }

/-- The stacks of a list that failed their check are recorded (R463). -/
def State.recordStacks (s : State) (failed : List Nat) : State :=
  ((List.range s.variant.stacks).filter fun k => failed.contains k && !s.memory.stacksServing.contains k).foldl
    (fun (s : State) k => s.fault 0x0001 4 (32 * k)) s

/-- `FOYER_SERVICE` (R10, R415, R461, R463): the Foyer units that passed serve. After a CHIP reset the stacks return to
service as they were. -/
def execFoyerService (failedArrays failedStacks : List Nat) (s : State) : Host.Outcome State Fault Refusal :=
  .next (if s.lodge.phase != .checking then s
    else
      let s1 := (List.range 16).foldl (fun (s : State) a => s.checkArray failedArrays a) s
      let s2 := if !s1.memory.stacksServing.isEmpty then s1
        else
          let good := (List.range s1.variant.stacks).filter fun k => !failedStacks.contains k
          (s1.recordStacks failedStacks).modMem fun m => { m with stacksServing := good.take 2 }
      let s3 := s2.modMem fun m => { m with selfRefresh := [] }
      let level := if s3.strongroom.state == .failed then 0 else 1
      let s4 := ({ s3 with deviceReady := true, serviceLevel := level } : State).modLodge fun l => { l with phase := .foyer }
      if s4.host.resetBusy && 4 ≤ s4.host.resetDomain then s4.resetDone else s4)

/-! ### Full service (R11, R253, R462) -/

/-- Tile instructions that waited for the binary64 matrix path go on (R6). -/
def State.wakeStalled (s : State) : State :=
  if !s.fp64Serving then s
  else (s.threads.filter fun e => e.2.state == .waiting && e.2.wait == some .unitStall).foldl
    (fun (s : State) e => (s.wake (keyThread e.1)).countFree cFoyerStall (e.1 % 64)) s

/-- The port that the change to full service retrains next (R253). -/
def State.nextRetrain (s : State) : Option Nat := (List.range s.variant.ports).find? fun p =>
  (s.port p).state == .active && (s.port p).rate < 128 && !s.fabric.retrained.contains p

/-- The remaining units that passed serve, and the descriptor takes its new values (R11, R216, R228, R462, R463). -/
def State.enterFull (s : State) (failedArrays failedStacks : List Nat) (fp64 : Bool) : State :=
  let s1 := (List.range s.variant.arrays).foldl (fun (s : State) a => s.checkArray failedArrays a) s
  let s2 := (s1.recordStacks failedStacks).modMem fun m =>
    { m with mirrorTaken := true
             stacksServing := (List.range s.variant.stacks).filter fun k =>
               m.stacksServing.contains k || !failedStacks.contains k }
  let s3 := ({ s2 with fp64Serving := fp64 && s.variant.fp64, laneRate := 128, serviceLevel := 2 } : State).modLodge fun l =>
    { l with phase := .full }
  let s4 := (s3.modFabric fun f => { f with retrained := [] }).capsChanged
  (s4.raise 2 1 (unitEntry 7 16 0)).wakeStalled.dirSync

/-- `FULL_SERVICE` (R253, R462): the permitted lane rate rises, the ports below it retrain one at a time, and when none is
left full service begins. While a port retrains, and while the Strongroom has failed, it waits (R415). -/
def execFullService (failedArrays failedStacks : List Nat) (fp64 : Bool) (s : State) : Host.Outcome State Fault Refusal :=
  .next (if s.lodge.phase != .foyer || s.serviceLevel ≠ 1 then s
    else
      let s1 : State := { s with permittedRate := 128 }
      if (List.range s.variant.ports).any fun p => (s1.port p).state == .retraining && (s1.port p).planned then s1
      else match s1.nextRetrain with
        | some p => (s1.leaveActive p .retraining true false).modFabric fun f => { f with retrained := f.retrained ++ [p] }
        | none => s1.enterFull failedArrays failedStacks fp64)

/-! ### The 48 V input (R458, R475, R476) -/

/-- `INPUT_UNDERVOLTAGE` (R475). -/
def execInputUndervoltage (s : State) : Host.Outcome State Fault Refusal :=
  .next (if s.lodge.phase == .off then s else s.powerOff)

/-- `INPUT_OVERVOLTAGE` (R475). -/
def execInputOvervoltage (s : State) : Host.Outcome State Fault Refusal :=
  .next (if s.lodge.phase == .off then s else s.powerOff)

/-- `INPUT_SHORT` (R476): the module stays off until the input has fallen below 10 V and risen again. -/
def execInputShort (s : State) : Host.Outcome State Fault Refusal :=
  .next ((if s.lodge.phase == .off then s else s.powerOff).modLodge fun l => { l with inputShort := true })

/-- Withholding begins (R458): it is written to the Catalogue and raises attention class 3. -/
def State.withhold (s : State) : State :=
  (s.modLodge fun l => { l with withheld := true }).raise 3 2 (lodgeEntry 17 0)

/-- The average over 1 ms is compared with the cap (R458). Once it is no longer above the cap, when withholding ends is
open. Powers are in units of 0.1 mW. -/
def State.regulate (s : State) : State :=
  let over_ := 10 * (s.lodge.powerCap * 10000) < s.lodge.inputSamples.sum
  if over_ then (if s.lodge.withholding then s else (s.modLodge fun l => { l with withholding := true }).withhold)
  else if !s.lodge.withholding then s
  else
    let (i, s1) := s.free 1
    s1.modLodge fun l => { l with withholding := (Config.freeValue i).getLsbD 0 }

/-- `INPUT_MONITOR_SAMPLE` (R458, R465, R476): the sample enters the averages, and a tenth one ends a millisecond. -/
def execInputMonitorSample (deciVolts milliAmps : Nat) (s : State) : Host.Outcome State Fault Refusal :=
  .next (if s.lodge.phase == .off then
      (if deciVolts < 100 then s.modLodge fun l => { l with inputShort := false } else s)
    else
      let w := deciVolts * milliAmps
      let s1 := (s.modLodge fun l =>
        { l with inputMv := 100 * deciVolts, inputSamples := l.inputSamples ++ [w], periodSum := l.periodSum + w
                 periodCount := l.periodCount + 1 }).trace 5 0 0 (le 2 deciVolts ++ le 4 milliAmps)
      if s1.lodge.inputSamples.length < 10 then s1
      else
        let s2 := if s1.lodge.phase == .shutdown then s1 else s1.regulate
        s2.modLodge fun l => { l with inputSamples := [] })

/-! ### Heat and leaks (R459, R478) -/

/-- `THERMAL_THROTTLE` (R367, R459): the hottest die sensor has reached 95 °C. -/
def execThermalThrottle (centi : Int) (s : State) : Host.Outcome State Fault Refusal :=
  .next (if s.chipOn && 9500 ≤ centi && !s.lodge.throttling then
    (s.modLodge fun l => { l with throttling := true }).withhold.fault 0x0050 10 0
  else s)

/-- `THERMAL_COUNTDOWN` (R459): the hottest die sensor has reached 100 °C. -/
def execThermalCountdown (centi : Int) (s : State) : Host.Outcome State Fault Refusal :=
  .next (if s.chipOn && 10000 ≤ centi && s.lodge.countdown.isNone then
    (s.modLodge fun l => { l with countdown := some s.now }).raise 3 3 (lodgeEntry 17 0)
  else s)

/-- `THERMAL_SHUTDOWN` (R459): the sensor has stood at or above 100 °C for 5 s. -/
def execThermalShutdown (centi : Int) (s : State) : Host.Outcome State Fault Refusal :=
  .next (if s.chipOn && 10000 ≤ centi && (s.lodge.countdown.any fun t => t + 5000000000 ≤ s.now) then s.shutDown else s)

/-- `THERMAL_THROTTLE_END` (R459): below 100 °C the countdown ends, and below 90 °C withholding for heat. -/
def execThermalThrottleEnd (centi : Int) (s : State) : Host.Outcome State Fault Refusal :=
  .next (s.modLodge fun l =>
    { l with countdown := if centi < 10000 then none else l.countdown
             throttling := l.throttling && 9000 ≤ centi })

/-- `LEAK_DETECTED` (R478). -/
def execLeakDetected (s : State) : Host.Outcome State Fault Refusal :=
  .next (if s.lodge.phase == .off then s
    else
      let s1 := if s.lodge.phase == .shutdown then s else s.shutDown
      (s1.modLodge fun l => { l with leak := true }).raise 3 3 { lodgeEntry 17 0 with pinned := true })

end Sys2Proof.Machine
end

