-- ==== Sys2Proof/Machine/Sessions.lean ====
section
/-! DEFINITION. Management sessions (R435 to R439), telemetry (R460), the health update (R395), and the module's output
contacts and indicators (R470, R482). What the model reads into them is in notes/assumptions/27.md and
notes/assumptions/44.md. -/

namespace Sys2Proof.Machine

/-! ### Opening (R437, R439) -/

/-- The fields of an `OPEN` that its signature covers (R437). -/
def openFields (m : OpenMessage) : Bytes :=
  le 1 m.opAlg ++ le 7 m.reserved ++ padTo 64 m.operatorKey ++ m.nonce ++ m.kemCt

/-- Whether an `OPEN` comes from an enrolled operator and has its form (R437). -/
def State.openKnown (s : State) (m : OpenMessage) : Bool :=
  let hash := Config.sha256 (padTo 64 m.operatorKey)
  (m.opAlg = 1 || m.opAlg = 2) && m.reserved = 0 && m.operatorKey.length ≤ 64 && m.nonce.length = 32 && m.kemCt.length = 1568
    && (s.lodge.settings.operatorKeys.contains hash || hash = Config.configSignerHash)

/-- An `OPEN` is refused without an answer (R437). -/
def State.refuseOpen (s : State) (signature : Bool) : State :=
  let e := { lodgeEntry 14 0 with pinned := true }
  let s1 := s.count cSessionsRefused 0
  if signature then s1.raise 7 3 e else s1.catalogue e

/-- The key and salt of one direction of a session: 0 from the operator, 1 from the module (R437,
notes/assumptions/2.md). -/
def sessionKeys (secret nonces : Bytes) (id direction : Nat) : Bytes × Bytes :=
  let name : Bytes := [0x45, 0x4F, 0x4D, 0x49, 0x52, 0x2D, 0x4D, 0x47, 0x4D, 0x54]
  let k := padTo 36 (Config.hkdf secret nonces (name ++ le 4 id ++ le 1 direction) 36)
  (k.take 32, k.drop 32)

/-- The session that has been idle longest (R439). -/
def longestIdle : List Session → Option Session
  | [] => none
  | x :: xs => match longestIdle xs with
    | none => some x
    | some y => some (if y.lastHeard < x.lastHeard then y else x)

/-- A fifth session takes the place of the one that has been idle longest (R439). -/
def State.makeRoomForSession (s : State) : State :=
  if s.lodge.sessions.length < 4 then s
  else match longestIdle s.lodge.sessions with
    | some x => s.closeSession x.id true
    | none => s

/-- `ACCEPT` (R437): the session and its keys stand. -/
def State.acceptOpen (s : State) (m : OpenMessage) (secret : Bytes) : State :=
  let (nonce, s1) := s.makeRoomForSession.random 32
  let id := s1.lodge.nextSession
  let body := le 4 id ++ le 2 s1.lodge.incarnation ++ zeros 2 ++ nonce
  let signed := body ++ sha256Bytes (openFields m ++ m.signature)
  let rx := sessionKeys secret (m.nonce ++ nonce) id 0
  let tx := sessionKeys secret (m.nonce ++ nonce) id 1
  let x : Session :=
    { id := id, opened := s1.now, lastHeard := s1.now, keyHash := Config.sha256 (padTo 64 m.operatorKey)
      rxKey := rx.1, rxSalt := rx.2, txKey := tx.1, txSalt := tx.2 }
  (s1.modLodge fun l =>
    { l with sessions := l.sessions ++ [x], nextSession := if id < 0xFFFFFFFF then id + 1 else 1
             mgmtSent := l.mgmtSent ++ [(id, 2, body ++ Config.identitySign signed)] }).catalogue
    { lodgeEntry 14 id with pinned := true }

/-- `OPEN` (R437): the key, then the signature, then the decapsulation is checked. While a pinned entry finds no slot
nothing happens (R449). -/
def execOpenSession (m : OpenMessage) (s : State) : Host.Outcome State Fault Refusal :=
  .next (if s.lodge.phase == .off || s.catalogueFull then s
    else if !s.openKnown m then s.refuseOpen false
    else if !Config.verify m.opAlg (padTo 64 m.operatorKey) (openFields m) m.signature then s.refuseOpen true
    else match if s.strongroom.state == .ready then Config.decapsulate m.kemCt else none with
      | none => s.refuseOpen false
      | some secret => s.acceptOpen m secret)

/-! ### Datagrams (R436, R438) -/

/-- The clear header of a `COMMAND` datagram (R436). -/
def datagramHeader (d : Datagram) : Bytes :=
  le 2 0x4D54 ++ le 1 3 ++ le 1 (b2n d.lastFragment) ++ le 4 d.session ++ le 8 d.sequence ++ le 4 d.fragOffset
    ++ le 4 d.messageLength ++ zeros 8

/-- Whether a datagram is a valid fragment of a session (R436): its form and its tag. -/
def datagramOk (x : Session) (d : Datagram) : Bool :=
  let over_ := d.fragOffset + d.body.length
  let iv := x.rxSalt ++ le 8 d.sequence
  d.body.length ≤ 1184 && over_ ≤ d.messageLength && 32 ≤ d.messageLength && 1 ≤ d.sequence
    && d.lastFragment = (over_ = d.messageLength)
    && Config.gcmTag x.rxKey iv (datagramHeader d) (Config.gcmCrypt x.rxKey iv d.body) = d.tag

/-- The bytes of a message of which n are asked for; none while one is missing. -/
def MgmtMessage.whole (m : MgmtMessage) : Option Bytes := (List.range m.length).mapM fun i => Map.get? m.data i

/-- A fragment joins its message (R436). -/
def joinFragment (now : Nat) (old : Option MgmtMessage) (d : Datagram) : MgmtMessage :=
  let m := old.getD { sequence := d.sequence, length := d.messageLength, arrived := now }
  { m with data := (d.body.mapIdx fun i b => (d.fragOffset + i, b)).foldl (fun x e => Map.put x e.1 e.2) m.data }

/-- A whole `COMMAND` message waits for its turn, and what may be taken is taken (R438). -/
def State.holdCommand (s : State) (id seq : Nat) (b : Bytes) : State :=
  sessionPump id 65 (s.modSession id fun x =>
    { x with ahead := Map.put x.ahead seq b, partials := Map.erase x.partials seq })

/-- A `COMMAND` that comes again is answered with its stored reply (R438); one without is discarded. -/
def State.replyAgain (s : State) (x : Session) (seq : Nat) : State :=
  match x.replies.find? fun r => r.1 = seq with
  | some r => s.sendMessage x.id r.2
  | none => s

/-- `COMMAND` (R436, R438). -/
def execMgmtCommand (d : Datagram) (s : State) : Host.Outcome State Fault Refusal :=
  .next (match s.session? d.session with
    | none => s
    | some x =>
      if !datagramOk x d then s
      else
        let s1 := s.modSession x.id fun y => { y with lastHeard := s.now }
        if d.sequence < x.next then s1.replyAgain x d.sequence
        else if x.next + 64 < d.sequence || Map.has x.ahead d.sequence then s1
        else
          let old := Map.get? x.partials d.sequence
          if old.any fun m => m.length ≠ d.messageLength then s1
          else
            let m := joinFragment s.now old d
            match m.whole with
            | some b => s1.holdCommand x.id d.sequence b
            | none => s1.modSession x.id fun y => { y with partials := Map.put y.partials d.sequence m })

/-- `CLOSE` (R439). -/
def execCloseSession (session : Nat) (s : State) : Host.Outcome State Fault Refusal :=
  .next (if (s.session? session).isSome then s.closeSession session false else s)

/-- `FRAGMENT_TIMEOUT` (R436). -/
def execFragmentTimeout (session : Nat) (s : State) : Host.Outcome State Fault Refusal :=
  .next (s.modSession session fun x =>
    { x with partials := x.partials.filter fun e => s.now < e.2.arrived + 1000000000 })

/-- `SESSION_IDLE_TIMEOUT` (R439). -/
def execSessionIdleTimeout (session : Nat) (s : State) : Host.Outcome State Fault Refusal :=
  .next (match s.session? session with
    | some x => if x.lastHeard + 60000000000 ≤ s.now then s.closeSession session false else s
    | none => s)

/-! ### Telemetry (R460) -/

/-- The 160 bytes of a telemetry message. i is the index of the free values: the sensors, and the share of pass time
withheld where there was any. -/
def State.telemetryBody (s : State) (i : Nat) : Bytes :=
  let l := s.lodge
  let watts := if l.periodCount = 0 then 0 else satTo 0xFFFF (l.periodSum / (l.periodCount * 10000))
  let permille := if l.withheld then (Config.freeValue i).toNat % 1001 else 0
  let sensor := fun (j : Nat) => le 2 ((Config.freeValue (i + j)).toNat % 65536)
  le 8 s.now ++ le 2 watts ++ le 2 l.powerCap ++ le 2 (satTo 0xFFFF (l.inputMv / 100)) ++ le 2 permille
    ++ sensor 1 ++ sensor 2 ++ sensor 3 ++ le 1 s.serviceLevel ++ le 1 l.syncState ++ le 4 (s.statusWord .done) ++ zeros 4
    ++ l.health

/-- `TELEMETRY` (R460). -/
def execTelemetry (s : State) : Host.Outcome State Fault Refusal :=
  .next (if s.lodge.phase == .off || s.now < s.lodge.lastTelemetry + s.lodge.settings.telemetryMs * 1000000 then s
    else
      let (i, s1) := s.free 4
      let body := s1.telemetryBody i
      let s2 := s1.lodge.sessions.foldl (fun (s : State) x => s.sendMessage x.id body 5) s1
      s2.modLodge fun l =>
        { l with lastTelemetry := s2.now, periodSum := 0, periodCount := 0, withheld := l.withholding || l.throttling })

/-! ### Health (R395) -/

/-- 2 to the power of −1 ÷ H of `rateUnit`, for the half-lives H in minutes of R395 (notes/assumptions/12.md). -/
def decayOf : Nat → Nat
  | 1440 => 79190035040353164173044392412
  | 4320 => 79215451317045670164558559771
  | 10080 => 79222714608575266737516300636
  | _ => 792154513170456701645585597710

/-- Whole units of n in what has been counted since a base. -/
def unitsSince (total : Nat) (base : Int) (n : Nat) : Nat := ((total : Int) - base).toNat / n

/-- `HEALTH_UPDATE` (R395, R396): each rate decays by 60 s, and the events since the last update enter it. -/
def execHealthUpdate (s : State) : Host.Outcome State Fault Refusal :=
  .next (if s.lodge.phase == .off then s
    else
      let corrected := unitsSince s.correctedErrors s.lodge.correctedBase 1000
      let replays := unitsSince s.replays s.lodge.replaysBase 10000
      s.modLodge fun l =>
        let events := modAt (modAt l.events 5 (· + corrected)) 8 (· + replays)
        let step := fun (e : (Nat × Nat) × Nat) => e.1.1 * decayOf e.2 / rateUnit + e.1.2 * rateUnit
        { l with rates := ((l.rates.zip events).zip (healthClasses.map (·.2))).map step
                 events := List.replicate 15 0
                 evidence := satTo 0xFFFFFFFF (l.evidence + events.sum)
                 observedSeconds := l.observedSeconds + (if s.serviceLevel = 0 then 0 else 60)
                 lastEventTime := if corrected + replays = 0 then l.lastEventTime else s.now
                 correctedBase := l.correctedBase + 1000 * corrected
                 replaysBase := l.replaysBase + 10000 * replays })

/-! ### Contacts and indicators (R470, R482) -/

/-- The highest level pending among the attention classes (R331). -/
def State.pendingLevel (s : State) : Nat := (shownClass s.attnSeq s.attnPending).1

/-- `PWR_GOOD`: whether it is released high. -/
def State.pwrGood (s : State) : Bool := s.chipOn || s.lodge.phase == .keys

/-- `THERM_ALERT#`: whether it is driven low. -/
def State.thermAlert (s : State) : Bool := s.lodge.leak || (Map.get? s.attnPending 3).any fun e => e.1 = 3

/-- `SVC_READY`: whether it is released high. -/
def State.svcReady (s : State) : Bool := s.serviceLevel = 1 || s.serviceLevel = 2

/-- What an indicator shows. -/
inductive Lamp where
  | off | steady | flashing
  deriving DecidableEq, Repr

/-- What a port's two-colour indicator shows. -/
inductive PortLamp where
  | off | green | amber | amberFlashing
  deriving DecidableEq, Repr

/-- The `PWR` indicator. -/
def State.pwrLamp (s : State) : Lamp :=
  if s.lodge.phase == .off then .off else if s.pwrGood then .steady else .flashing

/-- The `SVC` indicator. -/
def State.svcLamp (s : State) : Lamp :=
  if s.serviceLevel = 2 then .steady else if s.serviceLevel = 1 then .flashing else .off

/-- The `ATTN` indicator. -/
def State.attnLamp (s : State) : Lamp :=
  if s.pendingLevel = 3 then .flashing else if s.pendingLevel = 2 then .steady else .off

/-- The indicator of a port. -/
def State.portLamp (s : State) (p : Nat) : PortLamp :=
  let x := s.port p
  match x.state with
  | .active => if x.width = 16 && x.rate = s.laneRate then .green else .amber
  | .failed => .amberFlashing
  | _ => .off

end Sys2Proof.Machine
end

