-- ==== Sys2Proof/Machine/Dispatch.lean ====
section
/-! DEFINITION. The dispatch of every command to its meaning, one arm per constructor. -/

namespace Sys2Proof.Machine

/-- The effect of a command on everything but the queue. -/
def exec (i : Instr) (s : State) : Host.Outcome State Fault Refusal :=
  match i with
  | .nop h p => Sys2Proof.Machine.execNop h p s
  | .heartbeat h p => Sys2Proof.Machine.execHeartbeat h p s
  | .queryCaps h p => Sys2Proof.Machine.execQueryCaps h p s
  | .ackAttention h p => Sys2Proof.Machine.execAckAttention h p s
  | .queryFault h p => Sys2Proof.Machine.execQueryFault h p s
  | .readCounters h p => Sys2Proof.Machine.execReadCounters h p s
  | .timeRead h p => Sys2Proof.Machine.execTimeRead h p s
  | .ctxCreate h p => Sys2Proof.Machine.execCtxCreate h p s
  | .ctxDestroy h p => Sys2Proof.Machine.execCtxDestroy h p s
  | .ctxReset h p => Sys2Proof.Machine.execCtxReset h p s
  | .ctxSuspend h p => Sys2Proof.Machine.execCtxSuspend h p s
  | .ctxResume h p => Sys2Proof.Machine.execCtxResume h p s
  | .ctxQuery h p => Sys2Proof.Machine.execCtxQuery h p s
  | .ringBind h p => Sys2Proof.Machine.execRingBind h p s
  | .ringUnbind h p => Sys2Proof.Machine.execRingUnbind h p s
  | .memMap h p => Sys2Proof.Machine.execMemMap h p s
  | .memUnmap h p => Sys2Proof.Machine.execMemUnmap h p s
  | .memPin h p => Sys2Proof.Machine.execMemPin h p s
  | .memHint h p => Sys2Proof.Machine.execMemHint h p s
  | .memCopy h p => Sys2Proof.Machine.execMemCopy h p s
  | .memFill h p => Sys2Proof.Machine.execMemFill h p s
  | .poolQuota h p => Sys2Proof.Machine.execPoolQuota h p s
  | .provenanceSet h p => Sys2Proof.Machine.execProvenanceSet h p s
  | .modelLoad h p => Sys2Proof.Machine.execModelLoad h p s
  | .modelEvict h p => Sys2Proof.Machine.execModelEvict h p s
  | .loanPresent h p => Sys2Proof.Machine.execLoanPresent h p s
  | .loanRevoke h p => Sys2Proof.Machine.execLoanRevoke h p s
  | .launch h p => Sys2Proof.Machine.execLaunch h p s
  | .batchSubmit h p => Sys2Proof.Machine.execBatchSubmit h p s
  | .fenceCommand h p => Sys2Proof.Machine.execFenceCommand h p s
  | .stepCommit h p => Sys2Proof.Machine.execStepCommit h p s
  | .stepAbandon h p => Sys2Proof.Machine.execStepAbandon h p s
  | .portState h p => Sys2Proof.Machine.execPortState h p s
  | .routeSet h p => Sys2Proof.Machine.execRouteSet h p s
  | .groupDefine h p => Sys2Proof.Machine.execGroupDefine h p s
  | .permutePlan h p => Sys2Proof.Machine.execPermutePlan h p s
  | .timeoutSet h p => Sys2Proof.Machine.execTimeoutSet h p s
  | .ckptBegin h p => Sys2Proof.Machine.execCkptBegin h p s
  | .ckptDrain h p => Sys2Proof.Machine.execCkptDrain h p s
  | .ckptRestore h p => Sys2Proof.Machine.execCkptRestore h p s
  | .twinState h p => Sys2Proof.Machine.execTwinState h p s
  | .twinAdopt h p => Sys2Proof.Machine.execTwinAdopt h p s
  | .attest h p => Sys2Proof.Machine.execAttest h p s
  | .identityRead h p => Sys2Proof.Machine.execIdentityRead h p s
  | .txnBegin h p => Sys2Proof.Machine.execTxnBegin h p s
  | .txnCommit h p => Sys2Proof.Machine.execTxnCommit h p s
  | .txnAbort h p => Sys2Proof.Machine.execTxnAbort h p s
  | .txnQuery h p => Sys2Proof.Machine.execTxnQuery h p s
  | .fwStage h p => Sys2Proof.Machine.execFwStage h p s
  | .fwActivate h p => Sys2Proof.Machine.execFwActivate h p s
  | .cfgWrite h p => Sys2Proof.Machine.execCfgWrite h p s
  | .debugRead h p => Sys2Proof.Machine.execDebugRead h p s
  | .debugWrite h p => Sys2Proof.Machine.execDebugWrite h p s
  | .traceStart h p => Sys2Proof.Machine.execTraceStart h p s
  | .traceStop h p => Sys2Proof.Machine.execTraceStop h p s
  | .logRead h p => Sys2Proof.Machine.execLogRead h p s
  | .ctrClear h p => Sys2Proof.Machine.execCtrClear h p s
  | .powerCap h p => Sys2Proof.Machine.execPowerCap h p s
  | .resetModule h p => Sys2Proof.Machine.execResetModule h p s
  | .probationTest h p => Sys2Proof.Machine.execProbationTest h p s
  | .doorbell ring width value => Sys2Proof.Machine.execDoorbell ring width value s
  | .snapshotReq value => Sys2Proof.Machine.execSnapshotReq value s
  | .snapshotComplete => Sys2Proof.Machine.execSnapshotComplete s
  | .arrayReset key target => Sys2Proof.Machine.execArrayReset key target s
  | .channelReset key target => Sys2Proof.Machine.execChannelReset key target s
  | .portReset key target => Sys2Proof.Machine.execPortReset key target s
  | .chipReset key target => Sys2Proof.Machine.execChipReset key target s
  | .registerWrite offset width value => Sys2Proof.Machine.execRegisterWrite offset width value s
  | .deviceTimeLowRead => Sys2Proof.Machine.execDeviceTimeLowRead s
  | .bar2Read offset len => Sys2Proof.Machine.execBar2Read offset len s
  | .bar2Write offset data => Sys2Proof.Machine.execBar2Write offset data s
  | .perstAssert => Sys2Proof.Machine.execPerstAssert s
  | .hotReset => Sys2Proof.Machine.execHotReset s
  | .functionLevelReset => Sys2Proof.Machine.execFunctionLevelReset s
  | .linkDisable => Sys2Proof.Machine.execLinkDisable s
  | .commandTake ring entries => Sys2Proof.Machine.execCommandTake ring entries s
  | .ringDrainComplete ring => Sys2Proof.Machine.execRingDrainComplete ring s
  | .dmaReadCompletion handle data => Sys2Proof.Machine.execDmaReadCompletion handle data s
  | .stewardBeatTick => Sys2Proof.Machine.execStewardBeatTick s
  | .add t w => Sys2Proof.Machine.execAdd t w s
  | .sub t w => Sys2Proof.Machine.execSub t w s
  | .mul t w => Sys2Proof.Machine.execMul t w s
  | .mulhu t w => Sys2Proof.Machine.execMulhu t w s
  | .and t w => Sys2Proof.Machine.execAnd t w s
  | .or t w => Sys2Proof.Machine.execOr t w s
  | .xor t w => Sys2Proof.Machine.execXor t w s
  | .shl t w => Sys2Proof.Machine.execShl t w s
  | .shr t w => Sys2Proof.Machine.execShr t w s
  | .sra t w => Sys2Proof.Machine.execSra t w s
  | .min t w => Sys2Proof.Machine.execMin t w s
  | .max t w => Sys2Proof.Machine.execMax t w s
  | .mov t w => Sys2Proof.Machine.execMov t w s
  | .cmpeq t w => Sys2Proof.Machine.execCmpeq t w s
  | .cmpne t w => Sys2Proof.Machine.execCmpne t w s
  | .cmplt t w => Sys2Proof.Machine.execCmplt t w s
  | .cmpltu t w => Sys2Proof.Machine.execCmpltu t w s
  | .cmple t w => Sys2Proof.Machine.execCmple t w s
  | .cmpleu t w => Sys2Proof.Machine.execCmpleu t w s
  | .pand t w => Sys2Proof.Machine.execPand t w s
  | .por t w => Sys2Proof.Machine.execPor t w s
  | .pxor t w => Sys2Proof.Machine.execPxor t w s
  | .pnot t w => Sys2Proof.Machine.execPnot t w s
  | .ld t w => Sys2Proof.Machine.execLd t w s
  | .lds t w => Sys2Proof.Machine.execLds t w s
  | .st t w => Sys2Proof.Machine.execSt t w s
  | .atom t w => Sys2Proof.Machine.execAtom t w s
  | .br t w => Sys2Proof.Machine.execBr t w s
  | .call t w => Sys2Proof.Machine.execCall t w s
  | .jmp t w => Sys2Proof.Machine.execJmp t w s
  | .exit t w => Sys2Proof.Machine.execExit t w s
  | .dld t w => Sys2Proof.Machine.execDld t w s
  | .dst t w => Sys2Proof.Machine.execDst t w s
  | .dset t w => Sys2Proof.Machine.execDset t w s
  | .dget t w => Sys2Proof.Machine.execDget t w s
  | .sread t w => Sys2Proof.Machine.execSread t w s
  | .tld t w => Sys2Proof.Machine.execTld t w s
  | .tst t w => Sys2Proof.Machine.execTst t w s
  | .tcp t w => Sys2Proof.Machine.execTcp t w s
  | .mma t w => Sys2Proof.Machine.execMma t w s
  | .mmab t w => Sys2Proof.Machine.execMmab t w s
  | .vopAdd t w => Sys2Proof.Machine.execVopAdd t w s
  | .vopSub t w => Sys2Proof.Machine.execVopSub t w s
  | .vopMul t w => Sys2Proof.Machine.execVopMul t w s
  | .vopMax t w => Sys2Proof.Machine.execVopMax t w s
  | .vopMin t w => Sys2Proof.Machine.execVopMin t w s
  | .vopScale t w => Sys2Proof.Machine.execVopScale t w s
  | .vopAbs t w => Sys2Proof.Machine.execVopAbs t w s
  | .vopNeg t w => Sys2Proof.Machine.execVopNeg t w s
  | .vopFma t w => Sys2Proof.Machine.execVopFma t w s
  | .actRelu t w => Sys2Proof.Machine.execActRelu t w s
  | .actGelu t w => Sys2Proof.Machine.execActGelu t w s
  | .actSilu t w => Sys2Proof.Machine.execActSilu t w s
  | .actExp t w => Sys2Proof.Machine.execActExp t w s
  | .actTanh t w => Sys2Proof.Machine.execActTanh t w s
  | .actSigmoid t w => Sys2Proof.Machine.execActSigmoid t w s
  | .actRecip t w => Sys2Proof.Machine.execActRecip t w s
  | .actRsqrt t w => Sys2Proof.Machine.execActRsqrt t w s
  | .cvt t w => Sys2Proof.Machine.execCvt t w s
  | .stagOpen t w => Sys2Proof.Machine.execStagOpen t w s
  | .stagClose t w => Sys2Proof.Machine.execStagClose t w s
  | .stash t w => Sys2Proof.Machine.execStash t w s
  | .unstash t w => Sys2Proof.Machine.execUnstash t w s
  | .recomp t w => Sys2Proof.Machine.execRecomp t w s
  | .update t w => Sys2Proof.Machine.execUpdate t w s
  | .bktAdd t w => Sys2Proof.Machine.execBktAdd t w s
  | .verRead t w => Sys2Proof.Machine.execVerRead t w s
  | .semWait t w => Sys2Proof.Machine.execSemWait t w s
  | .semPost t w => Sys2Proof.Machine.execSemPost t w s
  | .semInit t w => Sys2Proof.Machine.execSemInit t w s
  | .fence t w => Sys2Proof.Machine.execFence t w s
  | .barrier t w => Sys2Proof.Machine.execBarrier t w s
  | .slot t w => Sys2Proof.Machine.execSlot t w s
  | .allReduce t w => Sys2Proof.Machine.execAllReduce t w s
  | .reduceScatter t w => Sys2Proof.Machine.execReduceScatter t w s
  | .allGather t w => Sys2Proof.Machine.execAllGather t w s
  | .reduce t w => Sys2Proof.Machine.execReduce t w s
  | .broadcast t w => Sys2Proof.Machine.execBroadcast t w s
  | .allToAll t w => Sys2Proof.Machine.execAllToAll t w s
  | .permute t w => Sys2Proof.Machine.execPermute t w s
  | .fwwPut t w => Sys2Proof.Machine.execFwwPut t w s
  | .groupBarrier t w => Sys2Proof.Machine.execGroupBarrier t w s
  | .tileInstructionComplete t id => Sys2Proof.Machine.execTileInstructionComplete t id s
  | .landingFillComplete array => Sys2Proof.Machine.execLandingFillComplete array s
  | .frontEntry array cycles => Sys2Proof.Machine.execFrontEntry array cycles s
  | .passStart array cycles => Sys2Proof.Machine.execPassStart array cycles s
  | .passDrain array => Sys2Proof.Machine.execPassDrain array s
  | .arrayPowerGate array => Sys2Proof.Machine.execArrayPowerGate array s
  | .arrayWake array cycles => Sys2Proof.Machine.execArrayWake array cycles s
  | .arrayInternalError array => Sys2Proof.Machine.execArrayInternalError array s
  | .arraySelfCheckDone array passed => Sys2Proof.Machine.execArraySelfCheckDone array passed s
  | .chipInternalError => Sys2Proof.Machine.execChipInternalError s
  | .tagUnitBind array ctx slot cycles => Sys2Proof.Machine.execTagUnitBind array ctx slot cycles s
  | .tagRecordWrite array ctx slot => Sys2Proof.Machine.execTagRecordWrite array ctx slot s
  | .stashFillComplete ctx key cycles => Sys2Proof.Machine.execStashFillComplete ctx key cycles s
  | .pantrySpillComplete ctx key => Sys2Proof.Machine.execPantrySpillComplete ctx key s
  | .bktAddStart t id cycles => Sys2Proof.Machine.execBktAddStart t id cycles s
  | .bucketFoldComplete ctx bucket => Sys2Proof.Machine.execBucketFoldComplete ctx bucket s
  | .bucketReductionEnd ctx bucket => Sys2Proof.Machine.execBucketReductionEnd ctx bucket s
  | .versionedReadBind t id cycles => Sys2Proof.Machine.execVersionedReadBind t id cycles s
  | .updateStart t id guardCycles readerCycles => Sys2Proof.Machine.execUpdateStart t id guardCycles readerCycles s
  | .commitPointReached ctx step => Sys2Proof.Machine.execCommitPointReached ctx step s
  | .semWaitComplete t cycles => Sys2Proof.Machine.execSemWaitComplete t cycles s
  | .slotEnd launch => Sys2Proof.Machine.execSlotEnd launch s
  | .slotGateOpen launch cycles => Sys2Proof.Machine.execSlotGateOpen launch cycles s
  | .launchComplete launch => Sys2Proof.Machine.execLaunchComplete launch s
  | .admission => Sys2Proof.Machine.execAdmission s
  | .contextReadmission ctx => Sys2Proof.Machine.execContextReadmission ctx s
  | .suspendSaveComplete ctx => Sys2Proof.Machine.execSuspendSaveComplete ctx s
  | .contextRestoreComplete ctx => Sys2Proof.Machine.execContextRestoreComplete ctx s
  | .contextDrainComplete ctx => Sys2Proof.Machine.execContextDrainComplete ctx s
  | .drainForce ctx => Sys2Proof.Machine.execDrainForce ctx s
  | .frameZeroed frames => Sys2Proof.Machine.execFrameZeroed frames s
  | .granuleSwitchComplete granule => Sys2Proof.Machine.execGranuleSwitchComplete granule s
  | .pageSpillComplete page => Sys2Proof.Machine.execPageSpillComplete page s
  | .pageReturnComplete page ok => Sys2Proof.Machine.execPageReturnComplete page ok s
  | .repairHostReadDone line data => Sys2Proof.Machine.execRepairHostReadDone line data s
  | .repairBudgetExpiry line => Sys2Proof.Machine.execRepairBudgetExpiry line s
  | .rowRetirementComplete row cycles => Sys2Proof.Machine.execRowRetirementComplete row cycles s
  | .channelCopyComplete channel => Sys2Proof.Machine.execChannelCopyComplete channel s
  | .scrubPass cellar => Sys2Proof.Machine.execScrubPass cellar s
  | .scrubWake => Sys2Proof.Machine.execScrubWake s
  | .atticSelfRefreshEntry stack => Sys2Proof.Machine.execAtticSelfRefreshEntry stack s
  | .atticSelfRefreshExit stack cycles => Sys2Proof.Machine.execAtticSelfRefreshExit stack cycles s
  | .signalDetected port lanes => Sys2Proof.Machine.execSignalDetected port lanes s
  | .signalLost port => Sys2Proof.Machine.execSignalLost port s
  | .trainingTimeout port => Sys2Proof.Machine.execTrainingTimeout port s
  | .flitLock port lanes neighbourRate => Sys2Proof.Machine.execFlitLock port lanes neighbourRate s
  | .keyConfirmation port nonce device incarnation neighbourPort tag => Sys2Proof.Machine.execKeyConfirmation port nonce device incarnation neighbourPort tag s
  | .lossOfLock port => Sys2Proof.Machine.execLossOfLock port s
  | .replayLimit port => Sys2Proof.Machine.execReplayLimit port s
  | .retrainTimeout port => Sys2Proof.Machine.execRetrainTimeout port s
  | .authFailureLimit port => Sys2Proof.Machine.execAuthFailureLimit port s
  | .dataFlitRx port f => Sys2Proof.Machine.execDataFlitRx port f s
  | .controlFlitRx port f credits => Sys2Proof.Machine.execControlFlitRx port f credits s
  | .ackTimer port => Sys2Proof.Machine.execAckTimer port s
  | .encryptionFrameRx port slots tag => Sys2Proof.Machine.execEncryptionFrameRx port slots tag s
  | .frameClose port => Sys2Proof.Machine.execFrameClose port s
  | .idleFlitInsert port => Sys2Proof.Machine.execIdleFlitInsert port s
  | .readReq port k => Sys2Proof.Machine.execReadReq port k s
  | .readRsp port k => Sys2Proof.Machine.execReadRsp port k s
  | .writeReq port k => Sys2Proof.Machine.execWriteReq port k s
  | .writeAck port k => Sys2Proof.Machine.execWriteAck port k s
  | .atomicReq port k => Sys2Proof.Machine.execAtomicReq port k s
  | .atomicRsp port k => Sys2Proof.Machine.execAtomicRsp port k s
  | .semPostPacket port k => Sys2Proof.Machine.execSemPostPacket port k s
  | .semAck port k => Sys2Proof.Machine.execSemAck port k s
  | .repairRead port k => Sys2Proof.Machine.execRepairRead port k s
  | .repairRsp port k => Sys2Proof.Machine.execRepairRsp port k s
  | .hello port k => Sys2Proof.Machine.execHello port k s
  | .helloRsp port k => Sys2Proof.Machine.execHelloRsp port k s
  | .genRetire port k => Sys2Proof.Machine.execGenRetire port k s
  | .timeSync port k => Sys2Proof.Machine.execTimeSync port k s
  | .timeRsp port k => Sys2Proof.Machine.execTimeRsp port k s
  | .timeSyncTimer => Sys2Proof.Machine.execTimeSyncTimer s
  | .fabricTimeout tag => Sys2Proof.Machine.execFabricTimeout tag s
  | .flowMove dest vc => Sys2Proof.Machine.execFlowMove dest vc s
  | .collData port k => Sys2Proof.Machine.execCollData port k s
  | .collResult port k => Sys2Proof.Machine.execCollResult port k s
  | .pieceAck port k => Sys2Proof.Machine.execPieceAck port k s
  | .ready port k => Sys2Proof.Machine.execReady port k s
  | .arrive port k => Sys2Proof.Machine.execArrive port k s
  | .flag port k => Sys2Proof.Machine.execFlag port k s
  | .probe port k => Sys2Proof.Machine.execProbe port k s
  | .probeRsp port k => Sys2Proof.Machine.execProbeRsp port k s
  | .probeInterval coll => Sys2Proof.Machine.execProbeInterval coll s
  | .fwwClaim port k => Sys2Proof.Machine.execFwwClaim port k s
  | .fwwClaimRsp port k => Sys2Proof.Machine.execFwwClaimRsp port k s
  | .fwwData port k => Sys2Proof.Machine.execFwwData port k s
  | .fwwDataAck port k => Sys2Proof.Machine.execFwwDataAck port k s
  | .fwwClaimExpiry addr => Sys2Proof.Machine.execFwwClaimExpiry addr s
  | .pairOffer port k => Sys2Proof.Machine.execPairOffer port k s
  | .unpair port k => Sys2Proof.Machine.execUnpair port k s
  | .snapData port k => Sys2Proof.Machine.execSnapData port k s
  | .snapAck port k => Sys2Proof.Machine.execSnapAck port k s
  | .snapCommit port k => Sys2Proof.Machine.execSnapCommit port k s
  | .mirrorRead port k => Sys2Proof.Machine.execMirrorRead port k s
  | .mirrorData port k => Sys2Proof.Machine.execMirrorData port k s
  | .dirSync port k => Sys2Proof.Machine.execDirSync port k s
  | .adopt port k => Sys2Proof.Machine.execAdopt port k s
  | .cowCopyComplete page cycles => Sys2Proof.Machine.execCowCopyComplete page cycles s
  | .twinGraceExpiry => Sys2Proof.Machine.execTwinGraceExpiry s
  | .powerGood => Sys2Proof.Machine.execPowerGood s
  | .keyReconstruction ok => Sys2Proof.Machine.execKeyReconstruction ok s
  | .firmwareVerified slot0 slot1 => Sys2Proof.Machine.execFirmwareVerified slot0 slot1 s
  | .foyerService failedArrays failedStacks => Sys2Proof.Machine.execFoyerService failedArrays failedStacks s
  | .fullService failedArrays failedStacks fp64 => Sys2Proof.Machine.execFullService failedArrays failedStacks fp64 s
  | .inputUndervoltage => Sys2Proof.Machine.execInputUndervoltage s
  | .inputOvervoltage => Sys2Proof.Machine.execInputOvervoltage s
  | .inputShort => Sys2Proof.Machine.execInputShort s
  | .thermalThrottle centi => Sys2Proof.Machine.execThermalThrottle centi s
  | .thermalCountdown centi => Sys2Proof.Machine.execThermalCountdown centi s
  | .thermalShutdown centi => Sys2Proof.Machine.execThermalShutdown centi s
  | .leakDetected => Sys2Proof.Machine.execLeakDetected s
  | .timeSave => Sys2Proof.Machine.execTimeSave s
  | .syncLoss => Sys2Proof.Machine.execSyncLoss s
  | .ptpMessage offset => Sys2Proof.Machine.execPtpMessage offset s
  | .openSession m => Sys2Proof.Machine.execOpenSession m s
  | .mgmtCommand d => Sys2Proof.Machine.execMgmtCommand d s
  | .closeSession session => Sys2Proof.Machine.execCloseSession session s
  | .fragmentTimeout session => Sys2Proof.Machine.execFragmentTimeout session s
  | .sessionIdleTimeout session => Sys2Proof.Machine.execSessionIdleTimeout session s
  | .telemetry => Sys2Proof.Machine.execTelemetry s
  | .healthUpdate => Sys2Proof.Machine.execHealthUpdate s
  | .txnTimeout txn => Sys2Proof.Machine.execTxnTimeout txn s
  | .loanExpiry loan => Sys2Proof.Machine.execLoanExpiry loan s
  | .inputMonitorSample deciVolts milliAmps => Sys2Proof.Machine.execInputMonitorSample deciVolts milliAmps s
  | .thermalThrottleEnd centi => Sys2Proof.Machine.execThermalThrottleEnd centi s
  | .perstDeassert => Sys2Proof.Machine.execPerstDeassert s
  | .quoteSigned => Sys2Proof.Machine.execQuoteSigned s
  | .commitWindowClose => Sys2Proof.Machine.execCommitWindowClose s
  | .probationTestDone failed => Sys2Proof.Machine.execProbationTestDone failed s
  | .memCopyComplete handle => Sys2Proof.Machine.execMemCopyComplete handle s
  | .sourceBehindEntry => Sys2Proof.Machine.execSourceBehindEntry s

end Sys2Proof.Machine
end

