-- ==== Sys2Proof/WellFormed.lean ====
section
/-! DEFINITION. When a command is well formed: its operands lie within the widths and ranges that the
spec gives their fields. A command that is not well formed is no command the block can receive. -/

namespace Sys2Proof

/-- Threads of an array, and arrays, as R111 numbers them. -/
def ThreadId.wf (t : ThreadId) : Bool := t.array < 64 && t.index < 64

/-- A command packet's header and parameters (R325, R329). -/
def CmdHeader.wf (h : CmdHeader) (p : Bytes) : Bool :=
  h.ring < 65536 && (p.length = h.paramLength.toNat || 4096 < h.paramLength.toNat)

/-- The fields of a packet within their widths (R258). -/
def Packet.wf (k : Packet) : Bool :=
  k.vc < 8 && k.length < 65536 && k.srcDevice < 65536 && k.dstDevice < 65536
    && k.srcIncarnation < 65536 && k.dstIncarnation < 65536 && k.ctxId < 65536
    && k.ctxGeneration < 65536 && k.tag < 2 ^ 32 && k.hops < 16 && k.operation < 256
    && k.status < 65536 && k.payload.length ≤ 4096 && k.flags76 < 4
    && (k.span.all fun x => x.1 ≤ x.2 && x.2 ≤ k.payload.length)

/-- A Palex port number (R246). -/
def portWf (p : Nat) : Bool := p < 6

/-- An array number (R1). -/
def arrayWf (a : Nat) : Bool := a < 64

/-- A context ID (R347). -/
def ctxWf (c : Nat) : Bool := c < 16384

/-- A flit's header fields (R254). -/
def Flit.wf (f : Flit) : Bool :=
  f.seq < 1024 && f.ackSeq < 1024 && f.kind < 4 && f.low < 256 && f.slots.length ≤ 240

/-- The fields of an `OPEN` body (R437). -/
def OpenMessage.wf (m : OpenMessage) : Bool := m.opAlg < 65536

/-- The fields of a datagram (R436). -/
def Datagram.wf (d : Datagram) : Bool := d.session < 65536 && d.body.length ≤ 1184

/-- Whether a command is well formed. -/
def Instr.WellFormed : Instr → Bool
  | .nop h p => h.wf p
  | .heartbeat h p => h.wf p
  | .queryCaps h p => h.wf p
  | .ackAttention h p => h.wf p
  | .queryFault h p => h.wf p
  | .readCounters h p => h.wf p
  | .timeRead h p => h.wf p
  | .ctxCreate h p => h.wf p
  | .ctxDestroy h p => h.wf p
  | .ctxReset h p => h.wf p
  | .ctxSuspend h p => h.wf p
  | .ctxResume h p => h.wf p
  | .ctxQuery h p => h.wf p
  | .ringBind h p => h.wf p
  | .ringUnbind h p => h.wf p
  | .memMap h p => h.wf p
  | .memUnmap h p => h.wf p
  | .memPin h p => h.wf p
  | .memHint h p => h.wf p
  | .memCopy h p => h.wf p
  | .memFill h p => h.wf p
  | .poolQuota h p => h.wf p
  | .provenanceSet h p => h.wf p
  | .modelLoad h p => h.wf p
  | .modelEvict h p => h.wf p
  | .loanPresent h p => h.wf p
  | .loanRevoke h p => h.wf p
  | .launch h p => h.wf p
  | .batchSubmit h p => h.wf p
  | .fenceCommand h p => h.wf p
  | .stepCommit h p => h.wf p
  | .stepAbandon h p => h.wf p
  | .portState h p => h.wf p
  | .routeSet h p => h.wf p
  | .groupDefine h p => h.wf p
  | .permutePlan h p => h.wf p
  | .timeoutSet h p => h.wf p
  | .ckptBegin h p => h.wf p
  | .ckptDrain h p => h.wf p
  | .ckptRestore h p => h.wf p
  | .twinState h p => h.wf p
  | .twinAdopt h p => h.wf p
  | .attest h p => h.wf p
  | .identityRead h p => h.wf p
  | .txnBegin h p => h.wf p
  | .txnCommit h p => h.wf p
  | .txnAbort h p => h.wf p
  | .txnQuery h p => h.wf p
  | .fwStage h p => h.wf p
  | .fwActivate h p => h.wf p
  | .cfgWrite h p => h.wf p
  | .debugRead h p => h.wf p
  | .debugWrite h p => h.wf p
  | .traceStart h p => h.wf p
  | .traceStop h p => h.wf p
  | .logRead h p => h.wf p
  | .ctrClear h p => h.wf p
  | .powerCap h p => h.wf p
  | .resetModule h p => h.wf p
  | .probationTest h p => h.wf p
  | .doorbell ring width _ => ring < 65536 && width ≤ 8
  | .snapshotReq _ => true
  | .snapshotComplete => true
  | .arrayReset _ _ => true
  | .channelReset _ _ => true
  | .portReset _ _ => true
  | .chipReset _ _ => true
  | .registerWrite offset width _ => offset < 16777216 && (width = 4 || width = 8)
  | .deviceTimeLowRead => true
  | .bar2Read _ _ => true
  | .bar2Write _ _ => true
  | .perstAssert => true
  | .hotReset => true
  | .functionLevelReset => true
  | .linkDisable => true
  | .commandTake ring _ => ring < 65536
  | .ringDrainComplete ring => ring < 65536
  | .dmaReadCompletion _ _ => true
  | .stewardBeatTick => true
  | .add t _ => t.wf
  | .sub t _ => t.wf
  | .mul t _ => t.wf
  | .mulhu t _ => t.wf
  | .and t _ => t.wf
  | .or t _ => t.wf
  | .xor t _ => t.wf
  | .shl t _ => t.wf
  | .shr t _ => t.wf
  | .sra t _ => t.wf
  | .min t _ => t.wf
  | .max t _ => t.wf
  | .mov t _ => t.wf
  | .cmpeq t _ => t.wf
  | .cmpne t _ => t.wf
  | .cmplt t _ => t.wf
  | .cmpltu t _ => t.wf
  | .cmple t _ => t.wf
  | .cmpleu t _ => t.wf
  | .pand t _ => t.wf
  | .por t _ => t.wf
  | .pxor t _ => t.wf
  | .pnot t _ => t.wf
  | .ld t _ => t.wf
  | .lds t _ => t.wf
  | .st t _ => t.wf
  | .atom t _ => t.wf
  | .br t _ => t.wf
  | .call t _ => t.wf
  | .jmp t _ => t.wf
  | .exit t _ => t.wf
  | .dld t _ => t.wf
  | .dst t _ => t.wf
  | .dset t _ => t.wf
  | .dget t _ => t.wf
  | .sread t _ => t.wf
  | .tld t _ => t.wf
  | .tst t _ => t.wf
  | .tcp t _ => t.wf
  | .mma t _ => t.wf
  | .mmab t _ => t.wf
  | .vopAdd t _ => t.wf
  | .vopSub t _ => t.wf
  | .vopMul t _ => t.wf
  | .vopMax t _ => t.wf
  | .vopMin t _ => t.wf
  | .vopScale t _ => t.wf
  | .vopAbs t _ => t.wf
  | .vopNeg t _ => t.wf
  | .vopFma t _ => t.wf
  | .actRelu t _ => t.wf
  | .actGelu t _ => t.wf
  | .actSilu t _ => t.wf
  | .actExp t _ => t.wf
  | .actTanh t _ => t.wf
  | .actSigmoid t _ => t.wf
  | .actRecip t _ => t.wf
  | .actRsqrt t _ => t.wf
  | .cvt t _ => t.wf
  | .stagOpen t _ => t.wf
  | .stagClose t _ => t.wf
  | .stash t _ => t.wf
  | .unstash t _ => t.wf
  | .recomp t _ => t.wf
  | .update t _ => t.wf
  | .bktAdd t _ => t.wf
  | .verRead t _ => t.wf
  | .semWait t _ => t.wf
  | .semPost t _ => t.wf
  | .semInit t _ => t.wf
  | .fence t _ => t.wf
  | .barrier t _ => t.wf
  | .slot t _ => t.wf
  | .allReduce t _ => t.wf
  | .reduceScatter t _ => t.wf
  | .allGather t _ => t.wf
  | .reduce t _ => t.wf
  | .broadcast t _ => t.wf
  | .allToAll t _ => t.wf
  | .permute t _ => t.wf
  | .fwwPut t _ => t.wf
  | .groupBarrier t _ => t.wf
  | .tileInstructionComplete t _ => t.wf
  | .landingFillComplete array => arrayWf array
  | .frontEntry array _ => arrayWf array
  | .passStart array _ => arrayWf array
  | .passDrain array => arrayWf array
  | .arrayPowerGate array => arrayWf array
  | .arrayWake array _ => arrayWf array
  | .arrayInternalError array => arrayWf array
  | .arraySelfCheckDone array _ => arrayWf array
  | .chipInternalError => true
  | .tagUnitBind array ctx sl _ => arrayWf array && ctxWf ctx && sl < 16
  | .tagRecordWrite array ctx sl => arrayWf array && ctxWf ctx && sl < 16
  | .stashFillComplete ctx _ _ => ctxWf ctx
  | .pantrySpillComplete ctx _ => ctxWf ctx
  | .bktAddStart t _ _ => t.wf
  | .bucketFoldComplete ctx _ => ctxWf ctx
  | .bucketReductionEnd ctx _ => ctxWf ctx
  | .versionedReadBind t _ _ => t.wf
  | .updateStart t _ _ _ => t.wf
  | .commitPointReached ctx _ => ctxWf ctx
  | .semWaitComplete t _ => t.wf
  | .slotEnd _ => true
  | .slotGateOpen _ _ => true
  | .launchComplete _ => true
  | .admission => true
  | .contextReadmission ctx => ctxWf ctx
  | .suspendSaveComplete ctx => ctxWf ctx
  | .contextRestoreComplete ctx => ctxWf ctx
  | .contextDrainComplete ctx => ctxWf ctx
  | .drainForce ctx => ctxWf ctx
  | .frameZeroed _ => true
  | .granuleSwitchComplete _ => true
  | .pageSpillComplete _ => true
  | .pageReturnComplete _ _ => true
  | .repairHostReadDone _ _ => true
  | .repairBudgetExpiry _ => true
  | .rowRetirementComplete _ _ => true
  | .channelCopyComplete _ => true
  | .scrubPass _ => true
  | .scrubWake => true
  | .atticSelfRefreshEntry stack => stack < 8
  | .atticSelfRefreshExit stack _ => stack < 8
  | .signalDetected port lanes => portWf port && lanes ≤ 16
  | .signalLost port => portWf port
  | .trainingTimeout port => portWf port
  | .flitLock port _ _ => portWf port
  | .keyConfirmation port _ _ _ _ _ => portWf port
  | .lossOfLock port => portWf port
  | .replayLimit port => portWf port
  | .retrainTimeout port => portWf port
  | .authFailureLimit port => portWf port
  | .dataFlitRx port f => portWf port && f.wf
  | .controlFlitRx port f _ => portWf port && f.wf
  | .ackTimer port => portWf port
  | .encryptionFrameRx port _ _ => portWf port
  | .frameClose port => portWf port
  | .idleFlitInsert port => portWf port
  | .readReq port k => portWf port && k.wf
  | .readRsp port k => portWf port && k.wf
  | .writeReq port k => portWf port && k.wf
  | .writeAck port k => portWf port && k.wf
  | .atomicReq port k => portWf port && k.wf
  | .atomicRsp port k => portWf port && k.wf
  | .semPostPacket port k => portWf port && k.wf
  | .semAck port k => portWf port && k.wf
  | .repairRead port k => portWf port && k.wf
  | .repairRsp port k => portWf port && k.wf
  | .hello port k => portWf port && k.wf
  | .helloRsp port k => portWf port && k.wf
  | .genRetire port k => portWf port && k.wf
  | .timeSync port k => portWf port && k.wf
  | .timeRsp port k => portWf port && k.wf
  | .timeSyncTimer => true
  | .fabricTimeout _ => true
  | .flowMove dest vc => dest < 65536 && vc < 8
  | .collData port k => portWf port && k.wf
  | .collResult port k => portWf port && k.wf
  | .pieceAck port k => portWf port && k.wf
  | .ready port k => portWf port && k.wf
  | .arrive port k => portWf port && k.wf
  | .flag port k => portWf port && k.wf
  | .probe port k => portWf port && k.wf
  | .probeRsp port k => portWf port && k.wf
  | .probeInterval _ => true
  | .fwwClaim port k => portWf port && k.wf
  | .fwwClaimRsp port k => portWf port && k.wf
  | .fwwData port k => portWf port && k.wf
  | .fwwDataAck port k => portWf port && k.wf
  | .fwwClaimExpiry _ => true
  | .pairOffer port k => portWf port && k.wf
  | .unpair port k => portWf port && k.wf
  | .snapData port k => portWf port && k.wf
  | .snapAck port k => portWf port && k.wf
  | .snapCommit port k => portWf port && k.wf
  | .mirrorRead port k => portWf port && k.wf
  | .mirrorData port k => portWf port && k.wf
  | .dirSync port k => portWf port && k.wf
  | .adopt port k => portWf port && k.wf
  | .cowCopyComplete _ _ => true
  | .twinGraceExpiry => true
  | .powerGood => true
  | .keyReconstruction _ => true
  | .firmwareVerified _ _ => true
  | .foyerService _ _ => true
  | .fullService _ _ _ => true
  | .inputUndervoltage => true
  | .inputOvervoltage => true
  | .inputShort => true
  | .thermalThrottle _ => true
  | .thermalCountdown _ => true
  | .thermalShutdown _ => true
  | .leakDetected => true
  | .timeSave => true
  | .syncLoss => true
  | .ptpMessage _ => true
  | .openSession m => m.wf
  | .mgmtCommand d => d.wf
  | .closeSession session => session < 65536
  | .fragmentTimeout session => session < 65536
  | .sessionIdleTimeout session => session < 65536
  | .telemetry => true
  | .healthUpdate => true
  | .txnTimeout _ => true
  | .loanExpiry _ => true
  | .inputMonitorSample _ _ => true
  | .thermalThrottleEnd _ => true
  | .perstDeassert => true
  | .quoteSigned => true
  | .commitWindowClose => true
  | .probationTestDone _ => true
  | .memCopyComplete _ => true
  | .sourceBehindEntry => true

end Sys2Proof
end

