-- ==== Sys2Proof/Safety.lean ====
section
/-! DEFINITION. The terms that the claims use: when a thread issues an instruction, when a ring carries a command to its
rules, what a command leaves as it was, and the invariants that every command keeps. -/

namespace Sys2Proof

open Sys2Proof.Machine

/-! ### Answers -/

/-- A command answers a next state, and that state has a property. -/
def Completes (c : Instr) (s : State) (p : State → Prop) : Prop := ∃ u, exec c s = .next u ∧ p u

/-! ### Invariants -/

/-- The tile instructions in flight have numbers below the one that the next gets (R114). -/
def NumbersOk (s : State) : Prop := ∀ e ∈ s.threads, ∀ o ∈ e.2.ops, o.id < s.nextOp

/-- Every event counter lies within its 48 bits (R391). -/
def CountersOk (s : State) : Prop := ∀ e ∈ s.counters, e.2.value ≤ ctrMax

/-- What is stored in the attic and the twin's mirror, and what the module has written on the host's bus, is in the
canonical form of a cell list. -/
def StorageOk (s : State) : Prop :=
  s.memory.wf = true ∧ cellsWf s.host.bus = true ∧ cellsWf s.twin.mirror = true

/-- What a module of its variant can report of itself: the FP64 path serves only where it is fitted (R2), the service
level and the lane rates are ones that R6 and R251 name, and the incarnation is a nonzero 16-bit number (R376). -/
structure ServiceOk (s : State) : Prop where
  fp64 : s.fp64Serving = true → s.variant = .ec6480
  level : s.serviceLevel ≤ 2
  lane : s.laneRate = 64 ∨ s.laneRate = 128
  permitted : s.permittedRate = 64 ∨ s.permittedRate = 128
  incarnationPos : 1 ≤ s.lodge.incarnation
  incarnationMax : s.lodge.incarnation ≤ 0xFFFF

/-! ### Threads -/

/-- A thread reads the instruction at its PC: it is `RUNNING`, its context is `ACTIVE`, and the PC is a multiple of 16 in a
page of this module that its context may read (R112, R113, R119, R120). -/
structure ReadsAtPc (s : State) (t : ThreadId) : Prop where
  running : (s.thread t).state = .running
  active : (s.ctx (s.thread t).ctx).state = .active
  here : devOf (s.thread t).pc = s.lodge.deviceId
  aligned : (s.thread t).pc.toNat % 16 = 0
  readable : s.mayRead (s.thread t).ctx (locOf (s.thread t).pc) = true

/-- A thread issues at its PC, where an instruction stands that R124 lists. -/
structure Fetches (s : State) (t : ThreadId) : Prop extends ReadsAtPc s t where
  listed : wordListed (s.wordAt (s.thread t)) = true

/-- No tile instruction of a thread has the number that the next one gets: numbers are given in order (R114). -/
def FreshNumber (s : State) (t : ThreadId) : Prop := ∀ o ∈ (s.thread t).ops, o.id < s.nextOp

/-- A thread issues an instruction whose predicate test passes (R121, R124). -/
structure Issues (s : State) (t : ThreadId) (pred : BitVec 3) (pneg : Bool) : Prop extends Fetches s t where
  passes : ((s.thread t).pred pred != pneg) = true

/-- The state in which an issued instruction acts: its issue is counted (R113). -/
def Machine.State.issued (s : State) (t : ThreadId) : State := s.count cInstrIssued t.array

/-- The fields that every scalar-group instruction leaves zero (R123, R124). -/
def ScalarZero (w : ScalarWord) : Prop := w.rsvdHi = 0 ∧ w.rsvdLo = 0

/-- `IMMB` selects between SB and `IMM`, and the one not selected is zero (R123, R124). -/
def SecondChosen (w : ScalarWord) : Prop := if w.immb then w.sb = 0 else w.imm = 0

/-- The second operand (R123). -/
def second (w : ScalarWord) (x : Thread) : Word := if w.immb then w.imm else x.reg w.sb

/-- The local memory that an access meets holds no error, no line under repair, no row that is being relocated and no `LOST`
line (R232, R236, R241, R244). -/
structure MemoryClean (s : State) : Prop where
  ecc : s.memory.eccErrors = []
  cellar : s.memory.cellarErrors = []
  repairing : s.memory.repairing = []
  retiring : s.memory.retiringRows = []
  lost : s.memory.lost = []
  lostPages : s.memory.lostPages = []

/-- A local access at an address: the device is this module, the address is aligned, and every page of the range is
mapped for the thread's context, for writing where asked (R120, R126). -/
structure LocalAccess (s : State) (t : ThreadId) (a : Word) (n : Nat) (write : Bool) : Prop where
  here : devOf a = s.lodge.deviceId
  known : devOf a ≠ 0xFFFF
  aligned : a.toNat % n = 0
  mapped : (if write then s.canWrite (s.thread t).ctx (locOf a) n else s.canRead (s.thread t).ctx (locOf a) n) = true
  clean : MemoryClean s

/-- A request of this module to another waits for its answer under a tag: its type, and what its packet asks (R258). -/
def Asked (u : State) (tag type : Nat) (p : Packet → Prop) : Prop :=
  ∃ r, Map.get? u.fabric.requests tag = some r ∧ r.out.type = type ∧ p r.out.packet

/-- A thread's access to another module that its earlier stores do not meet (R118, R139). -/
structure AwayAccess (s : State) (t : ThreadId) (a : Word) (n : Nat) : Prop where
  away : devOf a ≠ s.lodge.deviceId
  known : devOf a ≠ 0xFFFF
  aligned : a.toNat % n = 0
  clear : s.storeMeets (s.thread t) a n = false

/-- A thread waits in an instruction with its PC and registers as they were, and no byte of memory has changed (R112). -/
def Waits (s u : State) (t : ThreadId) (w : Wait) : Prop :=
  (u.thread t).state = .waiting ∧ (u.thread t).wait = some w ∧ (u.thread t).pc = (s.thread t).pc ∧
    (u.thread t).regs = (s.thread t).regs ∧ (u.thread t).preds = (s.thread t).preds ∧
    (u.thread t).descs = (s.thread t).descs ∧ u.memory.bytes = s.memory.bytes

/-- A thread goes on at the next instruction with its registers as they were (R112). -/
def GoesOn (s u : State) (t : ThreadId) : Prop :=
  (u.thread t).state = .running ∧ (u.thread t).pc = (s.thread t).pc + 16 ∧ (u.thread t).regs = (s.thread t).regs ∧
    (u.thread t).descs = (s.thread t).descs

/-- A tile instruction has entered its thread's queue: the thread goes on at the next instruction, the new last entry of
the queue holds the instruction's word and the values of the descriptors and registers that it names, its group counts
one more, and the thread's registers and predicates are as before (R113 to R115). q is what else the entry holds. -/
structure Entered (s u : State) (t : ThreadId) (w : TileWord) (kind : TileKind) (word : InstrWord) (q : TileOp → Prop) :
    Prop where
  goes : GoesOn s u t
  preds : (u.thread t).preds = (s.thread t).preds
  entry : ∃ o, (u.thread t).ops = (s.thread t).ops ++ [o] ∧ o.id = s.nextOp ∧ o.kind = kind ∧ o.word = word ∧
    o.pc = (s.thread t).pc ∧ o.cg = w.cg.toNat ∧ o.d = (s.thread t).descr w.d ∧ o.a = (s.thread t).descr w.a ∧
    o.b = (s.thread t).descr w.b ∧ o.c = (s.thread t).descr w.c ∧ o.s1 = (s.thread t).reg w.s1 ∧ o.imm = w.imm ∧
    o.noTrap = w.noTrap ∧ q o
  group : ∀ g : Fin 8, ((u.thread t).groups[g]).count = ((s.thread t).groups[g]).count + (if g.val = w.cg.toNat then 1 else 0)
  nextOp : u.nextOp = s.nextOp + 1

/-- A tile instruction waits in its thread's queue for what its unit needs, and no byte of memory has changed. -/
def Queued (s u : State) (t : ThreadId) (w : TileWord) (kind : TileKind) (word : InstrWord) : Prop :=
  Entered s u t w kind word (fun o => o.phase = .queued) ∧ u.memory.bytes = s.memory.bytes

/-! ### Packets of the fabric -/

/-- The state once a packet has been taken out of a port's receive buffer (R261, R264, R465). -/
def Machine.State.arrived (s : State) (p type : Nat) (k : Packet) : State := (s.modPort p Port.take).traceHeader p type k

/-- A packet stands at the front of a port's receive buffer, and the port delivers its type (R250, R264, R268). -/
structure Stands (s : State) (p type : Nat) (k : Packet) : Prop where
  delivers : s.delivers p type = true
  front : (s.port p).front = some (type, { k with span := none })

/-- A packet that a port delivers, that is not stale, and whose form and destination are right (R269 to R271). -/
structure Arrives (s : State) (p type : Nat) (k : Packet) : Prop extends Stands s p type k where
  fresh : (s.arrived p type k).staleDrop p type k = none
  form : formOk type k = true
  mine : k.dstDevice = s.lodge.deviceId

/-- A twin packet that a port delivers from a module that may send it here (R413). -/
structure TwinArrives (s : State) (p sub : Nat) (k : Packet) : Prop
    extends Arrives s p tTwin k where
  operation : k.operation = sub
  context : k.ctxId = 0
  may : s.twinMay sub k.srcDevice = true

/-! ### Host commands -/

/-- The header of a command under the carrier that the Steward gives it (R329, R438). -/
def carried (h : CmdHeader) : CmdHeader := if h.session ≠ 0 then { h with ring := 0xFFFF } else h

/-- The state once the Steward has taken a command from its ring or the Lodge from its session: the entries are consumed,
or the session's next sequence number is due (R327, R438). -/
def Machine.State.consumed (s : State) (op : Nat) (h : CmdHeader) : State :=
  if h.session ≠ 0 then
    s.modSession h.session fun x => { x with next := ((s.session? h.session).map (·.next)).getD 0 + 1 }
  else
    ((s.modRing h.ring fun r =>
      { r with cmdHead := r.cmdHead + BitVec.ofNat 32 (entriesOf h.paramLength.toNat), outstanding := r.outstanding + 1 }).count cCommandsTaken 0).modHost fun x =>
      { x with lastCmdTime := s.now, lastCmdRing := h.ring, lastCmdOpcode := op }

/-- The record of a command that has been taken: its handle, the command, and the state in which its rules are looked at
(R327, R329, R335). -/
def Machine.State.begun (s : State) (op : Nat) (h : CmdHeader) (p : Bytes) : Nat × OutCmd × State :=
  let s1 := s.consumed op h
  let g := s1.host.nextHandle
  let k : OutCmd :=
    { header := carried h, opcode := op, ctx := s1.boundCtx (carried h), generation := s1.gen (s1.boundCtx (carried h))
      takenAt := s1.now, work := .drain 0
      mgSequence := if h.session ≠ 0 then ((s.session? h.session).map (·.next)).getD 0 else 0
      object := objectOf op (padTo h.paramLength.toNat p) }
  (g, k, (s1.modHost fun x => { x with nextHandle := g + 1, commands := Map.put x.commands g k }).traceCommand k 0)

/-- The Steward or the Lodge takes a command of at most 4,096 parameter bytes (R327, R438). -/
def Taken (s : State) (op : Nat) (h : CmdHeader) : Prop :=
  h.paramLength.toNat ≤ 4096 ∧
    (if h.session ≠ 0 then (s.session? h.session).isSome = true ∧ s.sessionTakes h.session op = true
     else s.ringTakes h.ring op h.paramLength.toNat = true)

/-- A command that is taken passes the checks of R335 up to those of its own chapter, and joins no transaction. -/
structure Runs (s : State) (op : Nat) (h : CmdHeader) (p : Bytes) : Prop where
  taken : Taken s op h
  form : checkForm (s.begun op h p).2.1 (padTo h.paramLength.toNat p) = none
  fitted : (s.begun op h p).2.2.absentUnit op (padTo h.paramLength.toNat p) = false
  units : (s.begun op h p).2.2.unitWaits op (padTo h.paramLength.toNat p) = false
  context : (namedCtx op (padTo h.paramLength.toNat p)).any (s.begun op h p).2.2.noCtx = false
  serves : (s.begun op h p).2.2.outOfService op = false
  unnoticed : (s.begun op h p).2.2.noticed (s.begun op h p).2.1 = false
  alone : h.txnId = 0

/-- What the rules of a command answer is carried out: a final reply is written, and a command that waits stays (R327,
R335). Versioned reads of other modules that wait are looked at again (R194). -/
def answered (g : Nat) (a : Answer) : State := match a with
  | (some r, u) => (u.finishCmd g r).versionsReady
  | (none, u) => u.versionsReady

/-- Wherever a command passes the common checks and a condition of its own holds, of the state v, the taken command k and
the parameters q, it completes with `DONE`, and its reply r and the state u that its rules leave have a property. -/
def Finishes (op : Nat) (c : CmdHeader → Bytes → Instr) (pre : State → OutCmd → Bytes → Prop)
    (post : State → OutCmd → Bytes → Reply → State → Prop) : Prop :=
  ∀ (s : State) (h : CmdHeader) (p : Bytes), Runs s op h p →
    let b := s.begun op h p
    let q := padTo h.paramLength.toNat p
    pre b.2.2 b.2.1 q →
    ∃ (r : Reply) (u : State), r.code = .done ∧ exec (c h p) s = .next ((u.finishCmd b.1 r).versionsReady) ∧
      post b.2.2 b.2.1 q r u

/-- As `Finishes`, for a command that has started and waits for its end; g is its handle. -/
def Starts (op : Nat) (c : CmdHeader → Bytes → Instr) (pre : State → OutCmd → Bytes → Prop)
    (post : State → Nat → OutCmd → Bytes → State → Prop) : Prop :=
  ∀ (s : State) (h : CmdHeader) (p : Bytes), Runs s op h p →
    let b := s.begun op h p
    let q := padTo h.paramLength.toNat p
    pre b.2.2 b.2.1 q →
    ∃ u : State, exec (c h p) s = .next u.versionsReady ∧ post b.2.2 b.1 b.2.1 q u

/-- The host commands with their opcodes and the rules of each (R334, R440). Firmware activation, a configuration write
and a probation test run only as commands of a transaction (R386, R440). -/
def hostRows : List ((CmdHeader → Bytes → Instr) × Nat × (State → Nat → OutCmd → Bytes → Answer)) := [
  (.nop, 0x0000, fun v _ _ _ => v.cmdNop), (.heartbeat, 0x0001, fun v _ _ q => v.cmdHeartbeat q),
  (.queryCaps, 0x0002, fun v _ k q => v.cmdQueryCaps k q), (.ackAttention, 0x0003, fun v _ _ q => v.cmdAckAttention q),
  (.queryFault, 0x0004, fun v _ k q => v.cmdQueryFault k q), (.readCounters, 0x0005, fun v _ k q => v.cmdReadCounters k q),
  (.timeRead, 0x0006, fun v _ _ _ => v.cmdTimeRead), (.ctxCreate, 0x0100, fun v g _ q => v.cmdCtxCreate g q),
  (.ctxDestroy, 0x0101, fun v g _ q => v.cmdDrain g q true), (.ctxReset, 0x0102, fun v g _ q => v.cmdDrain g q false),
  (.ctxSuspend, 0x0103, fun v g _ q => v.cmdCtxSuspend g q), (.ctxResume, 0x0104, fun v g _ q => v.cmdCtxResume g q),
  (.ctxQuery, 0x0105, fun v _ k q => v.cmdCtxQuery k q), (.ringBind, 0x0106, fun v _ _ q => v.cmdRingBind q),
  (.ringUnbind, 0x0107, fun v _ k q => v.cmdRingUnbind k q), (.memMap, 0x0200, fun v _ k q => v.cmdMemMap k q),
  (.memUnmap, 0x0201, fun v g k q => v.cmdMemUnmap g k q), (.memPin, 0x0202, fun v _ k q => v.cmdMemPin k q),
  (.memHint, 0x0203, fun v _ k q => v.cmdMemHint k q), (.memCopy, 0x0204, fun v g k q => v.cmdMemCopy g k q),
  (.memFill, 0x0205, fun v g k q => v.cmdMemFill g k q), (.poolQuota, 0x0206, fun v _ _ q => v.cmdPoolQuota q),
  (.provenanceSet, 0x0207, fun v _ k q => v.cmdProvenance k q), (.modelLoad, 0x0300, fun v g _ q => v.cmdModelLoad g q),
  (.modelEvict, 0x0301, fun v _ _ q => v.cmdModelEvict q), (.loanPresent, 0x0302, fun v g k q => v.cmdLoanPresent g k q),
  (.loanRevoke, 0x0303, fun v _ k q => v.cmdLoanRevoke k q), (.launch, 0x0400, fun v g k q => v.cmdLaunch g k q),
  (.batchSubmit, 0x0401, fun v g k q => v.cmdLaunch g k q), (.fenceCommand, 0x0402, fun v g k _ => v.cmdFence g k),
  (.stepCommit, 0x0403, fun v g k q => v.cmdStepCommit g k q), (.stepAbandon, 0x0404, fun v _ k q => v.cmdStepAbandon k q),
  (.portState, 0x0500, fun v g k q => v.cmdPortState g k q), (.routeSet, 0x0501, fun v _ k q => v.cmdRouteSet k q),
  (.groupDefine, 0x0502, fun v _ k q => v.cmdGroupDefine k q), (.permutePlan, 0x0503, fun v _ k q => v.cmdPermutePlan k q),
  (.timeoutSet, 0x0504, fun v _ k q => v.cmdTimeoutSet k q), (.ckptBegin, 0x0600, fun v g k q => v.cmdCkptBegin g k q),
  (.ckptDrain, 0x0601, fun v g k q => v.cmdCkptDrain g k q), (.ckptRestore, 0x0602, fun v g k q => v.cmdCkptRestore g k q),
  (.twinState, 0x0603, fun v _ k q => v.cmdTwinState k q), (.twinAdopt, 0x0604, fun v _ _ q => v.cmdTwinAdopt q),
  (.attest, 0x0700, fun v g k q => v.cmdAttest g k q), (.identityRead, 0x0701, fun v _ k q => v.cmdIdentity k q),
  (.txnBegin, 0x0800, fun v _ k q => v.cmdTxnBegin k q), (.txnCommit, 0x0801, fun v g k q => v.cmdTxnCommit g k q),
  (.txnAbort, 0x0802, fun v _ k q => v.cmdTxnAbort k q), (.txnQuery, 0x0803, fun v _ _ q => v.cmdTxnQuery q),
  (.fwStage, 0x0A00, fun v _ k q => v.cmdFwStage k q), (.fwActivate, 0x0A01, fun v _ _ _ => v.says .badPacket),
  (.cfgWrite, 0x0A02, fun v _ _ _ => v.says .badPacket), (.debugRead, 0x0A03, fun v g k q => v.cmdDebugRead g k q),
  (.debugWrite, 0x0A04, fun v g k q => v.cmdDebugWrite g k q), (.traceStart, 0x0A05, fun v _ k q => v.cmdTraceStart k q),
  (.traceStop, 0x0A06, fun v _ k q => v.cmdTraceStop k q), (.logRead, 0x0A07, fun v _ k q => v.cmdLogRead k q),
  (.ctrClear, 0x0A08, fun v _ k q => v.cmdCtrClear k q), (.powerCap, 0x0A09, fun v _ _ q => v.cmdPowerCap q),
  (.resetModule, 0x0A0A, fun v g k q => v.cmdResetModule g k q), (.probationTest, 0x0A0B, fun v _ _ _ => v.says .badPacket)]

/-! ### What a command leaves as it was -/

/-- Every thread but one is as it was. -/
def OtherThreads (s u : State) (t : ThreadId) : Prop :=
  ∀ v : ThreadId, v.array < 64 → v ≠ t → u.thread v = s.thread v

/-- Every byte of the local memory outside n bytes at an address reads as before. -/
def BytesOutside (s u : State) (a n : Nat) : Prop :=
  ∀ b, (b < a ∨ a + n ≤ b) → cellRead u.memory.bytes b = cellRead s.memory.bytes b

/-- Contexts, launches, arrays, statistics tags, training state, host interface, fabric, Collective Engine, Party Wall and
Strongroom are as they were: a command of one thread touches none of them. -/
structure UnitsKept (s u : State) : Prop where
  ctxs : u.ctxs = s.ctxs
  launches : u.launches = s.launches
  arrays : u.arrays = s.arrays
  tags : u.tags = s.tags
  stashes : u.stashes = s.stashes
  trains : u.trains = s.trains
  guards : u.guards = s.guards
  host : u.host = s.host
  fabric : u.fabric = s.fabric
  coll : u.coll = s.coll
  twin : u.twin = s.twin
  strongroom : u.strongroom = s.strongroom

end Sys2Proof
end

