-- ==== Sys2Proof/Certificates/Slice0/Obligations.lean ====
section
/-! DEFINITION. The statements for the provers: what the spec's rules say of the commands and of the block. -/

open Sys2Proof Sys2Proof.Machine

/-! ### The block: queue, idling, reset and the state every command keeps -/

/-- A step carries out the command at the front of the queue on the state with the rest of the queue. -/
def Obligations.StepRunsTheFrontCommand : Prop :=
  ∀ (c : Instr) (rest : List Instr) (s : State), s.pending = c :: rest → step s = exec c { s with pending := rest }

/-- Every command answers a next state: no command stops the block with a fault or a refusal. The model's choice
(notes/assumptions/4.md): a command whose condition does not hold leaves the state as it was. -/
def Obligations.EveryCommandAnswersANextState : Prop := ∀ (c : Instr) (s : State), ∃ u, exec c s = .next u

/-- On an empty queue one cycle of the oscillator passes: device time, kept in 2^-16 ns, advances by 40 ns and the
servo's correction (R14, R451), and nothing else changes; while the power is off nothing changes. That an idle step is
one cycle, and the stop once device time would leave its 64 bits, are the model's choices (notes/assumptions/3.md). -/
def Obligations.IdleStepAdvancesDeviceTime : Prop :=
  ∀ s : State, s.pending = [] →
    (s.lodge.phase = .off → step s = .next s) ∧
    (s.lodge.phase ≠ .off →
      (s.lodge.time16 + (40 * 65536 + s.lodge.rate16).toNat) / 65536 < 2 ^ 64 →
      step s = .next { s with lodge := { s.lodge with
        time16 := s.lodge.time16 + (40 * 65536 + s.lodge.rate16).toNat } }) ∧
    (s.lodge.phase ≠ .off →
      2 ^ 64 ≤ (s.lodge.time16 + (40 * 65536 + s.lodge.rate16).toNat) / 65536 →
      step s = .fault .deviceTimeExhausted)

/-- What reset leaves: no service, no context but context 0, no memory mapped or listed, every array power-gated,
no event counted, no attention pending, no ring bound, no port active, and an empty queue. It meets the invariants that
every step keeps. The variant and the phase
before power-good are the model's choice (notes/assumptions/3.md). -/
def Obligations.ResetLeavesNothingServing : Prop :=
  State.reset.pending = [] ∧ State.reset.serviceLevel = 0 ∧ State.reset.deviceReady = false ∧
  State.reset.stewardRunning = false ∧ State.reset.fp64Serving = false ∧
  State.reset.memory.bytes = [] ∧ State.reset.memory.pages = [] ∧ State.reset.threads = [] ∧
  State.reset.launches = [] ∧ State.reset.counters = [] ∧ State.reset.attnPending = [] ∧
  State.reset.host.rings = [] ∧ State.reset.host.commands = [] ∧ State.reset.lodge.sessions = [] ∧
  (∀ p, (State.reset.port p).state = .disabled ∨ (State.reset.port p).state = .down) ∧
  ServiceOk State.reset ∧ CountersOk State.reset ∧ StorageOk State.reset ∧ NumbersOk State.reset

/-- Every step keeps what the module reports of itself within what its variant fits (R2, R6, R251, R376). -/
def Obligations.EveryStepKeepsServiceOk : Prop := ∀ s u : State, ServiceOk s → step s = .next u → ServiceOk u

/-- Every step keeps the attic, the twin's mirror and what the module has written on the host's bus in their canonical
form, addresses strictly rising and no zero byte listed, and every event counter within its 48 bits (R391). The form is
the model's own: it makes equal contents equal lists. -/
def Obligations.EveryStepKeepsStorageAndCounters : Prop :=
  ∀ s u : State, StorageOk s → CountersOk s → step s = .next u → StorageOk u ∧ CountersOk u

/-- Every step keeps the numbers of tile instructions in flight below the next one, so an instruction that enters a queue
is told from all others (R114). The numbering is the model's own. -/
def Obligations.EveryStepNumbersTileInstructionsAfresh : Prop :=
  ∀ s u : State, NumbersOk s → step s = .next u → NumbersOk u

/-- No command changes the queue of waiting commands or the variant of the module: a step only takes the front
command off, so a command cannot put another in. -/
def Obligations.CommandsKeepTheQueueAndTheVariant : Prop :=
  ∀ (c : Instr) (s u : State), exec c s = .next u → u.pending = s.pending ∧ u.variant = s.variant

/-! ### Instruction words -/

/-- An instruction word has its fields where R121 to R123 put them: the decoding of the encoding of a listed instruction,
with every field at every value, is that instruction (R121 to R124); a `COLL` is the operation that `IMM`[23:16] names
(R291). A word whose `MAJOR` and `MINOR` are not listed is no instruction. -/
def Obligations.InstructionWordsDecodeToTheirInstruction : Prop :=
  (∀ (t : ThreadId) (w : ScalarWord) (major minor : Nat), major < 256 → minor < 256 →
    (scalarInstr t w major minor).isSome = true →
      wordListed (encodeScalar w major minor) = true ∧
        decodeInstr t (encodeScalar w major minor) = scalarInstr t w major minor) ∧
  (∀ (t : ThreadId) (w : TileWord) (major minor : Nat), major < 256 → minor < 256 →
    (tileInstr t w major minor).isSome = true →
      wordListed (encodeTile w major minor) = true ∧
        decodeInstr t (encodeTile w major minor) = tileInstr t w major minor) ∧
  (∀ (t : ThreadId) (w : TileWord),
    wordListed (encodeTile w 0x70 0x00) = true ∧ decodeInstr t (encodeTile w 0x70 0x00) = collInstr t w) ∧
  (∀ (t : ThreadId) (w : InstrWord), wordListed w = false → decodeInstr t w = none)

/-! ### Scalar instructions -/

/-- The arithmetic instructions write their result of SA and the second operand to SD and advance the PC by 16; every
other register, predicate and descriptor of the thread is as before (R123, R125). Each is written out here: shift counts
are taken modulo 64, `MULHU` is the upper half of the unsigned product, `SRA`, `MIN` and `MAX` are signed. -/
def Obligations.ScalarArithmeticWritesItsResult : Prop :=
  ∀ (s : State) (t : ThreadId) (w : ScalarWord), Issues s t w.pred w.pneg → ScalarZero w → w.var = 0 → w.pd = 0 →
    SecondChosen w →
    ∀ p ∈ ([(.add, fun a b => a + b), (.sub, fun a b => a - b), (.mul, fun a b => a * b),
        (.mulhu, fun a b => BitVec.ofNat 64 (a.toNat * b.toNat / 2 ^ 64)),
        (.and, fun a b => a &&& b), (.or, fun a b => a ||| b), (.xor, fun a b => a ^^^ b),
        (.shl, fun a b => a <<< (b.toNat % 64)), (.shr, fun a b => a >>> (b.toNat % 64)),
        (.sra, fun a b => a.sshiftRight (b.toNat % 64)),
        (.min, fun a b => if a.toInt ≤ b.toInt then a else b),
        (.max, fun a b => if a.toInt ≤ b.toInt then b else a)] :
          List ((ThreadId → ScalarWord → Instr) × (Word → Word → Word))),
      exec (p.1 t w) s = .next ((s.issued t).setThread t
        { s.thread t with
          regs := (s.thread t).regs.set w.sd.toNat (p.2 ((s.thread t).reg w.sa) (second w (s.thread t))) w.sd.isLt
          pc := (s.thread t).pc + 16 })

/-- The compares write whether their relation holds to PD, and the predicate instructions their result of predicates;
a write to p0 is ignored (R110, R124, R125). Nothing else of the thread changes but the PC. -/
def Obligations.ComparesWriteTheirPredicate : Prop :=
  ∀ (s : State) (t : ThreadId) (w : ScalarWord), Issues s t w.pred w.pneg → ScalarZero w → w.var = 0 → w.sd = 0 →
    SecondChosen w →
    ∀ p ∈ ([(.cmpeq, fun a b => decide (a = b)), (.cmpne, fun a b => decide (a ≠ b)),
        (.cmplt, fun a b => decide (a.toInt < b.toInt)), (.cmpltu, fun a b => decide (a.toNat < b.toNat)),
        (.cmple, fun a b => decide (a.toInt ≤ b.toInt)), (.cmpleu, fun a b => decide (a.toNat ≤ b.toNat))] :
          List ((ThreadId → ScalarWord → Instr) × (Word → Word → Bool))),
      exec (p.1 t w) s = .next ((s.issued t).setThread t
        { s.thread t with
          preds := if w.pd = 0 then (s.thread t).preds
            else (s.thread t).preds.set w.pd.toNat (p.2 ((s.thread t).reg w.sa) (second w (s.thread t))) w.pd.isLt
          pc := (s.thread t).pc + 16 })

/-- Predicate p0 always reads 1, a write to p0 is ignored, and every other predicate reads what was written (R110). `MOV`
writes the second operand to SD, s0 as any other register; `PAND`, `POR`, `PXOR` and `PNOT` write their result of the
predicates that SA and SB name to PD. -/
def Obligations.MovesAndPredicateLogic : Prop :=
  (∀ (x : Thread) (p q : BitVec 3) (v : Bool),
    x.pred 0 = true ∧ x.setPred 0 v = x ∧ (p ≠ 0 → (x.setPred p v).pred p = v) ∧
      (q ≠ p → (x.setPred p v).pred q = x.pred q)) ∧
  (∀ (s : State) (t : ThreadId) (w : ScalarWord), Issues s t w.pred w.pneg → ScalarZero w → w.var = 0 →
    (w.sa = 0 → w.pd = 0 → SecondChosen w →
      exec (.mov t w) s = .next ((s.issued t).setThread t
        { s.thread t with regs := (s.thread t).regs.set w.sd.toNat (second w (s.thread t)) w.sd.isLt
                          pc := (s.thread t).pc + 16 })) ∧
    (w.sd = 0 → w.immb = false → w.imm = 0 → w.sa.toNat < 8 → w.sb.toNat < 8 →
      ∀ p ∈ ([(.pand, fun a b => a && b), (.por, fun a b => a || b), (.pxor, fun a b => a != b)] :
          List ((ThreadId → ScalarWord → Instr) × (Bool → Bool → Bool))),
        exec (p.1 t w) s = .next ((s.issued t).setThread t
          { (s.thread t).setPred w.pd (p.2 ((s.thread t).pred (w.sa.setWidth 3)) ((s.thread t).pred (w.sb.setWidth 3))) with
            pc := (s.thread t).pc + 16 })) ∧
    (w.sd = 0 → w.immb = false → w.imm = 0 → w.sa.toNat < 8 → w.sb = 0 →
      exec (.pnot t w) s = .next ((s.issued t).setThread t
        { (s.thread t).setPred w.pd (!(s.thread t).pred (w.sa.setWidth 3)) with pc := (s.thread t).pc + 16 })))

/-- What the scalar instructions on registers leave as it was, whether their predicate test passes or not: every other
thread, every byte of memory, the descriptors, and every unit but the event counters (R113, R125). -/
def Obligations.RegisterInstructionsTouchNothingElse : Prop :=
  ∀ (s u : State) (t : ThreadId) (w : ScalarWord), t.array < 64 → Fetches s t →
    ∀ p ∈ ([(.add, useAlu), (.sub, useAlu), (.mul, useAlu), (.mulhu, useAlu), (.and, useAlu), (.or, useAlu),
        (.xor, useAlu), (.shl, useAlu), (.shr, useAlu), (.sra, useAlu), (.min, useAlu), (.max, useAlu), (.mov, useMov),
        (.cmpeq, useCmp), (.cmpne, useCmp), (.cmplt, useCmp), (.cmpltu, useCmp), (.cmple, useCmp), (.cmpleu, useCmp),
        (.pand, usePred), (.por, usePred), (.pxor, usePred), (.pnot, usePnot)] :
          List ((ThreadId → ScalarWord → Instr) × ScalarUse)),
      scalarLegal w p.2 = true → exec (p.1 t w) s = .next u →
        OtherThreads s u t ∧ UnitsKept s u ∧ u.memory = s.memory ∧ (u.thread t).descs = (s.thread t).descs ∧
        (u.thread t).state = .running ∧ (u.thread t).pc = (s.thread t).pc + 16

/-- A thread that is not `RUNNING`, or whose context is not `ACTIVE`, issues nothing (R112, R113). An instruction that fails
its predicate test has no effect but its issue: the PC advances by 16, whatever the fields that it uses hold (R121, R124). -/
def Obligations.IssueNeedsARunningThreadAndItsPredicate : Prop :=
  (∀ (s : State) (t : ThreadId) (w : ScalarWord),
    let cs := [Instr.add t w, .sub t w, .mul t w, .mulhu t w, .and t w, .or t w, .xor t w, .shl t w, .shr t w, .sra t w,
      .min t w, .max t w, .mov t w, .cmpeq t w, .cmpne t w, .cmplt t w, .cmpltu t w, .cmple t w, .cmpleu t w, .pand t w,
      .por t w, .pxor t w, .pnot t w, .ld t w, .lds t w, .st t w, .atom t w, .br t w, .call t w, .jmp t w, .exit t w,
      .dld t w, .dst t w, .dset t w, .dget t w, .sread t w]
    (((s.thread t).state ≠ .running ∨ (s.ctx (s.thread t).ctx).state ≠ .active) → ∀ c ∈ cs, exec c s = .next s) ∧
    (Fetches s t → ((s.thread t).pred w.pred != w.pneg) = false → ScalarZero w → w.pd = 0 → w.sd = 0 → w.sa = 0 →
      w.sb = 0 → w.var = 0 → w.immb = false → w.imm = 0 →
      ∀ c ∈ cs, exec c s = .next ((s.issued t).setThread t { s.thread t with pc := (s.thread t).pc + 16 }))) ∧
  (∀ (s : State) (t : ThreadId) (w : TileWord), FreshNumber s t →
    let cs := [Instr.tld t w, .tst t w, .tcp t w, .mma t w, .mmab t w, .vopAdd t w, .vopSub t w, .vopMul t w, .vopMax t w,
      .vopMin t w, .vopScale t w, .vopAbs t w, .vopNeg t w, .vopFma t w, .actRelu t w, .actGelu t w, .actSilu t w,
      .actExp t w, .actTanh t w, .actSigmoid t w, .actRecip t w, .actRsqrt t w, .cvt t w, .stagOpen t w, .stagClose t w,
      .stash t w, .unstash t w, .recomp t w, .update t w, .bktAdd t w, .verRead t w, .semWait t w, .semPost t w,
      .semInit t w, .fence t w, .barrier t w, .slot t w, .allReduce t w, .reduceScatter t w, .allGather t w, .reduce t w,
      .broadcast t w, .allToAll t w, .permute t w, .fwwPut t w, .groupBarrier t w]
    (((s.thread t).state ≠ .running ∨ (s.ctx (s.thread t).ctx).state ≠ .active) → ∀ c ∈ cs, exec c s = .next s) ∧
    (Fetches s t → ((s.thread t).pred w.pred != w.pneg) = false → w = { pred := w.pred, pneg := w.pneg } →
      ∀ c ∈ cs, exec c s = .next ((s.issued t).setThread t { s.thread t with pc := (s.thread t).pc + 16 })))

/-! ### Branches -/

/-- `BR` and `CALL` go to PC + `IMM`, `JMP` to SA; `CALL` writes PC + 16 to SD; `EXIT` ends the thread where its tile
instructions are complete, and otherwise waits until the last of them is (R127). -/
def Obligations.BranchesGoToTheirTarget : Prop :=
  (∀ (s : State) (t : ThreadId) (w : ScalarWord), Issues s t w.pred w.pneg → ScalarZero w → w.var = 0 → w.pd = 0 →
    w.sb = 0 → w.immb = false →
    let x := s.thread t
    let here := fun (a : Word) => devOf a = s.lodge.deviceId ∧ a.toNat % 16 = 0
    (w.sd = 0 → w.sa = 0 → here (x.pc + w.imm) →
      exec (.br t w) s = .next ((s.issued t).setThread t { x with pc := x.pc + w.imm })) ∧
    (w.sa = 0 → here (x.pc + w.imm) →
      exec (.call t w) s = .next ((s.issued t).setThread t
        { x with regs := x.regs.set w.sd.toNat (x.pc + 16) w.sd.isLt, pc := x.pc + w.imm })) ∧
    (w.sd = 0 → w.imm = 0 → here (x.reg w.sa) →
      exec (.jmp t w) s = .next ((s.issued t).setThread t { x with pc := x.reg w.sa })) ∧
    (w.sd = 0 → w.sa = 0 → w.imm = 0 → x.ops = [] → x.wait = none →
      exec (.exit t w) s = .next ((s.issued t).setThread t { x with state := .exited, wait := none })) ∧
    (w.sd = 0 → w.sa = 0 → w.imm = 0 → x.ops ≠ [] →
      exec (.exit t w) s = .next ((s.issued t).setThread t
        { x with state := .waiting, wait := some .exit, word := scalarBits w 0x03 0x03 }))) ∧
  (∀ (s : State) (t : ThreadId), (s.thread t).state = .waiting → (s.thread t).wait = some .exit →
    ((s.thread t).ops = [] → s.settle t = s.setThread t { s.thread t with state := .exited, wait := none }) ∧
    ((s.thread t).ops ≠ [] → s.settle t = s))



/-! ### Scalar memory, descriptors and special values -/

/-- A load of 1, 2, 4 or 8 bytes (`VAR`) at SA + `IMM` of this module writes the bytes read, lowest first, to SD: `LD`
extends them with zeros, `LDS` with their sign; the range is touched, and nothing of memory changes (R122, R126, R222). A
load from another module asks it for the aligned 16-byte unit that holds the bytes, and waits for the answer, which
writes SD; it first waits for the thread's own stores to the same bytes, and a device with no route traps it (R126, R139,
R259, R275). -/
def Obligations.LoadsWriteTheBytesRead : Prop :=
  (∀ (s : State) (t : ThreadId) (w : ScalarWord), Issues s t w.pred w.pneg → ScalarZero w → w.sb = 0 → w.pd = 0 →
    w.immb = false → w.var.toNat < 4 →
    let x := s.thread t
    let n := 2 ^ w.var.toNat
    let at_ := x.reg w.sa + w.imm
    let a := locOf at_
    let v := leNat (s.bytesAt a n)
    (LocalAccess s t at_ n false →
      exec (.ld t w) s = .next (((s.issued t).touch a n).setThread t
        { x with regs := x.regs.set w.sd.toNat (BitVec.ofNat 64 v) w.sd.isLt, pc := x.pc + 16 }) ∧
      exec (.lds t w) s = .next (((s.issued t).touch a n).setThread t
        { x with regs := x.regs.set w.sd.toNat
                   (if v < 2 ^ (8 * n - 1) then BitVec.ofNat 64 v else BitVec.ofInt 64 ((v : Int) - 2 ^ (8 * n))) w.sd.isLt
                 pc := x.pc + 16 })) ∧
    ∀ p ∈ ([(.ld, 0x00, false), (.lds, 0x01, true)] : List ((ThreadId → ScalarWord → Instr) × Nat × Bool)),
      (AwayAccess s t at_ n → s.hasRoute (devOf at_) = true →
        Completes (p.1 t w) s fun u => ∃ tag, Waits s u t (.load w.sd.toNat n (a % 16) p.2.2 tag) ∧
          Asked u tag tReadReq fun k => k.dstDevice = devOf at_ ∧ k.address = globalAddr (devOf at_) (a - a % 16) ∧
            k.length = 16) ∧
      (AwayAccess s t at_ n → s.hasRoute (devOf at_) = false →
        exec (p.1 t w) s = .next (((s.issued t).noRoute.noteCode x.launch .peerTimeout).trap t x.pc
          (scalarBits w 0x02 p.2.1) { kind := 6, code := .peerTimeout, detail := devOf at_ })) ∧
      (devOf at_ ≠ s.lodge.deviceId → devOf at_ ≠ 0xFFFF → at_.toNat % n = 0 → s.storeMeets x at_ n = true →
        exec (p.1 t w) s = .next (s.setThread t
          { x with state := .waiting, wait := some .stores, word := scalarBits w 0x02 p.2.1 }))) ∧
  (∀ (s : State) (t : ThreadId) (tag sd n off : Nat) (sg : Bool) (r : Request) (v : Word) (bs : Bytes), sd < 32 →
    (s.thread t).state = .waiting → (s.thread t).wait = some (.load sd n off sg tag) →
    let c := (bs.drop off).take n
    s.loadAnswered t tag r (.ok v bs) = s.setThread t
      { s.thread t with state := .running, wait := none, pc := (s.thread t).pc + 16
                        regs := (s.thread t).regs.set (BitVec.ofNat 5 sd).toNat (loaded sg c) (BitVec.ofNat 5 sd).isLt })

/-- A store to this module writes the low 1, 2, 4 or 8 bytes of SB at SA + `IMM`, lowest first; every byte of memory outside
them reads as before, no register, predicate or descriptor changes, and no other thread or context (R126). A store to
another module is sent, and the thread goes on, no byte of its own memory changed (R126, R149, R259). -/
def Obligations.StoresChangeTheirBytesAlone : Prop :=
  ∀ (s : State) (t : ThreadId) (w : ScalarWord), t.array < 64 → Issues s t w.pred w.pneg → ScalarZero w → w.sd = 0 →
    w.pd = 0 → w.immb = false → w.var.toNat < 4 →
    let x := s.thread t
    let n := 2 ^ w.var.toNat
    let at_ := x.reg w.sa + w.imm
    let a := locOf at_
    (LocalAccess s t at_ n true →
      Completes (.st t w) s fun u =>
        u.bytesAt a n = le n (x.reg w.sb).toNat ∧ BytesOutside s u a n ∧ u.thread t = { x with pc := x.pc + 16 } ∧
          OtherThreads s u t ∧ u.ctxs = s.ctxs ∧ u.launches = s.launches ∧ u.fabric = s.fabric ∧ u.host = s.host) ∧
    (devOf at_ ≠ s.lodge.deviceId → devOf at_ ≠ 0xFFFF → at_.toNat % n = 0 → s.hasRoute (devOf at_) = true →
      Completes (.st t w) s fun u => ∃ tag,
        u.thread t = { x with pc := x.pc + 16, storesOut := x.storesOut ++ [tag] } ∧ OtherThreads s u t ∧
          u.memory = s.memory ∧
          Asked u tag tWriteReq fun k => k.dstDevice = devOf at_ ∧ k.address = globalAddr (devOf at_) (a - a % 16) ∧
            k.length = 16 ∧ (k.payload.drop (a % 16)).take n = le n (x.reg w.sb).toNat)

/-- An `ATOM` on this module writes the old 8 bytes to SD and stores what its operation (`VAR`) makes of them and SB: the
sum, SB itself, SB where the old value equals SD, the signed maximum and minimum, AND and OR; memory outside the 8 bytes,
and every other register, is as before (R126). On another module it asks for the operation and waits for the old value
(R126, R259). -/
def Obligations.AtomicsExchangeTheirWord : Prop :=
  ∀ (s : State) (t : ThreadId) (w : ScalarWord), t.array < 64 → Issues s t w.pred w.pneg → ScalarZero w →
    w.pd = 0 → w.immb = false → w.var.toNat < 7 →
    let x := s.thread t
    let at_ := x.reg w.sa + w.imm
    let a := locOf at_
    let old : Word := BitVec.ofNat 64 (leNat (s.bytesAt a 8))
    (LocalAccess s t at_ 8 true →
      ∀ p ∈ ([(0, fun o b _ => o + b), (1, fun _ b _ => b), (2, fun o b d => if o = d then b else o),
          (3, fun o b _ => if o.toInt ≤ b.toInt then b else o), (4, fun o b _ => if o.toInt ≤ b.toInt then o else b),
          (5, fun o b _ => o &&& b), (6, fun o b _ => o ||| b)] : List (Nat × (Word → Word → Word → Word))),
        w.var.toNat = p.1 →
        Completes (.atom t w) s fun u =>
          u.bytesAt a 8 = le 8 (p.2 old (x.reg w.sb) (x.reg w.sd)).toNat ∧ BytesOutside s u a 8 ∧
            u.thread t = { x with regs := x.regs.set w.sd.toNat old w.sd.isLt, pc := x.pc + 16 } ∧ OtherThreads s u t) ∧
    (AwayAccess s t at_ 8 → s.hasRoute (devOf at_) = true →
      Completes (.atom t w) s fun u => ∃ tag, Waits s u t (.atom w.sd.toNat tag) ∧
        Asked u tag tAtomicReq fun k => k.dstDevice = devOf at_ ∧ k.address = at_ ∧ k.operation = w.var.toNat ∧
          k.operand = x.reg w.sb ∧ k.payload = le 16 (if w.var.toNat = 2 then (x.reg w.sd).toNat else 0))

/-- `DLD` loads a descriptor from 32 bytes at SA + `IMM`, lowest byte first, and `DST` stores one there; memory outside
the 32 bytes is as before. On another module `DLD` asks for them and waits, and `DST` sends them (R259, R483). -/
def Obligations.DescriptorsMoveToAndFromMemory : Prop :=
  ∀ (s : State) (t : ThreadId) (w : ScalarWord), t.array < 64 → Issues s t w.pred w.pneg → ScalarZero w →
    w.sd.toNat < 16 → w.sb = 0 → w.pd = 0 → w.immb = false → w.var = 0 →
    let x := s.thread t
    let at_ := x.reg w.sa + w.imm
    let a := locOf at_
    (LocalAccess s t at_ 32 false →
      exec (.dld t w) s = .next (((s.issued t).touch a 32).setThread t
        { x with descs := x.descs.set (w.sd.setWidth 4).toNat (BitVec.ofNat 256 (leNat (s.bytesAt a 32)))
                   (w.sd.setWidth 4).isLt
                 pc := x.pc + 16 })) ∧
    (LocalAccess s t at_ 32 true →
      Completes (.dst t w) s fun u =>
        u.bytesAt a 32 = le 32 (x.descr (w.sd.setWidth 4)).toNat ∧ BytesOutside s u a 32 ∧
          u.thread t = { x with pc := x.pc + 16 } ∧ OtherThreads s u t) ∧
    (AwayAccess s t at_ 32 → s.hasRoute (devOf at_) = true →
      (Completes (.dld t w) s fun u => ∃ tag, Waits s u t (.descLoad w.sd.toNat tag) ∧
        Asked u tag tReadReq fun k => k.dstDevice = devOf at_ ∧ k.address = at_ ∧ k.length = 32) ∧
      (Completes (.dst t w) s fun u => ∃ tag,
        u.thread t = { x with pc := x.pc + 16, storesOut := x.storesOut ++ [tag] } ∧ u.memory = s.memory ∧
          Asked u tag tWriteReq fun k => k.dstDevice = devOf at_ ∧ k.address = at_ ∧ k.length = 32 ∧
            k.payload = le 32 (x.descr (w.sd.setWidth 4)).toNat))

/-- `DGET` reads the field of a descriptor that `VAR` selects into SD, and `DSET` replaces that field by the low bits of
its second operand and leaves every other bit of the descriptor (R483). -/
def Obligations.DescriptorFieldsAreReadAndReplaced : Prop :=
  ∀ (s : State) (t : ThreadId) (w : ScalarWord), Issues s t w.pred w.pneg → ScalarZero w → w.pd = 0 →
    let x := s.thread t
    ∀ p ∈ ([(0, 0, 64), (1, 64, 12), (2, 76, 12), (3, 88, 32), (4, 120, 8), (5, 128, 6), (6, 136, 48), (7, 184, 16),
        (8, 200, 8)] : List (Nat × Nat × Nat)),
      w.var.toNat = p.1 →
      (w.sa.toNat < 16 → w.sb = 0 → w.immb = false → w.imm = 0 →
        exec (.dget t w) s = .next ((s.issued t).setThread t
          { x with regs := x.regs.set w.sd.toNat
                     (BitVec.ofNat 64 ((x.descr (w.sa.setWidth 4)).toNat / 2 ^ p.2.1 % 2 ^ p.2.2)) w.sd.isLt
                   pc := x.pc + 16 })) ∧
      (w.sd.toNat < 16 → w.sa = 0 → SecondChosen w →
        ∃ d : Descr,
          exec (.dset t w) s = .next ((s.issued t).setThread t
            { x with descs := x.descs.set (w.sd.setWidth 4).toNat d (w.sd.setWidth 4).isLt, pc := x.pc + 16 }) ∧
          d.toNat / 2 ^ p.2.1 % 2 ^ p.2.2 = (second w x).toNat % 2 ^ p.2.2 ∧
          d.toNat % 2 ^ p.2.1 = (x.descr (w.sd.setWidth 4)).toNat % 2 ^ p.2.1 ∧
          d.toNat / 2 ^ (p.2.1 + p.2.2) = (x.descr (w.sd.setWidth 4)).toNat / 2 ^ (p.2.1 + p.2.2))

/-- `SREAD` writes the special value that `IMM` selects to SD (R111): the thread and its array, the module, the context,
the launch's step, argument block and thread count, device time, the slot of its timetable, what its instructions met, and
the state of the partner array. The address of the argument block of a launch that has none is a free value
(notes/assumptions/1.md). A selector that R111 does not list traps (R151). -/
def Obligations.SpecialValuesAreRead : Prop :=
  ∀ (s : State) (t : ThreadId) (w : ScalarWord), Issues s t w.pred w.pneg → ScalarZero w → w.sa = 0 → w.sb = 0 →
    w.pd = 0 → w.immb = false → w.var = 0 → w.imm.toNat < 256 →
    let x := s.thread t
    let of := fun (f : Launch → Nat) => ((s.launch? x.launch).map f).getD 0
    let partner := s.array (t.array + 1)
    let writes := fun (u : State) (v : Word) => exec (.sread t w) s = .next (u.setThread t
      { x with regs := x.regs.set w.sd.toNat v w.sd.isLt, pc := x.pc + 16 })
    (∀ p ∈ ([(0x00, t.index), (0x01, t.array), (0x02, s.lodge.deviceId), (0x03, x.ctx), (0x04, s.gen x.ctx),
        (0x05, s.lodge.incarnation), (0x06, of fun l => l.step.toNat), (0x07, s.now), (0x09, of fun l => l.threads),
        (0x0A, x.rank), (0x0B, x.slotIndex.toNat), (0x0C, x.slotKind), (0x0D, x.slotStage), (0x0E, x.slotMicroBatch),
        (0x0F, x.nfSticky.toNat), (0x10, x.condCode),
        (0x11, if t.array % 2 = 1 then 3
          else if s.variant.arrays ≤ t.array + 1 ∨ partner.service = .gone then 2
          else if partner.service = .serving ∧ partner.asleep = false then 0 else 1)] : List (Nat × Nat)),
      w.imm.toNat = p.1 → writes (s.issued t) (BitVec.ofNat 64 p.2)) ∧
    (w.imm.toNat = 0x08 → (of fun l => l.argBlock.toNat) ≠ 0 →
      writes (s.issued t) (globalAddr s.lodge.deviceId (of fun l => l.argBlock.toNat))) ∧
    (w.imm.toNat = 0x08 → (of fun l => l.argBlock.toNat) = 0 →
      let v := s.issued t
      writes { v with freeIndex := v.freeIndex + 1 } (Config.freeValue v.freeIndex)) ∧
    (0x11 < w.imm.toNat →
      exec (.sread t w) s = .next ((s.issued t).trap t x.pc (scalarBits w 0x04 0x04)
        { kind := 2, code := .badPacket, detail := 5 + 256 * 11 }))

/-! ### Traps -/

/-- A scalar instruction with a nonzero unused or reserved field traps `ILLEGAL_INSTRUCTION`, whatever its predicate
test gives: the trap names the 128 bits of the instruction under its major and minor opcode (R121, R123, R124, R125,
R126, R127, R150, R483). Bytes at the PC whose `MAJOR` and `MINOR` R124 does not list trap so, and are what the trap names. -/
def Obligations.UnusedFieldsTrapIllegal : Prop :=
  (∀ (s : State) (t : ThreadId) (w : ScalarWord), ReadsAtPc s t → wordListed (s.wordAt (s.thread t)) = false →
    ∀ c ∈ [Instr.add t w, .mov t w, .ld t w, .st t w, .br t w, .exit t w, .dld t w, .sread t w],
      exec c s = .next ((s.issued t).trap t (s.thread t).pc
        (BitVec.ofNat 128 (leNat (s.bytesAt (locOf (s.thread t).pc) 16))) { kind := 1, code := .badPacket })) ∧
  ∀ (s : State) (t : ThreadId) (w : ScalarWord), Fetches s t →
    ∀ p ∈ ([(.add, 0x01, 0x00, useAlu), (.sub, 0x01, 0x01, useAlu), (.mul, 0x01, 0x02, useAlu),
        (.mulhu, 0x01, 0x03, useAlu), (.and, 0x01, 0x04, useAlu), (.or, 0x01, 0x05, useAlu), (.xor, 0x01, 0x06, useAlu),
        (.shl, 0x01, 0x07, useAlu), (.shr, 0x01, 0x08, useAlu), (.sra, 0x01, 0x09, useAlu), (.min, 0x01, 0x0A, useAlu),
        (.max, 0x01, 0x0B, useAlu), (.mov, 0x01, 0x0C, useMov), (.cmpeq, 0x01, 0x10, useCmp),
        (.cmpne, 0x01, 0x11, useCmp), (.cmplt, 0x01, 0x12, useCmp), (.cmpltu, 0x01, 0x13, useCmp),
        (.cmple, 0x01, 0x14, useCmp), (.cmpleu, 0x01, 0x15, useCmp), (.pand, 0x01, 0x18, usePred),
        (.por, 0x01, 0x19, usePred), (.pxor, 0x01, 0x1A, usePred), (.pnot, 0x01, 0x1B, usePnot),
        (.ld, 0x02, 0x00, { sd := 31, sa := 31, imm := immAll, var := 3 }),
        (.lds, 0x02, 0x01, { sd := 31, sa := 31, imm := immAll, var := 3 }),
        (.st, 0x02, 0x02, { sa := 31, sb := 31, imm := immAll, var := 3 }),
        (.atom, 0x02, 0x03, { sd := 31, sa := 31, sb := 31, imm := immAll, var := 7 }),
        (.br, 0x03, 0x00, { imm := immAll }), (.call, 0x03, 0x01, { sd := 31, imm := immAll }),
        (.jmp, 0x03, 0x02, { sa := 31 }), (.exit, 0x03, 0x03, {}),
        (.dld, 0x04, 0x00, { sd := 15, sa := 31, imm := immAll }),
        (.dst, 0x04, 0x01, { sd := 15, sa := 31, imm := immAll }),
        (.dset, 0x04, 0x02, { sd := 15, sb := 31, imm := immAll, var := 15, choice := true }),
        (.dget, 0x04, 0x03, { sd := 31, sa := 15, var := 15 }), (.sread, 0x04, 0x04, { sd := 31, imm := 0xFF })] :
          List ((ThreadId → ScalarWord → Instr) × Nat × Nat × ScalarUse)),
      scalarLegal w p.2.2.2 = false →
      exec (p.1 t w) s = .next ((s.issued t).trap t (s.thread t).pc (scalarBits w p.2.1 p.2.2.1)
        { kind := 1, code := .badPacket })

/-- A trap of a thread that runs or waits writes its 64-byte trap record in the launch's trap area and puts it in
`TRAPPED` with its PC where it was, and the launch counts one more trap; under the policy `CONTINUE` no other byte of
memory and no other thread changes, and under `STOP` every thread of the launch that runs or waits is `TRAPPED` with it
(R112, R152, R153). Traps of other threads change nothing, but that a `SUSPENDED` thread takes its first when it runs
again (R112; notes/assumptions/49.md). -/
def Obligations.TrapsWriteTheirRecordAndStopTheThread : Prop :=
  ∀ (s : State) (t : ThreadId) (pc : Word) (word : InstrWord) (r : Trap) (l : Launch), t.array < 64 →
    s.launch? (s.thread t).launch = some l →
    let u := s.trap t pc word r
    let a := l.trapArea + 64 * (64 * t.array + t.index % 64)
    let x := s.thread t
    ((x.state = .running ∨ x.state = .waiting) → l.policyContinue = true → s.repairingIn a 64 = [] →
      u.bytesAt a 64 = le 1 r.kind ++ [0] ++ le 2 r.code.num ++ le 2 t.array ++ le 1 (t.index % 64) ++ [0] ++ le 8 s.now
          ++ le 8 pc.toNat ++ le 8 x.pc.toNat ++ le 16 word.toNat ++ le 8 r.address.toNat ++ le 2 x.ctx
          ++ le 2 (s.gen x.ctx) ++ le 4 r.detail ∧
        BytesOutside s u a 64 ∧ u.thread t = { x with state := .trapped, wait := none } ∧ OtherThreads s u t ∧
        (u.launch? x.launch).map Launch.traps = some (l.traps + 1)) ∧
    ((x.state = .running ∨ x.state = .waiting) → l.policyContinue = false →
      ∀ v : ThreadId, v.array < 64 → (s.thread v).launch = x.launch →
        ((s.thread v).state = .running ∨ (s.thread v).state = .waiting) → (u.thread v).state = .trapped) ∧
    ((x.state = .idle ∨ x.state = .exited ∨ x.state = .trapped) → u = s) ∧
    (x.state = .suspended → u = s.setThread t { x with due := some (x.due.getD (pc, word, r)) })

/-- A misaligned address traps `MISALIGNED` with the address, an address of every module traps `ILLEGAL_OPERAND` with
reason 10, and one of this module outside the context's mappings traps `ACCESS`; no memory access takes place (R118, R120,
R126, R150, R151, R483). -/
def Obligations.BadAddressesTrap : Prop :=
  ∀ (s : State) (t : ThreadId) (w : ScalarWord), Issues s t w.pred w.pneg → ScalarZero w → w.pd = 0 → w.immb = false →
    let x := s.thread t
    let a := x.reg w.sa + w.imm
    ∀ p ∈ ([(.ld, 0x02, 0x00, 2 ^ w.var.toNat, false, w.sb = 0 ∧ w.var.toNat < 4),
        (.lds, 0x02, 0x01, 2 ^ w.var.toNat, false, w.sb = 0 ∧ w.var.toNat < 4),
        (.st, 0x02, 0x02, 2 ^ w.var.toNat, true, w.sd = 0 ∧ w.var.toNat < 4),
        (.atom, 0x02, 0x03, 8, true, w.var.toNat < 7),
        (.dld, 0x04, 0x00, 32, false, w.sb = 0 ∧ w.sd.toNat < 16 ∧ w.var = 0),
        (.dst, 0x04, 0x01, 32, true, w.sb = 0 ∧ w.sd.toNat < 16 ∧ w.var = 0)] :
          List ((ThreadId → ScalarWord → Instr) × Nat × Nat × Nat × Bool × Prop)),
      p.2.2.2.2.2 →
      let traps := fun (r : Trap) =>
        exec (p.1 t w) s = .next ((s.issued t).trap t x.pc (scalarBits w p.2.1 p.2.2.1) r)
      (a.toNat % p.2.2.2.1 ≠ 0 → traps { kind := 3, code := .badPacket, address := a }) ∧
      (a.toNat % p.2.2.2.1 = 0 → devOf a = 0xFFFF → traps { kind := 2, code := .badPacket, detail := 5 + 256 * 10 }) ∧
      (a.toNat % p.2.2.2.1 = 0 → devOf a ≠ 0xFFFF → devOf a = s.lodge.deviceId →
        (if p.2.2.2.2.1 then s.canWrite x.ctx (locOf a) p.2.2.2.1 else s.canRead x.ctx (locOf a) p.2.2.2.1) = false →
        traps { kind := 4, code := .notPermitted, address := a })


/-! ### Synchronisation -/

/-- `SEM_INIT` writes the 16 bytes of a semaphore: count, owning context, its generation, and zeros; memory outside them
is as before, and its predicate is cleared (R140 to R142). -/
def Obligations.SemInitWritesTheSemaphore : Prop :=
  ∀ (s : State) (t : ThreadId) (w : TileWord), t.array < 64 → Issues s t w.pred w.pneg →
    tileLegal w { s1 := true, noTrap := false, group := false, var := 7, imm := 0xFFFFFFFF } = true →
    let x := s.thread t
    let a := locOf (x.reg w.s1)
    LocalAccess s t (x.reg w.s1) 16 true →
    Completes (.semInit t w) s fun u =>
      u.bytesAt a 16 = le 4 (w.imm.toNat % 2 ^ 32) ++ le 2 x.ctx ++ le 2 (s.gen x.ctx) ++ zeros 8 ∧
        BytesOutside s u a 16 ∧
        u.thread t = { x.setPred (BitVec.ofNat 3 (w.var.toNat % 8)) false with pc := x.pc + 16 } ∧ OtherThreads s u t

/-- A `SEM_WAIT` whose semaphore holds at least n, under an owner that stands and is not suspended, subtracts n, clears its
predicate and goes on at once, and memory outside the count is as before; one whose semaphore holds too little waits in
`WAITING`, and no byte of memory changes; one whose owner is suspended or gone fails: with `NOTRAP` its predicate is set,
`COND_CODE` receives the code, and the thread goes on (R112, R142, R143). -/
def Obligations.SemWaitTakesItsCountOrWaits : Prop :=
  ∀ (s : State) (t : ThreadId) (w : TileWord), t.array < 64 → Issues s t w.pred w.pneg →
    tileLegal w { s1 := true, group := false, var := 7, imm := 0xFFFFFFFF } = true →
    let x := s.thread t
    let a := locOf (x.reg w.s1)
    let n := w.imm.toNat % 2 ^ 32
    devOf (x.reg w.s1) = s.lodge.deviceId → (x.reg w.s1).toNat % 16 = 0 → s.repairingIn a 16 = [] → 0 < n →
    s.semRefused x.ctx a = none → (s.sem a).owner ≠ 0 →
    (s.semFails x.ctx (s.sem a) = none → n ≤ (s.sem a).count →
      Completes (.semWait t w) s fun u =>
        u.bytesAt a 4 = le 4 ((s.sem a).count - n) ∧ BytesOutside s u a 4 ∧ OtherThreads s u t ∧ GoesOn s u t ∧
          (∀ p : BitVec 3, p.toNat = w.var.toNat % 8 → p ≠ 0 → (u.thread t).pred p = false)) ∧
    (s.semFails x.ctx (s.sem a) = none → (s.sem a).count < n →
      Completes (.semWait t w) s fun u =>
        u.memory = s.memory ∧ OtherThreads s u t ∧
          Waits s u t (.semWait (x.reg w.s1) n (w.var.toNat % 8) w.noTrap)) ∧
    (∀ c : Code, s.semFails x.ctx (s.sem a) = some c → w.noTrap = true →
      Completes (.semWait t w) s fun u =>
        u.memory = s.memory ∧ OtherThreads s u t ∧ GoesOn s u t ∧ (u.thread t).condCode = c.num ∧
          (∀ p : BitVec 3, p.toNat = w.var.toNat % 8 → (u.thread t).pred p = true))

/-- `SEM_WAIT_COMPLETE` ends a held wait whose semaphore has come to hold n: it subtracts n, and the thread goes on
(R143). A post adds its n and saturates at 2^32 - 1; one to a semaphore whose owner does not stand is discarded and
counted (R144); one to a semaphore whose line is under repair is kept until the repair ends (R243). -/
def Obligations.PostsAddAndEndWaits : Prop :=
  (∀ (s : State) (t : ThreadId) (cycles n pred : Nat) (a : Word) (nt : Bool), t.array < 64 →
    (s.thread t).state = .waiting → (s.thread t).wait = some (.semWait a n pred nt) →
    (s.sem (locOf a)).owner ≠ 0 → s.semFails (s.thread t).ctx (s.sem (locOf a)) = none →
    n ≤ (s.sem (locOf a)).count → s.repairingIn (locOf a) 4 = [] →
    Completes (.semWaitComplete t cycles) s fun u =>
      u.bytesAt (locOf a) 4 = le 4 ((s.sem (locOf a)).count - n) ∧ BytesOutside s u (locOf a) 4 ∧ OtherThreads s u t ∧
        GoesOn s u t ∧ (u.thread t).wait = none) ∧
  (∀ (s : State) (array a n : Nat), Map.has s.memory.repairing (a / 256) = false →
    ((s.sem a).owner ≠ 0 → s.ownerStands (s.sem a) = true →
      (s.semAdd array a n).bytesAt a 4 = le 4 (min 0xFFFFFFFF ((s.sem a).count + n)) ∧
        BytesOutside s (s.semAdd array a n) a 4) ∧
    (((s.sem a).owner = 0 ∨ s.ownerStands (s.sem a) = false) →
      s.semAdd array a n = s.count cSemPostDiscarded array)) ∧
  (∀ (s : State) (array a n : Nat), Map.has s.memory.repairing (a / 256) = true →
    s.semAdd array a n = { s with memory := { s.memory with deferred := s.memory.deferred ++ [.post a array n] } })

/-- A `SEM_POST` to this module whose groups are complete adds n to the semaphore, clears its predicate and goes on; one
that R142 discards changes no byte of memory and goes on as well; one to another module sends a post of n and waits for
its acknowledgement; one whose groups or earlier stores are not complete waits for them first (R139, R140, R142, R144). -/
def Obligations.SemPostAddsAtItsTarget : Prop :=
  ∀ (s : State) (t : ThreadId) (w : TileWord), t.array < 64 → Issues s t w.pred w.pneg →
    tileLegal w { s1 := true, group := false, var := 7, imm := 0xFFFFFFFFFF } = true →
    let x := s.thread t
    let a := locOf (x.reg w.s1)
    let dev := devOf (x.reg w.s1)
    let n := w.imm.toNat % 2 ^ 32
    let m := w.imm.toNat / 2 ^ 32 % 256
    (x.reg w.s1).toNat % 16 = 0 → 0 < n → dev ≠ 0xFFFF →
    (x.maskDone m = false →
      Completes (.semPost t w) s fun u =>
        OtherThreads s u t ∧ Waits s u t (.semPost (x.reg w.s1) n m (w.var.toNat % 8) w.noTrap false [] 0xFFFF)) ∧
    (x.maskDone m = true → dev = s.lodge.deviceId → s.semRefused x.ctx a = none →
      Map.has s.memory.repairing (a / 256) = false → (s.sem a).owner ≠ 0 → s.ownerStands (s.sem a) = true →
      Completes (.semPost t w) s fun u =>
        u.bytesAt a 4 = le 4 (min 0xFFFFFFFF ((s.sem a).count + n)) ∧ BytesOutside s u a 4 ∧ OtherThreads s u t ∧
          GoesOn s u t ∧ (∀ p : BitVec 3, p.toNat = w.var.toNat % 8 → p ≠ 0 → (u.thread t).pred p = false)) ∧
    (x.maskDone m = true → dev = s.lodge.deviceId →
      ∀ v : Nat × Nat, s.semRefused x.ctx a = some v → v.1 ≠ 0 →
      Completes (.semPost t w) s fun u => u.memory = s.memory ∧ OtherThreads s u t ∧ GoesOn s u t) ∧
    (x.maskDone m = true → dev ≠ s.lodge.deviceId → s.hasRoute dev = true →
      Completes (.semPost t w) s fun u => ∃ tag, OtherThreads s u t ∧
        Waits s u t (.semPost (x.reg w.s1) n 0 (w.var.toNat % 8) w.noTrap true [tag] 0xFFFF) ∧
        Asked u tag tSemPost fun k => k.dstDevice = dev ∧ k.address = x.reg w.s1 ∧ k.operand = BitVec.ofNat 64 n)

/-- A `FENCE` whose masked groups and earlier stores are complete sets its predicate to whether a condition was recorded,
`COND_CODE` to the first, clears the masked slots, delivers the results of `VER_READ` of its groups, and goes on; with a
group or a store outstanding it waits (R137, R140, R196). -/
def Obligations.FenceReportsTheFirstCondition : Prop :=
  ∀ (s : State) (t : ThreadId) (w : TileWord), Issues s t w.pred w.pneg →
    tileLegal w { noTrap := false, group := false, var := 15, imm := 0xFF } = true →
    let x := s.thread t
    let m := w.imm.toNat % 256
    (x.maskDone m = true →
      Completes (.fence t w) s fun u =>
        u.memory = s.memory ∧ (u.thread t).state = .running ∧ (u.thread t).pc = x.pc + 16 ∧
          (u.thread t).regs = ((x.pendRegs.filter fun r => bitOf m r.1).foldl
            (fun (y : Thread) r => y.setReg (BitVec.ofNat 5 r.2.1) r.2.2) x).regs ∧
          (u.thread t).pendRegs = x.pendRegs.filter (fun r => !bitOf m r.1) ∧
          (u.thread t).condCode = ((x.firstCond m).map fun c => c.1.num).getD x.condCode ∧
          (∀ g : Fin 8, bitOf m g = true → ((u.thread t).groups[g]).cond = none) ∧
          (∀ g : Fin 8, bitOf m g = false → (u.thread t).groups[g] = x.groups[g]) ∧
          (∀ p : BitVec 3, p.toNat = w.var.toNat % 8 → p ≠ 0 → (u.thread t).pred p = (x.firstCond m).isSome)) ∧
    (x.maskDone m = false →
      Completes (.fence t w) s fun u =>
        u.memory = s.memory ∧ Waits s u t (.fence m (w.var.toNat % 8) (8 ≤ w.var.toNat)))

/-- A `BARRIER` whose groups are complete arrives: one that is not the last is recorded at its barrier and waits; the last
of n releases all of them, each at its next instruction, and the barrier is idle; a number of participants outside 1 to
4096, or other than the earlier arrivals gave, traps (R145, R151). One whose groups or earlier stores are not complete
waits for them first (R140). -/
def Obligations.BarrierHoldsItsArrivals : Prop :=
  ∀ (s : State) (t : ThreadId) (w : TileWord), t.array < 64 → Issues s t w.pred w.pneg →
    tileLegal w { noTrap := false, group := false, var := 7, imm := 0xFFFFFF000F } = true →
    let x := s.thread t
    let i := w.imm.toNat % 16
    let n := w.imm.toNat / 2 ^ 16 % 2 ^ 16
    let m := w.imm.toNat / 2 ^ 32 % 256
    let p := w.var.toNat % 8
    let b := Map.getD (s.ctx x.ctx).barriers i { participants := n, arrivals := [] }
    (x.maskDone m = false →
      Completes (.barrier t w) s fun u => OtherThreads s u t ∧ Waits s u t (.barrier i n m p false)) ∧
    (x.maskDone m = true → 1 ≤ n → n ≤ 4096 → b.participants = n → b.arrivals.length + 1 < n →
      Completes (.barrier t w) s fun u =>
        Map.get? (u.ctx x.ctx).barriers i = some { participants := n, arrivals := b.arrivals ++ [t] } ∧
          OtherThreads s u t ∧ u.memory = s.memory ∧ Waits s u t (.barrier i n 0 p true)) ∧
    (x.maskDone m = true → 1 ≤ n → n ≤ 4096 → b.participants = n → b.arrivals.length + 1 = n →
      (b.arrivals ++ [t]).Nodup → (∀ v ∈ b.arrivals, v.array < 64) →
      Completes (.barrier t w) s fun u =>
        Map.get? (u.ctx x.ctx).barriers i = none ∧ u.memory = s.memory ∧ GoesOn s u t ∧
          (∀ v ∈ b.arrivals, GoesOn s u v ∧ (u.thread v).wait = none) ∧
          (∀ v : ThreadId, v.array < 64 → v ≠ t → v ∉ b.arrivals → u.thread v = s.thread v)) ∧
    (x.maskDone m = true → (n < 1 ∨ 4096 < n ∨ b.participants ≠ n) →
      let word := tileBits w 0x60 0x04
      exec (.barrier t w) s = .next
        (((s.issued t).waitFor t word (.barrier i n m p false)).trap t x.pc word
          { kind := 2, code := .badPacket, detail := 5 + 256 * 11 }))

/-- A `SLOT` of a thread whose launch has no timetable ends the thread once its tile instructions and its stores are
complete, and one that ends a slot's work passes it and waits for the slot's end; with an instruction or a store
outstanding it waits; one that comes to the gate of the next slot enters it at once where the slot names no semaphore, and
waits at the gate where its semaphore holds too little (R139, R146, R147, R173). `SLOT_END` ends a launch's current slot
once every thread has passed it, and `SLOT_GATE_OPEN` settles a held gate whose semaphore wait has its outcome; otherwise
neither happens (R147, R173, R174; notes/assumptions/4.md). -/
def Obligations.SlotsPassAndEnd : Prop :=
  (∀ (s : State) (t : ThreadId) (w : TileWord) (l : Launch), t.array < 64 → Issues s t w.pred w.pneg →
    tileLegal w { group := false, var := 7 } = true →
    let x := s.thread t
    let p := w.var.toNat % 8
    let e := s.slotEntry l x.cursor
    s.launch? x.launch = some l →
    (x.ops = [] → x.storesOut = [] → l.timetable = 0 →
      Completes (.slot t w) s fun u =>
        u.memory = s.memory ∧ (u.thread t).state = .exited ∧ (u.thread t).pc = x.pc ∧ (u.thread t).regs = x.regs) ∧
    (x.ops = [] → x.storesOut = [] → l.timetable ≠ 0 → x.cursor ≠ 0 → l.slot = some x.slotIndex.toNat →
      Completes (.slot t w) s fun u =>
        u.memory = s.memory ∧ Waits s u t (.slotEnd p w.noTrap) ∧
          (u.launch? x.launch).map Launch.lastPassed = some (some t)) ∧
    ((x.ops ≠ [] ∨ x.storesOut ≠ []) →
      Completes (.slot t w) s fun u => u.memory = s.memory ∧ Waits s u t (.slotEnd p w.noTrap)) ∧
    (x.ops = [] → x.storesOut = [] → l.timetable ≠ 0 → x.cursor < l.slotCount → l.slot = none →
      s.slotTrap l x.cursor = none →
      (e.waitSem = 0 → s.canWrite l.ctx (l.phaseAddr x.cursor) 32 = true → MemoryClean s →
        (e.entry = 0 ∨ (devOf e.entry = s.lodge.deviceId ∧ e.entry.toNat % 16 = 0)) →
        Completes (.slot t w) s fun u =>
          (u.thread t).state = .running ∧ (u.thread t).pc = (if e.entry = 0 then x.pc + 16 else e.entry) ∧
            (u.thread t).regs = x.regs ∧ (u.thread t).cursor = x.cursor + 1 ∧ (u.thread t).slotKind = e.kind ∧
            (u.thread t).slotStage = e.stage ∧ (u.thread t).slotMicroBatch = e.microBatch ∧
            BytesOutside s u (l.phaseAddr x.cursor) 32) ∧
      ((s.tryGate l e).1 = .held →
        Completes (.slot t w) s fun u =>
          Waits s u t (.slotGate p w.noTrap) ∧ (u.launch? x.launch).map Launch.gate = some .held))) ∧
  (∀ (s : State) (launch cycles : Nat) (l : Launch), s.launch? launch = some l →
    (s.slotOver launch = true → exec (.slotEnd launch) s = .next (s.endSlot launch)) ∧
    (s.slotOver launch = false → exec (.slotEnd launch) s = .next s) ∧
    (l.gate ≠ .held → exec (.slotGateOpen launch cycles) s = .next s) ∧
    (l.gate = .held → (s.tryGate l (s.slotEntry l (l.slot.getD 0))).1 ≠ .held →
      exec (.slotGateOpen launch cycles) s = .next
        ((s.tryGate l (s.slotEntry l (l.slot.getD 0))).2.settleGate launch
          (s.tryGate l (s.slotEntry l (l.slot.getD 0))).1 (some cycles))))

/-! ### Tile instructions and collectives -/

/-- A tile-group instruction with a nonzero unused field traps `ILLEGAL_INSTRUCTION` under its major and minor opcode;
one that a thread with eight tile instructions outstanding issues waits for the queue with its PC unchanged, and issues
again later (R114, R122, R124, R150). -/
def Obligations.TileInstructionsTrapOrWaitForTheQueue : Prop :=
  ∀ (s : State) (t : ThreadId) (w : TileWord), Fetches s t → FreshNumber s t →
    ∀ p ∈ ([(.mma, 0x20, 0x00, { d := true, a := true, b := true, conv := true }),
        (.mmab, 0x20, 0x01, { d := true, a := true, b := true, c := true, conv := true, imm := 15 }),
        (.tld, 0x10, 0x00, { d := true, a := true }), (.tst, 0x10, 0x01, { d := true, a := true }),
        (.tcp, 0x10, 0x02, { d := true, a := true }),
        (.vopAdd, 0x30, 0x00, { d := true, a := true, b := true, conv := true }),
        (.vopSub, 0x30, 0x01, { d := true, a := true, b := true, conv := true }),
        (.vopMul, 0x30, 0x02, { d := true, a := true, b := true, conv := true }),
        (.vopMax, 0x30, 0x03, { d := true, a := true, b := true, conv := true }),
        (.vopMin, 0x30, 0x04, { d := true, a := true, b := true, conv := true }),
        (.vopScale, 0x30, 0x05, { d := true, a := true, s1 := true, conv := true }),
        (.vopAbs, 0x30, 0x06, { d := true, a := true, conv := true }),
        (.vopNeg, 0x30, 0x07, { d := true, a := true, conv := true }),
        (.vopFma, 0x30, 0x08, { d := true, a := true, b := true, c := true, conv := true }),
        (.actRelu, 0x30, 0x10, { d := true, a := true, conv := true }),
        (.actGelu, 0x30, 0x11, { d := true, a := true, conv := true }),
        (.actSilu, 0x30, 0x12, { d := true, a := true, conv := true }),
        (.actExp, 0x30, 0x13, { d := true, a := true, conv := true }),
        (.actTanh, 0x30, 0x14, { d := true, a := true, conv := true }),
        (.actSigmoid, 0x30, 0x15, { d := true, a := true, conv := true }),
        (.actRecip, 0x30, 0x16, { d := true, a := true, conv := true }),
        (.actRsqrt, 0x30, 0x17, { d := true, a := true, conv := true }),
        (.cvt, 0x30, 0x20, { d := true, a := true, conv := true }),
        (.stagOpen, 0x40, 0x00, { imm := 2 ^ 64 - 1 }), (.stagClose, 0x40, 0x01, { s3 := true, imm := 2 ^ 64 - 1 }),
        (.stash, 0x50, 0x00, { a := true, imm := 2 ^ 64 - 1 }), (.unstash, 0x50, 0x01, { d := true, imm := 2 ^ 64 - 1 }),
        (.recomp, 0x50, 0x02, { s1 := true, imm := 2 ^ 64 - 1 }),
        (.update, 0x50, 0x03, { d := true, a := true, b := true, c := true, s1 := true, conv := true }),
        (.bktAdd, 0x50, 0x04, { a := true, imm := 2 ^ 64 - 1 }), (.verRead, 0x50, 0x05, { a := true, s1 := true }),
        (.allReduce, 0x70, 0x00, { d := true, a := true, s1 := true, conv := true, imm := 0xFFFFFF }),
        (.reduceScatter, 0x70, 0x00, { d := true, a := true, s1 := true, conv := true, imm := 0xFFFFFF }),
        (.allGather, 0x70, 0x00, { d := true, a := true, s1 := true, conv := true, imm := 0xFFFFFF }),
        (.reduce, 0x70, 0x00, { d := true, a := true, s1 := true, conv := true, imm := 0xFFFFFF }),
        (.broadcast, 0x70, 0x00, { d := true, a := true, s1 := true, conv := true, imm := 0xFFFFFF }),
        (.allToAll, 0x70, 0x00, { d := true, a := true, s1 := true, conv := true, imm := 0xFFFFFF }),
        (.permute, 0x70, 0x00, { d := true, a := true, s1 := true, conv := true, imm := 0xFFFFFF }),
        (.fwwPut, 0x70, 0x00, { d := true, a := true, s1 := true, conv := true, imm := 0xFFFFFF }),
        (.groupBarrier, 0x70, 0x00, { d := true, a := true, s1 := true, conv := true, imm := 0xFFFFFF })] :
          List ((ThreadId → TileWord → Instr) × Nat × Nat × TileUse)),
      (8 ≤ (s.thread t).ops.length → tileLegal w p.2.2.2 = true → ((s.thread t).pred w.pred != w.pneg) = true →
        exec (p.1 t w) s = .next (s.setThread t
          { s.thread t with state := .waiting, wait := some .tileQueue, word := tileBits w p.2.1 p.2.2.1 })) ∧
      (tileLegal w p.2.2.2 = false →
        exec (p.1 t w) s = .next ((s.issued t).trap t (s.thread t).pc (tileBits w p.2.1 p.2.2.1)
          { kind := 1, code := .badPacket }))

/-- An element-wise instruction whose operands keep the rules of R81, R129 and R133, a tile movement whose operands keep
those of R129 and R135, a matrix instruction that keeps those of R130 to R132, and a versioned read and a parameter update
that keep theirs, enter their thread's queue with the values they name (R113, R114, R115); they act when their passes or
their completion come, but that a movement to other modules sends its writes at once (R135, R278). A binary64 matrix
instruction waits until the FP64 path serves (R6). -/
def Obligations.LegalTileInstructionsEnterTheQueue : Prop :=
  ∀ (s : State) (t : ThreadId) (w : TileWord), Issues s t w.pred w.pneg → (s.thread t).ops.length < 8 →
    FreshNumber s t →
    let x := s.thread t
    let own := fun (d : Descr) => (Desc.parse d).dev = s.lodge.deviceId
    (∀ p ∈ ([(.vopAdd, .vop 0x00, { d := true, a := true, b := true, conv := true }),
          (.vopSub, .vop 0x01, { d := true, a := true, b := true, conv := true }),
          (.vopMul, .vop 0x02, { d := true, a := true, b := true, conv := true }),
          (.vopMax, .vop 0x03, { d := true, a := true, b := true, conv := true }),
          (.vopMin, .vop 0x04, { d := true, a := true, b := true, conv := true }),
          (.vopScale, .vop 0x05, { d := true, a := true, s1 := true, conv := true }),
          (.vopAbs, .vop 0x06, { d := true, a := true, conv := true }),
          (.vopNeg, .vop 0x07, { d := true, a := true, conv := true }),
          (.vopFma, .vop 0x08, { d := true, a := true, b := true, c := true, conv := true }),
          (.actRelu, .act 0x10, { d := true, a := true, conv := true }),
          (.actGelu, .act 0x11, { d := true, a := true, conv := true }),
          (.actSilu, .act 0x12, { d := true, a := true, conv := true }),
          (.actExp, .act 0x13, { d := true, a := true, conv := true }),
          (.actTanh, .act 0x14, { d := true, a := true, conv := true }),
          (.actSigmoid, .act 0x15, { d := true, a := true, conv := true }),
          (.actRecip, .act 0x16, { d := true, a := true, conv := true }),
          (.actRsqrt, .act 0x17, { d := true, a := true, conv := true }),
          (.cvt, .cvt, { d := true, a := true, conv := true })] :
            List ((ThreadId → TileWord → Instr) × TileKind × TileUse)),
        let minor := match p.2.1 with
          | .vop m | .act m => m
          | _ => 0x20
        tileLegal w p.2.2 = true →
        (s.issued t).checkElem t (s.thread t) ((s.thread t).opOf w p.2.1 (tileBits w 0x30 minor)) = none →
        Completes (p.1 t w) s fun u => Queued s u t w p.2.1 (tileBits w 0x30 minor)) ∧
    (∀ p ∈ ([(.tld, 0x00, .tld, true, false, false), (.tst, 0x01, .tst, false, true, true),
        (.tcp, 0x02, .tcp, true, true, false)] :
          List ((ThreadId → TileWord → Instr) × Nat × TileKind × Bool × Bool × Bool)),
      tileLegal w { d := true, a := true } = true →
      (s.issued t).checkMove t x (x.opOf w p.2.2.1 (tileBits w 0x10 p.2.1)) p.2.2.2.1 p.2.2.2.2.1 p.2.2.2.2.2 = none →
      (own (x.descr w.d) → Completes (p.1 t w) s fun u => Queued s u t w p.2.2.1 (tileBits w 0x10 p.2.1)) ∧
      (¬own (x.descr w.d) → MemoryClean s → own (x.descr w.a) →
        (p.2.2.1.selects = true → (s.issued t).versionFit x (Desc.parse (x.descr w.a)) = .outside) →
        Completes (p.1 t w) s fun u => Entered s u t w p.2.2.1 (tileBits w 0x10 p.2.1) fun o =>
          o.phase = .running ∧ ∀ tag ∈ o.awaited, Asked u tag tWriteReq fun k =>
            k.dstDevice ∈ s.targets x.ctx (Desc.parse (x.descr w.d)).base)) ∧
    (tileLegal w { d := true, a := true, b := true, conv := true } = true →
      (s.issued t).checkMma t x (x.opOf w .mma (tileBits w 0x20 0x00)) = none →
      (((Desc.parse (x.descr w.a)).format ≠ 0x01 ∨ s.fp64Serving = true) →
        Completes (.mma t w) s fun u => Queued s u t w .mma (tileBits w 0x20 0x00)) ∧
      ((Desc.parse (x.descr w.a)).format = 0x01 → s.fp64Serving = false →
        Completes (.mma t w) s fun u => Waits s u t .unitStall)) ∧
    (tileLegal w { d := true, a := true, b := true, c := true, conv := true, imm := 15 } = true →
      (s.issued t).checkMmab t x { x.opOf w .mmab (tileBits w 0x20 0x01) with x := x.descr (w.imm.setWidth 4) } = none →
      Completes (.mmab t w) s fun u => Queued s u t w .mmab (tileBits w 0x20 0x01)) ∧
    (tileLegal w { a := true, s1 := true } = true →
      firstTrap [(s.issued t).checkDesc t x (Desc.parse (x.descr w.a)) { num := 1, remote := true, ok := legalFormat },
        (s.issued t).partialTrap x (Desc.parse (x.descr w.a)) 1,
        (s.issued t).checkRead? x (Desc.parse (x.descr w.a))] = none →
      Completes (.verRead t w) s fun u => Queued s u t w .verRead (tileBits w 0x50 0x05)) ∧
    (tileLegal w { d := true, a := true, b := true, c := true, s1 := true, conv := true } = true →
      (s.issued t).checkUpdate t x (x.opOf w .update (tileBits w 0x50 0x03)) = none →
      Completes (.update t w) s fun u => Queued s u t w .update (tileBits w 0x50 0x03))

/-- `TILE_INSTRUCTION_COMPLETE` carries out a queued instruction whose data is there: an element-wise one by
`finishElem`, a copy to this module by `finishCopy`, a copy to other modules by sending its writes and by leaving the queue
once they are acknowledged, a matrix instruction whose passes are over by leaving the queue, an `UNSTASH`, a `BKT_ADD`, a
`VER_READ` and an `UPDATE` by their own ends; an instruction that is not there, whose context is suspended, or that has an
end event of its own is left (R136, R185, R206, R360). A condition found before anything ran ends the instruction with it.
Held versioned reads are looked at after each (notes/assumptions/40.md). -/
def Obligations.CompletionCarriesOutTheInstruction : Prop :=
  ∀ (s : State) (t : ThreadId) (id : Nat),
    let gives := fun (u : State) => exec (.tileInstructionComplete t id) s = .next u.versionsReady
    (s.op? t id = none → gives s) ∧
    (∀ o, s.op? t id = some o →
      ((s.ctx (s.thread t).ctx).state = .suspended → gives s) ∧
      ((s.ctx (s.thread t).ctx).state ≠ .suspended →
        (o.phase = .finished → gives (s.opEnd t o)) ∧
        ((o.cond ≠ none ∨ o.late ≠ none) → o.phase = .queued →
          gives (((s.dropContribs t o).opEnd t o).sequence t.array)) ∧
        (o.cond = none → o.late = none → o.phase ≠ .finished →
          (∀ m, (o.kind = .vop m ∨ o.kind = .act m ∨ o.kind = .cvt) → gives (s.finishElem t o)) ∧
          ((o.kind = .tld ∨ o.kind = .tst ∨ o.kind = .tcp) →
            (s.writesAway o = false → o.awaited = [] → o.unbound = false → gives (s.finishCopy t o)) ∧
            (s.writesAway o = false → (o.awaited ≠ [] ∨ o.unbound = true) → gives s) ∧
            (s.writesAway o = true → o.phase = .queued → gives (s.opGo t o)) ∧
            (s.writesAway o = true → o.phase = .running → o.awaited = [] → gives (s.opEnd t o)) ∧
            (s.writesAway o = true → o.phase = .running → o.awaited ≠ [] → gives s)) ∧
          ((o.kind = .mma ∨ o.kind = .mmab) → o.stop = none → gives s) ∧
          (o.kind = .unstash → gives (s.finishUnstash t o)) ∧
          (o.kind = .bktAdd → gives (s.finishBkt t o)) ∧
          (o.kind = .verRead → gives (s.finishVerRead t o)) ∧
          (o.kind = .update → gives (s.finishUpdate t o)) ∧
          ((o.kind = .stagClose ∨ o.kind = .stash ∨ ∃ op, o.kind = .coll op) → gives s))))

/-- `STAG_OPEN` of a slot that is `FREE` opens a tag at once, bound to a unit where one of the array's 16 is free;
`STAG_CLOSE` of an open slot enters the queue and puts the tag in `CLOSING` (R138, R157 to R159). A tag is bound later,
once a unit is free, by `TAG_UNIT_BIND`, and its record is written, and the slot freed, by `TAG_RECORD_WRITE` once every
contribution issued has entered (R160, R167, R168). -/
def Obligations.StatisticsTagsOpenBindAndClose : Prop :=
  (∀ (s : State) (t : ThreadId) (w : TileWord), Issues s t w.pred w.pneg → (s.thread t).ops.length < 8 →
    tileLegal w { imm := 2 ^ 64 - 1 } = true → w.imm.toNat < 16 → FreshNumber s t →
    s.tag? t.array (s.thread t).ctx w.imm.toNat = none →
    Completes (.stagOpen t w) s fun u =>
      (u.thread t).pc = (s.thread t).pc + 16 ∧ (u.thread t).ops = (s.thread t).ops ∧
        u.tags = s.tags ++ [{ array := t.array, ctx := (s.thread t).ctx, slot := w.imm.toNat
                              bound := decide (s.unitsBound t.array < 16), openTime := s.now }]) ∧
  (∀ (s : State) (t : ThreadId) (w : TileWord), Issues s t w.pred w.pneg → (s.thread t).ops.length < 8 →
    tileLegal w { s3 := true, imm := 2 ^ 64 - 1 } = true → w.imm.toNat < 16 →
    let x := s.thread t
    let a := x.reg w.s3
    s.tagOpen t.array x.ctx w.imm.toNat = true → devOf a = s.lodge.deviceId → a.toNat % 64 = 0 →
    s.canWrite x.ctx (locOf a) tagRecordBytes = true →
    Completes (.stagClose t w) s fun u =>
      Queued s u t w .stagClose (tileBits w 0x40 0x01) ∧
        (u.tag? t.array x.ctx w.imm.toNat).map Tag.state = some .closing) ∧
  (∀ (s : State) (array ctx slot cycles : Nat) (g : Tag), s.tag? array ctx slot = some g → g.bound = false →
    s.unitsBound array < 16 →
    let binds := fun (st : TagState) => Completes (.tagUnitBind array ctx slot cycles) s fun u => ∃ v : State,
      (v.tag? array ctx slot).map (fun x => (x.bound, x.state)) = some (true, st) ∧
        u = ((if (s.ctx ctx).state = .active then v.resumeThreads ctx else v).sequence array).collPump
    (g.state ≠ .saved → binds g.state) ∧
    (g.state = .saved → (s.ctx ctx).state = .active → binds (if g.closer = none then .opened else .closing)) ∧
    (g.state = .saved → (s.ctx ctx).state = .suspended → (s.ctx ctx).restoring = true → binds .opened)) ∧
  (∀ (s : State) (array ctx slot : Nat) (g : Tag) (t : ThreadId) (id : Nat) (o : TileOp),
    s.tag? array ctx slot = some g → g.closer = some (t, id) → s.op? t id = some o → g.state = .closing →
    g.issued ≤ g.entered → s.writable [(locOf o.s3, tagRecordBytes)] = true →
    Completes (.tagRecordWrite array ctx slot) s fun u =>
      u = State.opEnd
        { (s.store (locOf o.s3) (g.bytes (s.gen ctx) s.lodge.deviceId)).count cStatRecords array with
          tags := s.tags.filter fun x => !x.is array ctx slot } t o)

/-- `STASH` of a key that the context does not hold makes an entry that is `FILLING`, or `DOWNGRADED` where the Pantry
has no room, and of a key that it holds traps with no entry changed; `UNSTASH` of a held entry of D's shape puts it in
`UNSTASHING`, of a `DOWNGRADED` one frees it, of a `FILLING` one waits in the queue, and of an absent key traps; `RECOMP`
goes on where the entry is held, goes to S1 with the return address in S31 where it is `DOWNGRADED`, and waits while it is
`FILLING` (R138, R180 to R185). -/
def Obligations.StashesFillAndResolve : Prop :=
  ∀ (s : State) (t : ThreadId) (w : TileWord), Issues s t w.pred w.pneg → (s.thread t).ops.length < 8 → FreshNumber s t →
    let x := s.thread t
    let mine := s.stashesOf x.ctx
    let charge := ceilDiv (Desc.parse (x.descr w.a)).bytes 4096 * 4096
    (tileLegal w { a := true, imm := 2 ^ 64 - 1 } = true →
      firstTrap [(s.issued t).checkDesc t x (Desc.parse (x.descr w.a)) { num := 1, ok := legalFormat },
        (s.issued t).checkRead? x (Desc.parse (x.descr w.a))] = none →
      (s.stash? x.ctx w.imm = none →
        Completes (.stash t w) s fun u => GoesOn s u t ∧ ∃ e, u.stash? x.ctx w.imm = some e ∧
          (e.state = .filling ∨ e.state = .downgraded) ∧ e.shape = x.descr w.a ∧
          (e.state = .filling → e.charge = charge ∧ e.owner = some (t, s.nextOp) ∧
            ∃ o ∈ (u.thread t).ops, o.id = s.nextOp ∧ o.kind = .stash ∧ o.phase = .running) ∧
          (e.state = .downgraded → (u.thread t).ops = x.ops) ∧
          ((65536 ≤ mine.length ∨ (s.ctx x.ctx).quota.pantryLimit < chargeOf mine + charge) → e.state = .downgraded)) ∧
      (s.stash? x.ctx w.imm ≠ none →
        Completes (.stash t w) s fun u => u.stashes = s.stashes ∧ (u.thread t).ops = x.ops)) ∧
    (tileLegal w { d := true, imm := 2 ^ 64 - 1 } = true →
      firstTrap [(s.issued t).checkDesc t x (Desc.parse (x.descr w.d)) { num := 0, dest := true, ok := legalFormat },
        (s.issued t).checkWrite? x (Desc.parse (x.descr w.d))] = none →
      (s.stash? x.ctx w.imm = none →
        Completes (.unstash t w) s fun u => u.stashes = s.stashes ∧ (u.thread t).ops = x.ops) ∧
      ∀ e : Stash, s.stash? x.ctx w.imm = some e →
        let a := Desc.parse e.shape
        let d := Desc.parse (x.descr w.d)
        let fits := a.format = d.format ∧ a.rows = d.rows ∧ a.cols = d.cols ∧ a.mxCols = d.mxCols
        ((e.state = .heldCellar ∨ e.state = .heldAttic ∨ e.state = .spilling) → fits →
          Completes (.unstash t w) s fun u => GoesOn s u t ∧
            (u.stash? x.ctx w.imm).map Stash.state = some .unstashing ∧
            ∃ o ∈ (u.thread t).ops, o.id = s.nextOp ∧ o.kind = .unstash ∧ o.phase = .running) ∧
        (e.state = .downgraded → fits →
          Completes (.unstash t w) s fun u => GoesOn s u t ∧ u.stash? x.ctx w.imm = none ∧ (u.thread t).ops = x.ops) ∧
        (e.state = .filling →
          Completes (.unstash t w) s fun u => Queued s u t w .unstash (tileBits w 0x50 0x01) ∧ u.stashes = s.stashes)) ∧
    (∀ e : Stash, tileLegal w { s1 := true, imm := 2 ^ 64 - 1 } = true → s.stash? x.ctx w.imm = some e →
      ((e.state = .heldCellar ∨ e.state = .heldAttic ∨ e.state = .spilling) →
        Completes (.recomp t w) s fun u => GoesOn s u t ∧ u.memory = s.memory) ∧
      (e.state = .downgraded → devOf (x.reg w.s1) = s.lodge.deviceId → (x.reg w.s1).toNat % 16 = 0 →
        Completes (.recomp t w) s fun u =>
          (u.thread t).state = .running ∧ (u.thread t).pc = x.reg w.s1 ∧
            (u.thread t).regs = x.regs.set 31 (x.pc + 16) ∧ u.memory = s.memory) ∧
      (e.state = .filling →
        Completes (.recomp t w) s fun u => Waits s u t (.recomp x.ctx w.imm (x.reg w.s1))))

/-- `STASH_FILL_COMPLETE` writes what is left of an entry's copy once its source and its room are there, and then its
`STASH` leaves the queue, with `WEIGHT_LOST` where a byte of it was lost, and what waited for the entry goes on;
`PANTRY_SPILL_COMPLETE` moves a spilling entry to the attic, counts it and releases its cellar charge (R181, R183 to R185,
R244). -/
def Obligations.PantryEventsMoveEntries : Prop :=
  (∀ (s : State) (ctx cycles : Nat) (key : Word) (e : Stash) (t : ThreadId) (id : Nat) (o : TileOp),
    s.stash? ctx key = some e → e.state = .filling → (s.ctx ctx).state ≠ .suspended → e.owner = some (t, id) →
    s.op? t id = some o → MemoryClean s →
    (e.inCellar = true → chargeOf ((s.stashesOf ctx).filter fun f => f.inCellar && f.order ≤ e.order) ≤
      (s.ctx ctx).quota.pantryCellarLimit) →
    let a := Desc.parse o.a
    let ps := (cutPieces (65536 * o.done) (sortPieces (copyPieces a a.packed (s.byteFrom 0) (s.lostFrom 0)))).2
    let lost := e.lost ++ (ps.filter (·.lost)).map (·.dst)
    Completes (.stashFillComplete ctx key cycles) s fun u => ∃ v : State,
      (v.stash? ctx key).map (fun f => (f.state, f.owner, f.data, f.lost)) =
          some (if e.inCellar then .heldCellar else .heldAttic, none, e.data ++ ps.flatMap (·.data), lost) ∧
        v.memory.bytes = s.memory.bytes ∧
        u = (v.opEnd t { o with cond := if lost = [] then none else some .weightLost }).stashSettled ctx key) ∧
  (∀ (s : State) (ctx : Nat) (key : Word) (e : Stash), s.stash? ctx key = some e →
    (e.state = .spilling →
      exec (.pantrySpillComplete ctx key) s = .next
        ((((s.checkKey ctx key).modStash ctx key fun e => { e with state := .heldAttic, inCellar := false }).count
          cPantrySpills 0).count cPantrySpillBytes 0 e.charge)) ∧
    (e.state ≠ .spilling → exec (.pantrySpillComplete ctx key) s = .next s))

/-- `BKT_ADD` of the next micro-batch index of an idle segment starts at once, and its bucket fills; one of a later
index waits in the queue, and one of an index already added traps with nothing added (R187, R190). `BKT_ADD_START` starts a
waiting one whose turn has come. -/
def Obligations.BucketAddsRunInOrder : Prop :=
  (∀ (s : State) (t : ThreadId) (w : TileWord), Issues s t w.pred w.pneg → (s.thread t).ops.length < 8 →
    tileLegal w { a := true, imm := 2 ^ 64 - 1 } = true → FreshNumber s t →
    let x := s.thread t
    let o := x.opOf w .bktAdd (tileBits w 0x50 0x04)
    let c := bktOf o
    (s.issued t).checkBkt t x o = none →
    ∀ (k : Bucket) (g : Segment), s.bucket? x.ctx c.1 = some k → k.segments[c.2.1]? = some g →
      (g.nextMb < c.2.2 →
        Completes (.bktAdd t w) s fun u => Queued s u t w .bktAdd (tileBits w 0x50 0x04) ∧ u.trains = s.trains) ∧
      (c.2.2 < g.nextMb →
        Completes (.bktAdd t w) s fun u => u.trains = s.trains ∧ (u.thread t).ops = x.ops) ∧
      (g.nextMb = c.2.2 → (∀ v p, p ∈ (s.thread v).ops → p.kind = .bktAdd → p.phase ≠ .running) →
        Completes (.bktAdd t w) s fun u =>
          Entered s u t w .bktAdd (tileBits w 0x50 0x04) (fun o => o.phase = .running) ∧
            (u.bucket? x.ctx c.1).map Bucket.state = some (if k.state = .empty then .filling else k.state))) ∧
  (∀ (s : State) (t : ThreadId) (id cycles : Nat) (p : TileOp) (k : Bucket) (g : Segment), s.op? t id = some p →
    p.kind = .bktAdd → p.phase = .queued → p.late = none → s.opActive t = true →
    s.bucket? (s.thread t).ctx (bktOf p).1 = some k → k.segments[(bktOf p).2.1]? = some g →
    (g.nextMb < (bktOf p).2.2 → exec (.bktAddStart t id cycles) s = .next s) ∧
    (g.nextMb = (bktOf p).2.2 → s.segmentBusy (s.thread t).ctx p = false →
      Completes (.bktAddStart t id cycles) s fun u =>
        (u.op? t id).map TileOp.phase = some .running ∧
          (u.bucket? (s.thread t).ctx (bktOf p).1).map Bucket.state = some (if k.state = .empty then .filling else k.state)))

/-- A versioned read that waited binds once its version is there, an update starts once its guard is `COMMITTED`, and one
whose guard is `ABANDONED` ends with `STEP_NOT_CLEAN` without writing anything; until then neither moves (R194, R195,
R202 to R204). -/
def Obligations.WaitingReadsBindAndUpdatesStart : Prop :=
  (∀ (s : State) (t : ThreadId) (id cycles : Nat) (o : TileOp), s.op? t id = some o → o.unbound = true →
    s.opActive t = true →
    let b := s.bindAtIssue t { o with reader := false }
    let miss := if o.kind = .mma ∨ o.kind = .mmab then cycles else 0
    (b.1.unbound = true → exec (.versionedReadBind t id cycles) s = .next s) ∧
    (b.1.unbound = false →
      exec (.versionedReadBind t id cycles) s = .next
        (((((b.2.modOp t id fun _ => b.1).count cVersionWait 0 cycles).count cPrefetchMiss t.array miss).opGo t
          b.1).sequence t.array))) ∧
  (∀ (s : State) (t : ThreadId) (id gc rc : Nat) (o : TileOp) (g : Guard), s.op? t id = some o → o.kind = .update →
    o.phase = .queued → o.late = none → o.cond = none → s.opActive t = true →
    s.guard? (s.thread t).ctx (s.stepOf (s.thread t)) = some g →
    ((g.state = .opened ∨ g.state = .committing) → exec (.updateStart t id gc rc) s = .next s) ∧
    (g.state = .committed → exec (.updateStart t id gc rc) s = .next (s.beginUpdate t o gc rc)) ∧
    (g.state = .abandoned →
      exec (.updateStart t id gc rc) s = .next
        ((((s.count cUpdateGuardWait 0 gc).count cUpdatesNotClean 0).dropContribs t o).opEnd t
          { o with cond := some .stepNotClean })))

/-- A bucket that is folded and has no operation block is `DONE` at once; a reduction that has ended closes its bucket,
`FAILED` where it met a condition; at a step's commit point its exchange starts, and before it nothing happens (R192,
R200). -/
def Obligations.BucketsCloseAndStepsReachTheirCommitPoint : Prop :=
  (∀ (s : State) (ctx b : Nat) (tr : Train) (k : Bucket), Map.get? s.trains ctx = some tr →
    s.bucket? ctx b = some k →
    (k.state ≠ .folding → exec (.bucketFoldComplete ctx b) s = .next s) ∧
    (k.state = .folding → k.collBlock = 0 →
      Completes (.bucketFoldComplete ctx b) s fun u =>
        u = s.closeBucket ctx b none 0 ∧ (k.doneSem = 0 → (u.bucket? ctx b).map Bucket.state = some .done)) ∧
    (k.state = .reducing → ∀ c : Coll, s.bucketColl ctx b = some c → 2 ≤ c.stage →
      exec (.bucketReductionEnd ctx b) s = .next
        (s.closeBucket ctx b (if c.code = .done then none else some c.code) c.nf))) ∧
  (∀ (s : State) (ctx : Nat) (step : Word),
    (s.commitPoint ctx step.toNat = true → s.committing ctx step.toNat = false →
      exec (.commitPointReached ctx step) s = .next ((s.commitStart ctx step.toNat).versionsReady)) ∧
    (s.commitPoint ctx step.toNat = false → exec (.commitPointReached ctx step) s = .next s.versionsReady))


/-- A collective whose block, group and operands keep the rules of R295 to R299 enters its thread's queue as a running
instruction and takes the next match sequence of its group; the engine then starts it. One statement for the nine
operations, which differ in what the started operation does (R291, R298). -/
def Obligations.CollectivesTakeTheirMatchSequence : Prop :=
  ∀ (s : State) (t : ThreadId) (w : TileWord) (g : CollGroup), Issues s t w.pred w.pneg →
    (s.thread t).ops.length < 8 → FreshNumber s t →
    tileLegal w { d := true, a := true, s1 := true, conv := true, imm := 0xFFFFFF } = true →
    let x := s.thread t
    let b := CollBlock.read (s.bytesAt (locOf (x.reg w.s1)) 128)
    s.group? x.ctx b.group = some g →
    ∀ p ∈ ([(.allReduce, opAllReduce), (.reduceScatter, opReduceScatter), (.allGather, opAllGather), (.reduce, opReduce),
        (.broadcast, opBroadcast), (.allToAll, opAllToAll), (.permute, opPermute), (.fwwPut, opFwwPut),
        (.groupBarrier, opBarrier)] : List ((ThreadId → TileWord → Instr) × Nat)),
      (s.issued t).checkColl t x (x.opOf w (.coll p.2) (tileBits w 0x70 0x00)) p.2 = none →
      ∃ (v : State) (id : Nat) (c : Coll),
        exec (p.1 t w) s = .next ((v.collStart id).collStep id) ∧
          (v.thread t).pc = x.pc + 16 ∧ (v.thread t).regs = x.regs ∧ v.memory.bytes = s.memory.bytes ∧
          (∃ o ∈ (v.thread t).ops, o.id = s.nextOp ∧ o.phase = .running) ∧
          (v.group? x.ctx b.group).map CollGroup.nextSeq = some ((g.nextSeq + 1) % 2 ^ 32) ∧
          v.coll? id = some c ∧ c.op = p.2 ∧ c.group = b.group ∧ c.epoch = g.epoch ∧ c.matchKey = g.nextSeq ∧
          c.unit = .op t s.nextOp

/-! ### Arrays -/

/-- What moves an array: an idle one goes to sleep and loses what its cells held (R463); one that has work wakes, and the
even partner of an odd array wakes it for an `MMAB`, whose wait R50 counts elsewhere; a block whose bytes have all come lands
in its half; a landed block enters the stationary store that is not in use, frees its half, and the front changes epoch, the
first one after a resumption taking epoch 0 (R24, R25, R31, R54); a pass starts when its front is in and its rows are there, and
drains in order, the last of a block writing the block's roots (R26, R39, R54, R91). -/
def Obligations.ArraysSleepWakeFrontAndPass : Prop :=
  ∀ (s : State) (a cycles : Nat),
    (s.arrayAwake a = true → s.arrayBusy a = false →
      (s.array a).lastProgress + s.lodge.settings.arrayIdleUs * 1000 ≤ s.now →
      exec (.arrayPowerGate a) s = .next (s.modArray a fun x =>
        { x with asleep := true, stationary0 := [], stationary1 := [], scales0 := [], scales1 := [], fronted := none })) ∧
    (s.arrayBusy a = true → exec (.arrayPowerGate a) s = .next s) ∧
    ((s.array a).asleep = true → ((s.matrixOps a).any fun o => s.runnable o.1 o.2) = true →
      exec (.arrayWake a cycles) s = .next
        (((s.modArray a fun x => { x with asleep := false }).count cWakeWait a cycles).sequence a)) ∧
    ((s.array a).asleep = true → ((s.matrixOps a).any fun o => s.runnable o.1 o.2) = false → s.pairWaits a = true →
      exec (.arrayWake a cycles) s = .next
        (((s.modArray a fun x => { x with asleep := false }).count cWakeWait a 0).sequence (a - 1))) ∧
    ((s.array a).asleep = false → exec (.arrayWake a cycles) s = .next s) ∧
    ((s.sequence a).fillTarget a = none → exec (.landingFillComplete a) s = .next (s.sequence a)) ∧
    (∀ t o p h, (s.sequence a).fillTarget a = some (t, o, p) → ((s.sequence a).array a).halfOf (t, o.id, p) = some h →
      exec (.landingFillComplete a) s = .next ((s.sequence a).landFill a t o p h) ∧
        (MemoryClean (s.sequence a) → h.awaited = [] → o.unbound = false → t.array = a →
          a < (s.sequence a).arrays.length →
          Completes (.landingFillComplete a) s fun u =>
            ((u.array a).halfOf (t, o.id, p)).map (·.state) = some .landed)) ∧
    (∀ t o p rest h, s.nextPasses a = (t, o, p) :: rest → (s.array a).fronted ≠ some (t, o.id, p) →
      (s.array a).halfOf (t, o.id, p) = some h → h.state = .landed → s.arrayAwake a = true → a < s.arrays.length →
      needFronts (s.array a).fronted [(t, o, p)] ≠ [] →
      let e := (s.array a).epoch && !(if t.array ≠ a then o.fold.auxResumed else o.fold.resumed)
      ∃ v : State, exec (.frontEntry a cycles) s = .next (v.sequence t.array) ∧
        (v.array a).fronted = some (t, o.id, p) ∧ (v.array a).epoch = !e ∧
          (if e then (v.array a).stationary1 = h.block ∧ (v.array a).scales1 = h.scales
              ∧ (v.array a).stationary0 = (s.array a).stationary0
            else (v.array a).stationary0 = h.block ∧ (v.array a).scales0 = h.scales
              ∧ (v.array a).stationary1 = (s.array a).stationary1) ∧ v.memory = s.memory) ∧
    (∀ t o p rest rows rs, s.nextPasses a = (t, o, p) :: rest → s.arrayAwake a = true →
      needFronts (s.array a).fronted [(t, o, p)] = [] → o.pairReady (decide (t.array ≠ a)) = true →
      s.streamRows t o (decide (t.array ≠ a)) p = some (rows, rs) → MemoryClean s →
      exec (.passStart a cycles) s = .next (s.startPass a cycles t o p rows rs)) ∧
    (s.nextPasses a = [] → exec (.frontEntry a cycles) s = .next s ∧ exec (.passStart a cycles) s = .next s) ∧
    ((s.array a).passes = [] → exec (.passDrain a) s = .next s) ∧
    (∀ q qs, (s.array a).passes = q :: qs → s.op? q.owner q.op = none →
      exec (.passDrain a) s = .next (s.modArray a fun x => { x with passes := qs })) ∧
    (∀ q qs o, (s.array a).passes = q :: qs → s.op? q.owner q.op = some o → a = q.owner.array →
      (o.shape false q.number).last = false → a < s.arrays.length →
      Completes (.passDrain a) s fun u =>
        ∃ v : State, u = (v.finishFold q.owner q.op).stopMatrix q.owner q.op ∧ (v.array a).passes = qs ∧
          v.memory.bytes = s.memory.bytes ∧
          (v.op? q.owner q.op).map (fun o => o.fold.drained) = some (o.fold.drained + 1)) ∧
    (∀ q qs o, (s.array a).passes = q :: qs → s.op? q.owner q.op = some o → a = q.owner.array →
      (o.shape false q.number).last = true → s.writable (o.matrixDest false).ranges = true → a < s.arrays.length →
      let sh := o.shape false q.number
      let roots := carryRoots o.acc sh (pushNodes o.acc sh o.fold.carry (passNodes o.acc q.rows q.block sh.cols))
      ∃ v : State,
        exec (.passDrain a) s = .next
          (((v.finalBlock q.owner o false sh roots).finishFold q.owner q.op).stopMatrix q.owner q.op) ∧
          (v.array a).passes = qs ∧ v.memory = s.memory ∧
          (v.op? q.owner q.op).map (fun o => o.fold.drained) = some (o.fold.drained + 1))

/-- Errors of the units (R368, R373 to R375, R378): an array that reports an internal error is recorded with cause
0x0030 and asked to reset; after an array's self-check it serves again or is out of service; a chip error asks for a reset
of the chip. -/
def Obligations.UnitErrorsAskForResets : Prop :=
  ∀ (s : State) (a : Nat),
    ((s.array a).service = .serving →
      exec (.arrayInternalError a) s = .next
        ((s.fault 0x0030 1 a 1 (((s.arrayHolders a).head?.map fun h => (s.thread h.1).ctx).getD 0)).requestReset 1 a 4)) ∧
    ((s.array a).service = .gone → exec (.arrayInternalError a) s = .next s) ∧
    (s.host.resetBusy = true → s.host.resetDomain = 1 → s.host.resetTarget = a → (s.array a).service = .resetting →
      exec (.arraySelfCheckDone a true) s = .next (s.arrayPasses a).resetDone ∧
        exec (.arraySelfCheckDone a false) s = .next (s.arrayFails a).resetDone) ∧
    (s.chipOn = true → exec .chipInternalError s = .next ((s.fault 0x0041 7 0 4).requestReset 4 0 4)) ∧
    (s.chipOn = false → exec .chipInternalError s = .next s)

/-! ### Launches, contexts and memory events -/

/-- A launch that is admitted and whose pages are back starts its threads, in rank order at its entry; one that waits for its
arrays stays queued, and one that names an array out of service or whose training table is in use ends; a launch that is over
completes, and its threads are `IDLE` (R109, R112, R148, R155, R178, R340, R357). A context that is suspended for the host or displaced is
put back, one whose save is done is `SUSPENDED`, one whose drain has ended leaves `DRAINING`, and a drain that has run too
long is forced (R351, R360, R361, R384 to R386). -/
def Obligations.LaunchesAndContextsMove : Prop :=
  ∀ (s : State) (id ctx : Nat),
    (∀ k, s.admitting.find? s.admitReady = some k → exec .admission s = .next (s.startLaunch k) ∧
      (∀ l, s.launch? k = some l → l.trainTable = 0 → l.arrays.Nodup → (∀ a ∈ l.arrays, a < 64) →
        Completes .admission s fun u => u.memory = s.memory ∧
          ∀ e ∈ (l.arrays.flatMap fun a => (s.lowestThreads a l.threadsPerArray).map fun i =>
              ({ array := a, index := i } : ThreadId)).zipIdx,
            (u.thread e.1).state = .running ∧ (u.thread e.1).pc = l.entry ∧ (u.thread e.1).launch = k ∧
              (u.thread e.1).ctx = l.ctx ∧ (u.thread e.1).rank = e.2)) ∧
    (s.admitting.find? s.admitReady = none → s.nextItem = none → exec .admission s = .next s) ∧
    (∀ k l, s.admitting.find? s.admitReady = none → s.nextItem = some (.launch k) → s.launch? k = some l →
      ((s.maskWaits l || (l.trainTable != 0 && s.tableBusy l.ctx k)) = true →
        exec .admission s = .next (s.dropLaunch k (Reply.of .busyRetry))) ∧
      ((s.maskWaits l || (l.trainTable != 0 && s.tableBusy l.ctx k)) = false →
        (∀ as v, s.arraysFor l s.freeThreads = some as → s.admitLaunch k l as = some v →
          exec .admission s = .next v) ∧
        (s.arraysFor l s.freeThreads = none → exec .admission s = .next s))) ∧
    (∀ l, s.launch? id = some l → l.admitted = true → s.launchOver id = true →
      ∃ (v : State) (r : Reply), exec (.launchComplete id) s = .next ((v.finishCmd l.handle r).versionsReady) ∧
        Map.get? v.launches id = none ∧ (∀ e ∈ v.threads, e.2.launch = id → e.2.state = .idle) ∧
        (s.slotOver id = false → r = s.launchReply id l)) ∧
    (s.launchOver id = false → exec (.launchComplete id) s = .next s.versionsReady) ∧
    exec (.contextReadmission ctx) s = .next (s.readmit ctx) ∧
    ((s.ctx ctx).state = .suspending → s.atRest ctx = true →
      Completes (.suspendSaveComplete ctx) s fun u =>
        ∃ v : State, u = (v.finishWhere (fun k => k.work == .suspend ctx) (Reply.of .done)).sequenceAll ∧
          (v.ctx ctx).state = .suspended) ∧
    ((s.ctx ctx).state ≠ .suspending → exec (.suspendSaveComplete ctx) s = .next s) ∧
    ((s.ctx ctx).restoring = true → (s.ctx ctx).state = .suspended → s.pagesAway ctx = [] →
      ∃ v : State,
        exec (.contextRestoreComplete ctx) s = .next
          ((((((s.ctx ctx).withdrawn.foldl State.emit ((v.countReaders ctx true).resumeThreads ctx)).pump).collPump).sequenceAll).finishWhere
            (fun k => k.work == .resume ctx) (Reply.of .done)) ∧
          (v.ctx ctx).state = .active ∧ (v.ctx ctx).restoring = false ∧ (v.ctx ctx).withdrawn = [] ∧
          v.memory = s.memory ∧ v.threads = s.threads) ∧
    (((s.ctx ctx).restoring = false ∨ s.pagesAway ctx ≠ []) → exec (.contextRestoreComplete ctx) s = .next s) ∧
    exec (.contextDrainComplete ctx) s = .next (s.drainComplete ctx).settleCommits ∧
    exec (.drainForce ctx) s = .next (s.drainForce ctx).settleCommits

/-- Frames zeroed become free, a granule's switch moves it into its slice or out of the cellar, a spilled page's bytes
stand in the spill buffer and its frame waits for zeroing, and a returned page is `RESIDENT` again (R215, R223, R229, R230,
R355). -/
def Obligations.PagesAndGranulesMove : Prop :=
  ∀ (s : State) (n : Nat),
    exec (.frameZeroed n) s = .next (s.modMem fun m => { m with zeroing := m.zeroing - n }) ∧
    (∀ a, MemoryClean s → (Map.getD s.memory.granules n {}).switchTo = some (some a) →
      Completes (.granuleSwitchComplete n) s fun u =>
        ∃ v : State, u = v.memoryReady ∧
          (Map.getD v.memory.granules n {}).slice = some a ∧ (Map.getD v.memory.granules n {}).switchTo = none ∧
          (Map.getD v.memory.granules n {}).dirty =
            ((Map.getD s.memory.granules n {}).dirty && (Map.getD s.memory.granules n {}).slice.isSome) ∧
          v.memory.bytes = s.memory.bytes) ∧
    ((Map.getD s.memory.granules n {}).switchTo = some none →
      exec (.granuleSwitchComplete n) s = .next (s.freeGranule n).2.memoryReady) ∧
    ((Map.getD s.memory.granules n {}).switchTo = none → exec (.granuleSwitchComplete n) s = .next s) ∧
    (∀ p, MemoryClean s → Map.get? s.memory.pages n = some p → p.state = .spilling →
      Completes (.pageSpillComplete n) s fun u =>
        (Map.get? u.memory.pages n).map Page.state = some .spilled ∧ u.memory.zeroing = s.memory.zeroing + 1 ∧
          u.memory.bytes = s.memory.bytes ∧
          cellsRead u.host.bus (s.spillAddress p) pageBytes = s.bytesAt (n * pageBytes) pageBytes) ∧
    (∀ p, Map.get? s.memory.pages n = some p → p.state ≠ .spilling → exec (.pageSpillComplete n) s = .next s) ∧
    (∀ p, Map.get? s.memory.pages n = some p → p.state = .returning →
      Completes (.pageReturnComplete n true) s fun u =>
        ∃ v : State, u = v.memoryReady ∧ (Map.get? v.memory.pages n).map Page.state = some .resident ∧
          v.memory.bytes = s.memory.bytes) ∧
    (∀ p, Map.get? s.memory.pages n = some p → p.state = .returning →
      exec (.pageReturnComplete n false) s = .next ((s.returnFailed n p).memoryReady))

/-- A repair's host read supplies the line or fails its source; a repair whose budget has run out loses its line, which
is `LOST` until it is written whole; a retired row is served from its relocation slots once no line of it is under repair;
a retired channel's copy ends its reset (R234 to R237, R241, R242, R244, R375). A scrub pass looks at every line that
holds an error and counts itself; the stacks in self-refresh wake for the scrub; an idle stack enters self-refresh and
leaves it (R235, R457). A page that a write had copied aside is no longer being copied (R403). -/
def Obligations.RepairsScrubsAndSelfRefresh : Prop :=
  ∀ (s : State) (l cycles : Nat),
    (∀ r bs, Map.get? s.memory.repairing l = some r → r.hostRead = true →
      exec (.repairHostReadDone l (.bytes bs)) s = .next (s.repairDone l bs).memoryReady ∧
        exec (.repairHostReadDone l .error) s = .next (s.repairFailed l).memoryReady) ∧
    (Map.get? s.memory.repairing l = none → exec (.repairBudgetExpiry l) s = .next s) ∧
    (∀ r, Map.get? s.memory.repairing l = some r → r.since + s.lodge.settings.repairBudgetUs * 1000 ≤ s.now →
      exec (.repairBudgetExpiry l) s = .next
        ((s.count cRepairSourceFails 0 (b2n (r.tag.isSome || r.hostRead))).loseLine l).memoryReady) ∧
    (∀ r, Map.get? s.memory.repairing l = some r → s.now < r.since + s.lodge.settings.repairBudgetUs * 1000 →
      exec (.repairBudgetExpiry l) s = .next s) ∧
    (s.memory.retiringRows.contains l = true → s.memory.eccErrors = [] → s.rowUnderRepair l = false →
      Completes (.rowRetirementComplete l cycles) s fun u =>
        ∃ v : State, u = v.memoryReady ∧
          v.memory.relocated = s.memory.relocated ++ [l] ∧ v.memory.retiringRows.contains l = false ∧
          v.memory.bytes = s.memory.bytes) ∧
    (s.memory.retiringRows.contains l = false → exec (.rowRetirementComplete l cycles) s = .next s) ∧
    (s.memory.copyingChannels.contains l = false → exec (.channelCopyComplete l) s = .next s) ∧
    (s.memory.copyingChannels.contains l = true → s.memory.eccErrors = [] → s.host.resetBusy = false →
      exec (.channelCopyComplete l) s = .next
        ((s.modMem fun m => { m with copyingChannels := m.copyingChannels.filter (· ≠ l) }).fault 0x0005 4 l 2)) ∧
    (s.chipOn = true → s.memory.eccErrors = [] →
      exec (.scrubPass false) s = .next
        ((s.modMem fun m => { m with scrubbing := false }).count cScrubPasses 0).memoryReady) ∧
    (s.chipOn = true → s.memory.cellarErrors = [] → (∀ e ∈ s.stashes, e.errors = []) →
      exec (.scrubPass true) s = .next ((s.modMem fun m => { m with scrubbing := m.scrubbing }).count cScrubPasses 0).memoryReady) ∧
    (s.chipOn = false → exec (.scrubPass false) s = .next s ∧ exec (.scrubPass true) s = .next s) ∧
    (s.chipOn = true → s.memory.selfRefresh ≠ [] →
      exec .scrubWake s = .next (s.modMem fun m => { m with selfRefresh := [], scrubbing := true })) ∧
    (s.memory.stacksServing.contains l = true → s.memory.selfRefresh.contains l = false →
      s.lodge.settings.atticIdleUs ≠ 0 → s.memory.granules = [] →
      exec (.atticSelfRefreshEntry l) s = .next
        (s.modMem fun m => { m with selfRefresh := m.selfRefresh ++ [l], scrubbing := false })) ∧
    (s.lodge.settings.atticIdleUs = 0 → exec (.atticSelfRefreshEntry l) s = .next s) ∧
    exec (.atticSelfRefreshExit l cycles) s = .next
      (s.modMem fun m => { m with selfRefresh := m.selfRefresh.filter (· ≠ l) }) ∧
    (∀ st, s.twin.stream = some st → st.copying.contains l = true →
      exec (.cowCopyComplete l cycles) s = .next ((s.modTwin fun w =>
        { w with stream := some { st with copying := st.copying.filter (· ≠ l) } }).count cCowWait 0 cycles)) ∧
    (s.twin.stream = none → exec (.cowCopyComplete l cycles) s = .next s)


/-! ### Links -/

/-- A port moves between its states as R250 lists: signal and its loss, the end of training, flit lock, loss of lock, 64
replays within 1 ms, 500 µs of retraining without success, and eight authentication failures within 1 ms. The cause of a
failure is recorded (R283). -/
def Obligations.PortsMoveBetweenTheirStates : Prop :=
  ∀ (s : State) (p rate : Nat) (lanes : BitVec 16), p < s.fabric.ports.length →
    let x := s.port p
    let inMs := fun (ts : List Nat) => (ts.filter fun t => s.now < t + 1000000).length
    (∀ n, x.state = .down → 4 ≤ n →
      Completes (.signalDetected p n) s fun u => (u.port p).state = .training ∧ (u.port p).lastChange = s.now) ∧
    (x.state = .training → Completes (.signalLost p) s fun u => (u.port p).state = .down ∧ (u.port p).lastChange = s.now) ∧
    (x.state = .training → x.lastChange + 50000000 ≤ s.now →
      Completes (.trainingTimeout p) s fun u => (u.port p).state = .down ∧ (u.port p).failCause = 4) ∧
    (x.state = .training → s.now < x.lastChange + 50000000 → exec (.trainingTimeout p) s = .next s) ∧
    (∀ w m, lockedLanes lanes.toNat x.minWidth = some (w, m) → (x.state = .training ∨ x.state = .retraining) →
      Completes (.flitLock p lanes rate) s fun u =>
        (u.port p).state = (if x.state = .training then .keying else .retraining) ∧ (u.port p).width = w ∧
          (u.port p).laneMask = BitVec.ofNat 16 m ∧ (u.port p).keyed = false ∧
          (u.port p).nonceSent = (u.port p).localNonce ++ le 2 s.lodge.deviceId ++ le 2 s.lodge.incarnation ∧
          (u.port p).rate = min (min s.permittedRate (if x.maxRate = 0 then 128 else x.maxRate)) rate) ∧
    (lockedLanes lanes.toNat x.minWidth = none → exec (.flitLock p lanes rate) s = .next s) ∧
    (x.state = .active → Completes (.lossOfLock p) s fun u =>
      (u.port p).state = .retraining ∧ (u.port p).leftActive = s.now ∧ (u.port p).keyed = false) ∧
    (x.state = .active → 64 ≤ inMs x.replayTimes → Completes (.replayLimit p) s fun u =>
      (u.port p).state = .retraining ∧ (u.port p).leftActive = s.now ∧ (u.port p).keyed = false) ∧
    (inMs x.replayTimes < 64 → exec (.replayLimit p) s = .next s) ∧
    (x.state = .retraining → x.lastChange + 500000 ≤ s.now → s.host.resetBusy = false →
      Completes (.retrainTimeout p) s fun u => (u.port p).state = .training ∧ (u.port p).replay = []) ∧
    (x.state = .retraining → s.now < x.lastChange + 500000 → exec (.retrainTimeout p) s = .next s) ∧
    (x.state = .active → 8 ≤ inMs x.authTimes → Completes (.authFailureLimit p) s fun u =>
      (u.port p).state = .failed ∧ (u.port p).failCause = 3) ∧
    (inMs x.authTimes < 8 → exec (.authFailureLimit p) s = .next s)

/-- A good data flit in sequence is accepted with its slots, and its acknowledgement is due; one out of sequence changes
nothing; a bad one asks for a resend, and a `NAK` sends again every flit after the one that it names, as it was sent (R254 to
R256). A frame whose tag verifies goes to the port's receive buffers; one whose tag fails counts as not received with its flits
(R264, R266). Credits are added up to the buffer of each virtual channel (R261). A control flit carries the acknowledgement and
the credits that are due, an idle flit the acknowledgement (R249, R256, R261). A frame that closes takes its packets from the
queue in the order of arbitration, encrypts them, and its flits stay in the replay buffer (R255, R262, R264). -/
def Obligations.FlitsAndFrames : Prop :=
  ∀ (s : State) (p : Nat) (f : Flit) (credits : List Nat), p < s.fabric.ports.length → (s.port p).linked = true →
    let x := s.port p
    let left := ackReplay f.ackSeq x.replay
    (f.crcGood = true → Flit.known f 0 = true → f.seq = (x.lastRx + 1) % 1024 → Completes (.dataFlitRx p f) s fun u =>
      (u.port p).lastRx = f.seq ∧ (u.port p).nakSent = false ∧ (u.port p).ackDue = true ∧
        (u.port p).rxSlots = x.rxSlots ++ padTo 240 f.slots ∧
        (u.port p).replay = (if f.ackValid then left else x.replay) ∧
        (f.ackValid = true → f.nak = true → left ≠ [] →
          ∃ first, (u.port p).wire = first ++ left.map (·.2) ∧ first.length ≤ 1)) ∧
    (f.crcGood = true → (Flit.known f 0 = false ∨ f.seq ≠ (x.lastRx + 1) % 1024) →
      Completes (.dataFlitRx p f) s fun u => u.port p = x) ∧
    (f.crcGood = false → ∀ c ∈ [Instr.dataFlitRx p f, .controlFlitRx p f credits], Completes c s fun u =>
      (u.port p).lastRx = x.lastRx ∧ (u.port p).nakSent = true ∧ (u.port p).ackDue = true ∧
        (u.port p).credits = x.credits) ∧
    (f.crcGood = true → Flit.known f 1 = true → x.state = .active → Completes (.controlFlitRx p f credits) s fun u =>
      (u.port p).lastRx = x.lastRx ∧ (u.port p).replay = (if f.ackValid then left else x.replay) ∧
        ∀ v < 8, (u.port p).credits.getD v 0 = min (vcBuffer v) (x.credits.getD v 0 + credits.getD v 0)) ∧
    ((x.ackDue || x.creditsDue.any (· ≠ 0)) = true → Completes (.ackTimer p) s fun u =>
      (u.port p).ackDue = false ∧ (u.port p).creditsDue = List.replicate 8 0 ∧
        (if x.sinceIdle < 2047 then (u.port p).wire = [x.controlFlit] ∧ (u.port p).sinceIdle = x.sinceIdle + 1
          else (u.port p).wire = [x.idleFlit, x.controlFlit] ∧ (u.port p).sinceIdle = 1) ∧ u.memory = s.memory) ∧
    ((x.ackDue || x.creditsDue.any (· ≠ 0)) = false → exec (.ackTimer p) s = .next s) ∧
    (Completes (.idleFlitInsert p) s fun u =>
      (u.port p).wire = [x.idleFlit] ∧ (u.port p).sinceIdle = 0 ∧ (u.port p).ackDue = false) ∧
    (x.queue = [] → exec (.frameClose p) s = .next s) ∧
    (∀ out rest after round used,
      fillFrame x.queue (if x.state == .active then x.credits else if x.keyed then [vcBuffer 0] else []) 0 x.round
        x.queue.length = (out, rest, after, round, used) →
      out ≠ [] → x.replay.length + ceilDiv (used + 1) 15 ≤ 1023 →
      Completes (.frameClose p) s fun u =>
        (u.port p).queue = rest ∧ (u.port p).lastFrame = out.map s.leaves ∧ (u.port p).txFrames = x.txFrames + 1 ∧
          (u.port p).round = round ∧ (x.state = .active → (u.port p).credits = after) ∧
          (u.port p).replay = x.replay ++ x.dataFlits (s.frameSlotBytes p (out.map s.leaves)) ∧
          (u.port p).nextSeq = (x.nextSeq + ceilDiv (used + 1) 15) % 1024 ∧ (u.port p).ackDue = false) ∧
    (∀ slots tag, x.holdsFrame slots tag = true → s.rxTag p slots = tag →
      exec (.encryptionFrameRx p slots tag) s = .next ((s.modPort p fun x => x.deliverFrame slots).dropUnlisted p)) ∧
    (∀ slots tag, x.holdsFrame slots tag = true → s.rxTag p slots ≠ tag →
      Completes (.encryptionFrameRx p slots tag) s fun u =>
        (u.port p).rxFrames = x.rxFrames ∧ (u.port p).rxStream = x.rxStream ∧ (u.port p).rxSlots = [] ∧
          (u.port p).nakSent = true ∧ (u.port p).ackDue = true ∧
          (u.port p).lastRx = (x.lastRx + 1024 - x.rxSlots.length / 240 % 1024) % 1024) ∧
    (∀ slots tag, x.holdsFrame slots tag = false → exec (.encryptionFrameRx p slots tag) s = .next s)

/-- Two ends of a link that hold the same keys confirm them, and `HELLO` follows; a tag that does not fit, a device
without an ID and the module's own ID fail a port in `KEYING` with the causes of R283 (R265, R268). -/
def Obligations.KeysAreConfirmedOrFail : Prop :=
  ∀ (s : State) (p dev inc np : Nat) (nonce : Bytes) (tag : BitVec 128), p < s.fabric.ports.length →
    let x := s.port p
    let own := s.lodge.deviceId
    let nonces := orderNonces own dev x.localNonce nonce
    let rx := s.directionKeys nonces dev inc dev
    let tx := s.directionKeys nonces dev inc own
    x.state = .keying → x.localNonce ≠ [] → x.keyed = false → s.strongroom.state = .ready →
    ((own = 0xFFFF ∨ dev = 0xFFFF) → Completes (.keyConfirmation p nonce dev inc np tag) s fun u =>
      (u.port p).state = .failed ∧ (u.port p).failCause = 2) ∧
    (own ≠ 0xFFFF → dev = own → Completes (.keyConfirmation p nonce dev inc np tag) s fun u =>
      (u.port p).state = .failed ∧ (u.port p).failCause = 5) ∧
    (own ≠ 0xFFFF → dev ≠ 0xFFFF → dev ≠ own → confirmTag rx.1 rx.2 nonces ≠ tag →
      Completes (.keyConfirmation p nonce dev inc np tag) s fun u =>
        (u.port p).state = .failed ∧ (u.port p).failCause = 1) ∧
    (own ≠ 0xFFFF → dev ≠ 0xFFFF → dev ≠ own → confirmTag rx.1 rx.2 nonces = tag →
      Completes (.keyConfirmation p nonce dev inc np tag) s fun u =>
        (u.port p).state = .keying ∧ (u.port p).keyed = true ∧ (u.port p).neighbourPort = np ∧
          (u.port p).neighbourDevice = dev ∧ (u.port p).neighbourIncarnation = inc ∧
          (u.port p).confirmSent = some (confirmTag tx.1 tx.2 nonces) ∧ (u.port p).txKey = tx.1 ∧ (u.port p).rxKey = rx.1 ∧ (u.port p).txFrames = 0 ∧ (u.port p).rxFrames = 0 ∧
          ∃ o, (u.port p).queue = x.queue ++ [o] ∧ o.type = tHello ∧ o.packet.dstDevice = dev)

/-! ### Packets of other modules -/

/-- A packet that does not stand at the front of a port's receive buffer, or that the port does not deliver, is not seen; one
that is stale is dropped with no response; one of bad form or for another module is a violation, and so is a request that its
page, peer or access does not allow (R269 to R272, R276), and a packet of an unlisted type or sub-operation (R260, R277, R306). A
request that is admitted is carried out and answered: a read with the bytes of its range, a write once they are stored, an
atomic with the old word, a post once it is added; a line for a repair is given or refused (R126, R144, R242, R273). A response
ends the request of its tag; one that has none is counted, and a request whose time has run out expires; a flow whose port has
failed moves (R273 to R275). -/
def Obligations.PacketsAreCheckedServedAndEnd : Prop :=
  ∀ (s : State) (p : Nat) (k : Packet),
    let a := locOf k.address
    let reqs : List ((Nat → Packet → Instr) × Nat) :=
      [(.readReq, tReadReq), (.writeReq, tWriteReq), (.atomicReq, tAtomicReq), (.semPostPacket, tSemPost)]
    let rsps : List ((Nat → Packet → Instr) × Nat) :=
      [(.readRsp, tReadRsp), (.writeAck, tWriteAck), (.atomicRsp, tAtomicRsp), (.semAck, tSemAck), (.repairRsp, tRepairRsp)]
    (∀ e ∈ (.repairRead, tRepairRead) :: reqs ++ rsps,
      (s.delivers p e.2 = false → exec (e.1 p k) s = .next s) ∧
      ((s.port p).front ≠ some (e.2, { k with span := none }) → exec (e.1 p k) s = .next s) ∧
      (∀ v, Stands s p e.2 k → (s.arrived p e.2 k).staleDrop p e.2 k = some v →
        exec (e.1 p k) s = .next (v.dropUnlisted p))) ∧
    (∀ r n, (s.port p).front = some r → listed r.1 r.2.operation = false → s.delivers p r.1 = true →
      (s.arrived p r.1 r.2).staleDrop p r.1 r.2 = none →
      State.dropUnlistedN p (n + 1) s = State.dropUnlistedN p n ((s.arrived p r.1 r.2).violation 1 p)) ∧
    (∀ e ∈ reqs ++ rsps, Stands s p e.2 k → (s.arrived p e.2 k).staleDrop p e.2 k = none →
      (formOk e.2 k = false → exec (e.1 p k) s = .next (((s.arrived p e.2 k).violates e.2 k 1 p).dropUnlisted p)) ∧
      (formOk e.2 k = true → k.dstDevice ≠ s.lodge.deviceId →
        exec (e.1 p k) s = .next (((s.arrived p e.2 k).violates e.2 k 2 p).dropUnlisted p))) ∧
    (∀ e ∈ reqs, Arrives s p e.2 k →
      (∀ cause inst, (s.arrived p e.2 k).admits p e.2 k = .error (cause, inst) →
        exec (e.1 p k) s = .next (((s.arrived p e.2 k).violates e.2 k cause inst).dropUnlisted p))) ∧
    (∀ ct, Arrives s p tReadReq k → (s.arrived p tReadReq k).admits p tReadReq k = .ok ct → k.select = false →
      let v := s.arrived p tReadReq k
      v.awayPages a k.length = [] → MemoryClean s →
      (v.suppressedBy a k.length k.srcDevice = none →
        exec (.readReq p k) s = .next
          (((v.touch a k.length).respond tReadRsp k k.length 0 (s.bytesAt a k.length)).dropUnlisted p)) ∧
      (∀ id, v.suppressedBy a k.length k.srcDevice = some id →
        exec (.readReq p k) s = .next
          (((v.countSuppressed id k.length).respond tReadRsp k k.length 0 (zeros k.length)).dropUnlisted p))) ∧
    (∀ ct, Arrives s p tWriteReq k → (s.arrived p tWriteReq k).admits p tWriteReq k = .ok ct →
      let v := s.arrived p tWriteReq k
      let r := k.span.getD (0, k.length)
      v.awayPages a k.length = [] → MemoryClean s →
      exec (.writeReq p k) s = .next
        (((v.store (a + r.1) ((k.payload.drop r.1).take (r.2 - r.1))).respond tWriteAck k 0).dropUnlisted p)) ∧
    (∀ ct, Arrives s p tAtomicReq k → (s.arrived p tAtomicReq k).admits p tAtomicReq k = .ok ct →
      let v := s.arrived p tAtomicReq k
      v.awayPages a 8 = [] → MemoryClean s →
      exec (.atomicReq p k) s = .next ((((v.touch a 8).atomicAt a k.operation k.operand
        (BitVec.ofNat 64 (field k.payload 0 8))).respond tAtomicRsp k 0
          (BitVec.ofNat 64 (leNat (s.bytesAt a 8)))).dropUnlisted p)) ∧
    (∀ ct, Arrives s p tSemPost k → (s.arrived p tSemPost k).admits p tSemPost k = .ok ct →
      let v := s.arrived p tSemPost k
      v.awayPages a 16 = [] → MemoryClean s →
      exec (.semPostPacket p k) s = .next (((v.semAdd 0 a k.operand.toNat).respond tSemAck k 0).dropUnlisted p)) ∧
    (Stands s p tRepairRead k → (s.arrived p tRepairRead k).staleDrop p tRepairRead k = none →
      let v := s.arrived p tRepairRead k
      (k.vc ≠ 2 → exec (.repairRead p k) s = .next ((v.violation 1 p).dropUnlisted p)) ∧
      (k.vc = 2 → k.dstDevice ≠ s.lodge.deviceId →
        exec (.repairRead p k) s = .next ((v.violation 2 p).dropUnlisted p)) ∧
      (k.vc = 2 → k.dstDevice = s.lodge.deviceId → MemoryClean s →
        (v.repairRefused k = false → exec (.repairRead p k) s = .next
          (((v.touch a lineBytes).respond tRepairRsp k lineBytes 0 (s.bytesAt a lineBytes)).dropUnlisted p)) ∧
        (v.repairRefused k = true → v.suppressedBy a lineBytes k.srcDevice = none →
          exec (.repairRead p k) s = .next ((v.respond tRepairRsp k 0 0 [] 1).dropUnlisted p)) ∧
        (∀ id, v.suppressedBy a lineBytes k.srcDevice = some id →
          exec (.repairRead p k) s = .next
            (((v.countSuppressed id lineBytes).respond tRepairRsp k 0 0 [] 1).dropUnlisted p)))) ∧
    (∀ e ∈ rsps, Arrives s p e.2 k →
      let v := s.arrived p e.2 k
      (Map.get? s.fabric.requests k.tag = none → exec (e.1 p k) s = .next ((v.count cLateResponse p).dropUnlisted p)) ∧
      (∀ r, Map.get? s.fabric.requests k.tag = some r →
        (responseType r.out.type = e.2 → r.out.packet.dstDevice = k.srcDevice →
          exec (e.1 p k) s = .next ((v.endRequest k.tag (if k.status = 1 then .refused k.operand.toNat
            else .ok k.operand k.payload)).dropUnlisted p)) ∧
        ((responseType r.out.type ≠ e.2 ∨ r.out.packet.dstDevice ≠ k.srcDevice) →
          exec (e.1 p k) s = .next ((v.count cLateResponse p).dropUnlisted p)))) ∧
    (∀ tag r, Map.get? s.fabric.requests tag = some r →
      (r.over s.now = true → exec (.fabricTimeout tag) s = .next (s.endRequest tag .expired)) ∧
      (r.over s.now = false → exec (.fabricTimeout tag) s = .next s)) ∧
    (∀ tag, Map.get? s.fabric.requests tag = none → exec (.fabricTimeout tag) s = .next s) ∧
    (∀ dst vc q, Map.get? s.fabric.flows (flowKey dst vc) = some q →
      (s.portUp (q % 8) = true → exec (.flowMove dst vc) s = .next s) ∧
      (s.portUp (q % 8) = false → s.choosePort dst vc = none → exec (.flowMove dst vc) s = .next s) ∧
      (∀ n, s.portUp (q % 8) = false → s.choosePort dst vc = some n → n ≠ q % 8 →
        let type := fun (tag : Nat) => ((Map.get? s.fabric.requests tag).map fun r => r.out.type).getD 0
        let dead := (s.sentBy dst vc (q % 8) ((s.port (q % 8)).queue.filter fun o => inFlow o.packet dst vc)).filter fun tag =>
          type tag == tAtomicReq || type tag == tSemPost
        ∃ v : State, exec (.flowMove dst vc) s = .next
            (dead.foldl (fun (s : State) tag => s.endRequest tag .expired) v).pump ∧
          Map.get? v.fabric.flows (flowKey dst vc) = some n ∧ v.memory = s.memory ∧
          ∀ o ∈ (v.port (q % 8)).queue, inFlow o.packet dst vc = false))

/-- `HELLO` and its answer record the sender's incarnation, and a neighbour that no switch stands before (R268); a retired
pair is remembered (R270); a time exchange is answered with its t2 and correction, and its result recorded (R279). Time is
saved (R451), the servo steers (R451, R452), a lost lock shows after 1 s (R452), and a source that lags is recorded each
minute (R451). -/
def Obligations.ControlPacketsAndTime : Prop :=
  ∀ (s : State) (p : Nat) (k : Packet),
    (p < s.fabric.ports.length → s.host.resetBusy = false →
      ∀ e ∈ ([(.hello, tHello), (.helloRsp, tHelloRsp)] : List ((Nat → Packet → Instr) × Nat)), Arrives s p e.2 k →
        ∃ u : State, exec (e.1 p k) s = .next (u.dropUnlisted p) ∧
          Map.get? u.fabric.incarnations k.srcDevice = some k.srcIncarnation ∧
            ((s.port p).state ≠ .active → k.hops = 0 → (u.port p).neighbourDevice = k.srcDevice ∧
              (u.port p).neighbourIncarnation = k.srcIncarnation) ∧
            (e.2 = tHelloRsp → (s.port p).state ≠ .active → (u.port p).helloDone = true)) ∧
    (Arrives s p tGenRetire k → ∃ u : State, exec (.genRetire p k) s = .next (u.dropUnlisted p) ∧
      u.isRetired k.srcDevice k.ctxId k.ctxGeneration = true ∧ u.memory = s.memory) ∧
    (p < s.fabric.ports.length → Arrives s p tTimeSync k → ∃ u : State, exec (.timeSync p k) s = .next (u.dropUnlisted p) ∧
      ∃ o, (u.port p).queue = (s.port p).queue ++ [o] ∧ o.type = tTimeRsp ∧ o.packet.tag = k.tag ∧
        o.packet.dstDevice = k.srcDevice ∧ field o.packet.payload 0 8 = s.lodge.time16 % 2 ^ 64 ∧
        field o.packet.payload 16 8 = k.operand.toNat) ∧
    (p < s.fabric.ports.length → s.host.resetBusy = false → Arrives s p tTimeRsp k →
      ∃ u : State, exec (.timeRsp p k) s = .next (u.dropUnlisted p) ∧ ((u.port p).lastDelay, (u.port p).lastOffset) = exchange (s.port p).syncSent (field k.payload 0 8)
        (field k.payload 8 8) s.lodge.time16 (field k.payload 16 8) k.operand.toNat ∧ (u.port p).syncDone = true) ∧
    (Completes .timeSyncTimer s fun u =>
      (p < s.fabric.ports.length → p < s.variant.ports → (s.port p).state = .active →
        ∃ o, (u.port p).queue = (s.port p).queue ++ [o] ∧ o.type = tTimeSync) ∧
      (s.parentPort = none → u.lodge.locked = false)) ∧
    (s.lodge.phase ≠ .off → exec .timeSave s = .next { s with lodge := { s.lodge with timeSaved := s.now } }) ∧
    (s.lodge.phase = .off → exec .timeSave s = .next s ∧ ∀ off, exec (.ptpMessage off) s = .next s) ∧
    (∀ off, s.lodge.phase ≠ .off → s.lodge.settings.timeSource = 1 → s.lodge.everLocked = true →
      (-(10000000000 * 65536) ≤ off → Completes (.ptpMessage off) s fun u =>
        u.lodge.rate16 = max (-524) (min 524 (off.tdiv 100000)) ∧ u.lodge.sourceBehind = false) ∧
      (off < -(10000000000 * 65536) → Completes (.ptpMessage off) s fun u =>
        u.lodge.sourceBehind = true ∧ u.lodge.rate16 = s.lodge.rate16 ∧ u.lodge.syncState = 0)) ∧
    (s.lodge.syncNow = 0 → s.lodge.lastLocked + 1000000000 ≤ s.now →
      Completes .syncLoss s fun u => u.lodge.syncState = 0 ∧ u.lodge.rate16 = s.lodge.rate16) ∧
    (s.lodge.sourceBehind = true → s.lodge.behindAt ≤ s.now → Completes .sourceBehindEntry s fun u =>
      u.lodge.behindAt = s.now + 60000000000 ∧ u.lodge.nextAccession = s.lodge.nextAccession + 1) ∧
    ((s.lodge.sourceBehind = false ∨ s.now < s.lodge.behindAt) → exec .sourceBehindEntry s = .next s)


/-! ### Packets of collectives -/

/-- A packet of a collective is checked in the order of R308: too short a header is a violation, a group that is not
there drops it, a sender or receiver that is no member is a violation, another epoch drops it, and the rest goes to its
collective. A probe is answered at once (R302, R308), and a claim or the data of a first-writer-wins slot is served where
the slot lies (R316, R317). Probes go out again after each interval (R302), and a claim that is too old gives its slot
back (R317). -/
def Obligations.CollectivePacketsReachTheirCollective : Prop :=
  ∀ (s : State) (p : Nat) (k : Packet),
    let hd := CollHdr.parse k.payload
    let v := s.arrived p tColl k
    let go : List ((Nat → Packet → Instr) × Nat × (State → State)) :=
      [(.collData, subData, fun u => u.matchColl k hd), (.collResult, subResult, fun u => u.matchColl k hd),
        (.pieceAck, subPieceAck, fun u => u.matchColl k hd), (.ready, subReady, fun u => u.matchColl k hd),
        (.arrive, subArrive, fun u => u.matchColl k hd), (.fwwClaim, subClaim, fun u => u.serveFww p k),
        (.fwwData, subFwwData, fun u => u.serveFww p k)]
    let member := fun (g : CollGroup) => 48 ≤ k.payload.length ∧ Arrives s p tColl k ∧ v.headerGroup hd = some g ∧
      v.memberOk g k hd = true
    (∀ e ∈ go, k.operation = e.2.1 → Arrives s p tColl k →
      (k.payload.length < 48 → exec (e.1 p k) s = .next ((v.violation 1 p).dropUnlisted p)) ∧
      (48 ≤ k.payload.length → v.headerGroup hd = none →
        exec (e.1 p k) s = .next ((v.count cCollLateDrops 0).dropUnlisted p)) ∧
      (∀ g, 48 ≤ k.payload.length → v.headerGroup hd = some g →
        (v.memberOk g k hd = false → exec (e.1 p k) s = .next ((v.violation 4 hd.dstCtx).dropUnlisted p)) ∧
        (v.memberOk g k hd = true →
          (hd.epoch ≠ g.epoch → exec (e.1 p k) s = .next ((v.count cCollLateDrops 0).dropUnlisted p)) ∧
          (hd.epoch = g.epoch → exec (e.1 p k) s = .next ((e.2.2 v).dropUnlisted p))))) ∧
    (∀ e ∈ go, k.operation ≠ e.2.1 → exec (e.1 p k) s = .next s) ∧
    (∀ g, k.operation = subFlag → member g → hd.epoch = g.epoch →
      exec (.flag p k) s = .next (((v.matchColl k hd).dropUnlisted p).versionsReady)) ∧
    (48 ≤ k.payload.length → k.operation = subProbe → Arrives s p tColl k →
      ((s.ctx hd.dstCtx).state = .draining →
        exec (.probe p k) s = .next ((v.count cCollLateDrops 0).dropUnlisted p)) ∧
      ((s.ctx hd.dstCtx).state ≠ .draining → v.headerGroup hd = none →
        exec (.probe p k) s = .next ((v.collReply k subProbeRsp (2 ^ 48 * 0xFFFF)).dropUnlisted p)) ∧
      (∀ g, (s.ctx hd.dstCtx).state ≠ .draining → v.headerGroup hd = some g → v.memberOk g k hd = true →
        exec (.probe p k) s = .next ((v.collReply k subProbeRsp (v.probeAnswer g hd)).dropUnlisted p))) ∧
    (∀ g, k.operation = subProbeRsp → member g →
      ∀ r id j c, Map.get? s.fabric.requests k.tag = some r → r.unit = .probe id j → s.coll? id = some c →
        c.epoch = hd.epoch → c.matchKey = hd.matchKey → c.kind = hd.kind → j = hd.src →
        exec (.probeRsp p k) s = .next
          (((v.endRequest k.tag (.ok k.operand [])).probed id j k.operand.toNat).dropUnlisted p)) ∧
    (∀ g, k.operation = subClaimRsp → member g → hd.epoch = g.epoch →
      ∀ r id, Map.get? s.fabric.requests k.tag = some r → r.unit = .claim id →
        exec (.fwwClaimRsp p k) s = .next ((((v.endRequest k.tag (.ok k.operand [])).claimed id
          (k.operand.toNat % 65536) (bitOf k.operand.toNat 16) (k.operand.toNat / 2 ^ 32)).collStep id).dropUnlisted p)) ∧
    (∀ g, k.operation = subFwwAck → member g → hd.epoch = g.epoch →
      ∀ id c, s.collOf hd = some id → s.coll? id = some c → c.stage = 1 → c.op = opFwwPut →
        exec (.fwwDataAck p k) s = .next (((v.modColl id fun c =>
          { c with acked := Map.put c.acked hd.src (Map.getD c.acked hd.src 0 + 1)
                   lost := c.lost || !bitOf k.operand.toNat 16 }).collStep id).dropUnlisted p)) ∧
    (∀ a c, Map.get? s.coll.claims a = some c →
      (c.since + 2 * s.timeoutOf c.ctx * 1000 ≤ s.now →
        exec (.fwwClaimExpiry a) s = .next ((s.releaseSlot a).count cFwwClaimsExpired 0)) ∧
      (s.now < c.since + 2 * s.timeoutOf c.ctx * 1000 → exec (.fwwClaimExpiry a) s = .next s)) ∧
    (∀ id c g, s.coll? id = some c → s.group? c.ctx c.group = some g → c.stage = 1 →
      ((s.ctx c.ctx).state ≠ .active → exec (.probeInterval id) s = .next s) ∧
      ((s.ctx c.ctx).state = .active → exec (.probeInterval id) s = .next
        ((s.awaited c g ++ s.unacked c).eraseDups.foldl (fun (s : State) j =>
          if Map.getD c.probed j 0 + s.probeEvery c.ctx ≤ s.now then s.probe id j else s) s)))

/-! ### Packets of the Party Wall -/

/-- Packets of the twin (R399 to R405, R408, R410, R413): an offer may make the pair, `UNPAIR` ends it, and so does the
grace when it is over; snapshot data lies in the mirror, is acknowledged, and its commit makes the entry `CURRENT`; only a
`CURRENT` entry is read; an adoption hands over the survivor's record. From a module that may not send it a packet is a
violation. -/
def Obligations.TwinPacketsKeepThePair : Prop :=
  ∀ (s : State) (p : Nat) (k : Packet),
    let v := s.arrived p tTwin k
    let a := locOf k.address
    let rows : List ((Nat → Packet → Instr) × Nat) := [(.pairOffer, 1), (.unpair, 2), (.snapData, 3), (.snapAck, 4),
      (.snapCommit, 5), (.mirrorRead, 6), (.mirrorData, 7), (.dirSync, 8), (.adopt, 9)]
    (∀ e ∈ rows, k.operation ≠ e.2 → exec (e.1 p k) s = .next s) ∧
    (∀ e ∈ rows, k.operation = e.2 → Arrives s p tTwin k → (k.ctxId ≠ 0 ∨ s.twinMay e.2 k.srcDevice = false) →
      exec (e.1 p k) s = .next ((v.violation 1 p).dropUnlisted p)) ∧
    (TwinArrives s p 1 k → s.twin.state = .single → exec (.pairOffer p k) s = .next
      (((v.modTwin fun w => { w with received := some (k.srcDevice, field k.payload 0 2) }).tryPair).dropUnlisted p)) ∧
    (TwinArrives s p 1 k → s.twin.state = .paired → exec (.pairOffer p k) s = .next (v.dropUnlisted p)) ∧
    (TwinArrives s p 1 k → s.twin.state = .adopting → s.twin.adoptRole = 2 → exec (.pairOffer p k) s = .next
      (((v.modTwin fun w => { w with survivorCopied := true }).settleAdoption).dropUnlisted p)) ∧
    (TwinArrives s p 1 k → s.twin.state = .adopting → s.twin.adoptRole ≠ 2 →
      exec (.pairOffer p k) s = .next (v.dropUnlisted p)) ∧
    (TwinArrives s p 2 k → s.twin.state = .single →
      exec (.unpair p k) s = .next ((v.modTwin fun w => { w with received := none }).dropUnlisted p)) ∧
    (TwinArrives s p 2 k → s.twin.state ≠ .single → exec (.unpair p k) s = .next (v.unpair.dropUnlisted p)) ∧
    (TwinArrives s p 3 k → s.mirrorTakes k.srcDevice k.operand a k.payload.length = true →
      ∃ u : State, exec (.snapData p k) s = .next (u.dropUnlisted p) ∧
        cellsRead u.twin.mirror a k.payload.length = k.payload ∧
          (u.twin.held.any fun e => e.fills k.srcDevice k.operand) = true ∧ u.memory = s.memory) ∧
    (TwinArrives s p 3 k → s.mirrorTakes k.srcDevice k.operand a k.payload.length = false →
      exec (.snapData p k) s = .next (v.dropUnlisted p)) ∧
    (TwinArrives s p 4 k → exec (.snapAck p k) s = .next ((v.streamAck k.operand a).dropUnlisted p)) ∧
    (TwinArrives s p 5 k → (s.twin.held.any fun x => x.fills k.srcDevice k.operand) = true →
      exec (.snapCommit p k) s = .next (((v.commitIncoming k.srcDevice
        { (MirrorEntry.parse k.payload).1 with ckptId := k.operand }).twinSend 4 k.operand [] a).dropUnlisted p)) ∧
    (TwinArrives s p 5 k → (s.twin.held.any fun x => x.fills k.srcDevice k.operand) = false →
      exec (.snapCommit p k) s = .next ((if (s.twin.held.any fun x => x.state == .current &&
          decide (x.ownerDevice = k.srcDevice) && x.ckptId == k.operand &&
          decide (x.beginTime = (MirrorEntry.parse k.payload).1.beginTime)) = true
        then v.twinSend 4 k.operand [] a else v).dropUnlisted p)) ∧
    (∀ e, TwinArrives s p 6 k →
      (s.twin.held.find? fun e => e.state == .current && decide (e.offset ≤ a) && decide (a < e.offset + e.bytes)) = some e →
      let n := min (4096 - a % 4096) (e.offset + e.bytes - a)
      ∃ r : Packet, r.dstDevice = k.srcDevice ∧ r.tag = k.tag ∧ r.operation = 7 ∧
        (s.entryLoan e k.srcDevice = none → r.status = 0 ∧ r.payload = cellsRead s.twin.mirror a n ∧
          exec (.mirrorRead p k) s = .next ((v.emit { type := tTwin, packet := r }).dropUnlisted p)) ∧
        (∀ id, s.entryLoan e k.srcDevice = some id → r.status = 1 ∧ r.payload = [] ∧
          exec (.mirrorRead p k) s = .next
            (((v.countSuppressed id n).emit { type := tTwin, packet := r }).dropUnlisted p))) ∧
    (TwinArrives s p 6 k →
      (s.twin.held.find? fun e => e.state == .current && decide (e.offset ≤ a) && decide (a < e.offset + e.bytes)) = none →
      ∃ r : Packet, exec (.mirrorRead p k) s = .next ((v.emit { type := tTwin, packet := r }).dropUnlisted p) ∧
        r.dstDevice = k.srcDevice ∧ r.tag = k.tag ∧ r.operation = 7 ∧ r.status = 1 ∧ r.payload = []) ∧
    (TwinArrives s p 7 k → exec (.mirrorData p k) s = .next ((v.answer p tTwin k).dropUnlisted p)) ∧
    (TwinArrives s p 8 k → ∃ u : State, exec (.dirSync p k) s = .next (u.settleAdoption.dropUnlisted p) ∧
      u.twin.peerDrained = (BitVec.ofNat 64 (field k.payload 8 8), field k.payload 16 8) ∧
        u.twin.peerReady = (field k.payload 7 1 == 1)) ∧
    (TwinArrives s p 9 k → s.twin.state = .adopting → s.twin.adoptRole = 2 →
      ∃ u : State, exec (.adopt p k) s = .next (u.dropUnlisted p) ∧
        u.twin.lastDrainedId = BitVec.ofNat 64 (field k.payload 8 8) ∧ u.twin.lastDrainedStep = field k.payload 16 8 ∧
          u.memory = s.memory) ∧
    (TwinArrives s p 9 k → (s.twin.state ≠ .adopting ∨ s.twin.adoptRole ≠ 2) →
      exec (.adopt p k) s = .next (v.dropUnlisted p)) ∧
    (s.twin.state ≠ .single → s.stewardRunning = true → s.linkedTo s.twin.twinDevice = false →
      ((s.port 0).leftActive + s.lodge.settings.twinGraceS * 1000000000 ≤ s.now →
        exec .twinGraceExpiry s = .next s.unpair) ∧
      (s.now < (s.port 0).leftActive + s.lodge.settings.twinGraceS * 1000000000 → exec .twinGraceExpiry s = .next s)) ∧
    (s.twin.state = .single → exec .twinGraceExpiry s = .next s)

/-! ### Bring-up, power and heat -/

/-- Bring-up goes on step by step: the always-on domain and its time, the Strongroom's keys, the firmware slot that
verifies or the recovery service, Foyer service, and full service once no port has to retrain (R11, R250, R415, R444,
R451, R461 to R463). -/
def Obligations.BringUpReachesService : Prop :=
  ∀ (s : State) (failedArrays failedStacks : List Nat) (fp64 slot0 slot1 : Bool),
    let ok := fun (i : Nat) => if i = 0 then slot0 else slot1
    (s.lodge.phase = .off → s.lodge.inputShort = false → s.lodge.leak = false → Completes .powerGood s fun u =>
      u.lodge.phase = .keys ∧ u.lodge.time16 = (s.lodge.timeSaved + 1000000000) * 65536 ∧
        u.lodge.incarnation = (if s.lodge.inputLost then nextIncarnation s.lodge.incarnation else s.lodge.incarnation)) ∧
    ((s.lodge.phase ≠ .off ∨ s.lodge.inputShort = true) → exec .powerGood s = .next s) ∧
    (s.lodge.phase = .keys → Completes (.keyReconstruction true) s fun u =>
      u.lodge.phase = .firmware ∧ u.strongroom.state = .ready) ∧
    (s.lodge.phase = .keys → Completes (.keyReconstruction false) s fun u =>
      u.lodge.phase = .firmware ∧ u.strongroom.state = .failed ∧ (Map.get? u.attnPending 7).isSome = true) ∧
    (s.lodge.phase = .firmware → s.host.resetBusy = false → ok s.lodge.activeSlot = true →
      Completes (.firmwareVerified slot0 slot1) s fun u =>
        u.lodge.phase = .checking ∧ u.stewardRunning = true ∧ u.lodge.activeSlot = s.lodge.activeSlot ∧
          ∀ p, p < s.variant.ports → p < s.fabric.ports.length → (s.port p).state = .disabled → (u.port p).state = .down) ∧
    (s.lodge.phase = .firmware → s.host.resetBusy = false → ok s.lodge.activeSlot = false →
      ok (1 - s.lodge.activeSlot) = true → Completes (.firmwareVerified slot0 slot1) s fun u =>
        u.lodge.phase = .checking ∧ u.stewardRunning = true ∧ u.lodge.activeSlot = 1 - s.lodge.activeSlot ∧
          (Map.get? u.attnPending 7).isSome = true) ∧
    (s.lodge.phase = .firmware → s.host.resetBusy = false → ok s.lodge.activeSlot = false →
      ok (1 - s.lodge.activeSlot) = false → Completes (.firmwareVerified slot0 slot1) s fun u =>
        u.lodge.phase = .recovery ∧ u.stewardRunning = s.stewardRunning) ∧
    (s.lodge.phase = .checking → s.host.resetBusy = false → Completes (.foyerService failedArrays failedStacks) s fun u =>
      u.lodge.phase = .foyer ∧ u.deviceReady = true ∧ u.memory.selfRefresh = [] ∧
        u.serviceLevel = (if s.strongroom.state = .failed then 0 else 1)) ∧
    (s.lodge.phase = .foyer → s.serviceLevel = 1 →
      (∀ p, p < s.variant.ports → (s.port p).state ≠ .active ∧ (s.port p).state ≠ .retraining) →
      Completes (.fullService failedArrays failedStacks fp64) s fun u =>
        u.lodge.phase = .full ∧ u.serviceLevel = 2 ∧ u.laneRate = 128 ∧ u.permittedRate = 128 ∧
          u.fp64Serving = (fp64 && s.variant.fp64) ∧ (Map.get? u.attnPending 2).isSome = true) ∧
    (∀ p, s.lodge.phase = .foyer → s.serviceLevel = 1 → (∀ i, i < s.variant.ports → (s.port i).state ≠ .retraining) →
      s.nextRetrain = some p → p < s.fabric.ports.length → Completes (.fullService failedArrays failedStacks fp64) s fun u =>
        u.serviceLevel = 1 ∧ u.permittedRate = 128 ∧ (u.port p).state = .retraining ∧ (u.port p).planned = true) ∧
    ((s.lodge.phase ≠ .foyer ∨ s.serviceLevel ≠ 1) →
      exec (.fullService failedArrays failedStacks fp64) s = .next s)

/-- A loss or an excess of input, or a short, turns every domain off, and only MRAM is left (R475, R476). A power sample
enters the averages, and the tenth of a millisecond withholds where the average is above the cap (R458, R476). Heat
withholds at 95 °C, counts down at 100 °C and shuts down after 5 s; a leak shuts down at once (R459, R478). -/
def Obligations.PowerHeatAndLeaksProtect : Prop :=
  ∀ (s : State) (dv ma : Nat) (centi : Int),
    (s.lodge.phase ≠ .off → ∀ c ∈ [Instr.inputUndervoltage, .inputOvervoltage], Completes c s fun u =>
      u = s.powerOff ∧ u.lodge.phase = .off ∧ u.lodge.inputLost = true ∧ u.memory.bytes = [] ∧ u.ctxs = [] ∧
        u.deviceReady = false ∧ u.pending = s.pending) ∧
    (s.lodge.phase = .off → ∀ c ∈ [Instr.inputUndervoltage, .inputOvervoltage], exec c s = .next s) ∧
    (Completes .inputShort s fun u => u.lodge.phase = .off ∧ u.lodge.inputShort = true) ∧
    (s.lodge.phase = .off → dv < 100 → exec (.inputMonitorSample dv ma) s =
      .next { s with lodge := { s.lodge with inputShort := false } }) ∧
    (s.lodge.phase ≠ .off → s.lodge.inputSamples.length < 9 → Completes (.inputMonitorSample dv ma) s fun u =>
      u.lodge.inputMv = 100 * dv ∧ u.lodge.inputSamples = s.lodge.inputSamples ++ [dv * ma] ∧
        u.lodge.periodSum = s.lodge.periodSum + dv * ma ∧ u.lodge.periodCount = s.lodge.periodCount + 1 ∧
        u.lodge.withholding = s.lodge.withholding) ∧
    (s.lodge.phase ≠ .off → s.lodge.phase ≠ .shutdown → 9 ≤ s.lodge.inputSamples.length →
      10 * (s.lodge.powerCap * 10000) < s.lodge.inputSamples.sum + dv * ma → Completes (.inputMonitorSample dv ma) s fun u =>
        u.lodge.inputSamples = [] ∧ u.lodge.withholding = true ∧
          (s.lodge.withholding = false → (Map.get? u.attnPending 3).isSome = true)) ∧
    (s.chipOn = true → 9500 ≤ centi → s.lodge.throttling = false → Completes (.thermalThrottle centi) s fun u =>
      u.lodge.throttling = true ∧ u.lodge.nextFault = s.lodge.nextFault + 1 ∧
        (Map.get? u.attnPending 3).isSome = true) ∧
    (s.chipOn = true → 10000 ≤ centi → s.lodge.countdown = none → Completes (.thermalCountdown centi) s fun u =>
      u.lodge.countdown = some s.now ∧ (Map.get? u.attnPending 3).isSome = true) ∧
    (∀ t, s.chipOn = true → 10000 ≤ centi → s.lodge.countdown = some t → t + 5000000000 ≤ s.now →
      Completes (.thermalShutdown centi) s fun u =>
        u = s.shutDown ∧ u.lodge.phase = .shutdown ∧ u.deviceReady = false ∧ u.lodge.time16 = s.lodge.time16) ∧
    ((s.chipOn = false ∨ centi < 9500) → exec (.thermalThrottle centi) s = .next s) ∧
    ((s.chipOn = false ∨ centi < 10000) →
      exec (.thermalCountdown centi) s = .next s ∧ exec (.thermalShutdown centi) s = .next s) ∧
    (exec (.thermalThrottleEnd centi) s = .next { s with lodge := { s.lodge with
      countdown := if centi < 10000 then none else s.lodge.countdown
      throttling := s.lodge.throttling && decide (9000 ≤ centi) } }) ∧
    (s.lodge.phase ≠ .off → Completes .leakDetected s fun u =>
      u.lodge.leak = true ∧ u.lodge.phase = .shutdown ∧ (Map.get? u.attnPending 3).isSome = true) ∧
    (s.lodge.phase = .off → exec .leakDetected s = .next s)

/-! ### Sessions, telemetry and what ends in time -/

/-- A session opens for an enrolled operator whose signature verifies, and closes when told or idle for 60 s (R437,
R439). A datagram that is no valid fragment is discarded, one that repeats is answered again, and a whole command waits
for its turn (R436, R438). Telemetry goes to each session at its period (R460), and the health update decays each rate
(R395). An open transaction past its time is aborted (R385), a loan past its time revoked (R424), a quote leaves the queue
(R428), a firmware window closes on the new image (R443), and a probation test leaves its outcome (R398). -/
def Obligations.SessionsAndTimeLimits : Prop :=
  ∀ (s : State) (m : OpenMessage) (d : Datagram) (id : Nat),
    (∀ secret, s.lodge.phase ≠ .off → s.catalogueFull = false → s.openKnown m = true →
      Config.verify m.opAlg (padTo 64 m.operatorKey) (openFields m) m.signature = true → s.strongroom.state = .ready →
      Config.decapsulate m.kemCt = some secret → s.lodge.sessions.length < 4 → Completes (.openSession m) s fun u =>
        u = s.acceptOpen m secret ∧ ∃ x, u.lodge.sessions = s.lodge.sessions ++ [x] ∧ x.id = s.lodge.nextSession ∧
          x.lastHeard = s.now) ∧
    (s.lodge.phase ≠ .off → s.catalogueFull = false → s.openKnown m = false → Completes (.openSession m) s fun u =>
      u = s.refuseOpen false ∧ u.lodge.sessions = s.lodge.sessions) ∧
    (∀ x, s.session? d.session = some x →
      (datagramOk x d = false → exec (.mgmtCommand d) s = .next s) ∧
      (datagramOk x d = true →
        let s1 := s.modSession x.id fun y => { y with lastHeard := s.now }
        (d.sequence < x.next → exec (.mgmtCommand d) s = .next (s1.replyAgain x d.sequence)) ∧
        (∀ b, x.next ≤ d.sequence → d.sequence ≤ x.next + 64 → Map.has x.ahead d.sequence = false →
          Map.get? x.partials d.sequence = none → (joinFragment s.now none d).whole = some b →
          exec (.mgmtCommand d) s = .next (s1.holdCommand x.id d.sequence b)))) ∧
    (s.session? d.session = none → exec (.mgmtCommand d) s = .next s) ∧
    ((s.session? id).isSome = true → Completes (.closeSession id) s fun u =>
      u.lodge.sessions = s.lodge.sessions.filter fun x => x.id ≠ id) ∧
    (exec (.fragmentTimeout id) s = .next (s.modSession id fun x =>
      { x with partials := x.partials.filter fun e => s.now < e.2.arrived + 1000000000 })) ∧
    (∀ x, s.session? id = some x →
      (x.lastHeard + 60000000000 ≤ s.now → Completes (.sessionIdleTimeout id) s fun u => u.session? id = none) ∧
      (s.now < x.lastHeard + 60000000000 → exec (.sessionIdleTimeout id) s = .next s)) ∧
    (∀ x, s.lodge.phase ≠ .off → s.lodge.lastTelemetry + s.lodge.settings.telemetryMs * 1000000 ≤ s.now →
      s.lodge.sessions = [x] → Completes .telemetry s fun u =>
        u.lodge.lastTelemetry = s.now ∧ u.lodge.periodCount = 0 ∧ ∃ body, body.take 8 = le 8 s.now ∧
          u.lodge.sessions = [{ x with sent := x.sent ++ [(x.txSequence, 5, body)], txSequence := x.txSequence + 1 }]) ∧
    (s.now < s.lodge.lastTelemetry + s.lodge.settings.telemetryMs * 1000000 → exec .telemetry s = .next s) ∧
    (s.lodge.phase ≠ .off → unitsSince s.correctedErrors s.lodge.correctedBase 1000 = 0 →
      unitsSince s.replays s.lodge.replaysBase 10000 = 0 → Completes .healthUpdate s fun u =>
        u.lodge.rates = (((s.lodge.rates.zip s.lodge.events).zip (healthClasses.map (·.2))).map fun e =>
          e.1.1 * decayOf e.2 / rateUnit + e.1.2 * rateUnit) ∧
        u.lodge.events = List.replicate 15 0 ∧
        u.lodge.observedSeconds = s.lodge.observedSeconds + (if s.serviceLevel = 0 then 0 else 60)) ∧
    (∀ txn t, s.txn? txn = some t → t.state = .opened → t.committing = false →
      (t.time + t.timeoutMs * 1000000 ≤ s.now → Completes (.txnTimeout txn) s fun u =>
        (u.txn? txn).map Txn.state = some .aborted ∧ u.lodge.nextFault = s.lodge.nextFault + 1) ∧
      (s.now < t.time + t.timeoutMs * 1000000 → exec (.txnTimeout txn) s = .next s)) ∧
    (∀ loan l, s.loan? loan = some l → l.notAfter ≠ 0 → s.loanBusy loan = false →
      (l.notAfter ≤ s.now → Completes (.loanExpiry loan) s fun u => u.loan? loan = none) ∧
      (s.now < l.notAfter → exec (.loanExpiry loan) s = .next s)) ∧
    (∀ q qs, s.strongroom.quotes = q :: qs → Completes .quoteSigned s fun u => u.strongroom.quotes = qs) ∧
    (s.strongroom.quotes = [] → exec .quoteSigned s = .next s) ∧
    (∀ e g, s.host.commands.find? (fun e => e.2.work == .activate) = some e → s.strongroom.window = true →
      s.lodge.stagedFw = some g → Completes .commitWindowClose s fun u =>
        ∃ v : State, u = v.settleCommits ∧ v.strongroom.window = false ∧ v.lodge.activeSlot = 1 - s.lodge.activeSlot ∧
          v.lodge.stagedFw = none) ∧
    (∀ e failed, s.host.commands.find? (fun e => e.2.work == .probation) = some e →
      Completes (.probationTestDone failed) s fun u =>
        ∃ v : State, u = v.settleCommits ∧ v.lodge.probation = (if failed = none then 2 else 3) ∧
          v.lodge.lastProbation = s.now) ∧
    (s.host.commands.find? (fun e => e.2.work == .activate || e.2.work == .probation) = none →
      exec .commitWindowClose s = .next s ∧ ∀ failed, exec (.probationTestDone failed) s = .next s)

/-! ### The host interface -/

/-- The registers and windows of the host (R320 to R326, R332, R333, R337, R470): a doorbell moves a ring's indices or stops
it, or is counted; a snapshot fills the mailbox; a reset that may start starts, and one that may not is counted; a PCIe
reset is one of the chip; BAR2 reads and writes local memory; reading the low half of device time latches the high half.
What the Steward reads from a ring is the command that its entries spell (R325, R327, R329). -/
def Obligations.HostRegistersWindowsAndRings : Prop :=
  ∀ (s : State) (n width off : Nat) (value : Word),
    (n < 65536 → (s.deviceReady = false ∨ width ≠ 8 ∨ (n ≠ 0 ∧ (s.ring n).state ≠ .bound)) →
      exec (.doorbell n width value) s = .next (s.count cDoorbellIgnored 0)) ∧
    (n < 65536 → s.deviceReady = true → (s.ring n).state = .bound →
      let tail : BitVec 32 := value.setWidth 32
      let head : BitVec 32 := (value >>> 32).setWidth 32
      ((tail - (s.ring n).cmdHead).toNat ≤ (s.ring n).cmdSize → ((s.ring n).replyTail - head).toNat ≤ (s.ring n).replySize →
        Completes (.doorbell n 8 value) s fun u =>
          (u.ring n).state = .bound ∧ (u.ring n).cmdTail = tail ∧ (u.ring n).replyHead = head ∧
            u.memory = s.memory) ∧
      (((s.ring n).cmdSize < (tail - (s.ring n).cmdHead).toNat ∨ (s.ring n).replySize < ((s.ring n).replyTail - head).toNat) →
        Completes (.doorbell n 8 value) s fun u => (u.ring n).state = .stopped ∧ (u.ring n).stopCause = 2)) ∧
    (∀ v : BitVec 32, v.getLsbD 0 = true → s.lodge.phase ≠ .off →
      exec (.snapshotReq v) s = .next { s with host := { s.host with snapshotBusy := true } }) ∧
    (∀ v : BitVec 32, v.getLsbD 0 = false → exec (.snapshotReq v) s = .next s) ∧
    (s.host.snapshotBusy = true → Completes .snapshotComplete s fun u =>
      u.host.snapshotBusy = false ∧ u.host.snapshotSeq = s.host.snapshotSeq + 1 ∧ u.host.snapshotTime = s.now ∧
        u.host.mailbox = s.mailboxNow (s.host.snapshotSeq + 1).toNat 1) ∧
    (s.host.snapshotBusy = false → exec .snapshotComplete s = .next s) ∧
    (∀ (target : BitVec 16) (key : Byte), s.chipOn = true →
      ∀ e ∈ ([(.arrayReset, 1), (.channelReset, 2), (.portReset, 3), (.chipReset, 4)] :
          List ((Byte → BitVec 16 → Instr) × Nat)),
        ((key ≠ 0xA5 ∨ s.host.resetBusy = true ∨ (e.2 = 4 ∧ target ≠ 0) ∨ (e.2 ≤ 3 ∧ s.resetStands e.2 target.toNat = false)) →
          exec (e.1 key target) s = .next (s.count cResetReqIgnored 0)) ∧
        (s.host.resetBusy = false → (e.2 = 4 → target = 0) → s.resetStands e.2 target.toNat = true →
          (e.2 = 1 → target.toNat < s.variant.arrays) →
          exec (e.1 0xA5 target) s = .next ((if e.2 = 1 then s.healthEvent 10 else s).beginReset e.2 target.toNat 1))) ∧
    (s.chipOn = true → s.host.resetBusy = false →
      ∀ c ∈ [Instr.perstAssert, .hotReset, .functionLevelReset, .linkDisable, .chipReset 0xA5 0], Completes c s fun u =>
        u.deviceReady = false ∧ u.stewardRunning = false ∧ u.serviceLevel = 0 ∧ u.host.resetBusy = true ∧
          u.host.resetDomain = 4 ∧ u.lodge.incarnation = nextIncarnation s.lodge.incarnation ∧ u.ctxs = [] ∧
          u.threads = [] ∧ u.lodge.phase = .firmware ∧ (c = .perstAssert → u.host.perst = true)) ∧
    (exec .perstDeassert s = .next { s with host := { s.host with perst := false } }) ∧
    (s.chipOn = false → ∀ c ∈ [Instr.hotReset, .functionLevelReset, .linkDisable], exec c s = .next s) ∧
    (s.lodge.phase ≠ .off → s.chipResetting = false →
      (Completes (.registerWrite 0x3000 8 value) s fun u => u.host.bar2Base = value.toNat ∧ u.host.bar2Ctx = s.host.bar2Ctx) ∧
      (n < 65536 → (s.ring n).state = .unbound → Completes (.registerWrite (0x400000 + 64 * n) 8 value) s fun u =>
        (u.ring n).cmdBase = value.toNat ∧ (u.ring n).state = .unbound) ∧
      (n < 65536 → (s.ring n).state ≠ .unbound → exec (.registerWrite (0x400000 + 64 * n) 8 value) s = .next s)) ∧
    (exec .deviceTimeLowRead s = .next { s with host := { s.host with
      timeLatch := BitVec.ofNat 32 (s.now / 2 ^ 32), lastRead := le 4 s.now, lastPoisoned := false, lastUnsupported := false } }) ∧
    (s.deviceReady = false → exec (.bar2Read off n) s = .next { s with host := { s.host with
      lastRead := zeros n, lastPoisoned := false, lastUnsupported := true } }) ∧
    (let a := s.host.bar2Base + off;
      s.deviceReady = true → (unitsOf pageBytes a n).all (s.bar2Reaches false) = true → s.boundTo a n = none →
      s.awayPages a n = [] → MemoryClean s → Completes (.bar2Read off n) s fun u =>
        u.host.lastRead = s.bytesAt a n ∧ u.host.lastPoisoned = false ∧ u.host.lastUnsupported = false ∧
          u.memory.bytes = s.memory.bytes) ∧
    (∀ bs : Bytes,
      let a := s.host.bar2Base + off
      s.deviceReady = true → (unitsOf pageBytes a bs.length).all (s.bar2Reaches true) = true → s.boundTo a bs.length = none →
      s.awayPages a bs.length = [] → MemoryClean s → s.host.writesWaiting = [] →
      exec (.bar2Write off bs) s = .next (s.store a bs)) ∧
    (s.deviceReady = false → ∀ bs, exec (.bar2Write off bs) s = .next s) ∧
    (((s.ring n).state = .draining ∨ ((s.ring n).state = .stopped ∧ n ≠ 0)) → (s.ring n).outstanding = 0 →
      Completes (.ringDrainComplete n) s fun u => (u.ring n).state = .unbound ∧ (u.ring n).boundCtx = 0) ∧
    ((s.ring n).outstanding ≠ 0 → exec (.ringDrainComplete n) s = .next s) ∧
    (s.stewardRunning = true → (s.ring n).state = .bound → (s.ring n).waiting ≠ 0 →
      Completes (.commandTake n .error) s fun u => (u.ring n).state = .stopped ∧ (u.ring n).stopCause = 1) ∧
    (∀ bs, ∀ e ∈ hostRows, (readHeader n 0 bs).1 = e.2.1 →
      exec (.commandTake n (.bytes bs)) s = exec (e.1 (readHeader n 0 bs).2 (bs.drop 32)) s) ∧
    (∀ bs, let op := (readHeader n 0 bs).1
      let h := (readHeader n 0 bs).2
      (∀ e ∈ hostRows, op = e.2.1 → Runs s op h (bs.drop 32) →
        let b := s.begun op h (bs.drop 32)
        exec (.commandTake n (.bytes bs)) s = .next (answered b.1 (e.2.2 b.2.2 b.1 b.2.1
          (padTo h.paramLength.toNat (bs.drop 32))))) ∧
      (op = 0x0000 → Runs s op h (bs.drop 32) → Completes (.commandTake n (.bytes bs)) s fun u =>
        ∃ v : State, u = v.versionsReady ∧ (v.ring n).cmdHead = (s.ring n).cmdHead
          + BitVec.ofNat 32 (entriesOf h.paramLength.toNat) ∧ v.memory = s.memory) ∧
      (h.paramLength.toNat ≤ 4096 → s.ringTakes n op h.paramLength.toNat = false →
        exec (.commandTake n (.bytes bs)) s = .next s) ∧
      (4096 < h.paramLength.toNat → s.stewardRunning = true → (s.ring n).state = .bound → (s.ring n).waiting ≠ 0 →
        Completes (.commandTake n (.bytes bs)) s fun u => (u.ring n).state = .stopped ∧ (u.ring n).stopCause = 3)) ∧
    (∀ k dst len bs, s.cmd? n = some k → k.work = .copyIn dst len →
      (s.awayPages dst len = [] → s.writable [(dst, len)] = true → s.canWrite k.ctx dst len = true →
        exec (.dmaReadCompletion n (.bytes bs)) s = .next ((s.store dst (padTo len bs)).finishCmd n (Reply.of .done))) ∧
      ((s.awayPages dst len ≠ [] ∨ s.canWrite k.ctx dst len = false) → exec (.dmaReadCompletion n .error) s =
        .next ((s.count cDmaReadErrors 0).finishCmd n (Reply.of .badPacket))) ∧
      (s.awayPages dst len = [] → s.canWrite k.ctx dst len = true → exec (.dmaReadCompletion n .error) s =
        .next (((s.copyCut dst len).count cDmaReadErrors 0).finishCmd n (Reply.of .badPacket)))) ∧
    (∀ k src dst len, s.cmd? n = some k → k.work = .copy src dst len false → s.awayPages src len = [] →
      s.awayPages dst len = [] → s.canRead k.ctx src len = true → s.canWrite k.ctx dst len = true → MemoryClean s →
      exec (.memCopyComplete n) s = .next
        (((((s.touch src len).store dst (s.bytesAt src len)).markLost []).bind src len dst len).finishCmd n (Reply.of .done))) ∧
    (∀ k dst len w, s.cmd? n = some k → k.work = .fill dst len w → s.awayPages dst len = [] →
      s.writable [(dst, len)] = true → s.canWrite k.ctx dst len = true →
      exec (.memCopyComplete n) s = .next ((s.store dst (patternBytes w len)).finishCmd n (Reply.of .done))) ∧
    (s.stewardRunning = true → s.lodge.sessions = [] → exec .stewardBeatTick s = .next { s with host := { s.host with
      stewardBeat := s.host.stewardBeat + 1, beatTime := s.now } }) ∧
    (s.stewardRunning = false → exec .stewardBeatTick s = .next s)


/-! ### Host commands -/

/-- A host command that its carrier's Steward takes is checked in the order of R335: its form, whether its issuer may issue
it and its opcode; the units that it needs; the service; the context that it names; its context's eviction notice; and then it
joins its transaction, or runs the rules of its opcode in the table of R334. One that is not taken changes nothing (R327, R438). -/
def Obligations.HostCommandsRunTheRulesOfTheirOpcode : Prop :=
  ∀ (s : State) (h : CmdHeader) (p : Bytes), ∀ e ∈ hostRows,
    let g := (s.begun e.2.1 h p).1
    let k := (s.begun e.2.1 h p).2.1
    let v := (s.begun e.2.1 h p).2.2
    let q := padTo h.paramLength.toNat p
    (Taken s e.2.1 h → ∀ c, checkForm k q = some c → exec (e.1 h p) s = .next (answered g (v.says c))) ∧
    (Taken s e.2.1 h → checkForm k q = none → v.absentUnit e.2.1 q = true →
      exec (e.1 h p) s = .next (answered g (v.says .unsupported))) ∧
    (Taken s e.2.1 h → checkForm k q = none → v.absentUnit e.2.1 q = false →
      (v.outOfService e.2.1 = true ∨ v.unitWaits e.2.1 q = true) →
      exec (e.1 h p) s = .next (answered g (v.says .busyRetry))) ∧
    (Taken s e.2.1 h → checkForm k q = none → v.absentUnit e.2.1 q = false → v.outOfService e.2.1 = false →
      v.unitWaits e.2.1 q = false →
      (h.txnId = 0 → (namedCtx e.2.1 q).any v.noCtx = true →
        exec (e.1 h p) s = .next (answered g (v.says .noSuchContext))) ∧
      ((h.txnId ≠ 0 ∨ (namedCtx e.2.1 q).any v.noCtx = false) →
        (v.noticed k = true → exec (e.1 h p) s = .next
          (answered g ((v.modCtx k.ctx fun x => { x with notice := {} }).says .evicted))) ∧
        (v.noticed k = false → h.txnId ≠ 0 → exec (e.1 h p) s = .next (answered g (v.joinCmd g k q))))) ∧
    (Runs s e.2.1 h p → exec (e.1 h p) s = .next (answered g (e.2.2 v g k q))) ∧
    (h.session = 0 → h.paramLength.toNat ≤ 4096 → s.ringTakes h.ring e.2.1 h.paramLength.toNat = false →
      exec (e.1 h p) s = .next s) ∧
    (h.session ≠ 0 → (s.session? h.session = none ∨ s.sessionTakes h.session e.2.1 = false) →
      exec (e.1 h p) s = .next s) ∧
    (h.session = 0 → 4096 < h.paramLength.toNat → s.stewardRunning = true → (s.ring h.ring).state = .bound →
      (s.ring h.ring).waiting ≠ 0 → Completes (e.1 h p) s fun u =>
        (u.ring h.ring).state = .stopped ∧ (u.ring h.ring).stopCause = 3)

/-- What the commands of devices, contexts, rings and memory do where their own rules let them: a read of the module's
records answers them (R8, R334, R341, R342, R344, R352), a context is created, drained, suspended or resumed (R349, R351),
a ring is bound or unbound (R324, R345), pages are mapped, unmapped, pinned and hinted (R217, R220, R225, R226), copies
and fills start (R338), and quotas and provenance change (R229, R239). -/
def Obligations.DeviceContextAndMemoryCommandsAct : Prop :=
  (Finishes 0x0000 .nop (fun _ _ _ => True) fun v _ _ r u => u = v ∧ r = Reply.of .done) ∧
  (Finishes 0x0001 .heartbeat (fun _ _ q => 1000 ≤ field q 0 4 ∧ field q 0 4 ≤ 1000000) fun v _ q r u =>
    u = v ∧ r.result.take 8 = le 8 (v.idleArrays (v.now - 2000 * field q 0 4)) ∧ r.result.length = 16) ∧
  (Finishes 0x0002 .queryCaps (fun _ k q => k.outOk (field q 0 8) = true) fun v _ q r u =>
    u = v ∧ r.outAddr = field q 0 8 ∧ r.data = v.descriptor ∧ r.data.length = 64) ∧
  (Finishes 0x0003 .ackAttention (fun _ _ _ => True) fun v _ q r u =>
    u = { v with attnPending := u.attnPending } ∧
      u.attnPending = (v.attnPending.filter fun e => 128 ≤ (BitVec.ofNat 8 (field q 0 1) - e.2.2).toNat) ∧
      r.result = le 2 (pendingMask v.attnPending) ++ le 2 (pendingMask u.attnPending)) ∧
  (Finishes 0x0004 .queryFault (fun _ k q => field q 0 1 ≤ 1 ∧ 1 ≤ field q 8 4 ∧ field q 8 4 ≤ 256 ∧
      k.outOk (field q 16 8) = true) fun v _ q r u =>
    u = v ∧ r.outAddr = field q 16 8 ∧ r.data.length = field q 8 4 * (if field q 0 1 = 0 then 32 else 64) ∧
      (field q 0 1 = 0 → ∀ e, v.attnLog[field q 4 4]? = some e → r.data.take 32 = e.bytes) ∧
      (field q 0 1 = 1 → ∀ e, v.lodge.faults[field q 4 4]? = some e → r.data.take 64 = e.bytes)) ∧
  (Finishes 0x0005 .readCounters (fun v k q => (k.ctx = 0 ∨ (field q 0 1 = 0x08 ∧ field q 2 2 = k.ctx)) ∧
      v.countersExist (field q 0 1) (field q 2 2) (field q 4 2) (field q 6 2) = true ∧ k.outOk (field q 8 8) = true)
    fun v _ q r u => u = v ∧ r.outAddr = field q 8 8 ∧
      r.data = (countUp (field q 4 2) 1 (field q 6 2)).flatMap fun i => (v.counter (field q 0 1, i) (field q 2 2)).bytes) ∧
  (Finishes 0x0006 .timeRead (fun _ _ _ => True) fun v _ _ r u =>
    u = v ∧ r.result = le 8 v.now ++ le 1 v.lodge.syncState) ∧
  (Finishes 0x0100 .ctxCreate (fun v _ q =>
      let id := field q 0 2
      let quota := Quota.read (q.drop 16)
      let new : Ctx := { state := .active, generation := (v.ctx id).generation, priority := field q 2 1
                         maxArrays := field q 3 1, maxThreads := field q 4 1, model := BitVec.ofNat 64 (field q 8 8)
                         quota := quota, savePages := savePagesOf (field q 3 1) (field q 4 1) }
      1 ≤ id ∧ id ≤ 16383 ∧ (v.ctx id).state = .unused ∧ field q 2 1 ≤ 3 ∧ 1 ≤ field q 3 1 ∧ field q 3 1 ≤ 64 ∧
        1 ≤ field q 4 1 ∧ field q 4 1 ≤ 64 ∧ field q 8 8 ≠ 0 ∧ quota.unitsOk = true ∧ v.lodge.probation ≠ 1 ∧
        v.memory.model = .none ∧ ∃ w, v.allocate 3 new.savePages = some w ∧ (w.modCtx id fun _ => new).claimsFit = true ∧
          w.ctx id = v.ctx id)
    fun v _ q r u => (u.ctx (field q 0 2)).state = .active ∧ (u.ctx (field q 0 2)).priority = field q 2 1 ∧
      (u.ctx (field q 0 2)).maxArrays = field q 3 1 ∧ (u.ctx (field q 0 2)).maxThreads = field q 4 1 ∧
      (u.ctx (field q 0 2)).quota = Quota.read (q.drop 16) ∧
      (u.ctx (field q 0 2)).generation = (v.ctx (field q 0 2)).generation ∧ r.result.take 2 = le 2 (field q 0 2)) ∧
  (Starts 0x0101 .ctxDestroy (fun v _ q => v.noCtx (field q 0 2) = false ∧ (v.ctx (field q 0 2)).state ≠ .draining)
    fun v g _ q u => u = (v.startDrain (field q 0 2) g true).modCmd g fun k => { k with work := .drain (field q 0 2) }) ∧
  (Starts 0x0102 .ctxReset (fun v _ q => v.noCtx (field q 0 2) = false ∧ (v.ctx (field q 0 2)).state ≠ .draining)
    fun v g _ q u => u = (v.startDrain (field q 0 2) g false).modCmd g fun k => { k with work := .drain (field q 0 2) }) ∧
  (Starts 0x0103 .ctxSuspend (fun v _ q => v.noCtx (field q 0 2) = false ∧ (v.ctx (field q 0 2)).state = .active)
    fun v g _ q u => u = (v.suspendCtx (field q 0 2) .host 0).modCmd g fun k => { k with work := .suspend (field q 0 2) }) ∧
  (Finishes 0x0104 .ctxResume (fun v _ q => v.noCtx (field q 0 2) = false ∧ (v.ctx (field q 0 2)).state = .active ∧
      (v.ctx (field q 0 2)).notice.spilled + (v.ctx (field q 0 2)).notice.dropped = 0) fun v _ _ _ u => u = v) ∧
  (Starts 0x0104 .ctxResume (fun v _ q => v.noCtx (field q 0 2) = false ∧ (v.ctx (field q 0 2)).state = .suspended ∧
      (v.ctx (field q 0 2)).notice.spilled + (v.ctx (field q 0 2)).notice.dropped = 0)
    fun v g _ q u =>
      let c := field q 0 2
      let w := ((v.modCtx c fun x => { x with resumeCmd := some (x.resumeCmd.getD g)
                                              resumeAt := if x.resumeCmd.isSome then x.resumeAt else v.now }).modCmd g
        fun k => { k with work := .resume c }).readmit c
      u = if (w.ctx c).restoring then w else
        w.interim g .queued (w.admitRecord 1 0 0 (w.waitItems.idxOf (.context c)) 0)) ∧
  (Finishes 0x0105 .ctxQuery (fun v k q => (k.ctx = 0 ∨ k.ctx = field q 0 2) ∧ v.noCtx (field q 0 2) = false ∧
      k.outOk (field q 8 8) = true) fun v _ q r u =>
    u = v ∧ r.outAddr = field q 8 8 ∧ r.data = v.ctxRecord (field q 0 2)) ∧
  (Finishes 0x0106 .ringBind (fun v _ q => (v.ring (field q 0 2)).state = .unbound ∧ (v.ring (field q 0 2)).valid = true ∧
      (field q 2 2 = 0 ∨ (field q 0 2 ≠ 0 ∧ v.noCtx (field q 2 2) = false ∧ (v.ctx (field q 2 2)).state ≠ .draining)))
    fun v _ q _ u => (u.ring (field q 0 2)) = { v.ring (field q 0 2) with
      state := .bound, stopCause := 0, boundCtx := field q 2 2, cmdHead := 0, replyTail := 0, cmdTail := 0, replyHead := 0
      outstanding := 0, backlogSince := 0 } ∧ u.memory = v.memory) ∧
  (Finishes 0x0107 .ringUnbind (fun v k q => field q 0 2 ≠ 0 ∧ (k.header.session ≠ 0 ∨ field q 0 2 ≠ k.header.ring) ∧
      ((v.ring (field q 0 2)).state = .bound ∨ (v.ring (field q 0 2)).state = .stopped))
    fun v _ q _ u => u.ring (field q 0 2) = { v.ring (field q 0 2) with state := .draining } ∧ u.memory = v.memory) ∧
  (Finishes 0x0200 .memMap (fun v k q => wholePages (field q 0 8) (field q 8 8) = true ∧ field q 16 1 ≤ 2 ∧
      field q 17 1 ≤ 1 ∧ (∀ i ∈ pagesOf (field q 0 8) (field q 8 8), Map.get? v.memory.pages i = none) ∧
      (v.ctxAllocate k.ctx (pagesOf (field q 0 8) (field q 8 8)).length).isSome = true)
    fun v k q _ u => u.ctxs = (((v.ctxAllocate k.ctx (pagesOf (field q 0 8) (field q 8 8)).length).getD v).ctxs) ∧
      ∀ i ∈ pagesOf (field q 0 8) (field q 8 8), ∃ g, Map.get? u.memory.pages i = some g ∧ g.owner = .ctx k.ctx ∧
        g.cls = field q 16 1 ∧ g.rw = decide (field q 17 1 = 1) ∧ g.state = .resident) ∧
  (Finishes 0x0201 .memUnmap (fun v k q => wholePages (field q 0 8) (field q 8 8) = true ∧
      (∀ i ∈ pagesOf (field q 0 8) (field q 8 8), (Map.get? v.memory.pages i).map Page.owner = some (.ctx k.ctx)) ∧
      v.repairingIn (field q 0 8) (field q 8 8) = [])
    fun v _ q _ u => u = v.unmapRange (field q 0 8) (field q 8 8)) ∧
  (Finishes 0x0202 .memPin (fun v k q => field q 0 8 % granuleBytes = 0 ∧ field q 8 8 % granuleBytes = 0 ∧
      field q 16 8 = 0 ∧ field q 24 1 = 1 ∧
      ((unitsOf granuleBytes (field q 0 8) (field q 8 8)).all fun g => v.pinnable k.ctx (g / 32)) = true)
    fun _ k q _ u => ∀ g ∈ unitsOf granuleBytes (field q 0 8) (field q 8 8),
      (Map.getD u.memory.granules g {}).pins.contains k.ctx = false) ∧
  (Finishes 0x0202 .memPin (fun v k q => field q 0 8 % granuleBytes = 0 ∧ field q 8 8 % granuleBytes = 0 ∧
      field q 16 8 = 0 ∧ field q 24 1 = 0 ∧
      ((unitsOf granuleBytes (field q 0 8) (field q 8 8)).all fun g => v.pinnable k.ctx (g / 32)) = true ∧
      (let fresh := (unitsOf granuleBytes (field q 0 8) (field q 8 8)).filter fun g =>
          !(Map.getD v.memory.granules g {}).pins.contains k.ctx;
        v.pinsOf k.ctx + fresh.length ≤ (v.ctx k.ctx).quota.cellarPinLimit ∧
          (v.pinAll k.ctx fresh v.arraysInService).isSome = true))
    fun v k q _ u => v.pinAll k.ctx ((unitsOf granuleBytes (field q 0 8) (field q 8 8)).filter fun g =>
      !(Map.getD v.memory.granules g {}).pins.contains k.ctx) v.arraysInService = some u) ∧
  (Finishes 0x0203 .memHint (fun v k q => wholePages (field q 0 8) (field q 8 8) = true ∧ field q 16 1 = 3 ∧
      ∀ i ∈ pagesOf (field q 0 8) (field q 8 8), v.pinnable k.ctx i = true)
    fun v _ q _ u => u.memory.bytes = v.memory.bytes ∧
      ∀ i ∈ pagesOf (field q 0 8) (field q 8 8), (Map.get? u.memory.pages i).map Page.hint = some 3) ∧
  (Starts 0x0204 .memCopy (fun v k q => field q 24 1 = 0 ∧ field q 16 8 % 16 = 0 ∧ field q 16 8 ≤ 1073741824 ∧
      field q 0 8 % 16 = 0 ∧ field q 8 8 % 16 = 0 ∧
      rangesMeet (field q 0 8, field q 16 8) (field q 8 8, field q 16 8) = false ∧
      v.canRead k.ctx (field q 0 8) (field q 16 8) = true ∧ v.canWrite k.ctx (field q 8 8) (field q 16 8) = true ∧
      (v.returnRanges k.ctx [(field q 0 8, field q 16 8), (field q 8 8, field q 16 8)]).isSome = true)
    fun v g k q u => ∃ w, v.returnRanges k.ctx [(field q 0 8, field q 16 8), (field q 8 8, field q 16 8)] = some w ∧
      u = w.modCmd g fun k => { k with work := .copy (field q 0 8) (field q 8 8) (field q 16 8) false }) ∧
  (Starts 0x0205 .memFill (fun v k q => field q 8 8 % 16 = 0 ∧ field q 8 8 ≤ 1073741824 ∧ field q 0 8 % 16 = 0 ∧
      v.canWrite k.ctx (field q 0 8) (field q 8 8) = true ∧
      (v.returnRanges k.ctx [(field q 0 8, field q 8 8)]).isSome = true)
    fun v g k q u => ∃ w, v.returnRanges k.ctx [(field q 0 8, field q 8 8)] = some w ∧
      u = w.modCmd g fun k => { k with work := .fill (field q 0 8) (field q 8 8) (BitVec.ofNat 64 (field q 16 8)) }) ∧
  (Finishes 0x0206 .poolQuota (fun v _ q =>
      let c := field q 0 2
      let w := v.modCtx c fun x => { x with quota := x.quota.select (Quota.read (q.drop 8)) (field q 4 4) }
      v.noCtx c = false ∧ field q 4 4 ≤ 127 ∧ (Quota.select {} (Quota.read (q.drop 8)) (field q 4 4)).unitsOk = true ∧
        w.poolClaims ≤ v.poolClaims ∧ w.cellarClaims ≤ v.cellarClaims)
    fun v _ q _ u => (u.ctx (field q 0 2)).quota =
      (v.ctx (field q 0 2)).quota.select (Quota.read (q.drop 8)) (field q 4 4) ∧ u.memory = v.memory) ∧
  (Finishes 0x0207 .provenanceSet (fun v k q => field q 0 8 % granuleBytes = 0 ∧ field q 8 8 % granuleBytes = 0 ∧
      field q 0x10 1 = 0 ∧ field q 0x11 1 = 0 ∧ field q 0x12 2 = 0 ∧ v.canRead k.ctx (field q 0 8) (field q 8 8) = true ∧
      (v.memory.provenance.flatMap fun r => if rangesMeet (r.base, r.length) (field q 0 8, field q 8 8) then
        r.outside (field q 0 8) (field q 8 8) else [r]).length ≤ 16384)
    fun v _ q _ u => u.memory.bytes = v.memory.bytes ∧ u.memory.pages = v.memory.pages ∧
      u.memory.provenance = v.memory.provenance.flatMap fun r =>
        if rangesMeet (r.base, r.length) (field q 0 8, field q 8 8) then r.outside (field q 0 8) (field q 8 8) else [r])

/-- What the commands of models, loans, launches, the fabric, checkpoints, the twin, identity, transactions and operators do
where their own rules let them (R200, R202, R282, R284, R285, R289, R310, R340, R343, R354, R355, R385 to R389, R392, R400,
R402, R405, R407, R408, R417, R422, R423, R428, R433, R441, R449, R450, R458, R464 to R466). A firmware activation, a
configuration write and a probation test join their transaction and act at its commit (R386). -/
def Obligations.FleetSecurityAndOperatorCommandsAct : Prop :=
  (Starts 0x0300 .modelLoad (fun v _ q =>
      let n := (unitsOf pageBytes (field q 0x18 8) (field q 0x20 8)).length
      field q 0 8 ≠ 0 ∧ field q 8 1 = 1 ∧ field q 0x10 8 % 4096 = 0 ∧ field q 0x18 8 % pageBytes = 0 ∧
        field q 0x20 8 % 4096 = 0 ∧ field q 0x18 8 + field q 0x20 8 ≤ deviceEnd ∧
        (∀ i ∈ unitsOf pageBytes (field q 0x18 8) (field q 0x20 8), Map.has v.memory.pages i = false) ∧
        v.lodge.probation ≠ 1 ∧ v.memory.model = .none ∧ ((v.poolClaims + n : Nat) : Int) ≤ v.poolCapacity ∧
        (v.allocate 3 n).isSome = true)
    fun _ _ _ q u => u.memory.model = .loading ∧ u.memory.modelId = BitVec.ofNat 64 (field q 0 8) ∧
      ∀ i ∈ unitsOf pageBytes (field q 0x18 8) (field q 0x20 8),
        (Map.get? u.memory.pages i).map (fun g => (g.owner, g.state)) = some (.pool, .loading)) ∧
  (Finishes 0x0301 .modelEvict (fun v _ q => v.memory.model = .resident ∧ v.memory.modelId = BitVec.ofNat 64 (field q 0 8) ∧
      v.twin.stream = none ∧ (v.liveCtxs.any fun e => e.2.model == BitVec.ofNat 64 (field q 0 8)) = false)
    fun _ _ _ _ u => u.memory.model = .none ∧ u.memory.modelId = 0) ∧
  (Starts 0x0302 .loanPresent (fun v k _ => k.header.session = 0 ∧ v.catalogueFull = false)
    fun v g _ q u => u = v.modCmd g fun k => { k with work := .loan (field q 8 4) }) ∧
  (Finishes 0x0303 .loanRevoke (fun v k q => k.header.session = 0 ∧ v.catalogueFull = false ∧
      v.loanBusy (BitVec.ofNat 64 (field q 0 8)) = false ∧
      ∃ l, v.loan? (BitVec.ofNat 64 (field q 0 8)) = some l ∧ (k.ctx = 0 ∨ l.presenter = k.ctx))
    fun _ _ q _ u => u.loan? (BitVec.ofNat 64 (field q 0 8)) = none) ∧
  (∀ e ∈ ([(0x0400, .launch), (0x0401, .batchSubmit)] : List (Nat × (CmdHeader → Bytes → Instr))),
    ∀ (s : State) (h : CmdHeader) (p : Bytes), Runs s e.1 h p →
      let g := (s.begun e.1 h p).1
      let k := (s.begun e.1 h p).2.1
      let v := (s.begun e.1 h p).2.2
      let q := padTo h.paramLength.toNat p
      let l := v.readLaunch g k q
      ((List.range 64).any fun a => bitOf l.mask.toNat a && v.variant.arrays ≤ a) = false → v.maskWaits l = false →
      v.launchOk l (field q 0x11 1) = true → v.loanExpired k.ctx = false → l.trainTable = 0 →
      exec (e.2 h p) s = .next ((({ v with launches := Map.put v.launches v.nextLaunch l, nextLaunch := v.nextLaunch + 1 } :
        State).modCmd g fun k => { k with work := .launch v.nextLaunch }).submit v.nextLaunch).versionsReady) ∧
  (∀ (s : State) (h : CmdHeader) (p : Bytes), Runs s 0x0402 h p →
      let g := (s.begun 0x0402 h p).1
      let v := (s.begun 0x0402 h p).2.2
      let k := (s.begun 0x0402 h p).2.1
      let others := v.host.commands.filter fun e => e.1 ≠ g && e.2.header.ring = k.header.ring
        && e.2.header.session = k.header.session
      (others = [] → exec (.fenceCommand h p) s = .next ((v.finishCmd g (Reply.of .done)).versionsReady)) ∧
      (others ≠ [] → exec (.fenceCommand h p) s = .next ((v.modCmd g fun k => { k with work := .fence }).versionsReady))) ∧
  (Starts 0x0403 .stepCommit (fun v k q => (v.group? k.ctx (field q 8 2)).isSome = true ∧
      ∃ x, v.guard? k.ctx (field q 0 8) = some x ∧ x.outcome = none ∧ x.state = .opened)
    fun v g k q u => u = (v.modGuard k.ctx (field q 0 8) fun x => { x with held := x.held ++ [(g, field q 8 2)] }).modCmd g
      fun x => { x with work := .commit k.ctx (field q 0 8) }) ∧
  (Finishes 0x0404 .stepAbandon (fun v k q => (v.guard? k.ctx (field q 0 8)).map Guard.state = some .opened)
    fun _ k q _ u => (u.guard? k.ctx (field q 0 8)).map Guard.state = some .abandoned) ∧
  (Finishes 0x0500 .portState (fun v _ q => field q 0 1 < v.variant.ports ∧ field q 0 1 < 6 ∧ field q 1 1 = 0)
    fun v _ q r u => r.result = v.portRecord (field q 0 1) ∧ u.fabric = v.fabric ∧ u.memory = v.memory) ∧
  (Finishes 0x0500 .portState (fun v k q => k.ctx = 0 ∧ field q 0 1 < v.variant.ports ∧ field q 0 1 < 6 ∧
      field q 0 1 < v.fabric.ports.length ∧ field q 1 1 = 1 ∧ field q 2 2 = 64 ∧ field q 4 1 = 8 ∧
      (v.port (field q 0 1)).state = .disabled)
    fun _ _ q r u => (u.port (field q 0 1)).state = .down ∧ (u.port (field q 0 1)).maxRate = 64 ∧
      (u.port (field q 0 1)).minWidth = 8 ∧ r.result = u.portRecord (field q 0 1)) ∧
  (Finishes 0x0501 .routeSet (fun v k q => field q 0 1 = 0 ∧ k.ctx = 0 ∧ 8 + 8 * field q 2 2 ≤ q.length ∧
      (routeEntries q (field q 2 2)).all v.routeOk = true ∧ ∀ i < field q 2 2, field q (13 + 8 * i) 3 = 0)
    fun v _ q _ u => u.fabric.routes = (routeEntries q (field q 2 2)).foldl setRoutes v.fabric.routes) ∧
  (Finishes 0x0501 .routeSet (fun v k q => field q 0 1 = 1 ∧ (k.ctx = 0 ∨ k.ctx = field q 4 2) ∧
      v.noCtx (field q 4 2) = false ∧ field q 2 2 ≤ 64 ∧ 8 + 2 * field q 2 2 ≤ q.length ∧
      ∀ i < field q 2 2, field q (8 + 2 * i) 2 ≠ 0xFFFF)
    fun _ _ q _ u => (u.ctx (field q 4 2)).broadcast = (List.range (field q 2 2)).map fun i => field q (8 + 2 * i) 2) ∧
  (Finishes 0x0502 .groupDefine (fun v k q => 1 ≤ field q 0 2 ∧ field q 0 2 ≤ 4095 ∧ field q 6 2 = 0 ∧ 1 ≤ field q 2 2 ∧
      field q 2 2 ≤ 340 ∧ 1 ≤ field q 4 2 ∧ 16 + 12 * field q 2 2 ≤ q.length ∧
      (groupRuns q (field q 2 2)).all GroupRun.ok = true ∧ v.coll.groups = [] ∧ v.groupBusy k.ctx (field q 0 2) = false ∧
      ∃ ms, membersOf (groupRuns q (field q 2 2)) (field q 4 2) = some ms ∧ ms.contains (v.lodge.deviceId, k.ctx) = true)
    fun v k q _ u => ∃ g, Map.get? u.coll.groups (groupKey k.ctx (field q 0 2)) = some g ∧ g.epoch = field q 8 4 ∧
      membersOf (groupRuns q (field q 2 2)) (field q 4 2) = some g.members ∧ g.nextSeq = 0 ∧
      g.own = g.members.idxOf (v.lodge.deviceId, k.ctx)) ∧
  (Finishes 0x0502 .groupDefine (fun v k q => 1 ≤ field q 0 2 ∧ field q 0 2 ≤ 4095 ∧ field q 6 2 = 1 ∧ field q 2 2 ≤ 340 ∧
      (Map.get? v.coll.groups (groupKey k.ctx (field q 0 2))).isSome = true ∧ v.groupBusy k.ctx (field q 0 2) = false)
    fun _ k q _ u => Map.get? u.coll.groups (groupKey k.ctx (field q 0 2)) = none) ∧
  (Finishes 0x0503 .permutePlan (fun v k q => 1 ≤ field q 0 2 ∧ field q 0 2 ≤ 16 ∧ field q 4 2 ≤ 170 ∧ field q 6 2 = 0 ∧
      16 + 24 * field q 4 2 ≤ q.length ∧ (planChunks q (field q 4 2)).all Chunk.ok = true ∧
      v.planBusy k.ctx (field q 0 2) = false)
    fun _ k q _ u => ∃ x, Map.get? u.coll.plans (groupKey k.ctx (field q 0 2)) = some x ∧ x.group = field q 2 2 ∧
      x.epoch = field q 8 4 ∧ x.chunks = planChunks q (field q 4 2) ∧ x.sealed = false) ∧
  (Finishes 0x0504 .timeoutSet (fun v k q => (k.ctx = 0 ∨ k.ctx = field q 0 2) ∧ 5 ≤ field q 4 4 ∧ field q 4 4 ≤ 1000000 ∧
      (field q 0 2 ≠ 0 → v.noCtx (field q 0 2) = false))
    fun _ _ q _ u => if field q 0 2 = 0 then u.fabric.timeoutUs = field q 4 4
      else (u.ctx (field q 0 2)).fabricTimeout = some (field q 4 4)) ∧
  (Starts 0x0600 .ckptBegin (fun v k q =>
      let rs := rangeTable (q.drop 32) (field q 10 2)
      field q 0 8 ≠ 0 ∧ field q 8 1 = 2 ∧ field q 9 1 = 1 ∧ field q 16 8 % 4096 = 0 ∧ 1 ≤ field q 10 2 ∧
        field q 10 2 ≤ 254 ∧ 32 + 16 * field q 10 2 ≤ q.length ∧ v.rangesOk k.ctx rs = true ∧
        v.loansOf (rangePages rs) = [] ∧ v.launchRuns k.ctx = false ∧
        (v.guards.any fun g => g.ctx == k.ctx && g.state == .committing) = false ∧ v.twin.stream = none ∧
        (v.beginReturns (v.ctx k.ctx).priority ((rangePages rs).filter fun i =>
          (Map.get? v.memory.pages i).any Page.isAway)).isSome = true)
    fun v g k q u => ∃ (w : State) (t : Stream), u = w.streamGo ∧ w.twin.stream = some t ∧ t.handle = g ∧
      t.ckptId = BitVec.ofNat 64 (field q 0 8) ∧ t.toMirror = false ∧ t.toHost = true ∧
      t.ranges = rangeTable (q.drop 32) (field q 10 2) ∧ t.ctx = k.ctx ∧ t.beginTime = v.now ∧
      t.step = (v.ctx k.ctx).committedStep) ∧
  (Starts 0x0601 .ckptDrain (fun v k q => v.variant.partyWall = true ∧ field q 8 1 = 1 ∧
      ∃ e, v.twin.ownEntry (BitVec.ofNat 64 (field q 0 8)) = some e ∧ (k.ctx = 0 ∨ k.ctx = e.ownerCtx) ∧
        e.state = .current ∧ e.loans = [])
    fun v g _ q u => ∃ (w : State) (j : MirrorJob), u = w.jobGo g ∧ w.twin.jobs = v.twin.jobs ++ [j] ∧ j.handle = g ∧
      j.isDrain = true ∧ j.toHost = true ∧ j.ckptId = BitVec.ofNat 64 (field q 0 8)) ∧
  (Starts 0x0602 .ckptRestore (fun v k q => field q 8 1 = 2 ∧ v.launchRuns k.ctx = false)
    fun v g k q u => ∃ j : MirrorJob, u.twin.jobs = v.twin.jobs ++ [j] ∧ j.handle = g ∧ j.isDrain = false ∧ j.toHost = true ∧
      j.ckptId = BitVec.ofNat 64 (field q 0 8) ∧ j.dst = BitVec.ofNat 64 (field q 16 8) ∧ j.ctx = k.ctx) ∧
  (Finishes 0x0603 .twinState (fun v k q => v.variant.partyWall = true ∧ field q 0 1 = 0 ∧ field q 4 2 = 0 ∧
      k.outOk (field q 16 8) = true) fun v _ q r u => u = v ∧ r.outAddr = field q 16 8 ∧ r.data = v.twinRecord) ∧
  (Finishes 0x0603 .twinState (fun v _ q => v.variant.partyWall = true ∧ field q 0 1 = 2 ∧ field q 4 2 = 0 ∧
      v.twin.state = .single) fun v _ _ _ u => u = v.modTwin fun w => { w with offered := none, twinDevice := 0xFFFF }) ∧
  (Finishes 0x0604 .twinAdopt (fun v _ q => v.variant.partyWall = true ∧ field q 0 1 = 2 ∧ field q 2 2 ≠ 0xFFFF ∧
      field q 2 2 ≠ v.lodge.deviceId ∧ field q 4 2 = 0 ∧ field q 6 2 ≤ 128 ∧ field q 6 2 % 2 = 0 ∧ v.twin.state = .single ∧
      liveEntries v.twin.held = [] ∧ v.linkedTo (field q 2 2) = true)
    fun _ _ q _ u => u.twin.state = .adopting ∧ u.twin.adoptRole = 2 ∧ u.twin.twinDevice = field q 2 2 ∧
      u.twin.mirrorGib = field q 6 2) ∧
  (Starts 0x0700 .attest (fun v k q => k.outOk (field q 32 8) = true ∧ v.strongroom.window = false ∧
      v.strongroom.quotes.length < 17)
    fun v g k q u => ∃ x : QuoteReq, u.strongroom.quotes = v.strongroom.quotes ++ [x] ∧ x.handle = g ∧ x.nonce = q.take 32 ∧
      x.ctx = k.ctx ∧ x.outAddr = field q 32 8) ∧
  (Finishes 0x0701 .identityRead (fun _ k q => (field q 0 1 = 1 ∨ field q 0 1 = 2) ∧ k.outOk (field q 8 8) = true)
    fun v k q r u => u = v ∧ r.outAddr = field q 8 8 ∧
      r.data = (if field q 0 1 = 1 then v.certificate else v.strongroomRecord k.ctx)) ∧
  (Finishes 0x0800 .txnBegin (fun v k q => (k.header.session ≠ 0 ∨ k.header.ring = 0) ∧ field q 0 8 ≠ 0 ∧
      field q 0 8 < 2 ^ 63 ∧ 1 ≤ field q 8 1 ∧ field q 8 1 ≤ 5 ∧ (field q 12 4 = 0 ∨ (100 ≤ field q 12 4 ∧ field q 12 4 ≤ 600000)) ∧
      v.txn? (BitVec.ofNat 64 (field q 0 8)) = none ∧ (v.lodge.txns.filter fun t => t.state == .opened).length < 16)
    fun v _ q _ u => ∃ t, u.txn? (BitVec.ofNat 64 (field q 0 8)) = some t ∧ t.state = .opened ∧ t.kind = field q 8 1 ∧
      t.staged = [] ∧ t.time = v.now ∧ t.timeoutMs = (if field q 12 4 = 0 then 10000 else field q 12 4)) ∧
  (Starts 0x0801 .txnCommit (fun v k q => (∀ e ∈ v.host.commands, e.2.parent = none) ∧ k.outOk (field q 8 8) = true ∧
      ∃ t, v.txn? (BitVec.ofNat 64 (field q 0 8)) = some t ∧ t.state = .opened ∧ t.ownedBy k.header = true ∧ t.staged = [])
    fun _ g _ q u => (u.txn? (BitVec.ofNat 64 (field q 0 8))).map Txn.state = some .committed ∧
      (u.cmd? g).isNone = true) ∧
  (Finishes 0x0802 .txnAbort (fun v k q => ∃ t, v.txn? (BitVec.ofNat 64 (field q 0 8)) = some t ∧ t.state = .opened ∧
      t.ownedBy k.header = true)
    fun _ _ q _ u => (u.txn? (BitVec.ofNat 64 (field q 0 8))).map (fun t => (t.state, t.staged)) = some (.aborted, [])) ∧
  (Finishes 0x0803 .txnQuery (fun v _ q => (v.txn? (BitVec.ofNat 64 (field q 0 8))).isSome = true)
    fun v _ q r u => u = v ∧ ∀ t, v.txn? (BitVec.ofNat 64 (field q 0 8)) = some t →
      r.result.take 1 = le 1 t.state.code ∧ r.result.length = 24) ∧
  (Finishes 0x0A00 .fwStage (fun _ _ q => (field q 0 1 = 1 ∨ field q 0 1 = 2) ∧ field q 1 1 = 1 ∧ 8 ≤ field q 2 2 ∧
      field q 2 2 ≤ 4088 ∧ field q 2 2 % 8 = 0 ∧ 8 + field q 2 2 ≤ q.length ∧ field q 4 4 = 0)
    fun _ _ q _ u => ∃ g : Staged, u.stagedImage (field q 0 1) = some g ∧ g.data = (q.drop 8).take (field q 2 2) ∧
      g.verified = false) ∧
  (∀ e ∈ ([(0x0A01, .fwActivate), (0x0A02, .cfgWrite), (0x0A0B, .probationTest)] :
      List (Nat × (CmdHeader → Bytes → Instr))),
    ∀ (s : State) (h : CmdHeader) (p : Bytes) (t : Txn), Taken s e.1 h →
      let g := (s.begun e.1 h p).1
      let k := (s.begun e.1 h p).2.1
      let v := (s.begun e.1 h p).2.2
      let q := padTo h.paramLength.toNat p
      checkForm k q = none → v.outOfService e.1 = false → h.txnId ≠ 0 → v.txn? h.txnId = some t → t.state = .opened →
      t.ownedBy k.header = true → t.staged.length < 256 →
      ∃ u : State, exec (e.2 h p) s = .next ((u.finishCmd g
          { code := .done, result := le 2 t.staged.length ++ le 1 1 }).versionsReady) ∧
        (u.txn? h.txnId).map Txn.staged =
          some (t.staged ++ [{ opcode := e.1, header := k.header, params := q }])) ∧
  (Finishes 0x0A03 .debugRead (fun v _ q => 8 ≤ field q 2 2 ∧ field q 2 2 ≤ 4096 ∧ field q 2 2 % 8 = 0 ∧
      v.catalogueFull = false ∧ MemoryClean v ∧ (field q 0 1 = 1 → v.awayPages (field q 8 8) (field q 2 2) = []) ∧
      ∃ m, v.spaceBytes (field q 0 1) = some m ∧ field q 8 8 + field q 2 2 ≤ m)
    fun v _ q r u => r.data.length = field q 2 2 ∧ u.strongroom.debugAccesses = v.strongroom.debugAccesses + 1 ∧
      u.memory.bytes = v.memory.bytes ∧
      (field q 0 1 = 1 → (∀ i < field q 2 2, ((v.page? (field q 8 8 + i)).any fun g => g.state != .dropped) = true) →
        r.data = v.bytesAt (field q 8 8) (field q 2 2)) ∧
      (field q 0 1 = 4 → r.data = u.bar0 (field q 8 8) (field q 2 2)) ∧ (field q 0 1 = 5 → r.data = zeros (field q 2 2))) ∧
  (Finishes 0x0A04 .debugWrite (fun v _ q => field q 0 1 = 1 ∧ 8 ≤ field q 2 2 ∧ field q 2 2 ≤ 4080 ∧
      field q 2 2 % 8 = 0 ∧ 16 + field q 2 2 ≤ q.length ∧ field q 8 8 % 4096 + field q 2 2 ≤ 4096 ∧
      field q 8 8 + field q 2 2 ≤ deviceEnd ∧ v.catalogueFull = false ∧
      MemoryClean v ∧ v.awayPages (field q 8 8) (field q 2 2) = [] ∧
      ((v.page? (field q 8 8)).any fun g => g.state != .dropped) = true)
    fun v _ q _ u => u.bytesAt (field q 8 8) (field q 2 2) = (q.drop 16).take (field q 2 2) ∧
      BytesOutside v u (field q 8 8) (field q 2 2) ∧ u.strongroom.debugAccesses = v.strongroom.debugAccesses + 1) ∧
  (Finishes 0x0A05 .traceStart (fun v _ q => field q 0 2 ≤ 63 ∧ 1 ≤ field q 4 4 ∧ field q 4 4 ≤ 512 ∧
      v.lodge.trace.running = false ∧ v.catalogueFull = false ∧ (v.releaseTrace.allocate 3 (field q 4 4)).isSome = true)
    fun _ _ q _ u => u.lodge.trace.running = true ∧ u.lodge.trace.sources = field q 0 2 ∧
      u.lodge.trace.ports = field q 2 1 ∧ u.lodge.trace.pages = field q 4 4) ∧
  (Finishes 0x0A06 .traceStop (fun v _ q => field q 0 1 ≤ 1 ∧ v.catalogueFull = false)
    fun v _ _ r u => u.lodge.trace.running = false ∧
      r.result = le 8 v.lodge.trace.written ++ le 8 v.lodge.trace.dropped) ∧
  (Finishes 0x0A07 .logRead (fun _ _ q => 1 ≤ field q 8 2 ∧ field q 8 2 ≤ 32 ∧ field q 10 2 = 0)
    fun v _ q r u => u = v ∧ r.data =
      ((v.lodge.catalogue.filter fun e => field q 0 8 ≤ e.accession).take (field q 8 2)).flatMap CatEntry.bytes) ∧
  (Finishes 0x0A08 .ctrClear (fun v _ q => field q 0 1 = 0xFF ∨
      v.countersExist (field q 0 1) (field q 2 2) (field q 4 2) (field q 6 2) = true)
    fun v _ q _ u => ∀ c ∈ v.selected (field q 0 1) (field q 2 2) (field q 4 2) (field q 6 2),
      u.counter c.1 c.2 = { value := 0, sticky := false }) ∧
  (Finishes 0x0A09 .powerCap (fun _ _ q => 400 ≤ field q 0 2 ∧ field q 0 2 ≤ 1800)
    fun v _ q _ u => u = v.modLodge fun l => { l with powerCap := field q 0 2 }) ∧
  (Starts 0x0A0A .resetModule (fun v _ q => field q 0 1 = 0xA5 ∧ v.catalogueFull = false)
    fun v g k _ u => u = ((v.pinEntry k 17 0).finishCmd g (Reply.of .done)).requestReset 5 0 5)
end

