-- ==== Sys2Proof/Laws/Maps.lean ====
section
/-! SUPPORT. Laws of maps and of memory cells: a read after a write, and the canonical form that every memory operation
keeps. -/

namespace Sys2Proof

/-- What a key holds after a write: the written value at the key written, and what it held before elsewhere. -/
theorem Map.get?_put {α : Type} (m : Map α) (k j : Nat) (v : α) :
    Map.get? (Map.put m k v) j = if j = k then some v else Map.get? m j := by
  induction m with
  | nil => simp only [Map.put, Map.get?]
  | cons e m ih =>
    obtain ⟨i, w⟩ := e
    simp only [Map.put]
    split
    · simp only [Map.get?]
    · split
      · subst_vars
        simp only [Map.get?]
        split <;> rfl
      · simp only [Map.get?, ih]
        split
        · subst_vars
          rw [if_neg (by omega)]
        · rfl

/-- The key written holds the value. -/
@[simp] theorem Map.getD_put_self {α : Type} (m : Map α) (k : Nat) (v d : α) : Map.getD (Map.put m k v) k d = v := by
  simp [Map.getD, Map.get?_put]

/-- Another key holds what it held. -/
theorem Map.getD_put_other {α : Type} (m : Map α) (k j : Nat) (v d : α) (h : j ≠ k) :
    Map.getD (Map.put m k v) j d = Map.getD m j d := by simp [Map.getD, Map.get?_put, h]

/-- The entries after a write: old entries and the one written. -/
theorem Map.mem_put {α : Type} {m : Map α} {k : Nat} {v : α} {e : Nat × α} (h : e ∈ Map.put m k v) :
    e ∈ m ∨ e = (k, v) := by
  induction m with
  | nil => simp [Map.put] at h; exact .inr h
  | cons a m ih =>
    obtain ⟨i, w⟩ := a
    simp only [Map.put] at h
    split at h
    · simp only [List.mem_cons] at h ⊢; tauto
    · split at h
      · simp only [List.mem_cons] at h ⊢; tauto
      · simp only [List.mem_cons] at h ⊢
        rcases h with h | h
        · tauto
        · rcases ih h with h | h <;> tauto

namespace Machine

/-- What an address reads as after a byte that is not zero is listed. -/
theorem cellRead_cellPut (m : List Host.Cell) (a b : Nat) (v : Byte) :
    cellRead (cellPut m a v) b = if b = a then v else cellRead m b := by
  induction m with
  | nil => simp only [cellPut, cellRead]
  | cons e m ih =>
    obtain ⟨i, w⟩ := e
    simp only [cellPut]
    split
    · simp only [cellRead]
    · split
      · subst_vars
        simp only [cellRead]
        split <;> rfl
      · simp only [cellRead, ih]
        split
        · subst_vars
          rw [if_neg (by omega)]
        · rfl

/-- What an address reads as once another is taken off the list, or itself. -/
theorem cellRead_filter (m : List Host.Cell) (p : Nat → Bool) (b : Nat) :
    cellRead (m.filter fun c => p c.1) b = if p b then cellRead m b else 0 := by
  induction m with
  | nil => simp [cellRead]
  | cons e m ih =>
    obtain ⟨i, w⟩ := e
    simp only [List.filter_cons]
    by_cases hp : p i
    · simp only [hp, if_true, cellRead, ih]
      split
      · subst_vars; simp [hp]
      · rfl
    · simp only [hp, cellRead, ih, Bool.false_eq_true, if_false]
      by_cases hb : b = i
      · subst hb; simp [hp]
      · simp [hb]

/-- Read after write, one byte: the byte written at its address, and the old byte elsewhere. -/
theorem cellRead_cellWrite (m : List Host.Cell) (a b : Nat) (v : Byte) :
    cellRead (cellWrite m a v) b = if b = a then v else cellRead m b := by
  unfold cellWrite
  split
  · have h := cellRead_filter m (fun x => decide (x ≠ a)) b
    simp only [ne_eq, decide_not] at h ⊢
    rw [h]
    by_cases hb : b = a <;> simp_all
  · exact cellRead_cellPut m a b v

/-- A write leaves every byte outside it as it was. -/
theorem cellRead_cellsWrite_outside (bs : Bytes) (m : List Host.Cell) (a b : Nat) (h : b < a ∨ a + bs.length ≤ b) :
    cellRead (cellsWrite m a bs) b = cellRead m b := by
  induction bs generalizing m a with
  | nil => rfl
  | cons v bs ih =>
    simp only [List.length_cons] at h
    rw [cellsWrite, ih _ _ (by omega), cellRead_cellWrite, if_neg (by omega)]

/-- A byte that a write covers reads as it was written. -/
theorem cellRead_cellsWrite_inside (bs : Bytes) (m : List Host.Cell) (a i : Nat) (h : i < bs.length) :
    cellRead (cellsWrite m a bs) (a + i) = bs[i] := by
  induction bs generalizing m a i with
  | nil => simp at h
  | cons v bs ih =>
    cases i with
    | zero =>
      rw [cellsWrite, cellRead_cellsWrite_outside _ _ _ _ (by omega), cellRead_cellWrite]
      simp
    | succ i =>
      simp only [List.length_cons] at h
      rw [cellsWrite, show a + (i + 1) = a + 1 + i by omega, ih _ _ _ (by omega)]
      simp

/-- Read after write: the bytes written. -/
theorem cellsRead_cellsWrite (bs : Bytes) (m : List Host.Cell) (a : Nat) :
    cellsRead (cellsWrite m a bs) a bs.length = bs := by
  apply List.ext_getElem
  · simp [cellsRead]
  · intro i h1 h2
    simp only [cellsRead, List.getElem_map, List.getElem_range]
    exact cellRead_cellsWrite_inside bs m a i h2

/-- A range reads as before where a write lies outside it. -/
theorem cellsRead_cellsWrite_outside (bs : Bytes) (m : List Host.Cell) (a b n : Nat)
    (h : b + n ≤ a ∨ a + bs.length ≤ b) : cellsRead (cellsWrite m a bs) b n = cellsRead m b n := by
  apply List.map_congr_left
  intro i hi
  simp only [List.mem_range] at hi
  exact cellRead_cellsWrite_outside bs m a (b + i) (by omega)

/-! ### The canonical form -/

/-- The canonical form as a property of pairs: addresses rise, and no zero is listed. -/
theorem cellsWf_iff (m : List Host.Cell) :
    cellsWf m = true ↔ m.Pairwise (fun x y => x.1 < y.1) ∧ ∀ c ∈ m, c.2 ≠ 0 := by
  match m with
  | [] => simp [cellsWf]
  | [(a, b)] => simp [cellsWf]
  | (a, b) :: (a', b') :: m =>
    simp only [cellsWf, Bool.and_eq_true, decide_eq_true_eq, cellsWf_iff ((a', b') :: m), List.pairwise_cons,
      List.mem_cons]
    constructor
    · rintro ⟨⟨hb, ha⟩, ⟨hp, hr⟩, hz⟩
      refine ⟨⟨?_, hp, hr⟩, ?_⟩
      · rintro c (rfl | hc)
        · exact ha
        · exact Nat.lt_trans ha (hp c hc)
      · rintro c (rfl | hc)
        · exact hb
        · exact hz c hc
    · rintro ⟨⟨h1, hp, hr⟩, hz⟩
      exact ⟨⟨hz _ (.inl rfl), h1 _ (.inl rfl)⟩, ⟨hp, hr⟩, fun c hc => hz c (.inr hc)⟩

/-- Where the entries after a listing come from. -/
theorem mem_cellPut {m : List Host.Cell} {x : Nat} {v : Byte} {c : Host.Cell} (h : c ∈ cellPut m x v) :
    c ∈ m ∨ c = (x, v) := by
  induction m with
  | nil => simp [cellPut] at h; exact .inr h
  | cons a m ih =>
    obtain ⟨i, w⟩ := a
    simp only [cellPut] at h
    split at h
    · simp only [List.mem_cons] at h ⊢; tauto
    · split at h
      · simp only [List.mem_cons] at h ⊢; tauto
      · simp only [List.mem_cons] at h ⊢
        rcases h with h | h
        · tauto
        · rcases ih h with h | h <;> tauto

/-- A write of one byte keeps the canonical form. -/
theorem cellsWf_cellWrite (m : List Host.Cell) (x : Nat) (v : Byte) (h : cellsWf m = true) :
    cellsWf (cellWrite m x v) = true := by
  rw [cellsWf_iff] at h ⊢
  unfold cellWrite
  split
  · exact ⟨h.1.sublist List.filter_sublist, fun c hc => h.2 c (List.mem_of_mem_filter hc)⟩
  · rename_i hv
    refine ⟨?_, fun c hc => ?_⟩
    · obtain ⟨hp, -⟩ := h
      induction m with
      | nil => simp [cellPut]
      | cons a m ih =>
        obtain ⟨i, w⟩ := a
        simp only [List.pairwise_cons] at hp
        simp only [cellPut]
        split
        · rename_i hx
          simp only [List.pairwise_cons]
          refine ⟨fun c hc => ?_, hp⟩
          rcases List.mem_cons.1 hc with rfl | hc
          · exact hx
          · exact Nat.lt_trans hx (hp.1 c hc)
        · split
          · subst_vars
            exact List.pairwise_cons.2 ⟨hp.1, hp.2⟩
          · refine List.pairwise_cons.2 ⟨fun c hc => ?_, ih hp.2⟩
            rcases mem_cellPut hc with hc | rfl
            · exact hp.1 c hc
            · simp only; omega
    · rcases mem_cellPut hc with hc | rfl
      · exact h.2 c hc
      · exact hv

/-- A write of bytes keeps the canonical form. -/
theorem cellsWf_cellsWrite (bs : Bytes) (m : List Host.Cell) (a : Nat) (h : cellsWf m = true) :
    cellsWf (cellsWrite m a bs) = true := by
  induction bs generalizing m a with
  | nil => exact h
  | cons v bs ih => exact ih _ _ (cellsWf_cellWrite m a v h)

/-- Zeroing a range keeps the canonical form. -/
theorem cellsWf_cellsZero (m : List Host.Cell) (a n : Nat) (h : cellsWf m = true) :
    cellsWf (cellsZero m a n) = true := by
  rw [cellsWf_iff] at h ⊢
  exact ⟨h.1.sublist List.filter_sublist, fun c hc => h.2 c (List.mem_of_mem_filter hc)⟩

/-- What an address reads as once a range is zeroed. -/
theorem cellRead_cellsZero (m : List Host.Cell) (a n b : Nat) :
    cellRead (cellsZero m a n) b = if a ≤ b ∧ b < a + n then 0 else cellRead m b := by
  rw [cellsZero, cellRead_filter m (fun x => !(decide (a ≤ x) && decide (x < a + n))) b]
  by_cases h : a ≤ b ∧ b < a + n
  · simp [h]
  · rw [if_pos (by simp; omega), if_neg h]

end Machine

end Sys2Proof
end

