-- ==== Sys2Proof/Laws/State.lean ====
section
/-! SUPPORT. What each one-unit change of the state leaves in each field: one lemma per field per update. -/

namespace Sys2Proof.Machine

@[simp] theorem State.modHost_variant (s : State) (f : HostIf → HostIf) : (s.modHost f).variant = s.variant := rfl
@[simp] theorem State.modHost_pending (s : State) (f : HostIf → HostIf) : (s.modHost f).pending = s.pending := rfl
@[simp] theorem State.modHost_counters (s : State) (f : HostIf → HostIf) : (s.modHost f).counters = s.counters := rfl
@[simp] theorem State.modHost_stewardRunning (s : State) (f : HostIf → HostIf) : (s.modHost f).stewardRunning = s.stewardRunning := rfl
@[simp] theorem State.modHost_deviceReady (s : State) (f : HostIf → HostIf) : (s.modHost f).deviceReady = s.deviceReady := rfl
@[simp] theorem State.modHost_serviceLevel (s : State) (f : HostIf → HostIf) : (s.modHost f).serviceLevel = s.serviceLevel := rfl
@[simp] theorem State.modHost_capsSequence (s : State) (f : HostIf → HostIf) : (s.modHost f).capsSequence = s.capsSequence := rfl
@[simp] theorem State.modHost_fp64Serving (s : State) (f : HostIf → HostIf) : (s.modHost f).fp64Serving = s.fp64Serving := rfl
@[simp] theorem State.modHost_laneRate (s : State) (f : HostIf → HostIf) : (s.modHost f).laneRate = s.laneRate := rfl
@[simp] theorem State.modHost_permittedRate (s : State) (f : HostIf → HostIf) : (s.modHost f).permittedRate = s.permittedRate := rfl
@[simp] theorem State.modHost_attnSeq (s : State) (f : HostIf → HostIf) : (s.modHost f).attnSeq = s.attnSeq := rfl
@[simp] theorem State.modHost_attnPending (s : State) (f : HostIf → HostIf) : (s.modHost f).attnPending = s.attnPending := rfl
@[simp] theorem State.modHost_attnLog (s : State) (f : HostIf → HostIf) : (s.modHost f).attnLog = s.attnLog := rfl
@[simp] theorem State.modHost_host (s : State) (f : HostIf → HostIf) : (s.modHost f).host = f s.host := rfl
@[simp] theorem State.modHost_ctxs (s : State) (f : HostIf → HostIf) : (s.modHost f).ctxs = s.ctxs := rfl
@[simp] theorem State.modHost_launches (s : State) (f : HostIf → HostIf) : (s.modHost f).launches = s.launches := rfl
@[simp] theorem State.modHost_admitting (s : State) (f : HostIf → HostIf) : (s.modHost f).admitting = s.admitting := rfl
@[simp] theorem State.modHost_nextLaunch (s : State) (f : HostIf → HostIf) : (s.modHost f).nextLaunch = s.nextLaunch := rfl
@[simp] theorem State.modHost_nextOp (s : State) (f : HostIf → HostIf) : (s.modHost f).nextOp = s.nextOp := rfl
@[simp] theorem State.modHost_nextOrder (s : State) (f : HostIf → HostIf) : (s.modHost f).nextOrder = s.nextOrder := rfl
@[simp] theorem State.modHost_threads (s : State) (f : HostIf → HostIf) : (s.modHost f).threads = s.threads := rfl
@[simp] theorem State.modHost_arrays (s : State) (f : HostIf → HostIf) : (s.modHost f).arrays = s.arrays := rfl
@[simp] theorem State.modHost_tags (s : State) (f : HostIf → HostIf) : (s.modHost f).tags = s.tags := rfl
@[simp] theorem State.modHost_memory (s : State) (f : HostIf → HostIf) : (s.modHost f).memory = s.memory := rfl
@[simp] theorem State.modHost_stashes (s : State) (f : HostIf → HostIf) : (s.modHost f).stashes = s.stashes := rfl
@[simp] theorem State.modHost_trains (s : State) (f : HostIf → HostIf) : (s.modHost f).trains = s.trains := rfl
@[simp] theorem State.modHost_guards (s : State) (f : HostIf → HostIf) : (s.modHost f).guards = s.guards := rfl
@[simp] theorem State.modHost_fabric (s : State) (f : HostIf → HostIf) : (s.modHost f).fabric = s.fabric := rfl
@[simp] theorem State.modHost_coll (s : State) (f : HostIf → HostIf) : (s.modHost f).coll = s.coll := rfl
@[simp] theorem State.modHost_twin (s : State) (f : HostIf → HostIf) : (s.modHost f).twin = s.twin := rfl
@[simp] theorem State.modHost_strongroom (s : State) (f : HostIf → HostIf) : (s.modHost f).strongroom = s.strongroom := rfl
@[simp] theorem State.modHost_lodge (s : State) (f : HostIf → HostIf) : (s.modHost f).lodge = s.lodge := rfl
@[simp] theorem State.modHost_freeIndex (s : State) (f : HostIf → HostIf) : (s.modHost f).freeIndex = s.freeIndex := rfl

@[simp] theorem State.modLodge_variant (s : State) (f : Lodge → Lodge) : (s.modLodge f).variant = s.variant := rfl
@[simp] theorem State.modLodge_pending (s : State) (f : Lodge → Lodge) : (s.modLodge f).pending = s.pending := rfl
@[simp] theorem State.modLodge_counters (s : State) (f : Lodge → Lodge) : (s.modLodge f).counters = s.counters := rfl
@[simp] theorem State.modLodge_stewardRunning (s : State) (f : Lodge → Lodge) : (s.modLodge f).stewardRunning = s.stewardRunning := rfl
@[simp] theorem State.modLodge_deviceReady (s : State) (f : Lodge → Lodge) : (s.modLodge f).deviceReady = s.deviceReady := rfl
@[simp] theorem State.modLodge_serviceLevel (s : State) (f : Lodge → Lodge) : (s.modLodge f).serviceLevel = s.serviceLevel := rfl
@[simp] theorem State.modLodge_capsSequence (s : State) (f : Lodge → Lodge) : (s.modLodge f).capsSequence = s.capsSequence := rfl
@[simp] theorem State.modLodge_fp64Serving (s : State) (f : Lodge → Lodge) : (s.modLodge f).fp64Serving = s.fp64Serving := rfl
@[simp] theorem State.modLodge_laneRate (s : State) (f : Lodge → Lodge) : (s.modLodge f).laneRate = s.laneRate := rfl
@[simp] theorem State.modLodge_permittedRate (s : State) (f : Lodge → Lodge) : (s.modLodge f).permittedRate = s.permittedRate := rfl
@[simp] theorem State.modLodge_attnSeq (s : State) (f : Lodge → Lodge) : (s.modLodge f).attnSeq = s.attnSeq := rfl
@[simp] theorem State.modLodge_attnPending (s : State) (f : Lodge → Lodge) : (s.modLodge f).attnPending = s.attnPending := rfl
@[simp] theorem State.modLodge_attnLog (s : State) (f : Lodge → Lodge) : (s.modLodge f).attnLog = s.attnLog := rfl
@[simp] theorem State.modLodge_host (s : State) (f : Lodge → Lodge) : (s.modLodge f).host = s.host := rfl
@[simp] theorem State.modLodge_ctxs (s : State) (f : Lodge → Lodge) : (s.modLodge f).ctxs = s.ctxs := rfl
@[simp] theorem State.modLodge_launches (s : State) (f : Lodge → Lodge) : (s.modLodge f).launches = s.launches := rfl
@[simp] theorem State.modLodge_admitting (s : State) (f : Lodge → Lodge) : (s.modLodge f).admitting = s.admitting := rfl
@[simp] theorem State.modLodge_nextLaunch (s : State) (f : Lodge → Lodge) : (s.modLodge f).nextLaunch = s.nextLaunch := rfl
@[simp] theorem State.modLodge_nextOp (s : State) (f : Lodge → Lodge) : (s.modLodge f).nextOp = s.nextOp := rfl
@[simp] theorem State.modLodge_nextOrder (s : State) (f : Lodge → Lodge) : (s.modLodge f).nextOrder = s.nextOrder := rfl
@[simp] theorem State.modLodge_threads (s : State) (f : Lodge → Lodge) : (s.modLodge f).threads = s.threads := rfl
@[simp] theorem State.modLodge_arrays (s : State) (f : Lodge → Lodge) : (s.modLodge f).arrays = s.arrays := rfl
@[simp] theorem State.modLodge_tags (s : State) (f : Lodge → Lodge) : (s.modLodge f).tags = s.tags := rfl
@[simp] theorem State.modLodge_memory (s : State) (f : Lodge → Lodge) : (s.modLodge f).memory = s.memory := rfl
@[simp] theorem State.modLodge_stashes (s : State) (f : Lodge → Lodge) : (s.modLodge f).stashes = s.stashes := rfl
@[simp] theorem State.modLodge_trains (s : State) (f : Lodge → Lodge) : (s.modLodge f).trains = s.trains := rfl
@[simp] theorem State.modLodge_guards (s : State) (f : Lodge → Lodge) : (s.modLodge f).guards = s.guards := rfl
@[simp] theorem State.modLodge_fabric (s : State) (f : Lodge → Lodge) : (s.modLodge f).fabric = s.fabric := rfl
@[simp] theorem State.modLodge_coll (s : State) (f : Lodge → Lodge) : (s.modLodge f).coll = s.coll := rfl
@[simp] theorem State.modLodge_twin (s : State) (f : Lodge → Lodge) : (s.modLodge f).twin = s.twin := rfl
@[simp] theorem State.modLodge_strongroom (s : State) (f : Lodge → Lodge) : (s.modLodge f).strongroom = s.strongroom := rfl
@[simp] theorem State.modLodge_lodge (s : State) (f : Lodge → Lodge) : (s.modLodge f).lodge = f s.lodge := rfl
@[simp] theorem State.modLodge_freeIndex (s : State) (f : Lodge → Lodge) : (s.modLodge f).freeIndex = s.freeIndex := rfl

@[simp] theorem State.modMem_variant (s : State) (f : Memory → Memory) : (s.modMem f).variant = s.variant := rfl
@[simp] theorem State.modMem_pending (s : State) (f : Memory → Memory) : (s.modMem f).pending = s.pending := rfl
@[simp] theorem State.modMem_counters (s : State) (f : Memory → Memory) : (s.modMem f).counters = s.counters := rfl
@[simp] theorem State.modMem_stewardRunning (s : State) (f : Memory → Memory) : (s.modMem f).stewardRunning = s.stewardRunning := rfl
@[simp] theorem State.modMem_deviceReady (s : State) (f : Memory → Memory) : (s.modMem f).deviceReady = s.deviceReady := rfl
@[simp] theorem State.modMem_serviceLevel (s : State) (f : Memory → Memory) : (s.modMem f).serviceLevel = s.serviceLevel := rfl
@[simp] theorem State.modMem_capsSequence (s : State) (f : Memory → Memory) : (s.modMem f).capsSequence = s.capsSequence := rfl
@[simp] theorem State.modMem_fp64Serving (s : State) (f : Memory → Memory) : (s.modMem f).fp64Serving = s.fp64Serving := rfl
@[simp] theorem State.modMem_laneRate (s : State) (f : Memory → Memory) : (s.modMem f).laneRate = s.laneRate := rfl
@[simp] theorem State.modMem_permittedRate (s : State) (f : Memory → Memory) : (s.modMem f).permittedRate = s.permittedRate := rfl
@[simp] theorem State.modMem_attnSeq (s : State) (f : Memory → Memory) : (s.modMem f).attnSeq = s.attnSeq := rfl
@[simp] theorem State.modMem_attnPending (s : State) (f : Memory → Memory) : (s.modMem f).attnPending = s.attnPending := rfl
@[simp] theorem State.modMem_attnLog (s : State) (f : Memory → Memory) : (s.modMem f).attnLog = s.attnLog := rfl
@[simp] theorem State.modMem_host (s : State) (f : Memory → Memory) : (s.modMem f).host = s.host := rfl
@[simp] theorem State.modMem_ctxs (s : State) (f : Memory → Memory) : (s.modMem f).ctxs = s.ctxs := rfl
@[simp] theorem State.modMem_launches (s : State) (f : Memory → Memory) : (s.modMem f).launches = s.launches := rfl
@[simp] theorem State.modMem_admitting (s : State) (f : Memory → Memory) : (s.modMem f).admitting = s.admitting := rfl
@[simp] theorem State.modMem_nextLaunch (s : State) (f : Memory → Memory) : (s.modMem f).nextLaunch = s.nextLaunch := rfl
@[simp] theorem State.modMem_nextOp (s : State) (f : Memory → Memory) : (s.modMem f).nextOp = s.nextOp := rfl
@[simp] theorem State.modMem_nextOrder (s : State) (f : Memory → Memory) : (s.modMem f).nextOrder = s.nextOrder := rfl
@[simp] theorem State.modMem_threads (s : State) (f : Memory → Memory) : (s.modMem f).threads = s.threads := rfl
@[simp] theorem State.modMem_arrays (s : State) (f : Memory → Memory) : (s.modMem f).arrays = s.arrays := rfl
@[simp] theorem State.modMem_tags (s : State) (f : Memory → Memory) : (s.modMem f).tags = s.tags := rfl
@[simp] theorem State.modMem_memory (s : State) (f : Memory → Memory) : (s.modMem f).memory = f s.memory := rfl
@[simp] theorem State.modMem_stashes (s : State) (f : Memory → Memory) : (s.modMem f).stashes = s.stashes := rfl
@[simp] theorem State.modMem_trains (s : State) (f : Memory → Memory) : (s.modMem f).trains = s.trains := rfl
@[simp] theorem State.modMem_guards (s : State) (f : Memory → Memory) : (s.modMem f).guards = s.guards := rfl
@[simp] theorem State.modMem_fabric (s : State) (f : Memory → Memory) : (s.modMem f).fabric = s.fabric := rfl
@[simp] theorem State.modMem_coll (s : State) (f : Memory → Memory) : (s.modMem f).coll = s.coll := rfl
@[simp] theorem State.modMem_twin (s : State) (f : Memory → Memory) : (s.modMem f).twin = s.twin := rfl
@[simp] theorem State.modMem_strongroom (s : State) (f : Memory → Memory) : (s.modMem f).strongroom = s.strongroom := rfl
@[simp] theorem State.modMem_lodge (s : State) (f : Memory → Memory) : (s.modMem f).lodge = s.lodge := rfl
@[simp] theorem State.modMem_freeIndex (s : State) (f : Memory → Memory) : (s.modMem f).freeIndex = s.freeIndex := rfl

@[simp] theorem State.modFabric_variant (s : State) (f : Fabric → Fabric) : (s.modFabric f).variant = s.variant := rfl
@[simp] theorem State.modFabric_pending (s : State) (f : Fabric → Fabric) : (s.modFabric f).pending = s.pending := rfl
@[simp] theorem State.modFabric_counters (s : State) (f : Fabric → Fabric) : (s.modFabric f).counters = s.counters := rfl
@[simp] theorem State.modFabric_stewardRunning (s : State) (f : Fabric → Fabric) : (s.modFabric f).stewardRunning = s.stewardRunning := rfl
@[simp] theorem State.modFabric_deviceReady (s : State) (f : Fabric → Fabric) : (s.modFabric f).deviceReady = s.deviceReady := rfl
@[simp] theorem State.modFabric_serviceLevel (s : State) (f : Fabric → Fabric) : (s.modFabric f).serviceLevel = s.serviceLevel := rfl
@[simp] theorem State.modFabric_capsSequence (s : State) (f : Fabric → Fabric) : (s.modFabric f).capsSequence = s.capsSequence := rfl
@[simp] theorem State.modFabric_fp64Serving (s : State) (f : Fabric → Fabric) : (s.modFabric f).fp64Serving = s.fp64Serving := rfl
@[simp] theorem State.modFabric_laneRate (s : State) (f : Fabric → Fabric) : (s.modFabric f).laneRate = s.laneRate := rfl
@[simp] theorem State.modFabric_permittedRate (s : State) (f : Fabric → Fabric) : (s.modFabric f).permittedRate = s.permittedRate := rfl
@[simp] theorem State.modFabric_attnSeq (s : State) (f : Fabric → Fabric) : (s.modFabric f).attnSeq = s.attnSeq := rfl
@[simp] theorem State.modFabric_attnPending (s : State) (f : Fabric → Fabric) : (s.modFabric f).attnPending = s.attnPending := rfl
@[simp] theorem State.modFabric_attnLog (s : State) (f : Fabric → Fabric) : (s.modFabric f).attnLog = s.attnLog := rfl
@[simp] theorem State.modFabric_host (s : State) (f : Fabric → Fabric) : (s.modFabric f).host = s.host := rfl
@[simp] theorem State.modFabric_ctxs (s : State) (f : Fabric → Fabric) : (s.modFabric f).ctxs = s.ctxs := rfl
@[simp] theorem State.modFabric_launches (s : State) (f : Fabric → Fabric) : (s.modFabric f).launches = s.launches := rfl
@[simp] theorem State.modFabric_admitting (s : State) (f : Fabric → Fabric) : (s.modFabric f).admitting = s.admitting := rfl
@[simp] theorem State.modFabric_nextLaunch (s : State) (f : Fabric → Fabric) : (s.modFabric f).nextLaunch = s.nextLaunch := rfl
@[simp] theorem State.modFabric_nextOp (s : State) (f : Fabric → Fabric) : (s.modFabric f).nextOp = s.nextOp := rfl
@[simp] theorem State.modFabric_nextOrder (s : State) (f : Fabric → Fabric) : (s.modFabric f).nextOrder = s.nextOrder := rfl
@[simp] theorem State.modFabric_threads (s : State) (f : Fabric → Fabric) : (s.modFabric f).threads = s.threads := rfl
@[simp] theorem State.modFabric_arrays (s : State) (f : Fabric → Fabric) : (s.modFabric f).arrays = s.arrays := rfl
@[simp] theorem State.modFabric_tags (s : State) (f : Fabric → Fabric) : (s.modFabric f).tags = s.tags := rfl
@[simp] theorem State.modFabric_memory (s : State) (f : Fabric → Fabric) : (s.modFabric f).memory = s.memory := rfl
@[simp] theorem State.modFabric_stashes (s : State) (f : Fabric → Fabric) : (s.modFabric f).stashes = s.stashes := rfl
@[simp] theorem State.modFabric_trains (s : State) (f : Fabric → Fabric) : (s.modFabric f).trains = s.trains := rfl
@[simp] theorem State.modFabric_guards (s : State) (f : Fabric → Fabric) : (s.modFabric f).guards = s.guards := rfl
@[simp] theorem State.modFabric_fabric (s : State) (f : Fabric → Fabric) : (s.modFabric f).fabric = f s.fabric := rfl
@[simp] theorem State.modFabric_coll (s : State) (f : Fabric → Fabric) : (s.modFabric f).coll = s.coll := rfl
@[simp] theorem State.modFabric_twin (s : State) (f : Fabric → Fabric) : (s.modFabric f).twin = s.twin := rfl
@[simp] theorem State.modFabric_strongroom (s : State) (f : Fabric → Fabric) : (s.modFabric f).strongroom = s.strongroom := rfl
@[simp] theorem State.modFabric_lodge (s : State) (f : Fabric → Fabric) : (s.modFabric f).lodge = s.lodge := rfl
@[simp] theorem State.modFabric_freeIndex (s : State) (f : Fabric → Fabric) : (s.modFabric f).freeIndex = s.freeIndex := rfl

@[simp] theorem State.modCe_variant (s : State) (f : Collectives → Collectives) : (s.modCe f).variant = s.variant := rfl
@[simp] theorem State.modCe_pending (s : State) (f : Collectives → Collectives) : (s.modCe f).pending = s.pending := rfl
@[simp] theorem State.modCe_counters (s : State) (f : Collectives → Collectives) : (s.modCe f).counters = s.counters := rfl
@[simp] theorem State.modCe_stewardRunning (s : State) (f : Collectives → Collectives) : (s.modCe f).stewardRunning = s.stewardRunning := rfl
@[simp] theorem State.modCe_deviceReady (s : State) (f : Collectives → Collectives) : (s.modCe f).deviceReady = s.deviceReady := rfl
@[simp] theorem State.modCe_serviceLevel (s : State) (f : Collectives → Collectives) : (s.modCe f).serviceLevel = s.serviceLevel := rfl
@[simp] theorem State.modCe_capsSequence (s : State) (f : Collectives → Collectives) : (s.modCe f).capsSequence = s.capsSequence := rfl
@[simp] theorem State.modCe_fp64Serving (s : State) (f : Collectives → Collectives) : (s.modCe f).fp64Serving = s.fp64Serving := rfl
@[simp] theorem State.modCe_laneRate (s : State) (f : Collectives → Collectives) : (s.modCe f).laneRate = s.laneRate := rfl
@[simp] theorem State.modCe_permittedRate (s : State) (f : Collectives → Collectives) : (s.modCe f).permittedRate = s.permittedRate := rfl
@[simp] theorem State.modCe_attnSeq (s : State) (f : Collectives → Collectives) : (s.modCe f).attnSeq = s.attnSeq := rfl
@[simp] theorem State.modCe_attnPending (s : State) (f : Collectives → Collectives) : (s.modCe f).attnPending = s.attnPending := rfl
@[simp] theorem State.modCe_attnLog (s : State) (f : Collectives → Collectives) : (s.modCe f).attnLog = s.attnLog := rfl
@[simp] theorem State.modCe_host (s : State) (f : Collectives → Collectives) : (s.modCe f).host = s.host := rfl
@[simp] theorem State.modCe_ctxs (s : State) (f : Collectives → Collectives) : (s.modCe f).ctxs = s.ctxs := rfl
@[simp] theorem State.modCe_launches (s : State) (f : Collectives → Collectives) : (s.modCe f).launches = s.launches := rfl
@[simp] theorem State.modCe_admitting (s : State) (f : Collectives → Collectives) : (s.modCe f).admitting = s.admitting := rfl
@[simp] theorem State.modCe_nextLaunch (s : State) (f : Collectives → Collectives) : (s.modCe f).nextLaunch = s.nextLaunch := rfl
@[simp] theorem State.modCe_nextOp (s : State) (f : Collectives → Collectives) : (s.modCe f).nextOp = s.nextOp := rfl
@[simp] theorem State.modCe_nextOrder (s : State) (f : Collectives → Collectives) : (s.modCe f).nextOrder = s.nextOrder := rfl
@[simp] theorem State.modCe_threads (s : State) (f : Collectives → Collectives) : (s.modCe f).threads = s.threads := rfl
@[simp] theorem State.modCe_arrays (s : State) (f : Collectives → Collectives) : (s.modCe f).arrays = s.arrays := rfl
@[simp] theorem State.modCe_tags (s : State) (f : Collectives → Collectives) : (s.modCe f).tags = s.tags := rfl
@[simp] theorem State.modCe_memory (s : State) (f : Collectives → Collectives) : (s.modCe f).memory = s.memory := rfl
@[simp] theorem State.modCe_stashes (s : State) (f : Collectives → Collectives) : (s.modCe f).stashes = s.stashes := rfl
@[simp] theorem State.modCe_trains (s : State) (f : Collectives → Collectives) : (s.modCe f).trains = s.trains := rfl
@[simp] theorem State.modCe_guards (s : State) (f : Collectives → Collectives) : (s.modCe f).guards = s.guards := rfl
@[simp] theorem State.modCe_fabric (s : State) (f : Collectives → Collectives) : (s.modCe f).fabric = s.fabric := rfl
@[simp] theorem State.modCe_coll (s : State) (f : Collectives → Collectives) : (s.modCe f).coll = f s.coll := rfl
@[simp] theorem State.modCe_twin (s : State) (f : Collectives → Collectives) : (s.modCe f).twin = s.twin := rfl
@[simp] theorem State.modCe_strongroom (s : State) (f : Collectives → Collectives) : (s.modCe f).strongroom = s.strongroom := rfl
@[simp] theorem State.modCe_lodge (s : State) (f : Collectives → Collectives) : (s.modCe f).lodge = s.lodge := rfl
@[simp] theorem State.modCe_freeIndex (s : State) (f : Collectives → Collectives) : (s.modCe f).freeIndex = s.freeIndex := rfl

@[simp] theorem State.modTwin_variant (s : State) (f : Twin → Twin) : (s.modTwin f).variant = s.variant := rfl
@[simp] theorem State.modTwin_pending (s : State) (f : Twin → Twin) : (s.modTwin f).pending = s.pending := rfl
@[simp] theorem State.modTwin_counters (s : State) (f : Twin → Twin) : (s.modTwin f).counters = s.counters := rfl
@[simp] theorem State.modTwin_stewardRunning (s : State) (f : Twin → Twin) : (s.modTwin f).stewardRunning = s.stewardRunning := rfl
@[simp] theorem State.modTwin_deviceReady (s : State) (f : Twin → Twin) : (s.modTwin f).deviceReady = s.deviceReady := rfl
@[simp] theorem State.modTwin_serviceLevel (s : State) (f : Twin → Twin) : (s.modTwin f).serviceLevel = s.serviceLevel := rfl
@[simp] theorem State.modTwin_capsSequence (s : State) (f : Twin → Twin) : (s.modTwin f).capsSequence = s.capsSequence := rfl
@[simp] theorem State.modTwin_fp64Serving (s : State) (f : Twin → Twin) : (s.modTwin f).fp64Serving = s.fp64Serving := rfl
@[simp] theorem State.modTwin_laneRate (s : State) (f : Twin → Twin) : (s.modTwin f).laneRate = s.laneRate := rfl
@[simp] theorem State.modTwin_permittedRate (s : State) (f : Twin → Twin) : (s.modTwin f).permittedRate = s.permittedRate := rfl
@[simp] theorem State.modTwin_attnSeq (s : State) (f : Twin → Twin) : (s.modTwin f).attnSeq = s.attnSeq := rfl
@[simp] theorem State.modTwin_attnPending (s : State) (f : Twin → Twin) : (s.modTwin f).attnPending = s.attnPending := rfl
@[simp] theorem State.modTwin_attnLog (s : State) (f : Twin → Twin) : (s.modTwin f).attnLog = s.attnLog := rfl
@[simp] theorem State.modTwin_host (s : State) (f : Twin → Twin) : (s.modTwin f).host = s.host := rfl
@[simp] theorem State.modTwin_ctxs (s : State) (f : Twin → Twin) : (s.modTwin f).ctxs = s.ctxs := rfl
@[simp] theorem State.modTwin_launches (s : State) (f : Twin → Twin) : (s.modTwin f).launches = s.launches := rfl
@[simp] theorem State.modTwin_admitting (s : State) (f : Twin → Twin) : (s.modTwin f).admitting = s.admitting := rfl
@[simp] theorem State.modTwin_nextLaunch (s : State) (f : Twin → Twin) : (s.modTwin f).nextLaunch = s.nextLaunch := rfl
@[simp] theorem State.modTwin_nextOp (s : State) (f : Twin → Twin) : (s.modTwin f).nextOp = s.nextOp := rfl
@[simp] theorem State.modTwin_nextOrder (s : State) (f : Twin → Twin) : (s.modTwin f).nextOrder = s.nextOrder := rfl
@[simp] theorem State.modTwin_threads (s : State) (f : Twin → Twin) : (s.modTwin f).threads = s.threads := rfl
@[simp] theorem State.modTwin_arrays (s : State) (f : Twin → Twin) : (s.modTwin f).arrays = s.arrays := rfl
@[simp] theorem State.modTwin_tags (s : State) (f : Twin → Twin) : (s.modTwin f).tags = s.tags := rfl
@[simp] theorem State.modTwin_memory (s : State) (f : Twin → Twin) : (s.modTwin f).memory = s.memory := rfl
@[simp] theorem State.modTwin_stashes (s : State) (f : Twin → Twin) : (s.modTwin f).stashes = s.stashes := rfl
@[simp] theorem State.modTwin_trains (s : State) (f : Twin → Twin) : (s.modTwin f).trains = s.trains := rfl
@[simp] theorem State.modTwin_guards (s : State) (f : Twin → Twin) : (s.modTwin f).guards = s.guards := rfl
@[simp] theorem State.modTwin_fabric (s : State) (f : Twin → Twin) : (s.modTwin f).fabric = s.fabric := rfl
@[simp] theorem State.modTwin_coll (s : State) (f : Twin → Twin) : (s.modTwin f).coll = s.coll := rfl
@[simp] theorem State.modTwin_twin (s : State) (f : Twin → Twin) : (s.modTwin f).twin = f s.twin := rfl
@[simp] theorem State.modTwin_strongroom (s : State) (f : Twin → Twin) : (s.modTwin f).strongroom = s.strongroom := rfl
@[simp] theorem State.modTwin_lodge (s : State) (f : Twin → Twin) : (s.modTwin f).lodge = s.lodge := rfl
@[simp] theorem State.modTwin_freeIndex (s : State) (f : Twin → Twin) : (s.modTwin f).freeIndex = s.freeIndex := rfl

@[simp] theorem State.modSr_variant (s : State) (f : Strongroom → Strongroom) : (s.modSr f).variant = s.variant := rfl
@[simp] theorem State.modSr_pending (s : State) (f : Strongroom → Strongroom) : (s.modSr f).pending = s.pending := rfl
@[simp] theorem State.modSr_counters (s : State) (f : Strongroom → Strongroom) : (s.modSr f).counters = s.counters := rfl
@[simp] theorem State.modSr_stewardRunning (s : State) (f : Strongroom → Strongroom) : (s.modSr f).stewardRunning = s.stewardRunning := rfl
@[simp] theorem State.modSr_deviceReady (s : State) (f : Strongroom → Strongroom) : (s.modSr f).deviceReady = s.deviceReady := rfl
@[simp] theorem State.modSr_serviceLevel (s : State) (f : Strongroom → Strongroom) : (s.modSr f).serviceLevel = s.serviceLevel := rfl
@[simp] theorem State.modSr_capsSequence (s : State) (f : Strongroom → Strongroom) : (s.modSr f).capsSequence = s.capsSequence := rfl
@[simp] theorem State.modSr_fp64Serving (s : State) (f : Strongroom → Strongroom) : (s.modSr f).fp64Serving = s.fp64Serving := rfl
@[simp] theorem State.modSr_laneRate (s : State) (f : Strongroom → Strongroom) : (s.modSr f).laneRate = s.laneRate := rfl
@[simp] theorem State.modSr_permittedRate (s : State) (f : Strongroom → Strongroom) : (s.modSr f).permittedRate = s.permittedRate := rfl
@[simp] theorem State.modSr_attnSeq (s : State) (f : Strongroom → Strongroom) : (s.modSr f).attnSeq = s.attnSeq := rfl
@[simp] theorem State.modSr_attnPending (s : State) (f : Strongroom → Strongroom) : (s.modSr f).attnPending = s.attnPending := rfl
@[simp] theorem State.modSr_attnLog (s : State) (f : Strongroom → Strongroom) : (s.modSr f).attnLog = s.attnLog := rfl
@[simp] theorem State.modSr_host (s : State) (f : Strongroom → Strongroom) : (s.modSr f).host = s.host := rfl
@[simp] theorem State.modSr_ctxs (s : State) (f : Strongroom → Strongroom) : (s.modSr f).ctxs = s.ctxs := rfl
@[simp] theorem State.modSr_launches (s : State) (f : Strongroom → Strongroom) : (s.modSr f).launches = s.launches := rfl
@[simp] theorem State.modSr_admitting (s : State) (f : Strongroom → Strongroom) : (s.modSr f).admitting = s.admitting := rfl
@[simp] theorem State.modSr_nextLaunch (s : State) (f : Strongroom → Strongroom) : (s.modSr f).nextLaunch = s.nextLaunch := rfl
@[simp] theorem State.modSr_nextOp (s : State) (f : Strongroom → Strongroom) : (s.modSr f).nextOp = s.nextOp := rfl
@[simp] theorem State.modSr_nextOrder (s : State) (f : Strongroom → Strongroom) : (s.modSr f).nextOrder = s.nextOrder := rfl
@[simp] theorem State.modSr_threads (s : State) (f : Strongroom → Strongroom) : (s.modSr f).threads = s.threads := rfl
@[simp] theorem State.modSr_arrays (s : State) (f : Strongroom → Strongroom) : (s.modSr f).arrays = s.arrays := rfl
@[simp] theorem State.modSr_tags (s : State) (f : Strongroom → Strongroom) : (s.modSr f).tags = s.tags := rfl
@[simp] theorem State.modSr_memory (s : State) (f : Strongroom → Strongroom) : (s.modSr f).memory = s.memory := rfl
@[simp] theorem State.modSr_stashes (s : State) (f : Strongroom → Strongroom) : (s.modSr f).stashes = s.stashes := rfl
@[simp] theorem State.modSr_trains (s : State) (f : Strongroom → Strongroom) : (s.modSr f).trains = s.trains := rfl
@[simp] theorem State.modSr_guards (s : State) (f : Strongroom → Strongroom) : (s.modSr f).guards = s.guards := rfl
@[simp] theorem State.modSr_fabric (s : State) (f : Strongroom → Strongroom) : (s.modSr f).fabric = s.fabric := rfl
@[simp] theorem State.modSr_coll (s : State) (f : Strongroom → Strongroom) : (s.modSr f).coll = s.coll := rfl
@[simp] theorem State.modSr_twin (s : State) (f : Strongroom → Strongroom) : (s.modSr f).twin = s.twin := rfl
@[simp] theorem State.modSr_strongroom (s : State) (f : Strongroom → Strongroom) : (s.modSr f).strongroom = f s.strongroom := rfl
@[simp] theorem State.modSr_lodge (s : State) (f : Strongroom → Strongroom) : (s.modSr f).lodge = s.lodge := rfl
@[simp] theorem State.modSr_freeIndex (s : State) (f : Strongroom → Strongroom) : (s.modSr f).freeIndex = s.freeIndex := rfl

@[simp] theorem State.modCtx_variant (s : State) (c : Nat) (f : Ctx → Ctx) : (s.modCtx c f).variant = s.variant := rfl
@[simp] theorem State.modCtx_pending (s : State) (c : Nat) (f : Ctx → Ctx) : (s.modCtx c f).pending = s.pending := rfl
@[simp] theorem State.modCtx_counters (s : State) (c : Nat) (f : Ctx → Ctx) : (s.modCtx c f).counters = s.counters := rfl
@[simp] theorem State.modCtx_stewardRunning (s : State) (c : Nat) (f : Ctx → Ctx) : (s.modCtx c f).stewardRunning = s.stewardRunning := rfl
@[simp] theorem State.modCtx_deviceReady (s : State) (c : Nat) (f : Ctx → Ctx) : (s.modCtx c f).deviceReady = s.deviceReady := rfl
@[simp] theorem State.modCtx_serviceLevel (s : State) (c : Nat) (f : Ctx → Ctx) : (s.modCtx c f).serviceLevel = s.serviceLevel := rfl
@[simp] theorem State.modCtx_capsSequence (s : State) (c : Nat) (f : Ctx → Ctx) : (s.modCtx c f).capsSequence = s.capsSequence := rfl
@[simp] theorem State.modCtx_fp64Serving (s : State) (c : Nat) (f : Ctx → Ctx) : (s.modCtx c f).fp64Serving = s.fp64Serving := rfl
@[simp] theorem State.modCtx_laneRate (s : State) (c : Nat) (f : Ctx → Ctx) : (s.modCtx c f).laneRate = s.laneRate := rfl
@[simp] theorem State.modCtx_permittedRate (s : State) (c : Nat) (f : Ctx → Ctx) : (s.modCtx c f).permittedRate = s.permittedRate := rfl
@[simp] theorem State.modCtx_attnSeq (s : State) (c : Nat) (f : Ctx → Ctx) : (s.modCtx c f).attnSeq = s.attnSeq := rfl
@[simp] theorem State.modCtx_attnPending (s : State) (c : Nat) (f : Ctx → Ctx) : (s.modCtx c f).attnPending = s.attnPending := rfl
@[simp] theorem State.modCtx_attnLog (s : State) (c : Nat) (f : Ctx → Ctx) : (s.modCtx c f).attnLog = s.attnLog := rfl
@[simp] theorem State.modCtx_host (s : State) (c : Nat) (f : Ctx → Ctx) : (s.modCtx c f).host = s.host := rfl
@[simp] theorem State.modCtx_ctxs (s : State) (c : Nat) (f : Ctx → Ctx) : (s.modCtx c f).ctxs = Map.put s.ctxs c (f (s.ctx c)) := rfl
@[simp] theorem State.modCtx_launches (s : State) (c : Nat) (f : Ctx → Ctx) : (s.modCtx c f).launches = s.launches := rfl
@[simp] theorem State.modCtx_admitting (s : State) (c : Nat) (f : Ctx → Ctx) : (s.modCtx c f).admitting = s.admitting := rfl
@[simp] theorem State.modCtx_nextLaunch (s : State) (c : Nat) (f : Ctx → Ctx) : (s.modCtx c f).nextLaunch = s.nextLaunch := rfl
@[simp] theorem State.modCtx_nextOp (s : State) (c : Nat) (f : Ctx → Ctx) : (s.modCtx c f).nextOp = s.nextOp := rfl
@[simp] theorem State.modCtx_nextOrder (s : State) (c : Nat) (f : Ctx → Ctx) : (s.modCtx c f).nextOrder = s.nextOrder := rfl
@[simp] theorem State.modCtx_threads (s : State) (c : Nat) (f : Ctx → Ctx) : (s.modCtx c f).threads = s.threads := rfl
@[simp] theorem State.modCtx_arrays (s : State) (c : Nat) (f : Ctx → Ctx) : (s.modCtx c f).arrays = s.arrays := rfl
@[simp] theorem State.modCtx_tags (s : State) (c : Nat) (f : Ctx → Ctx) : (s.modCtx c f).tags = s.tags := rfl
@[simp] theorem State.modCtx_memory (s : State) (c : Nat) (f : Ctx → Ctx) : (s.modCtx c f).memory = s.memory := rfl
@[simp] theorem State.modCtx_stashes (s : State) (c : Nat) (f : Ctx → Ctx) : (s.modCtx c f).stashes = s.stashes := rfl
@[simp] theorem State.modCtx_trains (s : State) (c : Nat) (f : Ctx → Ctx) : (s.modCtx c f).trains = s.trains := rfl
@[simp] theorem State.modCtx_guards (s : State) (c : Nat) (f : Ctx → Ctx) : (s.modCtx c f).guards = s.guards := rfl
@[simp] theorem State.modCtx_fabric (s : State) (c : Nat) (f : Ctx → Ctx) : (s.modCtx c f).fabric = s.fabric := rfl
@[simp] theorem State.modCtx_coll (s : State) (c : Nat) (f : Ctx → Ctx) : (s.modCtx c f).coll = s.coll := rfl
@[simp] theorem State.modCtx_twin (s : State) (c : Nat) (f : Ctx → Ctx) : (s.modCtx c f).twin = s.twin := rfl
@[simp] theorem State.modCtx_strongroom (s : State) (c : Nat) (f : Ctx → Ctx) : (s.modCtx c f).strongroom = s.strongroom := rfl
@[simp] theorem State.modCtx_lodge (s : State) (c : Nat) (f : Ctx → Ctx) : (s.modCtx c f).lodge = s.lodge := rfl
@[simp] theorem State.modCtx_freeIndex (s : State) (c : Nat) (f : Ctx → Ctx) : (s.modCtx c f).freeIndex = s.freeIndex := rfl

@[simp] theorem State.setThread_variant (s : State) (t : ThreadId) (x : Thread) : (s.setThread t x).variant = s.variant := rfl
@[simp] theorem State.setThread_pending (s : State) (t : ThreadId) (x : Thread) : (s.setThread t x).pending = s.pending := rfl
@[simp] theorem State.setThread_counters (s : State) (t : ThreadId) (x : Thread) : (s.setThread t x).counters = s.counters := rfl
@[simp] theorem State.setThread_stewardRunning (s : State) (t : ThreadId) (x : Thread) : (s.setThread t x).stewardRunning = s.stewardRunning := rfl
@[simp] theorem State.setThread_deviceReady (s : State) (t : ThreadId) (x : Thread) : (s.setThread t x).deviceReady = s.deviceReady := rfl
@[simp] theorem State.setThread_serviceLevel (s : State) (t : ThreadId) (x : Thread) : (s.setThread t x).serviceLevel = s.serviceLevel := rfl
@[simp] theorem State.setThread_capsSequence (s : State) (t : ThreadId) (x : Thread) : (s.setThread t x).capsSequence = s.capsSequence := rfl
@[simp] theorem State.setThread_fp64Serving (s : State) (t : ThreadId) (x : Thread) : (s.setThread t x).fp64Serving = s.fp64Serving := rfl
@[simp] theorem State.setThread_laneRate (s : State) (t : ThreadId) (x : Thread) : (s.setThread t x).laneRate = s.laneRate := rfl
@[simp] theorem State.setThread_permittedRate (s : State) (t : ThreadId) (x : Thread) : (s.setThread t x).permittedRate = s.permittedRate := rfl
@[simp] theorem State.setThread_attnSeq (s : State) (t : ThreadId) (x : Thread) : (s.setThread t x).attnSeq = s.attnSeq := rfl
@[simp] theorem State.setThread_attnPending (s : State) (t : ThreadId) (x : Thread) : (s.setThread t x).attnPending = s.attnPending := rfl
@[simp] theorem State.setThread_attnLog (s : State) (t : ThreadId) (x : Thread) : (s.setThread t x).attnLog = s.attnLog := rfl
@[simp] theorem State.setThread_host (s : State) (t : ThreadId) (x : Thread) : (s.setThread t x).host = s.host := rfl
@[simp] theorem State.setThread_ctxs (s : State) (t : ThreadId) (x : Thread) : (s.setThread t x).ctxs = s.ctxs := rfl
@[simp] theorem State.setThread_launches (s : State) (t : ThreadId) (x : Thread) : (s.setThread t x).launches = s.launches := rfl
@[simp] theorem State.setThread_admitting (s : State) (t : ThreadId) (x : Thread) : (s.setThread t x).admitting = s.admitting := rfl
@[simp] theorem State.setThread_nextLaunch (s : State) (t : ThreadId) (x : Thread) : (s.setThread t x).nextLaunch = s.nextLaunch := rfl
@[simp] theorem State.setThread_nextOp (s : State) (t : ThreadId) (x : Thread) : (s.setThread t x).nextOp = s.nextOp := rfl
@[simp] theorem State.setThread_nextOrder (s : State) (t : ThreadId) (x : Thread) : (s.setThread t x).nextOrder = s.nextOrder := rfl
@[simp] theorem State.setThread_threads (s : State) (t : ThreadId) (x : Thread) : (s.setThread t x).threads = Map.put s.threads (threadKey t) x := rfl
@[simp] theorem State.setThread_arrays (s : State) (t : ThreadId) (x : Thread) : (s.setThread t x).arrays = s.arrays := rfl
@[simp] theorem State.setThread_tags (s : State) (t : ThreadId) (x : Thread) : (s.setThread t x).tags = s.tags := rfl
@[simp] theorem State.setThread_memory (s : State) (t : ThreadId) (x : Thread) : (s.setThread t x).memory = s.memory := rfl
@[simp] theorem State.setThread_stashes (s : State) (t : ThreadId) (x : Thread) : (s.setThread t x).stashes = s.stashes := rfl
@[simp] theorem State.setThread_trains (s : State) (t : ThreadId) (x : Thread) : (s.setThread t x).trains = s.trains := rfl
@[simp] theorem State.setThread_guards (s : State) (t : ThreadId) (x : Thread) : (s.setThread t x).guards = s.guards := rfl
@[simp] theorem State.setThread_fabric (s : State) (t : ThreadId) (x : Thread) : (s.setThread t x).fabric = s.fabric := rfl
@[simp] theorem State.setThread_coll (s : State) (t : ThreadId) (x : Thread) : (s.setThread t x).coll = s.coll := rfl
@[simp] theorem State.setThread_twin (s : State) (t : ThreadId) (x : Thread) : (s.setThread t x).twin = s.twin := rfl
@[simp] theorem State.setThread_strongroom (s : State) (t : ThreadId) (x : Thread) : (s.setThread t x).strongroom = s.strongroom := rfl
@[simp] theorem State.setThread_lodge (s : State) (t : ThreadId) (x : Thread) : (s.setThread t x).lodge = s.lodge := rfl
@[simp] theorem State.setThread_freeIndex (s : State) (t : ThreadId) (x : Thread) : (s.setThread t x).freeIndex = s.freeIndex := rfl

@[simp] theorem State.modThread_variant (s : State) (t : ThreadId) (f : Thread → Thread) : (s.modThread t f).variant = s.variant := rfl
@[simp] theorem State.modThread_pending (s : State) (t : ThreadId) (f : Thread → Thread) : (s.modThread t f).pending = s.pending := rfl
@[simp] theorem State.modThread_counters (s : State) (t : ThreadId) (f : Thread → Thread) : (s.modThread t f).counters = s.counters := rfl
@[simp] theorem State.modThread_stewardRunning (s : State) (t : ThreadId) (f : Thread → Thread) : (s.modThread t f).stewardRunning = s.stewardRunning := rfl
@[simp] theorem State.modThread_deviceReady (s : State) (t : ThreadId) (f : Thread → Thread) : (s.modThread t f).deviceReady = s.deviceReady := rfl
@[simp] theorem State.modThread_serviceLevel (s : State) (t : ThreadId) (f : Thread → Thread) : (s.modThread t f).serviceLevel = s.serviceLevel := rfl
@[simp] theorem State.modThread_capsSequence (s : State) (t : ThreadId) (f : Thread → Thread) : (s.modThread t f).capsSequence = s.capsSequence := rfl
@[simp] theorem State.modThread_fp64Serving (s : State) (t : ThreadId) (f : Thread → Thread) : (s.modThread t f).fp64Serving = s.fp64Serving := rfl
@[simp] theorem State.modThread_laneRate (s : State) (t : ThreadId) (f : Thread → Thread) : (s.modThread t f).laneRate = s.laneRate := rfl
@[simp] theorem State.modThread_permittedRate (s : State) (t : ThreadId) (f : Thread → Thread) : (s.modThread t f).permittedRate = s.permittedRate := rfl
@[simp] theorem State.modThread_attnSeq (s : State) (t : ThreadId) (f : Thread → Thread) : (s.modThread t f).attnSeq = s.attnSeq := rfl
@[simp] theorem State.modThread_attnPending (s : State) (t : ThreadId) (f : Thread → Thread) : (s.modThread t f).attnPending = s.attnPending := rfl
@[simp] theorem State.modThread_attnLog (s : State) (t : ThreadId) (f : Thread → Thread) : (s.modThread t f).attnLog = s.attnLog := rfl
@[simp] theorem State.modThread_host (s : State) (t : ThreadId) (f : Thread → Thread) : (s.modThread t f).host = s.host := rfl
@[simp] theorem State.modThread_ctxs (s : State) (t : ThreadId) (f : Thread → Thread) : (s.modThread t f).ctxs = s.ctxs := rfl
@[simp] theorem State.modThread_launches (s : State) (t : ThreadId) (f : Thread → Thread) : (s.modThread t f).launches = s.launches := rfl
@[simp] theorem State.modThread_admitting (s : State) (t : ThreadId) (f : Thread → Thread) : (s.modThread t f).admitting = s.admitting := rfl
@[simp] theorem State.modThread_nextLaunch (s : State) (t : ThreadId) (f : Thread → Thread) : (s.modThread t f).nextLaunch = s.nextLaunch := rfl
@[simp] theorem State.modThread_nextOp (s : State) (t : ThreadId) (f : Thread → Thread) : (s.modThread t f).nextOp = s.nextOp := rfl
@[simp] theorem State.modThread_nextOrder (s : State) (t : ThreadId) (f : Thread → Thread) : (s.modThread t f).nextOrder = s.nextOrder := rfl
@[simp] theorem State.modThread_threads (s : State) (t : ThreadId) (f : Thread → Thread) : (s.modThread t f).threads = Map.put s.threads (threadKey t) (f (s.thread t)) := rfl
@[simp] theorem State.modThread_arrays (s : State) (t : ThreadId) (f : Thread → Thread) : (s.modThread t f).arrays = s.arrays := rfl
@[simp] theorem State.modThread_tags (s : State) (t : ThreadId) (f : Thread → Thread) : (s.modThread t f).tags = s.tags := rfl
@[simp] theorem State.modThread_memory (s : State) (t : ThreadId) (f : Thread → Thread) : (s.modThread t f).memory = s.memory := rfl
@[simp] theorem State.modThread_stashes (s : State) (t : ThreadId) (f : Thread → Thread) : (s.modThread t f).stashes = s.stashes := rfl
@[simp] theorem State.modThread_trains (s : State) (t : ThreadId) (f : Thread → Thread) : (s.modThread t f).trains = s.trains := rfl
@[simp] theorem State.modThread_guards (s : State) (t : ThreadId) (f : Thread → Thread) : (s.modThread t f).guards = s.guards := rfl
@[simp] theorem State.modThread_fabric (s : State) (t : ThreadId) (f : Thread → Thread) : (s.modThread t f).fabric = s.fabric := rfl
@[simp] theorem State.modThread_coll (s : State) (t : ThreadId) (f : Thread → Thread) : (s.modThread t f).coll = s.coll := rfl
@[simp] theorem State.modThread_twin (s : State) (t : ThreadId) (f : Thread → Thread) : (s.modThread t f).twin = s.twin := rfl
@[simp] theorem State.modThread_strongroom (s : State) (t : ThreadId) (f : Thread → Thread) : (s.modThread t f).strongroom = s.strongroom := rfl
@[simp] theorem State.modThread_lodge (s : State) (t : ThreadId) (f : Thread → Thread) : (s.modThread t f).lodge = s.lodge := rfl
@[simp] theorem State.modThread_freeIndex (s : State) (t : ThreadId) (f : Thread → Thread) : (s.modThread t f).freeIndex = s.freeIndex := rfl

@[simp] theorem State.modArray_variant (s : State) (a : Nat) (f : ArrayState → ArrayState) : (s.modArray a f).variant = s.variant := rfl
@[simp] theorem State.modArray_pending (s : State) (a : Nat) (f : ArrayState → ArrayState) : (s.modArray a f).pending = s.pending := rfl
@[simp] theorem State.modArray_counters (s : State) (a : Nat) (f : ArrayState → ArrayState) : (s.modArray a f).counters = s.counters := rfl
@[simp] theorem State.modArray_stewardRunning (s : State) (a : Nat) (f : ArrayState → ArrayState) : (s.modArray a f).stewardRunning = s.stewardRunning := rfl
@[simp] theorem State.modArray_deviceReady (s : State) (a : Nat) (f : ArrayState → ArrayState) : (s.modArray a f).deviceReady = s.deviceReady := rfl
@[simp] theorem State.modArray_serviceLevel (s : State) (a : Nat) (f : ArrayState → ArrayState) : (s.modArray a f).serviceLevel = s.serviceLevel := rfl
@[simp] theorem State.modArray_capsSequence (s : State) (a : Nat) (f : ArrayState → ArrayState) : (s.modArray a f).capsSequence = s.capsSequence := rfl
@[simp] theorem State.modArray_fp64Serving (s : State) (a : Nat) (f : ArrayState → ArrayState) : (s.modArray a f).fp64Serving = s.fp64Serving := rfl
@[simp] theorem State.modArray_laneRate (s : State) (a : Nat) (f : ArrayState → ArrayState) : (s.modArray a f).laneRate = s.laneRate := rfl
@[simp] theorem State.modArray_permittedRate (s : State) (a : Nat) (f : ArrayState → ArrayState) : (s.modArray a f).permittedRate = s.permittedRate := rfl
@[simp] theorem State.modArray_attnSeq (s : State) (a : Nat) (f : ArrayState → ArrayState) : (s.modArray a f).attnSeq = s.attnSeq := rfl
@[simp] theorem State.modArray_attnPending (s : State) (a : Nat) (f : ArrayState → ArrayState) : (s.modArray a f).attnPending = s.attnPending := rfl
@[simp] theorem State.modArray_attnLog (s : State) (a : Nat) (f : ArrayState → ArrayState) : (s.modArray a f).attnLog = s.attnLog := rfl
@[simp] theorem State.modArray_host (s : State) (a : Nat) (f : ArrayState → ArrayState) : (s.modArray a f).host = s.host := rfl
@[simp] theorem State.modArray_ctxs (s : State) (a : Nat) (f : ArrayState → ArrayState) : (s.modArray a f).ctxs = s.ctxs := rfl
@[simp] theorem State.modArray_launches (s : State) (a : Nat) (f : ArrayState → ArrayState) : (s.modArray a f).launches = s.launches := rfl
@[simp] theorem State.modArray_admitting (s : State) (a : Nat) (f : ArrayState → ArrayState) : (s.modArray a f).admitting = s.admitting := rfl
@[simp] theorem State.modArray_nextLaunch (s : State) (a : Nat) (f : ArrayState → ArrayState) : (s.modArray a f).nextLaunch = s.nextLaunch := rfl
@[simp] theorem State.modArray_nextOp (s : State) (a : Nat) (f : ArrayState → ArrayState) : (s.modArray a f).nextOp = s.nextOp := rfl
@[simp] theorem State.modArray_nextOrder (s : State) (a : Nat) (f : ArrayState → ArrayState) : (s.modArray a f).nextOrder = s.nextOrder := rfl
@[simp] theorem State.modArray_threads (s : State) (a : Nat) (f : ArrayState → ArrayState) : (s.modArray a f).threads = s.threads := rfl
@[simp] theorem State.modArray_arrays (s : State) (a : Nat) (f : ArrayState → ArrayState) : (s.modArray a f).arrays = modAt s.arrays a f := rfl
@[simp] theorem State.modArray_tags (s : State) (a : Nat) (f : ArrayState → ArrayState) : (s.modArray a f).tags = s.tags := rfl
@[simp] theorem State.modArray_memory (s : State) (a : Nat) (f : ArrayState → ArrayState) : (s.modArray a f).memory = s.memory := rfl
@[simp] theorem State.modArray_stashes (s : State) (a : Nat) (f : ArrayState → ArrayState) : (s.modArray a f).stashes = s.stashes := rfl
@[simp] theorem State.modArray_trains (s : State) (a : Nat) (f : ArrayState → ArrayState) : (s.modArray a f).trains = s.trains := rfl
@[simp] theorem State.modArray_guards (s : State) (a : Nat) (f : ArrayState → ArrayState) : (s.modArray a f).guards = s.guards := rfl
@[simp] theorem State.modArray_fabric (s : State) (a : Nat) (f : ArrayState → ArrayState) : (s.modArray a f).fabric = s.fabric := rfl
@[simp] theorem State.modArray_coll (s : State) (a : Nat) (f : ArrayState → ArrayState) : (s.modArray a f).coll = s.coll := rfl
@[simp] theorem State.modArray_twin (s : State) (a : Nat) (f : ArrayState → ArrayState) : (s.modArray a f).twin = s.twin := rfl
@[simp] theorem State.modArray_strongroom (s : State) (a : Nat) (f : ArrayState → ArrayState) : (s.modArray a f).strongroom = s.strongroom := rfl
@[simp] theorem State.modArray_lodge (s : State) (a : Nat) (f : ArrayState → ArrayState) : (s.modArray a f).lodge = s.lodge := rfl
@[simp] theorem State.modArray_freeIndex (s : State) (a : Nat) (f : ArrayState → ArrayState) : (s.modArray a f).freeIndex = s.freeIndex := rfl

@[simp] theorem State.modLaunch_variant (s : State) (l : Nat) (f : Launch → Launch) : (s.modLaunch l f).variant = s.variant := rfl
@[simp] theorem State.modLaunch_pending (s : State) (l : Nat) (f : Launch → Launch) : (s.modLaunch l f).pending = s.pending := rfl
@[simp] theorem State.modLaunch_counters (s : State) (l : Nat) (f : Launch → Launch) : (s.modLaunch l f).counters = s.counters := rfl
@[simp] theorem State.modLaunch_stewardRunning (s : State) (l : Nat) (f : Launch → Launch) : (s.modLaunch l f).stewardRunning = s.stewardRunning := rfl
@[simp] theorem State.modLaunch_deviceReady (s : State) (l : Nat) (f : Launch → Launch) : (s.modLaunch l f).deviceReady = s.deviceReady := rfl
@[simp] theorem State.modLaunch_serviceLevel (s : State) (l : Nat) (f : Launch → Launch) : (s.modLaunch l f).serviceLevel = s.serviceLevel := rfl
@[simp] theorem State.modLaunch_capsSequence (s : State) (l : Nat) (f : Launch → Launch) : (s.modLaunch l f).capsSequence = s.capsSequence := rfl
@[simp] theorem State.modLaunch_fp64Serving (s : State) (l : Nat) (f : Launch → Launch) : (s.modLaunch l f).fp64Serving = s.fp64Serving := rfl
@[simp] theorem State.modLaunch_laneRate (s : State) (l : Nat) (f : Launch → Launch) : (s.modLaunch l f).laneRate = s.laneRate := rfl
@[simp] theorem State.modLaunch_permittedRate (s : State) (l : Nat) (f : Launch → Launch) : (s.modLaunch l f).permittedRate = s.permittedRate := rfl
@[simp] theorem State.modLaunch_attnSeq (s : State) (l : Nat) (f : Launch → Launch) : (s.modLaunch l f).attnSeq = s.attnSeq := rfl
@[simp] theorem State.modLaunch_attnPending (s : State) (l : Nat) (f : Launch → Launch) : (s.modLaunch l f).attnPending = s.attnPending := rfl
@[simp] theorem State.modLaunch_attnLog (s : State) (l : Nat) (f : Launch → Launch) : (s.modLaunch l f).attnLog = s.attnLog := rfl
@[simp] theorem State.modLaunch_host (s : State) (l : Nat) (f : Launch → Launch) : (s.modLaunch l f).host = s.host := rfl
@[simp] theorem State.modLaunch_ctxs (s : State) (l : Nat) (f : Launch → Launch) : (s.modLaunch l f).ctxs = s.ctxs := rfl
@[simp] theorem State.modLaunch_launches (s : State) (l : Nat) (f : Launch → Launch) : (s.modLaunch l f).launches = Map.modify s.launches l f := rfl
@[simp] theorem State.modLaunch_admitting (s : State) (l : Nat) (f : Launch → Launch) : (s.modLaunch l f).admitting = s.admitting := rfl
@[simp] theorem State.modLaunch_nextLaunch (s : State) (l : Nat) (f : Launch → Launch) : (s.modLaunch l f).nextLaunch = s.nextLaunch := rfl
@[simp] theorem State.modLaunch_nextOp (s : State) (l : Nat) (f : Launch → Launch) : (s.modLaunch l f).nextOp = s.nextOp := rfl
@[simp] theorem State.modLaunch_nextOrder (s : State) (l : Nat) (f : Launch → Launch) : (s.modLaunch l f).nextOrder = s.nextOrder := rfl
@[simp] theorem State.modLaunch_threads (s : State) (l : Nat) (f : Launch → Launch) : (s.modLaunch l f).threads = s.threads := rfl
@[simp] theorem State.modLaunch_arrays (s : State) (l : Nat) (f : Launch → Launch) : (s.modLaunch l f).arrays = s.arrays := rfl
@[simp] theorem State.modLaunch_tags (s : State) (l : Nat) (f : Launch → Launch) : (s.modLaunch l f).tags = s.tags := rfl
@[simp] theorem State.modLaunch_memory (s : State) (l : Nat) (f : Launch → Launch) : (s.modLaunch l f).memory = s.memory := rfl
@[simp] theorem State.modLaunch_stashes (s : State) (l : Nat) (f : Launch → Launch) : (s.modLaunch l f).stashes = s.stashes := rfl
@[simp] theorem State.modLaunch_trains (s : State) (l : Nat) (f : Launch → Launch) : (s.modLaunch l f).trains = s.trains := rfl
@[simp] theorem State.modLaunch_guards (s : State) (l : Nat) (f : Launch → Launch) : (s.modLaunch l f).guards = s.guards := rfl
@[simp] theorem State.modLaunch_fabric (s : State) (l : Nat) (f : Launch → Launch) : (s.modLaunch l f).fabric = s.fabric := rfl
@[simp] theorem State.modLaunch_coll (s : State) (l : Nat) (f : Launch → Launch) : (s.modLaunch l f).coll = s.coll := rfl
@[simp] theorem State.modLaunch_twin (s : State) (l : Nat) (f : Launch → Launch) : (s.modLaunch l f).twin = s.twin := rfl
@[simp] theorem State.modLaunch_strongroom (s : State) (l : Nat) (f : Launch → Launch) : (s.modLaunch l f).strongroom = s.strongroom := rfl
@[simp] theorem State.modLaunch_lodge (s : State) (l : Nat) (f : Launch → Launch) : (s.modLaunch l f).lodge = s.lodge := rfl
@[simp] theorem State.modLaunch_freeIndex (s : State) (l : Nat) (f : Launch → Launch) : (s.modLaunch l f).freeIndex = s.freeIndex := rfl

@[simp] theorem State.free_variant (s : State) (n : Nat) : (s.free n).2.variant = s.variant := rfl
@[simp] theorem State.free_pending (s : State) (n : Nat) : (s.free n).2.pending = s.pending := rfl
@[simp] theorem State.free_counters (s : State) (n : Nat) : (s.free n).2.counters = s.counters := rfl
@[simp] theorem State.free_stewardRunning (s : State) (n : Nat) : (s.free n).2.stewardRunning = s.stewardRunning := rfl
@[simp] theorem State.free_deviceReady (s : State) (n : Nat) : (s.free n).2.deviceReady = s.deviceReady := rfl
@[simp] theorem State.free_serviceLevel (s : State) (n : Nat) : (s.free n).2.serviceLevel = s.serviceLevel := rfl
@[simp] theorem State.free_capsSequence (s : State) (n : Nat) : (s.free n).2.capsSequence = s.capsSequence := rfl
@[simp] theorem State.free_fp64Serving (s : State) (n : Nat) : (s.free n).2.fp64Serving = s.fp64Serving := rfl
@[simp] theorem State.free_laneRate (s : State) (n : Nat) : (s.free n).2.laneRate = s.laneRate := rfl
@[simp] theorem State.free_permittedRate (s : State) (n : Nat) : (s.free n).2.permittedRate = s.permittedRate := rfl
@[simp] theorem State.free_attnSeq (s : State) (n : Nat) : (s.free n).2.attnSeq = s.attnSeq := rfl
@[simp] theorem State.free_attnPending (s : State) (n : Nat) : (s.free n).2.attnPending = s.attnPending := rfl
@[simp] theorem State.free_attnLog (s : State) (n : Nat) : (s.free n).2.attnLog = s.attnLog := rfl
@[simp] theorem State.free_host (s : State) (n : Nat) : (s.free n).2.host = s.host := rfl
@[simp] theorem State.free_ctxs (s : State) (n : Nat) : (s.free n).2.ctxs = s.ctxs := rfl
@[simp] theorem State.free_launches (s : State) (n : Nat) : (s.free n).2.launches = s.launches := rfl
@[simp] theorem State.free_admitting (s : State) (n : Nat) : (s.free n).2.admitting = s.admitting := rfl
@[simp] theorem State.free_nextLaunch (s : State) (n : Nat) : (s.free n).2.nextLaunch = s.nextLaunch := rfl
@[simp] theorem State.free_nextOp (s : State) (n : Nat) : (s.free n).2.nextOp = s.nextOp := rfl
@[simp] theorem State.free_nextOrder (s : State) (n : Nat) : (s.free n).2.nextOrder = s.nextOrder := rfl
@[simp] theorem State.free_threads (s : State) (n : Nat) : (s.free n).2.threads = s.threads := rfl
@[simp] theorem State.free_arrays (s : State) (n : Nat) : (s.free n).2.arrays = s.arrays := rfl
@[simp] theorem State.free_tags (s : State) (n : Nat) : (s.free n).2.tags = s.tags := rfl
@[simp] theorem State.free_memory (s : State) (n : Nat) : (s.free n).2.memory = s.memory := rfl
@[simp] theorem State.free_stashes (s : State) (n : Nat) : (s.free n).2.stashes = s.stashes := rfl
@[simp] theorem State.free_trains (s : State) (n : Nat) : (s.free n).2.trains = s.trains := rfl
@[simp] theorem State.free_guards (s : State) (n : Nat) : (s.free n).2.guards = s.guards := rfl
@[simp] theorem State.free_fabric (s : State) (n : Nat) : (s.free n).2.fabric = s.fabric := rfl
@[simp] theorem State.free_coll (s : State) (n : Nat) : (s.free n).2.coll = s.coll := rfl
@[simp] theorem State.free_twin (s : State) (n : Nat) : (s.free n).2.twin = s.twin := rfl
@[simp] theorem State.free_strongroom (s : State) (n : Nat) : (s.free n).2.strongroom = s.strongroom := rfl
@[simp] theorem State.free_lodge (s : State) (n : Nat) : (s.free n).2.lodge = s.lodge := rfl
@[simp] theorem State.free_freeIndex (s : State) (n : Nat) : (s.free n).2.freeIndex = s.freeIndex + n := rfl

/-- The thread written. -/
@[simp] theorem State.setThread_thread (s : State) (t : ThreadId) (x : Thread) : (s.setThread t x).thread t = x := by
  simp [State.thread]

/-- The keys of threads on arrays of the module are their own. -/
theorem threadKey_inj {t v : ThreadId} (ht : t.array < 64) (hv : v.array < 64) (h : threadKey v = threadKey t) : v = t := by
  obtain ⟨a, i⟩ := t
  obtain ⟨b, j⟩ := v
  simp only [threadKey] at h ht hv
  simp only [ThreadId.mk.injEq]
  omega

/-- Writing one thread leaves the others. -/
theorem State.setThread_other (s : State) {t v : ThreadId} (x : Thread) (ht : t.array < 64) (hv : v.array < 64)
    (h : v ≠ t) : (s.setThread t x).thread v = s.thread v := by
  simp only [State.thread, State.setThread_threads]
  exact Map.getD_put_other _ _ _ _ _ fun e => h (threadKey_inj ht hv e)

/-- Changing a thread is writing what it becomes. -/
theorem State.modThread_eq (s : State) (t : ThreadId) (f : Thread → Thread) :
    s.modThread t f = s.setThread t (f (s.thread t)) := rfl

/-- Writing a thread twice keeps the last. -/
@[simp] theorem State.setThread_setThread (s : State) (t : ThreadId) (x y : Thread) :
    (s.setThread t x).setThread t y = s.setThread t y := by
  have h : ∀ (m : Map Thread) (k : Nat), Map.put (Map.put m k x) k y = Map.put m k y := by
    intro m k
    induction m with
    | nil => simp [Map.put]
    | cons e m ih =>
      obtain ⟨i, w⟩ := e
      simp only [Map.put]
      split
      · simp [Map.put]
      · split
        · simp [Map.put]
        · simp only [Map.put, ih]
          rw [if_neg ‹_›, if_neg ‹_›]
  simp only [State.setThread, h]

/-- The context written. -/
@[simp] theorem State.modCtx_ctx (s : State) (c : Nat) (f : Ctx → Ctx) : (s.modCtx c f).ctx c = f (s.ctx c) := by
  simp [State.ctx]

/-- Writing one context leaves the others. -/
theorem State.modCtx_other (s : State) {c d : Nat} (f : Ctx → Ctx) (h : d ≠ c) : (s.modCtx c f).ctx d = s.ctx d := by
  simp only [State.ctx, State.modCtx_ctxs]
  exact Map.getD_put_other _ _ _ _ _ h

end Sys2Proof.Machine
end

