-- ==== Sys2Proof/Laws/Ops.lean ====
section
/-! SUPPORT. What the shared operations can do, said once: counting, entries of the Catalogue, attention and fault
records change counters, attention, the Lodge's own records and the index of free values, and nothing else. -/

namespace Sys2Proof.Machine

/-- A state with what records change taken out: counters, attention, free values, and the Lodge's Catalogue, fault
records, health events and trace. -/
def State.kept (s : State) : State :=
  { s with
    counters := [], attnSeq := 0, attnPending := [], attnLog := [], freeIndex := 0
    lodge := { s.lodge with
      catalogue := [], nextAccession := 0, nearFullRaised := false, faults := [], nextFault := 0, events := []
      lastEventTime := 0, trace := {} } }

/-- Marking a class pending is a record. -/
@[simp] theorem State.mark_kept (s : State) (cls level acc detail : Nat) : (s.mark cls level acc detail).kept = s.kept := by
  rfl

/-- Drawing values for an entry is a record. -/
@[simp] theorem State.openValues_kept (s : State) (e : CatEntry) : (s.openValues e).2.kept = s.kept := by
  unfold State.openValues
  split <;> rfl

/-- A change of the Lodge's Catalogue and its counts is a record. -/
theorem State.modLodge_kept (s : State) (f : Lodge → Lodge)
    (h : ∀ l, { f l with catalogue := [], nextAccession := 0, nearFullRaised := false, faults := [], nextFault := 0,
                         events := [], lastEventTime := 0, trace := {} } =
      { l with catalogue := [], nextAccession := 0, nearFullRaised := false, faults := [], nextFault := 0,
               events := [], lastEventTime := 0, trace := {} }) : (s.modLodge f).kept = s.kept := by
  simp only [State.kept, State.modLodge, h]

/-- An entry of the Catalogue is a record. -/
@[simp] theorem State.catalogue_kept (s : State) (e : CatEntry) : (s.catalogue e).kept = s.kept := by
  have two : ∀ (c : Bool) (a b r : State), a.kept = r.kept → b.kept = r.kept → (if c then a else b).kept = r.kept := by
    intro c a b r ha hb
    split <;> assumption
  have h := s.openValues_kept e
  unfold State.catalogue
  generalize s.openValues e = p at h ⊢
  obtain ⟨e1, s1⟩ := p
  rw [← h]
  refine two _ _ _ _ ?_ ?_
  · rw [State.mark_kept, State.modLodge_kept, State.modLodge_kept] <;> exact fun _ => rfl
  · rw [State.modLodge_kept] <;> exact fun _ => rfl

/-- Raising attention is a record. -/
@[simp] theorem State.raise_kept (s : State) (cls level : Nat) (e : CatEntry) (detail : Nat) :
    (s.raise cls level e detail).kept = s.kept := by
  simp only [State.raise, State.mark_kept, State.catalogue_kept]

/-- Counting is a record. -/
@[simp] theorem State.count_kept (s : State) (c : CtrId) (inst n : Nat) : (s.count c inst n).kept = s.kept := by
  unfold State.count
  split
  · rfl
  · simp only
    split
    · rfl
    · split
      · rfl
      · rw [State.raise_kept]; rfl

/-- Counting a free number is a record. -/
@[simp] theorem State.countFree_kept (s : State) (c : CtrId) (inst : Nat) : (s.countFree c inst).kept = s.kept := by
  simp only [State.countFree, State.count_kept]; rfl

/-- A health event is a record. -/
@[simp] theorem State.healthEvent_kept (s : State) (cls : Nat) : (s.healthEvent cls).kept = s.kept :=
  State.modLodge_kept _ _ fun _ => rfl

/-- A fault record is a record. -/
@[simp] theorem State.fault_kept (s : State) (cause unit index domain ctx : Nat) (address : Word) (detail : Nat) :
    (s.fault cause unit index domain ctx address detail).kept = s.kept := by
  unfold State.fault
  simp only
  split
  · rw [State.healthEvent_kept, State.modLodge_kept, State.raise_kept] <;> exact fun _ => rfl
  · rw [State.modLodge_kept, State.raise_kept] <;> exact fun _ => rfl

/-- A trace record is a record. -/
@[simp] theorem State.trace_kept (s : State) (source unit ctx : Nat) (data : Bytes) :
    (s.trace source unit ctx data).kept = s.kept := by
  unfold State.trace
  split
  · exact State.modLodge_kept _ _ fun _ => rfl
  · rfl

/-- What two states that differ in records alone have in common. -/
theorem State.kept_fields {s u : State} (h : u.kept = s.kept) :
    u.threads = s.threads ∧ u.ctxs = s.ctxs ∧ u.launches = s.launches ∧ u.arrays = s.arrays ∧ u.tags = s.tags
      ∧ u.memory = s.memory ∧ u.stashes = s.stashes ∧ u.trains = s.trains ∧ u.guards = s.guards ∧ u.host = s.host
      ∧ u.fabric = s.fabric ∧ u.coll = s.coll ∧ u.twin = s.twin ∧ u.strongroom = s.strongroom
      ∧ u.lodge.deviceId = s.lodge.deviceId ∧ u.lodge.time16 = s.lodge.time16 :=
  ⟨(congrArg State.threads h :), (congrArg State.ctxs h :), (congrArg State.launches h :), (congrArg State.arrays h :),
    (congrArg State.tags h :), (congrArg State.memory h :), (congrArg State.stashes h :), (congrArg State.trains h :),
    (congrArg State.guards h :), (congrArg State.host h :), (congrArg State.fabric h :), (congrArg State.coll h :),
    (congrArg State.twin h :), (congrArg State.strongroom h :), (congrArg (fun x : State => x.lodge.deviceId) h :),
    (congrArg (fun x : State => x.lodge.time16) h :)⟩

@[simp] theorem State.count_thread (s : State) (c : CtrId) (inst n : Nat) (t : ThreadId) :
    (s.count c inst n).thread t = s.thread t := by
  simp only [State.thread, (State.kept_fields (s.count_kept c inst n)).1]
@[simp] theorem State.count_ctx (s : State) (c : CtrId) (inst n d : Nat) : (s.count c inst n).ctx d = s.ctx d := by
  simp only [State.ctx, (State.kept_fields (s.count_kept c inst n)).2.1]
@[simp] theorem State.count_memory (s : State) (c : CtrId) (inst n : Nat) : (s.count c inst n).memory = s.memory :=
  (congrArg State.memory (s.count_kept c inst n) :)
@[simp] theorem State.count_deviceId (s : State) (c : CtrId) (inst n : Nat) :
    (s.count c inst n).lodge.deviceId = s.lodge.deviceId := 
  (congrArg (fun x : State => x.lodge.deviceId) (s.count_kept c inst n) :)
@[simp] theorem State.count_now (s : State) (c : CtrId) (inst n : Nat) : (s.count c inst n).now = s.now := 
  (congrArg (fun x : State => x.lodge.time16 / 65536) (s.count_kept c inst n) :)

/-- A count below saturation adds to its counter (R391). -/
theorem State.count_counter (s : State) (c : CtrId) (inst n : Nat) (h : (s.counter c inst).value + n ≤ ctrMax) :
    ((s.count c inst n).counter c inst).value = (s.counter c inst).value + n := by
  unfold State.count
  split
  · subst_vars; rfl
  · simp only [State.counter] at h ⊢
    rw [if_pos h]
    simp

/-- An entry of the Catalogue counts nothing. -/
@[simp] theorem State.catalogue_counters (s : State) (e : CatEntry) : (s.catalogue e).counters = s.counters := by
  have two : ∀ (c : Bool) (a b r : State), a.counters = r.counters → b.counters = r.counters →
      (if c then a else b).counters = r.counters := by
    intro c a b r ha hb
    split <;> assumption
  have h : (s.openValues e).2.counters = s.counters := by
    unfold State.openValues
    split <;> rfl
  unfold State.catalogue
  generalize s.openValues e = p at h ⊢
  obtain ⟨e1, s1⟩ := p
  rw [← h]
  exact two _ _ _ _ rfl rfl

/-- Raising attention counts nothing. -/
@[simp] theorem State.raise_counters (s : State) (cls level : Nat) (e : CatEntry) (detail : Nat) :
    (s.raise cls level e detail).counters = s.counters := s.catalogue_counters _

/-- Counting keeps every counter within its 48 bits (R391). -/
theorem State.count_bound (s : State) (c : CtrId) (inst n : Nat) (h : ∀ e ∈ s.counters, e.2.value ≤ ctrMax) :
    ∀ e ∈ (s.count c inst n).counters, e.2.value ≤ ctrMax := by
  unfold State.count
  split
  · exact h
  · simp only
    split
    · rename_i hv
      intro e he
      rcases Map.mem_put he with he | rfl
      · exact h e he
      · exact hv
    · split
      · intro e he
        rcases Map.mem_put he with he | rfl
        · exact h e he
        · exact Nat.le_refl _
      · rw [State.raise_counters]
        intro e he
        rcases Map.mem_put he with he | rfl
        · exact h e he
        · exact Nat.le_refl _

end Sys2Proof.Machine
end

