-- ==== Sys2Proof/Laws/Memory.lean ====
section
/-! SUPPORT. What reads and writes of the local memory can do: a touch changes no byte, a store changes the bytes it
names and no other, and clean memory gives a read nothing to report. -/

namespace Sys2Proof.Machine

/-- A fold of changes that each keep a field keeps it. -/
theorem foldl_keeps {α β : Type} (g : State → β) (f : State → α → State) (h : ∀ s a, g (f s a) = g s) (l : List α)
    (s : State) : g (l.foldl f s) = g s := by
  induction l generalizing s with
  | nil => rfl
  | cons a l ih => rw [List.foldl_cons, ih, h]

/-- A granule's record is not a byte. -/
@[simp] theorem State.modGranule_bytes (s : State) (g : Nat) (f : Granule → Granule) :
    (s.modGranule g f).memory.bytes = s.memory.bytes := rfl

/-- A state with its placement records, and what records of events change, taken out. -/
def State.unplaced (s : State) : State :=
  { s.kept with memory := { s.memory with granules := [] } }

/-- A change of a granule's record changes placement alone. -/
@[simp] theorem State.modGranule_unplaced (s : State) (g : Nat) (f : Granule → Granule) :
    (s.modGranule g f).unplaced = s.unplaced := rfl

/-- A touch changes placement alone (R222). -/
@[simp] theorem State.touch_unplaced (s : State) (a n : Nat) : (s.touch a n).unplaced = s.unplaced := by
  unfold State.touch
  exact foldl_keeps State.unplaced _ (by intro _ _; rfl) _ _

@[simp] theorem State.touch_bytes (s : State) (a n : Nat) : (s.touch a n).memory.bytes = s.memory.bytes :=
  (congrArg (fun x : State => x.memory.bytes) (s.touch_unplaced a n) :)
@[simp] theorem State.touch_threads (s : State) (a n : Nat) : (s.touch a n).threads = s.threads :=
  (congrArg State.threads (s.touch_unplaced a n) :)
@[simp] theorem State.touch_thread (s : State) (a n : Nat) (t : ThreadId) : (s.touch a n).thread t = s.thread t := by
  simp only [State.thread, State.touch_threads]
@[simp] theorem State.touch_bytesAt (s : State) (a n b m : Nat) : (s.touch a n).bytesAt b m = s.bytesAt b m := by
  simp only [State.bytesAt, State.touch_bytes]

/-- A state with what a write may change beside its bytes taken out: the copies of a checkpoint stream, placement,
errors, lost lines, stale provenance, the parts that wait for a repair, and records. -/
def State.unwritten (s : State) : State :=
  { s.kept with
    twin := { s.twin with stream := none }
    memory := { s.memory with granules := [], bytes := [], staging := [], provenance := [], lost := [], lostPages := []
                              eccErrors := [], cellarErrors := [], deferred := [] } }

/-- A record is not one of the fields that a write leaves. -/
theorem State.unwritten_of_kept {s u : State} (h : u.kept = s.kept) : u.unwritten = s.unwritten := by
  have hm : u.memory = s.memory := (congrArg State.memory h :)
  have ht : u.twin = s.twin := (congrArg State.twin h :)
  simp only [State.unwritten, h, hm, ht]

/-- A write that meets no repair leaves everything but its bytes and what goes with it (R215, R222, R240, R244, R403). -/
theorem State.storeNow_unwritten (s : State) (a : Nat) (bs : Bytes) : (s.storeNow a bs).unwritten = s.unwritten := by
  have h1 : ∀ (s : State) (n : Nat), (s.copyOnWrite a n).unwritten = s.unwritten := by
    intro s n
    unfold State.copyOnWrite
    split
    · rfl
    · refine foldl_keeps State.unwritten _ ?_ _ _
      intro s i
      simp only
      split
      · rw [State.unwritten_of_kept (State.count_kept _ _ _ _)]; rfl
      · rfl
  have h2 : ∀ (s : State) (n : Nat), (s.staleProvenance a n).unwritten = s.unwritten := by
    intro s n
    unfold State.staleProvenance
    rw [State.unwritten_of_kept (State.count_kept _ _ _ _)]; rfl
  have h3 : ∀ (s : State) (n : Nat), (s.clearLost a n).unwritten = s.unwritten := by
    intro s n
    unfold State.clearLost
    simp only
    split <;> rfl
  have h4 : ∀ (s : State) (n : Nat), (s.clearErrors a n).unwritten = s.unwritten := by
    intro s n
    unfold State.clearErrors
    refine foldl_keeps State.unwritten _ ?_ _ _
    intro s l
    split <;> rfl
  have h5 : ∀ (s : State) (n : Nat), (s.touch a n).unwritten = s.unwritten := by
    intro s n
    unfold State.touch
    exact foldl_keeps State.unwritten _ (by intro _ _; rfl) _ _
  have h6 : ∀ (s : State) (l : List Nat) (f : State → Nat → State), (∀ s i, (f s i).unwritten = s.unwritten) →
      (l.foldl f s).unwritten = s.unwritten := fun s l f h => foldl_keeps State.unwritten f h l s
  unfold State.storeNow
  simp only
  rw [show ∀ x : State, (x.setBytes a bs).unwritten = x.unwritten from fun _ => rfl, h6, h5, h4, h3, h2, h1]
  intro _ _; rfl

/-- A write that meets no repair writes its bytes (R126). -/
theorem State.storeNow_bytes (s : State) (a : Nat) (bs : Bytes) :
    (s.storeNow a bs).memory.bytes = cellsWrite s.memory.bytes a bs := by
  have count : ∀ (s : State) (c : CtrId) (i n : Nat), (s.count c i n).memory.bytes = s.memory.bytes := by
    intro s c i n; simp
  have h1 : ∀ (s : State) (n : Nat), (s.copyOnWrite a n).memory.bytes = s.memory.bytes := by
    intro s n
    unfold State.copyOnWrite
    split
    · rfl
    · refine foldl_keeps (fun s : State => s.memory.bytes) _ ?_ _ _
      intro s i
      simp only
      split
      · rw [count]; rfl
      · rfl
  have h2 : ∀ (s : State) (n : Nat), (s.staleProvenance a n).memory.bytes = s.memory.bytes := by
    intro s n
    unfold State.staleProvenance
    rw [count]; rfl
  have h3 : ∀ (s : State) (n : Nat), (s.clearLost a n).memory.bytes = s.memory.bytes := by
    intro s n
    unfold State.clearLost
    simp only
    split <;> rfl
  have h4 : ∀ (s : State) (n : Nat), (s.clearErrors a n).memory.bytes = s.memory.bytes := by
    intro s n
    unfold State.clearErrors
    refine foldl_keeps (fun s : State => s.memory.bytes) _ ?_ _ _
    intro s l
    split <;> rfl
  have h6 : ∀ (s : State) (l : List Nat) (f : State → Nat → State), (∀ s i, (f s i).memory.bytes = s.memory.bytes) →
      (l.foldl f s).memory.bytes = s.memory.bytes := fun s l f h => foldl_keeps (fun s : State => s.memory.bytes) f h l s
  unfold State.storeNow
  simp only
  rw [show ∀ x : State, (x.setBytes a bs).memory.bytes = cellsWrite x.memory.bytes a bs from fun _ => rfl,
    h6, State.touch_bytes, h4, h3, h2, h1]
  intro _ _; rfl

/-- A store either writes its bytes at once, or, where lines of it are under repair, runs line by line (R243). -/
theorem State.store_settled (s : State) (a : Nat) (bs : Bytes) (h : s.memory.repairing = []) :
    s.store a bs = s.storeNow a bs := by
  unfold State.store
  rw [if_pos (by simp [h])]

/-- A fold of changes that each keep a property keeps it. -/
theorem foldl_inv {α β : Type} (P : α → Prop) (f : α → β → α) (h : ∀ x b, P x → P (f x b)) (l : List β) (x : α)
    (hx : P x) : P (l.foldl f x) := by
  induction l generalizing x with
  | nil => exact hx
  | cons b l ih => exact ih _ (h x b hx)

/-- What every part of a store keeps, the store keeps: a property that the writes inside its range keep, and the queueing
of a part that waits. -/
theorem State.store_inv (P : State → Prop) (s : State) (a : Nat) (bs : Bytes)
    (hd : ∀ (s : State) (w : LateWrite), P s → P (s.modMem fun m => { m with deferred := m.deferred ++ [w] }))
    (hs : ∀ (s : State) (b : Nat) (part : Bytes), a ≤ b → (part = [] ∨ b + part.length ≤ a + bs.length) → P s →
      P (s.storeNow b part)) (h : P s) : P (s.store a bs) := by
  unfold State.store
  split
  · exact hs s a bs (Nat.le_refl a) (.inr (Nat.le_refl _)) h
  · refine foldl_inv P _ ?_ _ s h
    intro s l hP
    simp only
    split
    · exact hd s _ hP
    · refine hs s _ _ (Nat.le_max_left _ _) ?_ hP
      by_cases he : bs.drop (max a (l * lineBytes) - a) = []
      · exact .inl (by simp [he])
      · right
        have hl : max a (l * lineBytes) - a < bs.length := by
          by_contra hn
          exact he (List.drop_eq_nil_of_le (by omega))
        simp only [List.length_take, List.length_drop]
        omega

/-- A store leaves everything but its bytes and what goes with a write (R215, R222, R240, R243, R244, R403). -/
theorem State.store_unwritten (s : State) (a : Nat) (bs : Bytes) : (s.store a bs).unwritten = s.unwritten :=
  State.store_inv (fun x => x.unwritten = s.unwritten) s a bs (fun _ _ h => h)
    (fun x b part _ _ h => (x.storeNow_unwritten b part).trans h) rfl

/-- A store that meets no repair writes its bytes (R126). -/
theorem State.store_bytes (s : State) (a : Nat) (bs : Bytes) (h : s.memory.repairing = []) :
    (s.store a bs).memory.bytes = cellsWrite s.memory.bytes a bs := by
  rw [s.store_settled a bs h, State.storeNow_bytes]

/-- What a store leaves: threads, contexts, launches and every unit but memory, the Party Wall and the records. -/
theorem State.store_fields (s : State) (a : Nat) (bs : Bytes) :
    (s.store a bs).threads = s.threads ∧ (s.store a bs).ctxs = s.ctxs ∧ (s.store a bs).launches = s.launches ∧
      (s.store a bs).host = s.host ∧ (s.store a bs).fabric = s.fabric ∧ (s.store a bs).coll = s.coll ∧
      (s.store a bs).arrays = s.arrays ∧ (s.store a bs).lodge.deviceId = s.lodge.deviceId ∧
      (s.store a bs).lodge.time16 = s.lodge.time16 := by
  have h := s.store_unwritten a bs
  exact ⟨(congrArg State.threads h :), (congrArg State.ctxs h :), (congrArg State.launches h :),
    (congrArg State.host h :), (congrArg State.fabric h :), (congrArg State.coll h :), (congrArg State.arrays h :),
    (congrArg (fun x : State => x.lodge.deviceId) h :), (congrArg (fun x : State => x.lodge.time16) h :)⟩

@[simp] theorem State.store_thread (s : State) (a : Nat) (bs : Bytes) (t : ThreadId) :
    (s.store a bs).thread t = s.thread t := by simp only [State.thread, (s.store_fields a bs).1]

/-- Read after write: a store's bytes, where no line is under repair. -/
theorem State.store_bytesAt (s : State) (a : Nat) (bs : Bytes) (h : s.memory.repairing = []) :
    (s.store a bs).bytesAt a bs.length = bs := by
  simp only [State.bytesAt, s.store_bytes a bs h, cellsRead_cellsWrite]

/-- A store leaves every byte outside it. -/
theorem State.store_outside (s : State) (a : Nat) (bs : Bytes) (b : Nat) (h : b < a ∨ a + bs.length ≤ b) :
    cellRead (s.store a bs).memory.bytes b = cellRead s.memory.bytes b := by
  refine State.store_inv (fun x => cellRead x.memory.bytes b = cellRead s.memory.bytes b) s a bs (fun _ _ h => h) ?_ rfl
  intro x c part hc hp hx
  rw [State.storeNow_bytes, cellRead_cellsWrite_outside _ _ _ _ ?_, hx]
  rcases hp with rfl | hp
  · simp only [List.length_nil]; omega
  · omega

/-- The replaced bytes of a range keep the canonical form. -/
theorem State.setBytes_wf (s : State) (a : Nat) (bs : Bytes) (h : s.memory.wf = true) :
    (s.setBytes a bs).memory.wf = true := cellsWf_cellsWrite _ _ _ h

/-- A zeroed page keeps the canonical form (R217, R220). -/
theorem Memory.wf_zero (m : Memory) (a n : Nat) (h : m.wf = true) :
    { m with bytes := cellsZero m.bytes a n }.wf = true := cellsWf_cellsZero _ _ _ h

/-- A store keeps the canonical form. -/
theorem State.store_wf (s : State) (a : Nat) (bs : Bytes) (h : s.memory.wf = true) : (s.store a bs).memory.wf = true :=
  State.store_inv (fun x => x.memory.wf = true) s a bs (fun _ _ h => h)
    (fun x b part _ _ hx => by rw [Memory.wf, State.storeNow_bytes]; exact cellsWf_cellsWrite _ _ _ hx) h

/-- The reset memory has the canonical form. -/
theorem State.reset_wf : State.reset.memory.wf = true := rfl

/-- A read of memory without errors finds nothing (R233). -/
theorem State.checkRead_clean (s : State) (a n : Nat) (h1 : s.memory.eccErrors = []) (h2 : s.memory.cellarErrors = []) :
    s.checkRead a n = s := by
  unfold State.checkRead State.suspectLines
  rw [if_pos (by simp [h1, h2])]
  rfl

end Sys2Proof.Machine
end

