-- ==== Sys2Proof/Tests/Slice0.lean ====
section
/-! SUPPORT. Tests: what WellFormed refuses, instruction words that decode, the spec's worked examples, and for the
statements a state and operands that meet their hypotheses. -/

namespace Sys2Proof.Tests

open Sys2Proof Sys2Proof.Machine

set_option Elab.async false


/-! ### What WellFormed refuses -/

/-- A command packet with no parameters, on a ring. -/
def hdr (ring : Nat) (ctx len : Nat) (session : Nat := 0) : CmdHeader :=
  { ring, session, ctxId := BitVec.ofNat 16 ctx, ringId := BitVec.ofNat 16 ring, paramLength := BitVec.ofNat 16 len }

/-- A packet from module 2 to module 1. -/
def pkt : Packet :=
  { vc := 0, length := 0, srcDevice := 2, dstDevice := 1, srcIncarnation := 1, dstIncarnation := 1, ctxId := 1
    ctxGeneration := 1, address := 0, tag := 1 }

theorem test_wf_refuses_thread :
    Instr.WellFormed (.add ⟨64, 0⟩ {}) = false ∧ Instr.WellFormed (.mma ⟨0, 64⟩ {}) = false ∧
      Instr.WellFormed (.add ⟨63, 63⟩ {}) = true := by decide +kernel
theorem test_wf_refuses_header :
    Instr.WellFormed (.nop (hdr 65536 0 0) []) = false ∧ Instr.WellFormed (.nop (hdr 0 0 1) []) = false ∧
      Instr.WellFormed (.nop (hdr 65535 0 0) []) = true := by decide +kernel
theorem test_wf_refuses_packet_fields :
    ∀ k ∈ [{ pkt with vc := 8 }, { pkt with length := 65536 }, { pkt with srcDevice := 65536 },
      { pkt with dstDevice := 65536 }, { pkt with srcIncarnation := 65536 }, { pkt with dstIncarnation := 65536 },
      { pkt with ctxId := 65536 }, { pkt with ctxGeneration := 65536 }, { pkt with tag := 2 ^ 32 },
      { pkt with hops := 16 }, { pkt with operation := 256 }, { pkt with status := 65536 }],
      Instr.WellFormed (.readReq 0 k) = false := by decide +kernel
theorem test_wf_refuses_long_payload (bs : Bytes) (h : 4096 < bs.length) :
    Instr.WellFormed (.writeReq 0 { pkt with payload := bs }) = false := by
  simp [Instr.WellFormed, Packet.wf, Nat.not_le.mpr h]
theorem test_wf_refuses_numbers :
    ∀ c ∈ [Instr.doorbell 65536 8 0, .doorbell 0 9 0, .registerWrite 16777216 8 0, .registerWrite 0 3 0,
      .commandTake 65536 .error, .ringDrainComplete 65536, .passDrain 64, .tagUnitBind 0 0 16 0,
      .tagRecordWrite 0 16384 0, .contextReadmission 16384, .atticSelfRefreshEntry 8, .signalDetected 6 4,
      .signalDetected 0 17, .dataFlitRx 0 { seq := 1024 }, .dataFlitRx 0 { seq := 0, ackSeq := 1024 }, .readReq 6 pkt,
      .flowMove 65536 0, .flowMove 0 8, .closeSession 65536],
      c.WellFormed = false := by decide +kernel
theorem test_wf_refuses_messages (bs : Bytes) (h : 1184 < bs.length) :
    Instr.WellFormed (.openSession { opAlg := 65536, operatorKey := [], nonce := [], kemCt := [], signature := [] }) = false ∧
      Instr.WellFormed (.mgmtCommand { session := 65536, sequence := 0, messageLength := 0, tag := 0, body := [] }) = false ∧
      Instr.WellFormed (.mgmtCommand { session := 1, sequence := 0, messageLength := 0, tag := 0, body := bs }) = false := by
  simp [Instr.WellFormed, Datagram.wf, OpenMessage.wf, Nat.not_le.mpr h]
/-! ### What a word spells (R121 to R124, R291) -/

/-- A word from its fields, the highest first, each a width and a value. -/
def wordOf (fs : List (Nat × Nat)) : InstrWord := BitVec.ofNat 128 (fs.foldl (fun v f => v * 2 ^ f.1 + f.2) 0)

/-- The fields of a scalar-group word (R121, R123): `MAJOR`, `MINOR`, `PRED`, `PNEG`, reserved, `IMMB`, `VAR`, SD, SA, SB, PD,
reserved, `IMM`. -/
def scalarFields (major minor immb var sd sa sb pd imm : Nat) : InstrWord :=
  wordOf [(8, major), (8, minor), (3, 2), (1, 1), (7, 0), (1, immb), (4, var), (5, sd), (5, sa), (5, sb), (3, pd), (14, 0),
    (64, imm)]

/-- The fields of a tile-group word (R121, R122): `MAJOR`, `MINOR`, `PRED`, `PNEG`, `CG`, `RMODE`, `OVF_IEEE`, `REC`,
`NOTRAP`, `VAR`, D, A, B, C, S1, S2, S3, reserved, `IMM`. -/
def tileFields (major minor cg rmode ovf rec notrap var d a b c s1 s2 s3 imm : Nat) : InstrWord :=
  wordOf [(8, major), (8, minor), (3, 0), (1, 0), (3, cg), (2, rmode), (1, ovf), (1, rec), (1, notrap), (4, var), (4, d),
    (4, a), (4, b), (4, c), (5, s1), (5, s2), (5, s3), (1, 0), (64, imm)]

def t0 : ThreadId := { array := 0, index := 0 }

theorem test_decode_alu : decodeInstr t0 (scalarFields 0x01 0x01 1 0 3 17 0 0 9)
    = some (.sub t0 { pred := 2, pneg := true, immb := true, sd := 3, sa := 17, imm := 9 }) := rfl
theorem test_decode_predicate : decodeInstr t0 (scalarFields 0x01 0x1A 0 0 0 7 6 5 0)
    = some (.pxor t0 { pred := 2, pneg := true, sa := 7, sb := 6, pd := 5 }) := rfl
theorem test_decode_memory : decodeInstr t0 (scalarFields 0x02 0x01 0 3 30 16 0 0 (2 ^ 64 - 8))
    = some (.lds t0 { pred := 2, pneg := true, var := 3, sd := 30, sa := 16, imm := 0xFFFFFFFFFFFFFFF8 }) := rfl
theorem test_decode_branch : decodeInstr t0 (scalarFields 0x03 0x01 0 0 31 0 0 0 0x40)
    = some (.call t0 { pred := 2, pneg := true, sd := 31, imm := 0x40 }) := rfl
theorem test_decode_descriptor : decodeInstr t0 (scalarFields 0x04 0x02 1 4 15 0 0 0 0x10)
    = some (.dset t0 { pred := 2, pneg := true, immb := true, var := 4, sd := 15, imm := 0x10 }) := rfl
theorem test_decode_movement : decodeInstr t0 (tileFields 0x10 0x02 5 0 0 0 1 0 9 10 0 0 0 0 0 0)
    = some (.tcp t0 { cg := 5, noTrap := true, d := 9, a := 10 }) := rfl
theorem test_decode_matrix : decodeInstr t0 (tileFields 0x20 0x01 7 2 1 1 0 0 1 2 3 4 0 6 7 14)
    = some (.mmab t0 { cg := 7, rmode := 2, ovfIeee := true, recBit := true, d := 1, a := 2, b := 3, c := 4, s2 := 6, s3 := 7
                       imm := 14 }) := rfl
theorem test_decode_elementwise : decodeInstr t0 (tileFields 0x30 0x08 1 1 0 0 0 0 1 2 3 4 0 0 0 0)
    = some (.vopFma t0 { cg := 1, rmode := 1, d := 1, a := 2, b := 3, c := 4 }) := rfl
theorem test_decode_statistics : decodeInstr t0 (tileFields 0x40 0x01 2 0 0 0 0 0 0 0 0 0 0 0 31 15)
    = some (.stagClose t0 { cg := 2, s3 := 31, imm := 15 }) := rfl
theorem test_decode_training : decodeInstr t0 (tileFields 0x50 0x02 0 0 0 0 0 0 0 0 0 0 9 0 0 77)
    = some (.recomp t0 { s1 := 9, imm := 77 }) := rfl
theorem test_decode_synchronisation : decodeInstr t0 (tileFields 0x60 0x00 0 0 0 0 1 5 0 0 0 0 9 0 0 3)
    = some (.semWait t0 { noTrap := true, var := 5, s1 := 9, imm := 3 }) := rfl
/-- The word of a `COLL`: `CG` 3, D 1, A 2, S1 4, and `IMM`. -/
def collWord (imm : Nat) : InstrWord := tileFields 0x70 0x00 3 0 0 0 0 0 1 2 0 0 4 0 0 imm
def collTile (imm : Word) : TileWord := { cg := 3, d := 1, a := 2, s1 := 4, imm := imm }
theorem test_decode_reductions :
    decodeInstr t0 (collWord 0x010102) = some (.allReduce t0 (collTile 0x010102)) ∧
      decodeInstr t0 (collWord 0x020102) = some (.reduceScatter t0 (collTile 0x020102)) ∧
      decodeInstr t0 (collWord 0x040102) = some (.reduce t0 (collTile 0x040102)) := ⟨rfl, rfl, rfl⟩
theorem test_decode_copies :
    decodeInstr t0 (collWord 0x030102) = some (.allGather t0 (collTile 0x030102)) ∧
      decodeInstr t0 (collWord 0x050102) = some (.broadcast t0 (collTile 0x050102)) ∧
      decodeInstr t0 (collWord 0x060102) = some (.allToAll t0 (collTile 0x060102)) ∧
      decodeInstr t0 (collWord 0x070102) = some (.permute t0 (collTile 0x070102)) ∧
      decodeInstr t0 (collWord 0x080102) = some (.fwwPut t0 (collTile 0x080102)) ∧
      decodeInstr t0 (collWord 0x090102) = some (.groupBarrier t0 (collTile 0x090102)) := ⟨rfl, rfl, rfl, rfl, rfl, rfl⟩
/-- A `MAJOR` of 0, a `MINOR` between two listed ones and a `COLL` of `MINOR` 1 are no instructions (R124). -/
theorem test_decode_unlisted : wordListed 0 = false ∧ wordListed 0x010D0000000000000000000000000000 = false ∧
    wordListed 0x05000000000000000000000000000000 = false ∧ wordListed 0x70010000000000000000000000000000 = false := by
  decide +kernel

/-! ### The spec's worked examples -/

/-- A format's bits of a value under a rounding mode and a word of stochastic rounding. -/
def bitsOf (f : Nat) (x : Machine.Num) (mode : Nat := 0) (word : Nat := 0) : Nat := (convert { mode := mode, word := word } false f x).bits
/-- A tree's root in an accumulator format, in the bits of an output format. -/
def rootBits (acc f : Nat) (xs : List Machine.Num) : Option Nat := (treeRoot acc xs).map fun r => bitsOf f r.1
def bf16 (v : Nat) : Machine.Num := decodeElem 0x04 v
def f32 (v : Nat) : Machine.Num := decodeElem 0x02 v
/-- n bfloat16 elements, those given and otherwise another. -/
def sparse (n : Nat) (rest : Nat) (l : List (Nat × Nat)) : List Machine.Num := (List.range n).map fun i => bf16 (Map.getD l i rest)

/-- 03_number_formats.md, encoding one MX FP8 E4M3 block: 3.9, 3.0, -0.1, 0.0001 and zeros. -/
theorem test_example_mx_block :
    let r := encodeMxBlock 0x07 ([0x4079999A, 0x40400000, 0xBDCCCCCD, 0x38D1B717, 0].map fun v => ({}, f32 v))
    r.1 = 0x78 ∧ r.2.map Conv.bits = [0x7E, 0x7C, 0xD5, 0x07, 0] ∧ r.2.map Conv.oor = [true, false, false, false, false] := by
  decide +kernel
/-- 03_number_formats.md, stochastic rounding to bfloat16 in step 41,207, tag 3, element (5, 18). -/
theorem test_example_stochastic :
    let r := roundingAt 2 41207 3 0 5 18
    r.word = (philox 10 (4, 5, 3, 0) 0xA0F7 0).2.2.1 ∧
      bitsOf 0x04 (f32 0x3F80C000) 2 r.word = (if r.word < 0xC0000000 then 0x3F81 else 0x3F80) ∧
      bitsOf 0x04 (f32 0x3F80C000) 2 0xBFFFFFFF = 0x3F81 ∧ bitsOf 0x04 (f32 0x3F80C000) 2 0xC0000000 = 0x3F80 := by
  decide +kernel
/-- 03_number_formats.md, a W48 master to its working copies. -/
theorem test_example_w48 :
    let w := decodeElem 0x10 0x3F8080000001
    bitsOf 0x04 w = 0x3F81 ∧ bitsOf 0x04 w 1 = 0x3F80 ∧ bitsOf 0x04 w 2 0x80000000 = 0x3F81 ∧
      bitsOf 0x04 w 2 0x80000001 = 0x3F80 ∧ bitsOf 0x02 w = 0x3F808000 ∧ bitsOf 0x02 w 1 = 0x3F808000 ∧
      bitsOf 0x02 w 2 0xFFFF = 0x3F808001 ∧ bitsOf 0x02 w 2 0x10000 = 0x3F808000 := by decide +kernel
/-- 04_reference_order.md, one dot product on five mappings: the whole tree, four aligned parts, and a split that is not
aligned. -/
theorem test_example_mappings :
    let xs := (List.range 64).map fun i => f32 (Map.getD [(0, 0x4B800000), (16, 0x3F800000), (32, 0x3F800000), (48, 0xCB800000)] i 0)
    let part := fun (i n : Nat) => ((treeRoot 0x02 ((xs.drop i).take n)).map (·.1)).getD (.nan .none)
    rootBits 0x02 0x04 xs = some 0x3F80 ∧ rootBits 0x02 0x02 [part 0 16, part 16 16, part 32 16, part 48 16] = some 0x3F800000 ∧
      bitsOf 0x02 (part 32 32) = 0xCB7FFFFF ∧ rootBits 0x02 0x04 [part 0 24, part 24 24, part 48 16] = some 0x0000 := by
  decide +kernel
/-- 04_reference_order.md, an element with an overflowing product and a NaN product. -/
theorem test_example_exceptional :
    let a := sparse 48 0x0000 [(0, 0x3FC0), (1, 0xBF40), (2, 0x3F00), (3, 0x3900), (4, 0x3080), (16, 0x7180), (17, 0x3F80), (32, 0xFFC1), (33, 0x4000)]
    let b := sparse 48 0x3F80 [(0, 0x3FC0), (1, 0x4000), (2, 0xBE80), (3, 0x3980), (4, 0x3080), (16, 0x4E80), (17, 0x4040), (33, 0x4000)]
    let ls := (leaves16 4 (products a b)).map (leaf 0x02)
    ls.map (bitsOf 0x02) = [0x3F200000, 0x7F800000, 0x7FC00000] ∧ ls.map Machine.Num.cause = [.none, .overflow, .nanInput] ∧
      (groupNode 0x02 a b).map (fun r => (bitsOf 0x04 r.1, r.1.cause)) = some (0x7FC0, .nanInput) := by decide +kernel
/-- 06_tensor_statistics.md, the squares of two contributions of a tag. -/
theorem test_example_squares :
    let root := fun xs => ((treeRoot 0x01 xs).map (·.1)).getD (.nan .none)
    let c0 := root ([2 ^ 56, 9, 9, 9].map fun (i : Int) => Machine.Num.ofInt i)
    bitsOf 0x01 c0 = bitsOf 0x01 (.ofInt (2 ^ 56 + 32)) ∧
      rootBits 0x01 0x01 [c0, .ofInt 200713] = some 0x4370000000003103 := by decide +kernel
/-- 07_training_support.md, one element over four micro-batches, whole and as two aligned halves. -/
theorem test_example_stair :
    let l := [0x4C00, 0x3FC0, 0x4040, 0xCC00].map bf16
    rootBits 0x02 0x02 l = some 0x40800000 ∧ rootBits 0x02 0x02 (l.take 2) = some 0x4C000000 ∧
      rootBits 0x02 0x02 (l.drop 2) = some 0xCBFFFFFE := by decide +kernel
/-- 07_training_support.md, one element of a run's first `ADAMW` update. -/
theorem test_example_adamw :
    let p := fun (k : Int) => (Machine.Num.ofInt 1).scale2 k
    let b : OptBlock := { kind := 1, vOffset := 0, value := fun i =>
      ([p (-10), .fin false 7 (-3) false, p (-3), .fin false 127 (-7) false, p (-7), p (-20), p (-4), p (-2), p 3, p 7])[i]?.getD (.zero false) }
    let g := mulExact (f32 0x3F000000) b.scale
    let x : UpdateIn := { w := decodeElem 0x10 0x3F8000000000, g := g, m := .zero false, v := .zero false }
    let m := bitsOf 0x02 (b.moment1 x)
    let v := bitsOf 0x02 (b.moment2 x)
    let u := b.step g (f32 m) (f32 v)
    m = 0x3C800000 ∧ v = 0x39000000 ∧ bitsOf 0x01 u = 0x3FEFFFF00007FFFC ∧ bitsOf 0x10 (b.master x.w u) = 0x3F7FBC002000 ∧
      bitsOf 0x04 (decodeElem 0x10 0x3F7FBC002000) = 0x3F80 ∧ bitsOf 0x04 (decodeElem 0x10 0x3F7FBC002000) 1 = 0x3F7F := by
  decide +kernel
/-- 02_arrays_and_cells.md, folding a bfloat16 tile of 2,048 × 2,400 by 2,400 × 704. -/
theorem test_example_fold :
    planMma 2048 704 2400 16 = { leaves := 8, slab := false, nPass := 128, mPass := 512, kBlocks := 19, chunks := 4, nBlocks := 6 } ∧
      6 * 4 * 19 = 456 := by decide
/-- 05_threads_and_tile_instructions.md, encoding an `MMA`: its word, and the output descriptor's four words. -/
theorem test_example_mma_word :
    encodeTile { d := 2, a := 0, b := 1, c := 0, s1 := 0, s2 := 4, s3 := 5, cg := 2, recBit := true } 0x20 0x00 =
      0x200004202010010A0000000000000000 := by decide +kernel
theorem test_example_mma_descriptor :
    let d := Desc.parse (BitVec.ofNat 256 (0x002A000020000000 + 2 ^ 64 * 0x040000058002B07F + 2 ^ 192 * 0x300))
    d.rows = 2048 ∧ d.cols = 704 ∧ d.stride = 1408 ∧ d.format = 0x04 ∧ d.statTag = 3 ∧ d.dev = 0x2A ∧ d.loc = 0x20000000 ∧
      d.layout = 0 ∧ d.xpose = false ∧ d.reserved = false := by decide +kernel
/-- 11_host_commands.md, a capability query: bytes 0 to 15 of its entry. -/
theorem test_example_query :
    let r := readHeader 0 0 ([0x02, 0, 0, 0, 0, 0, 0x08, 0, 0x05, 0, 0, 0, 0, 0, 0, 0] ++ zeros 16)
    r.1 = 0x0002 ∧ r.2.paramLength = 8 ∧ r.2.sequence = 5 ∧ r.2.ctxId = 0 ∧ r.2.ringId = 0 := by decide +kernel
/-- 16_management_and_bringup.md, one exchange through a hall switch: times in 2^-16 ns from T, delay and offset. -/
theorem test_example_exchange :
    exchange 0 67518464 74072064 137625600 20348928 18825216 = (45948928, 1220608) := by decide +kernel

/-! ### A thread that issues -/

/-- What memory holds: the `MAJOR` byte of the word at address 0, semaphores at 0x110 to 0x140, and a
timetable of three slots at 0x1000. -/
def cells : List Host.Cell :=
  [(15, 1), (0x100, 0xF2), (0x104, 5), (0x107, 0x86), (0x110, 9), (0x114, 1), (0x116, 1), (0x120, 1), (0x124, 1), (0x126, 1),
    (0x134, 2), (0x136, 1), (0x144, 1), (0x146, 1), (0x1000, 1), (0x1004, 3), (0x1020, 2), (0x1022, 5), (0x1024, 7),
    (0x1028, 0x10), (0x1029, 1), (0x1040, 1), (0x1050, 0x40), (0x1051, 1), (0x7800, 1)]

/-- The 32 bytes of a descriptor: base, rows, columns, stride, format, statistics tag. -/
def tile (base rows cols stride fmt : Nat) (tag : Nat := 0xFF) (dev : Nat := 0) : Descr :=
  BitVec.ofNat 256 ((globalAddr dev base).toNat + 2 ^ 64 * (rows - 1) + 2 ^ 76 * (cols - 1) + 2 ^ 88 * stride + 2 ^ 120 * fmt
    + 2 ^ 200 * tag)

/-- s1 to s12: a number, a negative one, the most negative but 3, local addresses, remote ones, and an address of every module. -/
def regs0 : Vector Word 32 :=
  ((((((((((((Vector.replicate 32 0).set 1 7).set 2 0xFFFFFFFFFFFFFFF5).set 3 0x8000000000000003).set 4 0x100).set 5 70).set 6
    (globalAddr 5 0x100)).set 7 (globalAddr 6 0x100)).set 8 (globalAddr 0xFFFF 0x100)).set 9 0x110).set 10 0x120).set 11 0x130).set 12 0x7800

def descs0 : Vector Descr 16 :=
  #v[0, tile 0x4000 1 1 32 4, tile 0x4400 1 1 32 4, tile 0x4800 1 1 32 4, tile 0x4C00 1 1 32 4, tile 0x4800 1 1 32 4 0xFF 5,
    tile 0x5000 1 1 128 1, tile 0x5800 1 1 128 1, tile 0x6000 1 1 128 1, tile 0x6000 1 1 96 0x10, tile 0x7000 1 1 64 2,
    tile 0x6800 1 1 64 2, tile 0x8000 1 1 32 4, 0, 0, 0]

def x0 : Thread :=
  { state := .running, ctx := 1, launch := 1, regs := regs0, descs := descs0, slotIndex := 0, slotKind := 3
    preds := #v[true, true, false, true, false, true, true, true] }

def launch1 : Launch :=
  { ctx := 1, gen := 1, handle := 0, trapArea := 0x10000, policyContinue := true, step := 7, arrays := [0], threads := 1
    threadsPerArray := 1, admitted := true, trainTable := 0x2000 }

/-- A module whose context 1 is `ACTIVE` with page 0 mapped, whose context 2 is suspended, and that has a route to device 5. -/
def core (threads : Map Thread) (l : Launch := launch1) : State :=
  { State.reset with
    ctxs := [(1, { state := .active, generation := 1 }), (2, { state := .suspended, generation := 1 })]
    threads := threads, launches := [(1, l)], nextOp := 50
    arrays := State.reset.arrays.map fun a => { a with service := .serving }
    memory := { State.reset.memory with bytes := cells, pages := [(0, { owner := .ctx 1 })] }
    fabric := { State.reset.fabric with routes := [(5, 1)] }
    lodge := { State.reset.lodge with deviceId := 0, time16 := 123456789000 } }

/-- Thread 0 of array 0 as x says, alone. -/
def one (x : Thread) (l : Launch := launch1) : State := core [(0, x)] l

/-- A thread that runs. -/
def run : State := one x0

/-- A thread of the same launch that waits for all its threads. -/
def other : Thread := { state := .waiting, wait := some .tileQueue, ctx := 1, launch := 1 }

/-- A tile instruction in flight. -/
def copyOp (id : Nat) : TileOp := { id := id, kind := .tcp, pc := 0, word := 0, cg := 0, a := tile 0x4000 1 1 32 4, d := tile 0x4800 1 1 32 4 }

/-- Whether a thread reads the instruction at its PC, each condition of `ReadsAtPc`. -/
def reads (s : State) (t : ThreadId) : Bool :=
  (s.thread t).state == .running && (s.ctx (s.thread t).ctx).state == .active && devOf (s.thread t).pc == s.lodge.deviceId &&
    (s.thread t).pc.toNat % 16 == 0 && s.mayRead (s.thread t).ctx (locOf (s.thread t).pc)

theorem reads_of {s : State} {t : ThreadId} (h : reads s t = true) : ReadsAtPc s t := by
  simp only [reads, Bool.and_eq_true, beq_iff_eq] at h
  obtain ⟨⟨⟨⟨a, b⟩, c⟩, d⟩, e⟩ := h
  exact ⟨a, b, c, d, e⟩

theorem fetches_of {s : State} {t : ThreadId} (h : reads s t = true) (l : wordListed (s.wordAt (s.thread t)) = true) :
    Fetches s t := ⟨reads_of h, l⟩

theorem issues_of {s : State} {t : ThreadId} {p : BitVec 3} {n : Bool} (h : reads s t = true)
    (l : wordListed (s.wordAt (s.thread t)) = true) (q : ((s.thread t).pred p != n) = true) : Issues s t p n :=
  ⟨⟨reads_of h, l⟩, q⟩

/-- Whether the memory that an access meets is clean, each condition of `MemoryClean`. -/
def clean (s : State) : Bool :=
  s.memory.eccErrors.isEmpty && s.memory.cellarErrors.isEmpty && s.memory.repairing.isEmpty && s.memory.retiringRows.isEmpty &&
    s.memory.lost.isEmpty && s.memory.lostPages.isEmpty

theorem clean_of {s : State} (h : clean s = true) : MemoryClean s := by
  simp only [clean, Bool.and_eq_true, List.isEmpty_iff] at h
  obtain ⟨⟨⟨⟨⟨a, b⟩, c⟩, d⟩, e⟩, f⟩ := h
  exact ⟨a, b, c, d, e, f⟩

theorem local_of {s : State} {t : ThreadId} {a : Word} {n : Nat} {w : Bool} (h : devOf a = s.lodge.deviceId)
    (k : devOf a ≠ 0xFFFF) (m : a.toNat % n = 0)
    (p : (if w then s.canWrite (s.thread t).ctx (locOf a) n else s.canRead (s.thread t).ctx (locOf a) n) = true)
    (c : clean s = true) : LocalAccess s t a n w := ⟨h, k, m, p, clean_of c⟩

/-- The thread of `run` issues under p1 and under the inverse of p2. -/
theorem run_issue : Issues run t0 0 false ∧ Issues run t0 1 false ∧ Issues run t0 2 true :=
  ⟨issues_of (by decide +kernel) (by decide +kernel) (by decide +kernel), issues_of (by decide +kernel) (by decide +kernel) (by decide +kernel),
    issues_of (by decide +kernel) (by decide +kernel) (by decide +kernel)⟩

/-! ### States and operands that meet the hypotheses of the statements -/

theorem witness_StepRunsTheFrontCommand :
    ({ run with pending := [.powerGood, .timeSave] } : State).pending = .powerGood :: [.timeSave] := rfl
theorem witness_IdleStepAdvancesDeviceTime :
    (run.pending = [] ∧ run.lodge.phase = .off) ∧
    (let s := { run with lodge := { run.lodge with phase := .full } }
     s.pending = [] ∧ s.lodge.phase ≠ .off ∧ (s.lodge.time16 + (40 * 65536 + s.lodge.rate16).toNat) / 65536 < 2 ^ 64) ∧
    (let s := { run with lodge := { run.lodge with phase := .full, time16 := 2 ^ 80 - 1 } }
     s.pending = [] ∧ s.lodge.phase ≠ .off ∧ 2 ^ 64 ≤ (s.lodge.time16 + (40 * 65536 + s.lodge.rate16).toNat) / 65536) := by
  decide +kernel
/-- The invariants hold of a state that is not reset, and it steps. -/
theorem witness_invariants : ServiceOk run ∧ StorageOk run ∧ CountersOk run ∧ NumbersOk run ∧ step run = .next run :=
  ⟨⟨by decide +kernel, by decide +kernel, by decide +kernel, by decide +kernel, by decide +kernel, by decide +kernel⟩,
    by unfold StorageOk; decide +kernel, by unfold CountersOk; decide +kernel, by unfold NumbersOk; decide +kernel, rfl⟩
theorem witness_CommandsKeepTheQueueAndTheVariant : exec .timeSave run = .next run := rfl
theorem witness_InstructionWordsDecodeToTheirInstruction :
    (scalarInstr t0 {} 0x04 0x04).isSome = true ∧ (tileInstr t0 {} 0x60 0x05).isSome = true ∧ wordListed 0 = false := by
  decide +kernel

/-- The thread of `run` issues under p0, under p1 and under the inverse of p2, and under p2 its test fails. -/
theorem run_fetches : Fetches run t0 := fetches_of (by decide +kernel) (by decide +kernel)
theorem run_issues : Issues run t0 0 false ∧ Issues run t0 1 false ∧ Issues run t0 2 true :=
  ⟨⟨run_fetches, by decide +kernel⟩, ⟨run_fetches, by decide +kernel⟩, ⟨run_fetches, by decide +kernel⟩⟩
theorem run_clean : MemoryClean run := clean_of (by decide +kernel)

theorem witness_ScalarArithmeticWritesItsResult :
    ∀ w ∈ [({ sd := 1, sa := 2, sb := 3 } : ScalarWord), { sd := 31, sa := 2, immb := true, imm := 5 }],
      w.pred = 0 ∧ w.pneg = false ∧ ScalarZero w ∧ w.var = 0 ∧ w.pd = 0 ∧ SecondChosen w := by
  simp [ScalarZero, SecondChosen]
theorem witness_ComparesWriteTheirPredicate :
    ∀ w ∈ [({ pd := 0, sa := 2, sb := 3 } : ScalarWord), { pd := 7, sa := 2, immb := true, imm := 5 }],
      w.pred = 0 ∧ w.pneg = false ∧ ScalarZero w ∧ w.var = 0 ∧ w.sd = 0 ∧ SecondChosen w := by
  simp [ScalarZero, SecondChosen]
theorem witness_MovesAndPredicateLogic :
    (let w : ScalarWord := { sd := 31, sb := 2 }; ScalarZero w ∧ w.var = 0 ∧ w.sa = 0 ∧ w.pd = 0 ∧ SecondChosen w) ∧
    (let w : ScalarWord := { pd := 5, sa := 7, sb := 1 }
     ScalarZero w ∧ w.var = 0 ∧ w.sd = 0 ∧ w.immb = false ∧ w.imm = 0 ∧ w.sa.toNat < 8 ∧ w.sb.toNat < 8) ∧
    (let w : ScalarWord := { pd := 5, sa := 7 }; ScalarZero w ∧ w.var = 0 ∧ w.sd = 0 ∧ w.immb = false ∧ w.imm = 0 ∧
      w.sa.toNat < 8 ∧ w.sb = 0) := by simp [ScalarZero, SecondChosen]
/-- An addition that writes s1, and a comparison whose predicate test fails, answer next states. -/
theorem witness_RegisterInstructionsTouchNothingElse :
    t0.array < 64 ∧ Fetches run t0 ∧ scalarLegal { sd := 1, sa := 2, sb := 3 } useAlu = true ∧
      (∃ u, exec (.add t0 { sd := 1, sa := 2, sb := 3 }) run = .next u) ∧
      scalarLegal { pred := 2, pd := 5, sa := 3 } useCmp = true ∧
      ∃ u, exec (.cmpeq t0 { pred := 2, pd := 5, sa := 3 }) run = .next u :=
  ⟨by decide, run_fetches, by decide +kernel, ⟨_, rfl⟩, by decide +kernel, ⟨_, rfl⟩⟩
theorem witness_IssueNeedsARunningThreadAndItsPredicate :
    ((run.thread ⟨0, 1⟩).state ≠ .running) ∧ FreshNumber run t0 ∧ Fetches run t0 ∧
      ((run.thread t0).pred 2 != false) = false ∧ ScalarZero { pred := 2 } :=
  ⟨by decide +kernel, by unfold FreshNumber; decide +kernel, run_fetches, by decide +kernel, by simp [ScalarZero]⟩

/-- A thread whose `EXIT` waits for an instruction in flight, and one whose instructions are over. -/
def exits (os : List TileOp) (st : ThreadState) (w : Option Wait) : State := one { x0 with ops := os, state := st, wait := w }

theorem witness_BranchesGoToTheirTarget :
    (let w : ScalarWord := { sd := 31, imm := 0x40 }
     ScalarZero w ∧ devOf ((run.thread t0).pc + w.imm) = run.lodge.deviceId ∧ ((run.thread t0).pc + w.imm).toNat % 16 = 0) ∧
    (devOf ((run.thread t0).reg 4) = run.lodge.deviceId ∧ ((run.thread t0).reg 4).toNat % 16 = 0) ∧
    ((run.thread t0).ops = [] ∧ (run.thread t0).wait = none) ∧
    (((exits [copyOp 3] .running none).thread t0).ops ≠ []) ∧
    (∀ os ∈ [[], [copyOp 3]], ((exits os .waiting (some .exit)).thread t0).state = .waiting ∧
      ((exits os .waiting (some .exit)).thread t0).wait = some .exit) := by
  unfold ScalarZero; decide +kernel
theorem witness_BranchesGoToTheirTarget_exit : Issues (exits [copyOp 3] .running none) t0 0 false :=
  issues_of (by decide +kernel) (by decide +kernel) (by decide +kernel)

/-- A thread with a store to device 5 outstanding. -/
def stored : State :=
  { one { x0 with storesOut := [3] } with
    fabric := { run.fabric with requests := [(3, { unit := .store t0 0 0, out := { type := tWriteReq, packet :=
      { vc := 1, length := 16, srcDevice := 0, dstDevice := 5, srcIncarnation := 1, dstIncarnation := 1, ctxId := 1
        ctxGeneration := 1, address := globalAddr 5 0x100, tag := 3, payload := zeros 16, span := some (0, 8) } } })] } }

theorem witness_LoadsWriteTheBytesRead :
    (∀ v ∈ [(0 : BitVec 4), 3], ScalarZero { sd := 1, sa := 4, var := v } ∧ v.toNat < 4) ∧
    LocalAccess run t0 ((run.thread t0).reg 4) 8 false ∧
    AwayAccess run t0 ((run.thread t0).reg 6) 8 ∧ run.hasRoute (devOf ((run.thread t0).reg 6)) = true ∧
    AwayAccess run t0 ((run.thread t0).reg 7) 8 ∧ run.hasRoute (devOf ((run.thread t0).reg 7)) = false ∧
    (let a := (stored.thread t0).reg 6
     Issues stored t0 0 false ∧ devOf a ≠ stored.lodge.deviceId ∧ devOf a ≠ 0xFFFF ∧ a.toNat % 8 = 0 ∧
      stored.storeMeets (stored.thread t0) a 8 = true) ∧
    (let s := exits [] .waiting (some (.load 31 2 1 true 1))
     (s.thread t0).state = .waiting ∧ (s.thread t0).wait = some (.load 31 2 1 true 1)) :=
  ⟨by simp [ScalarZero], local_of (by decide +kernel) (by decide +kernel) (by decide +kernel) (by decide +kernel) (by decide +kernel),
    ⟨by decide +kernel, by decide +kernel, by decide +kernel, by decide +kernel⟩, by decide +kernel,
    ⟨by decide +kernel, by decide +kernel, by decide +kernel, by decide +kernel⟩, by decide +kernel,
    ⟨issues_of (by decide +kernel) (by decide +kernel) (by decide +kernel), by decide +kernel⟩, by decide +kernel⟩
theorem witness_StoresChangeTheirBytesAlone :
    ScalarZero { sb := 2, sa := 4, var := 1, imm := 6 } ∧ LocalAccess run t0 ((run.thread t0).reg 4 + 6) 2 true ∧
    (let a := (run.thread t0).reg 6
     devOf a ≠ run.lodge.deviceId ∧ devOf a ≠ 0xFFFF ∧ a.toNat % 8 = 0 ∧ run.hasRoute (devOf a) = true) :=
  ⟨by simp [ScalarZero], local_of (by decide +kernel) (by decide +kernel) (by decide +kernel) (by decide +kernel) (by decide +kernel),
    by decide +kernel⟩
theorem witness_AtomicsExchangeTheirWord :
    (∀ v ∈ [(0 : BitVec 4), 6], ScalarZero { sd := 3, sb := 2, sa := 4, var := v } ∧ v.toNat < 7) ∧
    LocalAccess run t0 ((run.thread t0).reg 4) 8 true ∧ AwayAccess run t0 ((run.thread t0).reg 6) 8 :=
  ⟨by simp [ScalarZero], local_of (by decide +kernel) (by decide +kernel) (by decide +kernel) (by decide +kernel) (by decide +kernel),
    ⟨by decide +kernel, by decide +kernel, by decide +kernel, by decide +kernel⟩⟩
theorem witness_DescriptorsMoveToAndFromMemory :
    (∀ d ∈ [(0 : BitVec 5), 15], ScalarZero { sd := d, sa := 4 } ∧ d.toNat < 16) ∧
    LocalAccess run t0 ((run.thread t0).reg 4) 32 false ∧ LocalAccess run t0 ((run.thread t0).reg 4) 32 true ∧
    AwayAccess run t0 ((run.thread t0).reg 6) 32 :=
  ⟨by simp [ScalarZero], local_of (by decide +kernel) (by decide +kernel) (by decide +kernel) (by decide +kernel) (by decide +kernel),
    local_of (by decide +kernel) (by decide +kernel) (by decide +kernel) (by decide +kernel) (by decide +kernel),
    ⟨by decide +kernel, by decide +kernel, by decide +kernel, by decide +kernel⟩⟩
theorem witness_DescriptorFieldsAreReadAndReplaced :
    ∀ v ∈ [(0 : BitVec 4), 8],
      (let w : ScalarWord := { sd := 31, sa := 15, var := v }; ScalarZero w ∧ w.sa.toNat < 16 ∧ w.sb = 0 ∧ w.imm = 0) ∧
      (let w : ScalarWord := { sd := 15, sb := 31, var := v }; ScalarZero w ∧ w.sd.toNat < 16 ∧ w.sa = 0 ∧ SecondChosen w) ∧
      (let w : ScalarWord := { sd := 0, immb := true, imm := 0xFFFFFFFFFFFFFFFF, var := v }
       ScalarZero w ∧ w.sd.toNat < 16 ∧ w.sa = 0 ∧ SecondChosen w) := by
  simp [ScalarZero, SecondChosen]
/-- The launch of `run` has no argument block; another has one. -/
theorem witness_SpecialValuesAreRead :
    ScalarZero { sd := 1, imm := 0x11 } ∧ (0x11 : Word).toNat < 256 ∧ 0x11 < (0xFF : Word).toNat ∧
    ((run.launch? (run.thread t0).launch).map fun l => l.argBlock.toNat).getD 0 = 0 ∧
    (((one x0 { launch1 with argBlock := 0x200 }).launch? 1).map fun l => l.argBlock.toNat).getD 0 ≠ 0 := by
  unfold ScalarZero; decide +kernel
theorem witness_UnusedFieldsTrapIllegal :
    ReadsAtPc (one { x0 with pc := 0x40 }) t0 ∧
        wordListed ((one { x0 with pc := 0x40 }).wordAt { x0 with pc := 0x40 }) = false ∧
      Fetches run t0 ∧ scalarLegal { rsvdLo := 1 } useAlu = false ∧
          scalarLegal { imm := 0x100 } { sd := 31, imm := 0xFF } = false :=
  ⟨reads_of (by decide +kernel), by decide +kernel, run_fetches, by decide +kernel, by decide +kernel⟩
theorem witness_TrapsWriteTheirRecordAndStopTheThread :
    t0.array < 64 ∧ run.launch? (run.thread t0).launch = some launch1 ∧ launch1.policyContinue = true ∧
      run.repairingIn (launch1.trapArea + 64 * (64 * t0.array + t0.index % 64)) 64 = [] ∧
      (one x0 { launch1 with policyContinue := false }).launch? 1 = some { launch1 with policyContinue := false } ∧
      ((exits [] .trapped none).thread t0).state = .trapped ∧ ((exits [] .suspended none).thread t0).state = .suspended := by
  decide +kernel
theorem witness_BadAddressesTrap :
    (let w : ScalarWord := { sa := 4, imm := 1, var := 3 }
     ScalarZero w ∧ w.sb = 0 ∧ w.var.toNat < 4 ∧ ((run.thread t0).reg w.sa + w.imm).toNat % 8 ≠ 0) ∧
    (let a := (run.thread t0).reg 8; a.toNat % 8 = 0 ∧ devOf a = 0xFFFF) ∧
    (let a := (run.thread t0).reg 4 + 0x40000000
     a.toNat % 8 = 0 ∧ devOf a ≠ 0xFFFF ∧ devOf a = run.lodge.deviceId ∧ run.canRead 1 (locOf a) 8 = false ∧
      run.canWrite 1 (locOf a) 8 = false) := by
  unfold ScalarZero; decide +kernel

/-- A thread with a tile instruction outstanding in group 1 and a condition in group 2. -/
def busy : State :=
  one { x0 with groups := ((Vector.replicate 8 {}).set 1 { count := 1 }).set 2 { cond := some (.weightLost, 3) } }

theorem busy_issues : Issues busy t0 0 false := issues_of (by decide +kernel) (by decide +kernel) (by decide +kernel)

/-- `run` with a page of context 2, which a semaphore post of context 1 may not reach, and with the line of a semaphore under
repair. -/
def elsewhere : State :=
  { one { x0 with regs := regs0.set 1 0x200010 } with
    memory := { run.memory with pages := [(0, { owner := .ctx 1 }), (1, { owner := .ctx 2 })] } }
def underRepair : State := { run with memory := { run.memory with repairing := [(1, { since := 0 })] } }

theorem witness_SemInitWritesTheSemaphore :
    tileLegal { s1 := 4, imm := 0xFFFFFFFF, var := 7 } { s1 := true, noTrap := false, group := false, var := 7, imm := 0xFFFFFFFF } = true ∧
      LocalAccess run t0 ((run.thread t0).reg 4) 16 true :=
  ⟨by decide +kernel, local_of (by decide +kernel) (by decide +kernel) (by decide +kernel) (by decide +kernel) (by decide +kernel)⟩
/-- A semaphore that holds just n, one that holds one less, and one of a suspended context. -/
theorem witness_SemWaitTakesItsCountOrWaits :
    (∀ w ∈ [({ s1 := 9, imm := 9 } : TileWord), { s1 := 10, imm := 2 }, { s1 := 11, imm := 1, noTrap := true, var := 5 }],
      tileLegal w { s1 := true, group := false, var := 7, imm := 0xFFFFFFFF } = true) ∧
    (∀ e ∈ [((9 : BitVec 5), 0x110), (10, 0x120), (11, 0x130)],
      devOf ((run.thread t0).reg e.1) = run.lodge.deviceId ∧ ((run.thread t0).reg e.1).toNat % 16 = 0 ∧
        locOf ((run.thread t0).reg e.1) = e.2 ∧ run.repairingIn e.2 16 = [] ∧ run.semRefused 1 e.2 = none ∧
        (run.sem e.2).owner ≠ 0) ∧
    (run.semFails 1 (run.sem 0x110) = none ∧ 9 = (run.sem 0x110).count) ∧
    (run.semFails 1 (run.sem 0x120) = none ∧ (run.sem 0x120).count < 2) ∧
    (run.semFails 1 (run.sem 0x130)).isSome = true := by decide +kernel
theorem witness_PostsAddAndEndWaits :
    (let s := exits [] .waiting (some (.semWait 0x110 9 5 false))
     (s.thread t0).state = .waiting ∧ (s.thread t0).wait = some (.semWait 0x110 9 5 false) ∧ locOf 0x110 = 0x110 ∧
      (s.sem 0x110).owner ≠ 0 ∧ s.semFails (s.thread t0).ctx (s.sem 0x110) = none ∧ 9 ≤ (s.sem 0x110).count ∧
      s.repairingIn 0x110 4 = []) ∧
    (Map.has run.memory.repairing (0x110 / 256) = false ∧ run.ownerStands (run.sem 0x110) = true ∧ (run.sem 0x200).owner = 0) ∧
    Map.has underRepair.memory.repairing (0x110 / 256) = true := by decide +kernel
theorem witness_SemPostAddsAtItsTarget :
    tileLegal { s1 := 9, imm := 0x2FFFFFFFF, var := 5 } { s1 := true, group := false, var := 7, imm := 0xFFFFFFFFFF } = true ∧
    ((busy.thread t0).maskDone 2 = false ∧ (run.thread t0).maskDone 2 = true) ∧
    (run.semRefused 1 0x110 = none ∧ run.ownerStands (run.sem 0x110) = true) ∧
    (elsewhere.semRefused 1 0x200010).any (fun v => v.1 ≠ 0) = true ∧ Issues elsewhere t0 0 false ∧
    (let a := (run.thread t0).reg 6
     a.toNat % 16 = 0 ∧ devOf a ≠ 0xFFFF ∧ devOf a ≠ run.lodge.deviceId ∧ run.hasRoute (devOf a) = true) :=
  ⟨by decide +kernel, by decide +kernel, by decide +kernel, by decide +kernel,
    issues_of (by decide +kernel) (by decide +kernel) (by decide +kernel), by decide +kernel⟩
theorem witness_FenceReportsTheFirstCondition :
    tileLegal { imm := 0xFF, var := 15 } { noTrap := false, group := false, var := 15, imm := 0xFF } = true ∧
      (busy.thread t0).maskDone 4 = true ∧ ((busy.thread t0).firstCond 4).isSome = true ∧
          (busy.thread t0).maskDone 0xFF = false ∧
      Issues busy t0 0 false :=
  ⟨by decide +kernel, by decide +kernel, by decide +kernel, by decide +kernel, busy_issues⟩

/-- Thread 1 of array 0 has arrived at barrier 15. -/
def arrived (n : Nat) : State :=
  { core [(0, x0), (1, { other with wait := some (.barrier 15 n 0 0 true) })] with
    ctxs := [(1, { state := .active, generation := 1
                   barriers := [(15, { participants := n, arrivals := [{ array := 0, index := 1 }] })] })] }

theorem witness_BarrierHoldsItsArrivals :
    (∀ n ∈ [0, 1, 2, 4096, 4097], tileLegal { imm := BitVec.ofNat 64 (2 ^ 16 * n + 15), var := 7 }
      { noTrap := false, group := false, var := 7, imm := 0xFFFFFF000F } = true) ∧
    (∀ n ∈ [2, 4096], let b := Map.getD ((arrived n).ctx 1).barriers 15 { participants := n, arrivals := [] }
      b.participants = n ∧ b.arrivals.length = 1 ∧ (b.arrivals ++ [t0]).Nodup ∧ ∀ v ∈ b.arrivals, v.array < 64) ∧
    Map.getD (run.ctx 1).barriers 15 { participants := 1, arrivals := [] } = { participants := 1, arrivals := [] } ∧
    Issues (arrived 2) t0 0 false ∧ Issues busy t0 0 false :=
  ⟨by decide +kernel, by decide +kernel, by decide +kernel, issues_of (by decide +kernel) (by decide +kernel) (by decide +kernel), busy_issues⟩

/-- A launch with the timetable at 0x1000, and one whose slot 0 runs. -/
def timed : Launch := { launch1 with timetable := 0x1000, slotCount := 3 }
def inSlot : Launch := { timed with slot := some 0, gate := .opened }
def atCursor (n : Nat) (l : Launch) : State := one { x0 with cursor := n } l

theorem witness_SlotsPassAndEnd :
    tileLegal { noTrap := true, var := 7 } { group := false, var := 7 } = true ∧
    (x0.ops = [] ∧ x0.storesOut = [] ∧ launch1.timetable = 0 ∧ (run.thread t0).launch = 1) ∧
    (inSlot.timetable ≠ 0 ∧ inSlot.slot = some ((atCursor 1 inSlot).thread t0).slotIndex.toNat) ∧
    ((stored.thread t0).storesOut ≠ []) ∧
    (∀ i ∈ [0, 1], i < timed.slotCount ∧ timed.slot = none ∧ (atCursor i timed).slotTrap timed i = none) ∧
    (let s := atCursor 0 timed; let e := s.slotEntry timed 0
     e.waitSem = 0 ∧ s.canWrite 1 (timed.phaseAddr 0) 32 = true ∧ e.entry = 0x110) ∧
    (((atCursor 1 timed).tryGate timed ((atCursor 1 timed).slotEntry timed 1)).1 = .held) := by decide +kernel

/-- A thread with these tile instructions in flight. -/
def inFlight (os : List TileOp) (f : State → State := id) : State := f (one { x0 with ops := os })
def full : State := inFlight ((List.range 8).map copyOp)

/-- A training table with a bucket of one segment and a region of two slots, under an open guard of the launch's step. -/
def segment : Segment := { rows := 16, cols := 16, offset := 0, nextMb := 1 }
def bucket : Bucket :=
  { segments := [segment], elementCount := 256, mbCount := 4, resultBase := 0xA000, carryBase := 0xB000, groupSize := 1 }
def region : Region :=
  { entry := 0x2100, base0 := 0x8000, base1 := 0x8800, length := 0x800, state0 := .valid, step0 := 6 }
def train : Train := { table := 0x2000, launch := some 1, step := 7, buckets := [bucket], regions := [region] }
def training (s : State) (tr : Train := train) (g : GuardState := .opened) : State :=
  { s with trains := [(1, tr)], guards := [{ ctx := 1, step := 7, state := g }] }

def useAB : TileUse := { d := true, a := true, b := true, conv := true }

theorem witness_TileInstructionsTrapOrWaitForTheQueue :
    Fetches full t0 ∧ FreshNumber full t0 ∧ 8 ≤ (full.thread t0).ops.length ∧
        tileLegal { d := 3, a := 1, b := 2 } useAB = true ∧
      ((full.thread t0).pred 0 != false) = true ∧ tileLegal { rsvd := 1 } useAB = false :=
  ⟨fetches_of (by decide +kernel) (by decide +kernel), by unfold FreshNumber; decide +kernel, by decide +kernel⟩
theorem run_fresh : FreshNumber run t0 ∧ (run.thread t0).ops.length < 8 :=
  ⟨by unfold FreshNumber; decide +kernel, by decide +kernel⟩
/-- An element-wise instruction, a movement here and one to device 5, the matrix instructions, one of them of binary64, a
versioned read and an update. -/
theorem witness_LegalTileInstructionsEnterTheQueue :
    (let w : TileWord := { d := 3, a := 1, b := 2 }
     tileLegal w useAB = true ∧ (run.issued t0).checkElem t0 x0 (x0.opOf w (.vop 0) (tileBits w 0x30 0x00)) = none ∧
      (run.issued t0).checkMma t0 x0 (x0.opOf w .mma (tileBits w 0x20 0x00)) = none ∧
      (Desc.parse (x0.descr w.a)).format ≠ 0x01) ∧
    (let w : TileWord := { d := 3, a := 1 }
     tileLegal w { d := true, a := true } = true ∧ (Desc.parse (x0.descr w.d)).dev = run.lodge.deviceId ∧
      (run.issued t0).checkMove t0 x0 (x0.opOf w .tcp (tileBits w 0x10 0x02)) true true false = none) ∧
    (let w : TileWord := { d := 5, a := 1 }
     (Desc.parse (x0.descr w.d)).dev ≠ run.lodge.deviceId ∧ (Desc.parse (x0.descr w.a)).dev = run.lodge.deviceId ∧
      (run.issued t0).checkMove t0 x0 (x0.opOf w .tst (tileBits w 0x10 0x01)) false true true = none) ∧
    (let w : TileWord := { d := 8, a := 6, b := 7 }
     (run.issued t0).checkMma t0 x0 (x0.opOf w .mma (tileBits w 0x20 0x00)) = none ∧
      (Desc.parse (x0.descr w.a)).format = 0x01 ∧ run.fp64Serving = false) ∧
    (let w : TileWord := { d := 3, a := 1, b := 2, c := 4, imm := 2 }
     tileLegal w { d := true, a := true, b := true, c := true, conv := true, imm := 15 } = true ∧
      (run.issued t0).checkMmab t0 x0 { x0.opOf w .mmab (tileBits w 0x20 0x01) with x := x0.descr (w.imm.setWidth 4) } = none) ∧
    (let w : TileWord := { a := 1, s1 := 31 }; let d := Desc.parse (x0.descr w.a)
     tileLegal w { a := true, s1 := true } = true ∧
      firstTrap [(run.issued t0).checkDesc t0 x0 d { num := 1, remote := true, ok := legalFormat },
        (run.issued t0).partialTrap x0 d 1, (run.issued t0).checkRead? x0 d] = none) ∧
    (let w : TileWord := { d := 9, a := 10, b := 11, c := 12, s1 := 12 }
     tileLegal w { d := true, a := true, b := true, c := true, s1 := true, conv := true } = true ∧
      ((training run).issued t0).checkUpdate t0 x0 (x0.opOf w .update (tileBits w 0x50 0x03)) = none) := by decide +kernel

/-- A queued instruction of a kind, numbered 50. -/
def queued (k : TileKind) (p : OpPhase := .queued) : TileOp :=
  { id := 50, kind := k, pc := 0, word := 0, cg := 0, a := tile 0x4000 1 1 32 4, b := tile 0x4400 1 1 32 4
    d := tile 0x4800 1 1 32 4, phase := p }
def away (p : OpPhase) (aw : List Nat) : TileOp := { queued .tst p with d := tile 0x4800 1 1 32 4 0xFF 5, awaited := aw }

theorem witness_CompletionCarriesOutTheInstruction :
    run.op? t0 50 = none ∧
    ((inFlight [queued .tcp] fun s => s.modCtx 1 fun x => { x with state := .suspended }).ctx 1).state = .suspended ∧
    (∀ o ∈ [queued .tcp, queued (.vop 8), queued (.act 0x17), queued .cvt, queued .mma, queued .mmab, queued .unstash,
        queued .bktAdd, queued .verRead, queued .update, queued .stagClose, queued .stash, queued (.coll 9),
        queued .mma .finished, { queued .tcp .running with awaited := [3] }, away .queued [], away .running [],
        away .running [3], { queued .cvt with cond := some .weightLost }],
      (inFlight [o]).op? t0 50 = some o ∧ ((inFlight [o]).ctx 1).state ≠ .suspended) ∧
    ((inFlight []).writesAway (queued .tcp) = false ∧ (queued .tcp).unbound = false ∧
        (inFlight []).writesAway (away .queued []) = true) := by
  decide +kernel

/-- Slot 15 of the statistics tags, open and bound; and tags with n units taken and slot 4 waiting for one. -/
def tagged : State := { run with tags := [{ array := 0, ctx := 1, slot := 15, bound := true }] }
def units (n : Nat) (st : TagState) (f : Ctx → Ctx := id) : State :=
  { run.modCtx 1 f with
    tags := (List.range n).map (fun i => { array := 0, ctx := 2, slot := i, bound := true }) ++
      [{ array := 0, ctx := 1, slot := 4, state := st }] }
def closing : State :=
  { one { x0 with ops := [{ queued .stagClose with s3 := 0x100 }] } with
    tags := [{ array := 0, ctx := 1, slot := 15, bound := true, state := .closing, closer := some (t0, 50) }] }

theorem witness_StatisticsTagsOpenBindAndClose :
    (tileLegal { imm := 15 } { imm := 2 ^ 64 - 1 } = true ∧
        tileLegal { s3 := 4, imm := 15 } { s3 := true, imm := 2 ^ 64 - 1 } = true ∧
      (15 : Word).toNat < 16 ∧ run.tag? 0 1 15 = none) ∧
    (tagged.thread t0 = x0 ∧ tagged.tagOpen 0 1 15 = true ∧ devOf (x0.reg 4) = tagged.lodge.deviceId ∧
        (x0.reg 4).toNat % 64 = 0 ∧
      tagged.canWrite 1 (locOf (x0.reg 4)) tagRecordBytes = true) ∧
    (∀ n ∈ [0, 15], ((units n .opened).tag? 0 1 4).map Tag.bound = some false ∧ (units n .opened).unitsBound 0 < 16) ∧
    (((units 15 .saved).tag? 0 1 4).map Tag.state = some .saved ∧ ((units 15 .saved).ctx 1).state = .active) ∧
    (((units 0 .saved fun x => { x with state := .suspended, restoring := true }).ctx 1).state = .suspended) ∧
    (let g := { array := 0, ctx := 1, slot := 15, bound := true, state := .closing, closer := some (t0, 50) }
     closing.tag? 0 1 15 = some g ∧ g.issued ≤ g.entered ∧
      closing.op? t0 50 = some { queued .stagClose with s3 := 0x100 } ∧ closing.writable [(0x100, tagRecordBytes)] = true) := by
  decide +kernel

/-- A context with room in its Pantry, and an entry of key 9 in a state. -/
def roomy (f : State → State := id) : State :=
  f (run.modCtx 1 fun x => { x with quota := { pantryLimit := 1000000, pantryCellarLimit := 1000000 } })
def stashed (st : StashState) : Stash :=
  { ctx := 1, key := 9, state := st, shape := tile 0x4000 1 1 32 4, data := zeros 512, charge := 4096, inCellar := true }
def holds (e : Stash) (os : List TileOp := []) : State :=
  { one { x0 with ops := os } with ctxs := roomy.ctxs, stashes := [e] }
def filler : TileOp := queued .stash .running

theorem witness_StashesFillAndResolve :
    (let w : TileWord := { a := 1, imm := 9 }; let d := Desc.parse (x0.descr w.a)
     tileLegal w { a := true, imm := 2 ^ 64 - 1 } = true ∧ roomy.stash? 1 9 = none ∧
         (holds (stashed .filling)).stash? 1 9 ≠ none ∧
      firstTrap [(roomy.issued t0).checkDesc t0 x0 d { num := 1, ok := legalFormat }, (roomy.issued t0).checkRead? x0 d] = none) ∧
    (let w : TileWord := { d := 3, imm := 9 }; let d := Desc.parse (x0.descr w.d); let a := Desc.parse (stashed .filling).shape
     tileLegal w { d := true, imm := 2 ^ 64 - 1 } = true ∧ (a.format = d.format ∧ a.rows = d.rows ∧ a.cols = d.cols ∧
         a.mxCols = d.mxCols) ∧
      ∀ st ∈ [StashState.heldCellar, .heldAttic, .spilling, .downgraded, .filling],
        (holds (stashed st)).stash? 1 9 = some (stashed st) ∧
        firstTrap [((holds (stashed st)).issued t0).checkDesc t0 x0 d { num := 0, dest := true, ok := legalFormat },
          ((holds (stashed st)).issued t0).checkWrite? x0 d] = none) ∧
    (let w : TileWord := { s1 := 4, imm := 9 }
     tileLegal w { s1 := true, imm := 2 ^ 64 - 1 } = true ∧ devOf (x0.reg w.s1) = run.lodge.deviceId ∧
         (x0.reg w.s1).toNat % 16 = 0) := by
  decide +kernel
theorem witness_PantryEventsMoveEntries :
    (let e := { stashed .filling with owner := some (t0, 50) }; let s := holds e [filler]
     s.stash? 1 9 = some e ∧ (s.ctx 1).state ≠ .suspended ∧ s.op? t0 50 = some filler ∧ clean s = true ∧
      chargeOf ((s.stashesOf 1).filter fun f => f.inCellar && f.order ≤ e.order) ≤ (s.ctx 1).quota.pantryCellarLimit) ∧
    (holds (stashed .spilling)).stash? 1 9 = some (stashed .spilling) := by decide +kernel

/-- An addition of micro-batch m to segment 0 of bucket 0, and the same in flight. -/
def addWord (m : Nat) : TileWord := { a := 1, imm := BitVec.ofNat 64 (2 ^ 32 * m) }
def adding (m : Nat) : TileOp := { queued .bktAdd with imm := (addWord m).imm }

theorem witness_BucketAddsRunInOrder :
    (∀ m ∈ [0, 1, 3], tileLegal (addWord m) { a := true, imm := 2 ^ 64 - 1 } = true ∧
      bktOf (x0.opOf (addWord m) .bktAdd (tileBits (addWord m) 0x50 0x04)) = (0, 0, m)) ∧
    (∀ m ∈ [1, 3], ((training run).issued t0).checkBkt t0 x0 (x0.opOf (addWord m) .bktAdd (tileBits (addWord m) 0x50 0x04)) = none) ∧
    (training run).bucket? 1 0 = some bucket ∧ bucket.segments[0]? = some segment ∧ segment.nextMb = 1 ∧
    (∀ m ∈ [1, 2], let s := training (inFlight [adding m])
      s.op? t0 50 = some (adding m) ∧ (adding m).late = none ∧ s.opActive t0 = true ∧ s.segmentBusy 1 (adding m) = false) := by
  decide +kernel

/-- A copy from the region at version 6, one at the latest version, and an update, in flight. -/
def reading : TileOp := { queued .tcp with a := BitVec.ofNat 256 ((tile 0x8000 1 1 32 4).toNat + 2 ^ 184 * 6), reader := true }
def latest : TileOp := { queued .tcp with a := tile 0x8000 1 1 32 4, reader := true }
def updating : TileOp := queued .update

theorem witness_WaitingReadsBindAndUpdatesStart :
    (let s := training (inFlight [reading])
     s.op? t0 50 = some reading ∧ reading.unbound = true ∧ s.opActive t0 = true ∧
      (s.bindAtIssue t0 { reading with reader := false }).1.unbound = false) ∧
    (let s := { training (inFlight [latest]) { train with regions := [{ region with state0 := .empty }] } with
       launches := [(1, launch1), (2, { launch1 with step := 6 })] }
     s.op? t0 50 = some latest ∧ latest.unbound = true ∧ s.opActive t0 = true ∧
      (s.bindAtIssue t0 { latest with reader := false }).1.unbound = true) ∧
    (∀ g ∈ [GuardState.opened, .committing, .committed, .abandoned], let s := training (inFlight [updating]) train g
      s.op? t0 50 = some updating ∧ updating.late = none ∧ updating.cond = none ∧ s.opActive t0 = true ∧
        (s.guard? 1 (s.stepOf (s.thread t0))).map Guard.state = some g) := by decide +kernel

/-- Bucket 0 in a state, and a reduction of it at a stage. -/
def inBucket (st : BucketState) (f : Bucket → Bucket := id) : State :=
  training run { train with buckets := [f { bucket with state := st }] }
def reduced (stage : Nat) : State :=
  { inBucket .reducing with coll := { run.coll with active := [(1,
    { ctx := 1, group := 1, epoch := 1, kind := 2, matchKey := 0, unit := .bucket 1 0, op := 1, stage := stage })] } }

theorem witness_BucketsCloseAndStepsReachTheirCommitPoint :
    (∀ st ∈ [BucketState.filling, .folding], Map.get? (inBucket st).trains 1 ≠ none ∧
      ((inBucket st).bucket? 1 0).map (fun k => (k.state, k.collBlock, k.doneSem)) = some (st, 0, 0)) ∧
    ((reduced 2).bucketColl 1 0).map Coll.stage = some 2 ∧
    ((inBucket .done).commitPoint 1 7 = false ∨ (inBucket .done).commitPoint 1 7 = true) ∧
    (∃ s : State, s.commitPoint 1 7 = true ∧ s.committing 1 7 = false) :=
  ⟨by decide +kernel, by decide +kernel, by decide +kernel, ⟨{ inBucket .done with launches := [] }, by decide +kernel⟩⟩

/-- The bytes of an operation block (R292): operation, reduction, node format, scratch, slot, plan. -/
def blockBytes (op node : Nat) (scratch : Nat × Nat) (slot plan : Nat) : Bytes :=
  le 1 op ++ le 1 0 ++ le 2 1 ++ le 1 node ++ le 5 0 ++ le 2 plan ++ le 4 0 ++ le 8 scratch.1 ++ le 8 scratch.2 ++ le 8 slot ++ zeros 88
def cellsOf (a : Nat) (bs : Bytes) : List Host.Cell := (bs.mapIdx fun i b => (a + i, b)).filter fun c => c.2 != 0

/-- A group of this module and device 5 whose next match sequence is the last one, and a sealed plan for it. -/
def pair : CollGroup := { epoch := 3, members := [(0, 1), (5, 1)], runs := 1, own := 0, nextSeq := 0xFFFFFFFF }
def collective (op node : Nat) (scratch : Nat × Nat) (slot plan : Nat) : State :=
  { one { x0 with regs := regs0.set 1 0x9000
                  descs := (descs0.set 14 (tile 0x5000 2 1 32 4)).set 13 (tile 0x5800 2 1 32 4) } with
    memory := { run.memory with bytes := (15, 0x70) :: cellsOf 0x9000 (blockBytes op node scratch slot plan) }
    coll := { run.coll with plans := [(groupKey 1 3, { group := 1, epoch := 1, sealed := true, chunks := [] })]
                            groups := [(groupKey 1 1, pair)] } }

/-- Whether a collective of a form keeps its rules in a state, for the word that names it. -/
def keepsRules (s : State) (w : TileWord) (op : Nat) : Bool :=
  (s.issued t0).checkColl t0 (s.thread t0) ((s.thread t0).opOf w (.coll op) (tileBits w 0x70 0x00)) op == none &&
    (CollBlock.read (s.bytesAt (locOf ((s.thread t0).reg w.s1)) 128)).group == 1 && s.group? 1 1 == some pair &&
    tileLegal w { d := true, a := true, s1 := true, conv := true, imm := 0xFFFFFF } && reads s t0 &&
    wordListed (s.wordAt (s.thread t0))

theorem witness_CollectivesTakeTheirMatchSequence :
    keepsRules (collective 1 2 (0x10000, 0x10000) 0 0) { d := 3, a := 1, s1 := 1, imm := 0x10001 } 1 = true ∧
    keepsRules (collective 2 2 (0x10000, 0x10000) 0 0) { d := 3, a := 14, s1 := 1, imm := 0x20001 } 2 = true ∧
    keepsRules (collective 3 0 (0, 0) 0 0) { d := 14, a := 1, s1 := 1, imm := 0x30001 } 3 = true ∧
    keepsRules (collective 4 2 (0x10000, 0x10000) 0 0) { d := 3, a := 1, s1 := 1, imm := 0x40001 } 4 = true ∧
    keepsRules (collective 5 0 (0, 0) 0 0) { d := 3, a := 1, s1 := 1, imm := 0x50001 } 5 = true ∧
    keepsRules (collective 6 0 (0, 0) 0 0) { d := 13, a := 14, s1 := 1, imm := 0x60001 } 6 = true ∧
    keepsRules (collective 7 0 (0, 0) 0 3) { s1 := 1, imm := 0x70001 } 7 = true ∧
    keepsRules (collective 8 0 (0, 0) 0x8000 0) { a := 1, s1 := 1, imm := 0x80001 } 8 = true ∧
    keepsRules (collective 9 0 (0, 0) 0 0) { s1 := 1, imm := 0x90001 } 9 = true := by decide +kernel

/-- A module in service, and the state that a command leaves. -/
def on (s : State) : State :=
  { s with stewardRunning := true, deviceReady := true, serviceLevel := 2, lodge := { s.lodge with phase := .full } }
def after (c : Instr) (s : State) : State :=
  match exec c s with
  | .next u => u
  | _ => s
def sleepy (a : Nat) (s : State) : State := s.modArray a fun x => { x with asleep := true }

/-- A matrix instruction of one block on its way: queued, its block landed, and in its front. -/
def mmaQueued : State := on (after (.mma t0 { d := 3, a := 1, b := 2 }) run)
def mmaLanded : State := after (.landingFillComplete 0) mmaQueued
def mmaFronted : State := after (.frontEntry 0 3) mmaLanded
/-- A matrix instruction of these operands whose first pass drains. -/
def draining (a b d : Descr) (os : TileOp → List TileOp := fun o => [o]) : State :=
  (on (inFlight (os { queued .mma .running with a := a, b := b, d := d }))).modArray 0 fun x =>
    { x with passes := [{ owner := t0, op := 50, ctx := 1, number := 0, epoch := false, rows := [], block := [] }] }
def lastDrains : State := draining (tile 0x4000 1 1 32 4) (tile 0x4400 1 1 32 4) (tile 0x4800 1 1 32 4)
def firstDrains : State := draining (tile 0x20000 1 32 1024 4) (tile 0x30000 32 1 32 4) (tile 0x60000 1 1 32 4)
def pairQueued : State :=
  on (after (.mmab t0 { d := 3, a := 1, b := 2, c := 4, imm := 14 }) (one { x0 with descs := descs0.set 14 (tile 0x4000 1 1 32 4) }))

theorem witness_ArraysSleepWakeFrontAndPass_sleep :
    ((on run).arrayAwake 0 = true ∧ (on run).arrayBusy 0 = false ∧
      ((on run).array 0).lastProgress + (on run).lodge.settings.arrayIdleUs * 1000 ≤ (on run).now) ∧
    mmaQueued.arrayBusy 0 = true ∧ ((on run).array 0).asleep = false ∧
    (let s := sleepy 0 mmaQueued; (s.array 0).asleep = true ∧ ((s.matrixOps 0).any fun o => s.runnable o.1 o.2) = true) ∧
    (let s := sleepy 1 pairQueued
     (s.array 1).asleep = true ∧ ((s.matrixOps 1).any fun o => s.runnable o.1 o.2) = false ∧ s.pairWaits 1 = true) := by
  decide +kernel
theorem witness_ArraysSleepWakeFrontAndPass_front :
    ((on run).sequence 0).fillTarget 0 = none ∧ (on run).nextPasses 0 = [] ∧ ((on run).array 0).passes = [] ∧
    ((mmaQueued.sequence 0).fillTarget 0).any (fun e =>
      (((mmaQueued.sequence 0).array 0).halfOf (e.1, e.2.1.id, e.2.2)).any (fun h => h.awaited == []) && !e.2.1.unbound
        && e.1.array == 0 && clean (mmaQueued.sequence 0) && decide (0 < (mmaQueued.sequence 0).arrays.length)) = true ∧
    (mmaLanded.nextPasses 0).head?.any (fun e =>
      (mmaLanded.array 0).fronted != some (e.1, e.2.1.id, e.2.2) && mmaLanded.arrayAwake 0 &&
        ((mmaLanded.array 0).halfOf (e.1, e.2.1.id, e.2.2)).any (fun h => h.state == .landed) &&
        needFronts (mmaLanded.array 0).fronted [e] != []) = true := by decide +kernel
theorem witness_ArraysSleepWakeFrontAndPass_pass :
    (mmaFronted.nextPasses 0).head?.any (fun e =>
      mmaFronted.arrayAwake 0 && needFronts (mmaFronted.array 0).fronted [e] == [] &&
          e.2.1.pairReady (decide (e.1.array ≠ 0)) &&
        (mmaFronted.streamRows e.1 e.2.1 (decide (e.1.array ≠ 0)) e.2.2).isSome && clean mmaFronted) = true := by
  decide +kernel
theorem witness_ArraysSleepWakeFrontAndPass_drain :
    (let q := (draining 0 0 0 fun _ => []).array 0 |>.passes.head?
     q.any (fun q => (draining 0 0 0 fun _ => []).op? q.owner q.op == none) = true) ∧
    (lastDrains.array 0).passes.head?.any (fun q => (lastDrains.op? q.owner q.op).any (fun o =>
      q.owner.array == 0 && (o.shape false q.number).last && lastDrains.writable (o.matrixDest false).ranges)) = true ∧
    (firstDrains.array 0).passes.head?.any (fun q => (firstDrains.op? q.owner q.op).any (fun o =>
      q.owner.array == 0 && !(o.shape false q.number).last)) = true ∧
    0 < lastDrains.arrays.length := by decide +kernel
theorem witness_UnitErrorsAskForResets :
    (run.array 0).service = .serving ∧ ((run.modArray 0 fun x => { x with service := .gone }).array 0).service = .gone ∧
    (let s := { run.modArray 0 fun x => { x with service := .resetting } with
       host := { run.host with resetBusy := true, resetDomain := 1, resetTarget := 0 } }
     s.host.resetBusy = true ∧ s.host.resetDomain = 1 ∧ s.host.resetTarget = 0 ∧ (s.array 0).service = .resetting) ∧
    (on run).chipOn = true ∧ run.chipOn = false := by decide +kernel

/-- A launch of two threads each on arrays 0 and 1, and where it stands: submitted, admitted, its threads running, and allExited. -/
def launch2 : Launch := { ctx := 1, gen := 1, handle := 7, trapArea := 0x10000, mask := 3, entry := 0x40, threadsPerArray := 2 }
def outstanding (n : Nat) (w : Work) (ctx : Nat := 1) : Nat × OutCmd :=
  (n, { header := { ring := 1, session := 0, ctxId := 1, ringId := 1, paramLength := 0 }, opcode := 0x400, ctx := ctx
        generation := 1, takenAt := 5, work := w })
def serving : State :=
  { on (core []) with
    ctxs := [(1, { state := .active, generation := 1, maxArrays := 4, maxThreads := 4 })], launches := []
    memory := { (core []).memory with stacksServing := List.range 8 } }
def launching (l : Launch) : State :=
  { serving with launches := [(1, l)], nextLaunch := 2, host := { serving.host with commands := [outstanding 7 (.launch 1)] } }
def submitted : State := launching launch2
def admitted : State := { launching { launch2 with arrays := [0, 1], admitted := true } with admitting := [1] }
def started : State := after .admission submitted
def allExited : State := { started with threads := started.threads.map fun e => (e.1, { e.2 with state := .exited }) }

theorem witness_LaunchesAndContextsMove_launch :
    (admitted.admitting.find? admitted.admitReady = some 1 ∧ (admitted.launch? 1).any (fun l =>
      l.trainTable == 0 && decide l.arrays.Nodup && l.arrays.all (· < 64)) = true) ∧
    (serving.admitting.find? serving.admitReady = none ∧ serving.nextItem = none) ∧
    (submitted.admitting.find? submitted.admitReady = none ∧ submitted.nextItem = some (.launch 1) ∧
      (submitted.launch? 1).any (fun l => !(submitted.maskWaits l || (l.trainTable != 0 && submitted.tableBusy l.ctx 1)) &&
        (submitted.arraysFor l submitted.freeThreads).any (fun as => (submitted.admitLaunch 1 l as).isSome)) = true) ∧
    (let s := { submitted with arrays := State.reset.arrays }
     s.nextItem = some (.launch 1) ∧ (s.launch? 1).any (fun l => s.maskWaits l) = true) ∧
    (allExited.launchOver 1 = true ∧ (allExited.launch? 1).any (·.admitted) = true ∧ allExited.slotOver 1 = false) ∧
    started.launchOver 1 = false := by decide +kernel
/-- Every thread of two arrays is taken, so the launch waits. -/
theorem witness_LaunchesAndContextsMove_full :
    let s := { submitted with threads := (List.range 4096).map fun k => (k, { state := .running, ctx := 9, launch := 9 }) }
    s.nextItem = some (.launch 1) ∧ (s.launch? 1).map (fun l => s.arraysFor l s.freeThreads) = some none := by decide +kernel
theorem witness_LaunchesAndContextsMove_context :
    (let s := { started.modCtx 1 fun x => { x with state := .suspending } with
       threads := started.threads.map fun (e : Nat × Thread) => (e.1, { e.2 with state := .suspended }) }
     (s.ctx 1).state = .suspending ∧ s.atRest 1 = true) ∧
    (started.ctx 1).state ≠ .suspending ∧ (started.ctx 1).restoring = false ∧
    (let s := serving.modCtx 1 fun x => { x with state := .suspended, restoring := true }
     (s.ctx 1).restoring = true ∧ (s.ctx 1).state = .suspended ∧ s.pagesAway 1 = []) := by decide +kernel

/-- `serving` with its memory changed. -/
def withMem (f : Memory → Memory) : State := { serving with memory := f serving.memory }
def page (st : PageState) : State := withMem fun m => { m with pages := [(0, { owner := .ctx 1, state := st })] }
def granule (g : Granule) : State := withMem fun m => { m with granules := [(0, g)] }

theorem witness_PagesAndGranulesMove :
    clean serving = true ∧
    (Map.getD (granule { switchTo := some (some 3), slice := some 1, dirty := true }).memory.granules 0 {}).switchTo = some (some 3) ∧
    (Map.getD (granule { switchTo := some none, dirty := true, slice := some 2 }).memory.granules 0 {}).switchTo = some none ∧
    (Map.getD serving.memory.granules 0 {}).switchTo = none ∧
    ∀ st ∈ [PageState.spilling, .resident, .returning], (Map.get? (page st).memory.pages 0).map Page.state = some st := by
  decide +kernel

/-- A line under repair, and a checkpoint stream that copies page 1 aside. -/
def repairing (r : Repair) : State := withMem fun m => { m with repairing := [(1, r)] }
def streaming : Stream :=
  { handle := 3, ctx := 1, ckptId := 5, toMirror := true, step := 1, beginTime := 2, ranges := [], left := [], copying := [1] }

theorem witness_RepairsScrubsAndSelfRefresh :
    Map.get? (repairing { since := 0, hostRead := true }).memory.repairing 1 = some { since := 0, hostRead := true } ∧
    (Map.get? serving.memory.repairing 1 = none ∧ serving.memory.eccErrors = [] ∧ serving.memory.cellarErrors = [] ∧
      serving.stashes = [] ∧ serving.chipOn = true ∧ run.chipOn = false ∧ serving.memory.granules = [] ∧
      serving.host.resetBusy = false ∧ serving.twin.stream = none) ∧
    (let s := repairing { since := 0 }; 0 + s.lodge.settings.repairBudgetUs * 1000 ≤ s.now) ∧
    (let s := repairing { since := 1883000 }; s.now < 1883000 + s.lodge.settings.repairBudgetUs * 1000) ∧
    (let s := withMem fun m => { m with retiringRows := [1, 0] }
     s.memory.retiringRows.contains 1 = true ∧ s.rowUnderRepair 1 = false ∧ s.memory.retiringRows.contains 2 = false) ∧
    ((withMem fun m => { m with copyingChannels := [1] }).memory.copyingChannels.contains 1 = true) ∧
    ((withMem fun m => { m with selfRefresh := [1], scrubbing := true }).memory.selfRefresh ≠ []) ∧
    (serving.memory.stacksServing.contains 7 = true ∧ serving.memory.selfRefresh.contains 7 = false ∧
      serving.lodge.settings.atticIdleUs ≠ 0) ∧
    streaming.copying.contains 1 = true := by decide +kernel

/-- A module in full service whose Strongroom is ready, with a port 1 as given. -/
def ready : State :=
  { serving with
    strongroom := { serving.strongroom with state := .ready }, permittedRate := 128
    lodge := { serving.lodge with time16 := 100000000 * 65536 } }
def withPort (x : Port) : State := ready.modPort 1 fun _ => x

/-- A packet from device 5 of context 1. -/
def fromFive : Packet :=
  { vc := 0, length := 0, srcDevice := 5, dstDevice := 0, srcIncarnation := 1, dstIncarnation := 1, ctxId := 1
    ctxGeneration := 1, address := 0x100, tag := 3 }
def toFive (type : Nat) (tag : Nat := 3) (vc : Nat := 0) : OutPacket :=
  { type := type, packet := { fromFive with vc := vc, srcDevice := 0, dstDevice := 5, address := globalAddr 5 0x100, tag := tag } }

theorem witness_PortsMoveBetweenTheirStates :
    1 < ready.fabric.ports.length ∧
    (((withPort { state := .down }).port 1).state = .down ∧ ready.now = 100000000) ∧
    (∀ l ∈ [0, 80000000], ((withPort { state := .training, lastChange := l }).port 1).state = .training) ∧
    (0 + 50000000 ≤ ready.now ∧ ready.now < 80000000 + 50000000) ∧
    ((lockedLanes 0xFFFF 0).isSome = true ∧ (lockedLanes 0x0003 8).isNone = true) ∧
    (let n := fun (t : Nat) => ((List.replicate 64 t).filter fun t => ready.now < t + 1000000).length; 64 ≤ n 99999000 ∧
        n 98999000 < 64) ∧
    (let n := fun (t : Nat) => ((List.replicate 8 t).filter fun t => ready.now < t + 1000000).length; 8 ≤ n 99999999 ∧
        n 98999000 < 8) ∧
    (ready.host.resetBusy = false ∧ 0 + 500000 ≤ ready.now ∧ ready.now < 99999999 + 500000) := by decide +kernel

/-- A port in `ACTIVE` with three flits unacknowledged. -/
def active : Port :=
  { state := .active, keyed := true, lastRx := 1023, replay := [(5, [1]), (6, [2]), (7, [3])], nextSeq := 8, neighbourDevice := 5
    credits := List.replicate 8 100 }
def flit (seq : Nat) : Flit := { seq := seq, slots := zeros 240, ackSeq := 5, ackValid := true, nak := true }

theorem witness_FlitsAndFrames :
    ((withPort active).port 1).linked = true ∧
    ((flit 0).crcGood = true ∧ Flit.known (flit 0) 0 = true ∧ (flit 0).seq = (active.lastRx + 1) % 1024 ∧
      ackReplay (flit 0).ackSeq active.replay ≠ []) ∧
    ((flit 3).seq ≠ (active.lastRx + 1) % 1024 ∧ Flit.known { flit 0 with kind := 3 } 0 = false ∧
      Flit.known { flit 0 with kind := 1 } 1 = true) ∧
    (({ active with ackDue := true } : Port).ackDue = true ∧
      (active.ackDue || active.creditsDue.any (· ≠ 0)) = false ∧ active.queue = []) ∧
    (let x := { active with queue := [toFive tReadReq, toFive tWriteReq 4 1] }
     let f := fillFrame x.queue x.credits 0 x.round x.queue.length
     f.1 ≠ [] ∧ x.replay.length + ceilDiv (f.2.2.2.2 + 1) 15 ≤ 1023) := by decide +kernel
/-- A frame of three slots stands in the receive slots with its tag, and one with another tag. -/
theorem witness_FlitsAndFrames_frame :
    (let tag := (withPort active).rxTag 1 (zeros 48)
     let s := withPort { active with rxSlots := zeros 48 ++ le 16 tag.toNat ++ zeros 176 }
     (s.port 1).holdsFrame (zeros 48) tag = true ∧ s.rxTag 1 (zeros 48) = tag) ∧
    (let s := withPort { active with rxSlots := zeros 48 ++ le 16 0 ++ zeros 176 }
     s.rxTag 1 (zeros 48) ≠ 0 → (s.port 1).holdsFrame (zeros 48) 0 = true ∧ s.rxTag 1 (zeros 48) ≠ 0) ∧
    active.holdsFrame (zeros 48) 77 = false := by
  refine ⟨⟨?_, rfl⟩, fun h => ⟨by decide +kernel, h⟩, by decide +kernel⟩
  change ({ active with rxSlots := zeros 48 ++ le 16 _ ++ zeros 176 } : Port).holdsFrame (zeros 48) _ = true
  simp only [Port.holdsFrame, List.take_left', beq_self_eq_true, Bool.and_true]
  decide

/-- A port that has drawn its nonce, on a module of an ID. -/
def keying (own : Nat) : State :=
  let s := withPort { state := .keying, localNonce := [1, 2] }
  { s with lodge := { s.lodge with deviceId := own } }

theorem differs (x : BitVec 128) : ∃ y, x ≠ y := ⟨x + 1, by bv_omega⟩
/-- The third and fourth clauses split on a tag: the one that the keys give, and any other. -/
theorem witness_KeysAreConfirmedOrFail :
    (∀ own ∈ [0, 0xFFFF], ((keying own).port 1).state = .keying ∧ ((keying own).port 1).localNonce ≠ [] ∧
      ((keying own).port 1).keyed = false ∧ (keying own).strongroom.state = .ready ∧ (keying own).lodge.deviceId = own) ∧
    1 < (keying 0).fabric.ports.length ∧
    (let n := orderNonces 0 5 ((keying 0).port 1).localNonce [9, 8]; let rx := (keying 0).directionKeys n 5 1 5
     (∃ tag, confirmTag rx.1 rx.2 n = tag) ∧ ∃ tag, confirmTag rx.1 rx.2 n ≠ tag) :=
  ⟨by decide +kernel, by decide +kernel, ⟨_, rfl⟩, differs _⟩

/-- A packet at the front of the receive buffer of port 1. -/
def standing (type : Nat) (k : Packet) (x : Port := active) (f : State → State := id) : State :=
  let s := withPort { x with rxStream := Packet.slots type k }
  f { s with
      fabric := { s.fabric with incarnations := [(5, 1)], routes := [(5, 2)] }
      coll := { s.coll with groups := [(groupKey 1 1, { epoch := 3, members := [(0, 1), (5, 1), (6, 1)], runs := 1, own := 0 })] }
      memory := { s.memory with bytes := cells, pages := [(0, { owner := .ctx 1 }), (1, { owner := .ctx 1, rw := false }),
        (2, { owner := .ctx 2 }), (3, { owner := .pool })] } }

/-- Whether a packet stands at the front of port 1, each condition of `Stands`; and whether it arrives, each of `Arrives`. -/
def stands (s : State) (type : Nat) (k : Packet) : Bool :=
  s.delivers 1 type && (s.port 1).front == some (type, { k with span := none })
def arrives (s : State) (type : Nat) (k : Packet) : Bool :=
  stands s type k && ((s.arrived 1 type k).staleDrop 1 type k).isNone && formOk type k && k.dstDevice == s.lodge.deviceId

theorem stands_of {s : State} {type : Nat} {k : Packet} (h : stands s type k = true) : Stands s 1 type k := by
  simp only [stands, Bool.and_eq_true, beq_iff_eq] at h
  exact ⟨h.1, h.2⟩
theorem arrives_of {s : State} {type : Nat} {k : Packet} (h : arrives s type k = true) : Arrives s 1 type k := by
  simp only [arrives, Bool.and_eq_true, beq_iff_eq, Option.isNone_iff_eq_none] at h
  exact ⟨stands_of h.1.1.1, h.1.1.2, h.1.2, h.2⟩

def readPk : Packet := { fromFive with vc := 2, length := 32 }
def writePk : Packet := { fromFive with vc := 3, length := 16, payload := le 16 0x1122334455667788 }
def atomicPk : Packet := { fromFive with vc := 2, length := 16, operand := 7, payload := zeros 16 }
def postPk : Packet := { fromFive with vc := 2, operand := 7, address := 0x110 }
def repairPk : Packet := { fromFive with vc := 2, length := 256, ctxId := 0 }

/-- A request of this module to a device that waits for its answer, and its time. -/
def waiting (type : Nat) (dev : Nat := 5) (timer : Option Nat := some 0) : State → State := fun s =>
  { s with fabric := { s.fabric with requests := [(3, { unit := .load t0, port := some 1, timer := timer, out :=
    { type := type, packet := { fromFive with srcDevice := 0, dstDevice := dev, address := globalAddr dev 0x100 } } })] } }
/-- Every page is bound to a loan that device 5 does not hold. -/
def lent : State → State := fun s =>
  { s with strongroom := { s.strongroom with loans := [{ id := 9, model := 1, devices := [0] }] }
           memory := { s.memory with pages := s.memory.pages.map fun e => (e.1, { e.2 with loan := some 9 }) } }

theorem witness_PacketsAreCheckedServedAndEnd_form :
    (ready.delivers 0 tReadReq = false ∧ (ready.port 1).front = none) ∧
    (let k := { readPk with dstIncarnation := 4 }; let s := standing tReadReq k
     stands s tReadReq k = true ∧ ((s.arrived 1 tReadReq k).staleDrop 1 tReadReq k).isSome = true) ∧
    (let s := standing 0x19 fromFive
     (s.port 1).front = some (0x19, fromFive) ∧ listed 0x19 0 = false ∧ s.delivers 1 0x19 = true ∧
      (s.arrived 1 0x19 fromFive).staleDrop 1 0x19 fromFive = none) ∧
    (let k := { readPk with length := 33 }; let s := standing tReadReq k
     stands s tReadReq k = true ∧ (s.arrived 1 tReadReq k).staleDrop 1 tReadReq k = none ∧ formOk tReadReq k = false) ∧
    (let k := { readPk with dstDevice := 7, address := globalAddr 7 0x100 }; let s := standing tReadReq k
     stands s tReadReq k = true ∧ (s.arrived 1 tReadReq k).staleDrop 1 tReadReq k = none ∧ formOk tReadReq k = true ∧
      k.dstDevice ≠ s.lodge.deviceId) := by decide +kernel
theorem witness_PacketsAreCheckedServedAndEnd_requests :
    (let k := { readPk with address := 0x400000 }; let s := standing tReadReq k
     arrives s tReadReq k = true ∧ ∃ e, (s.arrived 1 tReadReq k).admits 1 tReadReq k = .error e) ∧
    (∀ e ∈ [(tReadReq, readPk), (tWriteReq, writePk), (tAtomicReq, atomicPk), (tSemPost, postPk)],
      let s := standing e.1 e.2
      arrives s e.1 e.2 = true ∧ ((s.arrived 1 e.1 e.2).admits 1 e.1 e.2).isOk = true ∧
        (s.arrived 1 e.1 e.2).awayPages (locOf e.2.address) 32 = [] ∧ clean s = true) ∧
    ((standing tReadReq readPk).arrived 1 tReadReq readPk).suppressedBy 0x100 32 5 = none ∧
    ((standing tReadReq readPk active lent).arrived 1 tReadReq readPk).suppressedBy 0x100 32 5 = some 9 :=
  ⟨⟨by decide +kernel, ⟨_, rfl⟩⟩, by decide +kernel, by decide +kernel, by decide +kernel⟩
theorem witness_PacketsAreCheckedServedAndEnd_repairs :
    (∀ e ∈ [(repairPk, false), ({ repairPk with address := 0x8000000 }, true)], let s := standing tRepairRead e.1
     stands s tRepairRead e.1 = true ∧ (s.arrived 1 tRepairRead e.1).staleDrop 1 tRepairRead e.1 = none ∧ e.1.vc = 2 ∧
      e.1.dstDevice = s.lodge.deviceId ∧ clean s = true ∧ (s.arrived 1 tRepairRead e.1).repairRefused e.1 = e.2) ∧
    (let k := { repairPk with address := 0x8000000 }
     ((standing tRepairRead k).arrived 1 tRepairRead k).suppressedBy 0x8000000 256 5 = none) ∧
    ((standing tRepairRead repairPk active lent).arrived 1 tRepairRead repairPk).suppressedBy 0x100 256 5 = some 9 ∧
    (let k := { repairPk with vc := 1 }; stands (standing tRepairRead k) tRepairRead k = true) ∧
    (let k := { repairPk with dstDevice := 7, address := globalAddr 7 0 };
        stands (standing tRepairRead k) tRepairRead k = true) := by
  decide +kernel
theorem witness_PacketsAreCheckedServedAndEnd_responses :
    (let k := { fromFive with vc := 1, length := 16, payload := le 16 5 }
     arrives (standing tReadRsp k) tReadRsp k = true ∧ Map.get? (standing tReadRsp k).fabric.requests k.tag = none ∧
      (∀ e ∈ [(tReadReq, 5), (tWriteReq, 5), (tReadReq, 7)], let s := standing tReadRsp k active (waiting e.1 e.2)
        arrives s tReadRsp k = true ∧ (Map.get? s.fabric.requests k.tag).any (fun r =>
          (responseType r.out.type == tReadRsp && r.out.packet.dstDevice == 5) == (e == (tReadReq, 5))) = true)) ∧
    (∀ e ∈ [(0, true), (99999000, false)],
      (Map.get? (waiting tReadReq 5 (some e.1) ready).fabric.requests 3).map (fun r => r.over ready.now) = some e.2) := by
  decide +kernel

/-- A flow to device 5 by port 1, whose ports are as given, with port 2 as the other way. -/
def flowing (one two : Port) : State :=
  { ready with fabric := { ready.fabric with flows := [(flowKey 5 0, 1)], routes := [(5, 6)], ports := [{}, one, two, {}, {}, {}] } }
theorem witness_PacketsAreCheckedServedAndEnd_flows :
    (flowing active {}).portUp 1 = true ∧
    (let s := flowing { state := .failed, queue := [toFive tReadReq] } {}
     Map.get? s.fabric.flows (flowKey 5 0) = some 1 ∧ s.portUp 1 = false ∧ s.choosePort 5 0 = none) ∧
    (let s := flowing { state := .failed, queue := [toFive tReadReq] } active
     s.portUp 1 = false ∧ s.choosePort 5 0 = some 2) := by decide +kernel

/-- Control packets (virtual channel 0, context 0), each at the front of port 1 of a module, `ACTIVE` or not yet. -/
def ctlPk : Packet := { fromFive with ctxId := 0, ctxGeneration := 0, operand := 77 }
def timePk : Packet := { ctlPk with length := 32, payload := le 8 100 ++ le 8 200 ++ le 8 3 ++ zeros 8 }
def keyingPort : Port := { active with state := .keying }
theorem witness_ControlPacketsAndTime :
    (1 < ready.fabric.ports.length ∧ 1 < ready.variant.ports ∧ ready.host.resetBusy = false) ∧
    (∀ e ∈ [(tHello, ctlPk), (tHelloRsp, ctlPk), (tGenRetire, { ctlPk with ctxId := 4 }), (tTimeSync, ctlPk), (tTimeRsp, timePk)],
      arrives (standing e.1 e.2) e.1 e.2 = true) ∧
    (∀ t ∈ [tHello, tHelloRsp], let s := standing t ctlPk keyingPort
      arrives s t ctlPk = true ∧ (s.port 1).state ≠ .active ∧ ctlPk.hops = 0) ∧
    (((withPort active).port 1).state = .active ∧ ready.parentPort = none) ∧
    (ready.lodge.phase ≠ .off ∧ State.reset.lodge.phase = .off) ∧
    (let s := ready.modLodge fun l => { l with settings := { l.settings with timeSource := 1 }, everLocked := true }
     s.lodge.phase ≠ .off ∧ s.lodge.settings.timeSource = 1 ∧ s.lodge.everLocked = true ∧
      -(10000000000 * 65536) ≤ (5 : Int) ∧ (-(20000000000 * 65536) : Int) < -(10000000000 * 65536)) ∧
    (let s := ready.modLodge fun l => { l with time16 := 2000000000 * 65536 }
     s.lodge.syncNow = 0 ∧ s.lodge.lastLocked + 1000000000 ≤ s.now) ∧
    (∀ t ∈ [(5, true), (5000000000, false)], let s := ready.modLodge fun l => { l with sourceBehind := true, behindAt := t.1 }
      s.lodge.sourceBehind = true ∧ decide (s.lodge.behindAt ≤ s.now) = t.2) ∧
    ready.lodge.sourceBehind = false := by decide +kernel

/-- The header of a packet from member 1 of the group of `standing`, to member 0, and the packet of a sub-operation. -/
def collHd : CollHdr :=
  { group := 1, dstCtx := 1, epoch := 3, matchKey := 4, kind := 0, op := 8, redop := 0, nodeFormat := 0, src := 1, dst := 0
    aFormat := 0, dFormat := 0, root := 0, shape := 0, target := 0, planEpoch := 0, piece := 0, offset := 0 }
def collPk (sub : Nat) (h : CollHdr) : Packet :=
  { fromFive with vc := 4, operation := sub, length := h.bytes.length, payload := h.bytes, address := 0 }
/-- A running collective of the group, and a request of it to member 1. -/
def collRun : Coll := { ctx := 1, group := 1, epoch := 3, kind := 0, matchKey := 4, unit := .op t0 50, op := 8, stage := 1 }
def collecting (sub : Nat) (h : CollHdr) (u : ReqUnit := .probe 1 1) (c : Coll := collRun) : State :=
  standing tColl (collPk sub h) active fun s => { s with
    ctxs := s.ctxs ++ [(4, { state := .draining })]
    fabric := { s.fabric with requests := [(3, { unit := u, port := some 1, timer := some 0, out := toFive tColl })] }
    coll := { s.coll with active := [(1, c)], claims := [(0x40, { ctx := 1, number := 4, since := 0 }),
      (0x80, { ctx := 1, number := 4, since := 99999999 })] } }

theorem witness_CollectivePacketsReachTheirCollective :
    (∀ sub ∈ [subData, subResult, subPieceAck, subReady, subArrive, subClaim, subFwwData, subFlag, subProbe, subProbeRsp,
        subClaimRsp, subFwwAck], let k := collPk sub collHd; let s := collecting sub collHd
      arrives s tColl k = true ∧ k.operation = sub ∧ 48 ≤ k.payload.length ∧
        ((s.arrived 1 tColl k).headerGroup (CollHdr.parse k.payload)).any fun g =>
          (s.arrived 1 tColl k).memberOk g k (CollHdr.parse k.payload) && g.epoch == (CollHdr.parse k.payload).epoch) ∧
    (let k := { collPk subData collHd with length := 32, payload := zeros 32 }
     arrives (standing tColl k) tColl k = true ∧ k.payload.length < 48) ∧
    (let h := { collHd with group := 2 }; let k := collPk subData h; let s := collecting subData h
     arrives s tColl k = true ∧ ((s.arrived 1 tColl k).headerGroup (CollHdr.parse k.payload)).isNone = true) ∧
    (let h := { collHd with src := 2 }; let k := collPk subData h; let s := collecting subData h
     arrives s tColl k = true ∧ ((s.arrived 1 tColl k).headerGroup (CollHdr.parse k.payload)).any fun g =>
      !(s.arrived 1 tColl k).memberOk g k (CollHdr.parse k.payload)) ∧
    (let h := { collHd with epoch := 2 }; let k := collPk subData h; let s := collecting subData h
     arrives s tColl k = true ∧ ((s.arrived 1 tColl k).headerGroup (CollHdr.parse k.payload)).any fun g =>
      (s.arrived 1 tColl k).memberOk g k (CollHdr.parse k.payload) && g.epoch != (CollHdr.parse k.payload).epoch) := by
  decide +kernel
theorem witness_CollectivePacketsReachTheirCollective_probes :
    (let h := { collHd with dstCtx := 4 }; let k := collPk subProbe h; let s := collecting subProbe h
     arrives s tColl k = true ∧ (s.ctx (CollHdr.parse k.payload).dstCtx).state = .draining) ∧
    ((collecting subProbe collHd).ctx (CollHdr.parse (collPk subProbe collHd).payload).dstCtx).state ≠ .draining ∧
    (let s := collecting subProbeRsp collHd; let hd := CollHdr.parse (collPk subProbeRsp collHd).payload
     (Map.get? s.fabric.requests 3).any (fun r => r.unit == .probe 1 1) = true ∧ s.coll? 1 = some collRun ∧
      collRun.epoch = hd.epoch ∧ collRun.matchKey = hd.matchKey ∧ collRun.kind = hd.kind ∧ hd.src = 1) ∧
    (Map.get? (collecting subClaimRsp collHd (.claim 1)).fabric.requests 3).any (fun r => r.unit == .claim 1) = true ∧
    (let c := { collRun with op := opFwwPut }; let s := collecting subFwwAck collHd (.claim 1) c
     s.collOf (CollHdr.parse (collPk subFwwAck collHd).payload) = some 1 ∧ s.coll? 1 = some c ∧ c.stage = 1) ∧
    (∀ e ∈ [(0x40, true), (0x80, false)], let s := collecting subData collHd
      (Map.get? s.coll.claims e.1).any (fun c => decide (c.since + 2 * s.timeoutOf c.ctx * 1000 ≤ s.now) == e.2) = true) ∧
    (let s := collecting subData collHd
     (s.coll? 1).any (fun c => (s.group? c.ctx c.group).isSome && c.stage == 1 && (s.ctx c.ctx).state == .active) = true ∧
      ((s.modCtx 1 fun x => { x with state := .suspended }).ctx 1).state ≠ .active) := by decide +kernel

/-- A twin packet at the front of port 0, which leads to device 5, on a module whose Party Wall is as given. -/
def twinPk (sub : Nat) (b : Bytes := []) (a : Nat := 0x1000) : Packet :=
  { fromFive with vc := 5, ctxId := 0, ctxGeneration := 0, operation := sub, operand := 5, address := BitVec.ofNat 64 a
                  length := b.length, payload := b }
def twinned (w : Twin) (k : Packet) : State :=
  let s := standing tTwin k active fun s => { s with strongroom := { s.strongroom with loans := [{ id := 9, model := 1, devices := [0] }] } }
  { s with twin := w, memory := { s.memory with mirrorTaken := true }, fabric := { s.fabric with ports := s.fabric.ports.set 0 active } }
def twinArrives (w : Twin) (sub : Nat) (k : Packet) : Bool :=
  let s := twinned w k
  arrives s tTwin k && k.operation == sub && k.ctxId == 0 && s.twinMay sub k.srcDevice
theorem twinArrives_of {w : Twin} {sub : Nat} {k : Packet} (h : twinArrives w sub k = true) :
    TwinArrives (twinned w k) 1 sub k := by
  simp only [twinArrives, Bool.and_eq_true, beq_iff_eq] at h
  exact { arrives_of h.1.1.1 with operation := h.1.1.2, context := h.1.2, may := h.2 }

def entryFive : MirrorEntry := { ownerDevice := 5, state := .current, ckptId := 5, offset := 0, bytes := 8192, ranges := [] }
def single : Twin := { State.reset.twin with state := .single, twinDevice := 5, offered := some (5, 2), mirrorGib := 2 }
def paired : Twin :=
  { single with state := .paired, held := [entryFive, { state := .incoming, ownerDevice := 5, ckptId := 9 }], mirror := [(0x1001, 8)] }
def adopting (role : Nat) : Twin := { paired with state := .adopting, adoptRole := role }
def offerPk : Packet := twinPk 1 (le 16 2)
def dataPk : Packet := { twinPk 3 (List.replicate 32 7) with operand := 9 }
def commitPk : Packet := { twinPk 5 (zeros 64) with operand := 9 }
def dirPk (sub : Nat) : Packet := twinPk sub (zeros 7 ++ le 1 1 ++ le 8 44 ++ le 8 55 ++ zeros 40)
/-- When the pair's link left `ACTIVE`, before the grace is over and after. -/
def parted (left : Nat) : State :=
  let s := twinned { paired with twinDevice := 7 } offerPk
  { s with fabric := { s.fabric with ports := s.fabric.ports.set 0 { active with leftActive := left } }
           lodge := { s.lodge with time16 := 20000000000 * 65536 } }

theorem witness_TwinPacketsKeepThePair :
    (∀ w ∈ [single, paired, adopting 2, adopting 1], twinArrives w 1 offerPk = true) ∧
    (twinArrives single 2 (twinPk 2) = true ∧ twinArrives paired 2 (twinPk 2) = true) ∧
    (∀ e ∈ [(paired, true), ({ paired with mirrorGib := 0 }, false)], twinArrives e.1 3 dataPk = true ∧
      (twinned e.1 dataPk).mirrorTakes 5 dataPk.operand (locOf dataPk.address) dataPk.payload.length = e.2) ∧
    twinArrives paired 4 (twinPk 4) = true ∧
    (∀ e ∈ [(commitPk, true), ({ commitPk with operand := 5 }, false)],
      twinArrives paired 5 e.1 = true ∧ (paired.held.any fun x => x.fills 5 e.1.operand) = e.2) ∧
    (∀ e ∈ [(0x1000, true), (0x3000, false)], twinArrives paired 6 (twinPk 6 [] e.1) = true ∧
      (paired.held.find? fun x => x.state == .current && decide (x.offset ≤ e.1) &&
          decide (e.1 < x.offset + x.bytes)).isSome = e.2) ∧
    (let s := twinned paired (twinPk 6)
     s.entryLoan entryFive 5 = none ∧ s.entryLoan { entryFive with loans := [9] } 5 = some 9) ∧
    (twinArrives paired 7 (twinPk 7 (List.replicate 16 7)) = true ∧ twinArrives paired 8 (dirPk 8) = true) ∧
    (twinArrives (adopting 2) 9 (dirPk 9) = true ∧ twinArrives (adopting 1) 9 (dirPk 9) = true) ∧
    (let k := { offerPk with srcDevice := 6 }; let s := twinned paired k
     (Map.get? s.fabric.incarnations 6).isNone = true ∧ s.twinMay 1 6 = false) ∧
    (let k := { offerPk with ctxId := 1, ctxGeneration := 1 }; arrives (twinned paired k) tTwin k = true ∧ k.ctxId ≠ 0) ∧
    (∀ e ∈ [(0, true), (19000000000, false)], let s := parted e.1
      s.twin.state ≠ .single ∧ s.stewardRunning = true ∧ s.linkedTo s.twin.twinDevice = false ∧
        decide ((s.port 0).leftActive + s.lodge.settings.twinGraceS * 1000000000 ≤ s.now) = e.2) := by decide +kernel

/-- A module in a phase of its bring-up, at a level of service. -/
def inPhase (p : Phase) (level : Nat := 1) : State :=
  { ready with serviceLevel := level, lodge := { ready.lodge with phase := p, powerCap := 400 } }
def withLodge (f : Lodge → Lodge) (s : State := ready) : State := { s with lodge := f s.lodge }

theorem witness_BringUpReachesService :
    (State.reset.lodge.phase = .off ∧ State.reset.lodge.inputShort = false ∧ State.reset.lodge.leak = false) ∧
    (ready.lodge.phase ≠ .off ∧ (inPhase .keys).lodge.phase = .keys) ∧
    (∀ b ∈ [0, 1], let s := withLodge (fun l => { l with activeSlot := b }) (inPhase .firmware)
      s.lodge.phase = .firmware ∧ s.host.resetBusy = false ∧ s.lodge.activeSlot = b) ∧
    ((inPhase .checking).lodge.phase = .checking ∧ (inPhase .checking).host.resetBusy = false) ∧
    (let s := inPhase .foyer
     s.lodge.phase = .foyer ∧ s.serviceLevel = 1 ∧ (∀ p < s.variant.ports, (s.port p).state ≠ .active ∧
         (s.port p).state ≠ .retraining)) ∧
    (let s := { inPhase .foyer with permittedRate := 64, fabric := { ready.fabric with ports := ready.fabric.ports.set 2 { state := .active } } }
     s.lodge.phase = .foyer ∧ s.serviceLevel = 1 ∧ (∀ i < s.variant.ports, (s.port i).state ≠ .retraining) ∧
      s.nextRetrain = some 2 ∧ 2 < s.fabric.ports.length) ∧
    (inPhase .full 2).serviceLevel ≠ 1 := by decide +kernel

theorem witness_PowerHeatAndLeaksProtect :
    (ready.lodge.phase ≠ .off ∧ ready.lodge.phase ≠ .shutdown ∧ State.reset.lodge.phase = .off ∧ ready.chipOn = true ∧
      State.reset.chipOn = false) ∧
    (let s := withLodge (fun l => { l with inputSamples := List.replicate 8 4000000 }); s.lodge.inputSamples.length < 9) ∧
    (let s := withLodge (fun l => { l with inputSamples := List.replicate 9 4000000, powerCap := 400 })
     9 ≤ s.lodge.inputSamples.length ∧ 10 * (s.lodge.powerCap * 10000) < s.lodge.inputSamples.sum + 480 * 100000 ∧
      s.lodge.withholding = false) ∧
    (ready.lodge.throttling = false ∧ ready.lodge.countdown = none) ∧
    (let s := withLodge (fun l => { l with countdown := some 0, time16 := 6000000000 * 65536 })
     s.lodge.countdown = some 0 ∧ 0 + 5000000000 ≤ s.now) := by decide +kernel

/-- One session, 70 s after reset, and datagrams of it; the tag that the session's key gives is `Config.gcmTag`'s, which
is free, so a valid datagram is the one with that tag. -/
def oneSession : Session := { id := 1, opened := 0, lastHeard := 5, next := 3, replies := [(2, [1, 2, 3])] }
def later (f : Lodge → Lodge := id) : State := withLodge fun l => f { l with time16 := 70000000000 * 65536 }
def openMsg : OpenMessage := { opAlg := 1, operatorKey := zeros 32, nonce := zeros 32, kemCt := zeros 1568, signature := [] }
def unsealed (seq : Nat) : Datagram := { session := 1, sequence := seq, messageLength := 32, tag := 0, body := zeros 32 }
def sealed (seq : Nat) : Datagram :=
  { unsealed seq with tag := Config.gcmTag oneSession.rxKey (oneSession.rxSalt ++ le 8 seq) (datagramHeader (unsealed seq)) (Config.gcmCrypt oneSession.rxKey (oneSession.rxSalt ++ le 8 seq) (zeros 32)) }
def openTxn (t : Nat) : Txn := { id := 9, state := .opened, time := t, timeoutMs := 100 }
def loanTo (t : Nat) : Loan := { id := 9, model := 1, notAfter := t }
def working (w : Work) (s : State := later) : State := { s with host := { s.host with commands := [outstanding 7 w] } }
theorem sealed_ok : datagramOk oneSession (sealed 2) = true ∧ datagramOk oneSession (sealed 3) = true := by
  simp only [datagramOk, Bool.and_eq_true, decide_eq_true_eq]
  exact ⟨⟨by decide +kernel, rfl⟩, by decide +kernel, rfl⟩

/-- An operator's key is enrolled by its hash, which is free too. -/
def enrolled : State := later fun l => { l with settings := { l.settings with operatorKeys := [Config.sha256 (padTo 64 openMsg.operatorKey)] } }
theorem known_of {s : State} {m : OpenMessage} (form : m.opAlg = 1 ∧ m.reserved = 0 ∧ m.operatorKey.length ≤ 64 ∧
    m.nonce.length = 32 ∧ m.kemCt.length = 1568)
    (key : s.lodge.settings.operatorKeys = [Config.sha256 (padTo 64 m.operatorKey)]) : s.openKnown m = true := by
  simp [State.openKnown, form, key]
theorem enrolled_known : enrolled.openKnown openMsg = true := known_of (by decide +kernel) rfl

/-- Whether a signature verifies and a ciphertext decapsulates is free (`Config.verify`, `Config.decapsulate`); every other
condition is met here. -/
theorem witness_SessionsAndTimeLimits :
    (enrolled.lodge.phase ≠ .off ∧ enrolled.catalogueFull = false ∧
      enrolled.strongroom.state = .ready ∧ enrolled.lodge.sessions.length < 4 ∧
      enrolled.openKnown { openMsg with opAlg := 3 } = false) ∧
    (let s := later fun l => { l with sessions := [oneSession] }
     s.session? 1 = some oneSession ∧ s.session? 7 = none ∧ s.lodge.sessions = [oneSession] ∧
      datagramOk oneSession { unsealed 3 with messageLength := 16 } = false ∧
      (s.lodge.lastTelemetry + s.lodge.settings.telemetryMs * 1000000 ≤ s.now)) ∧
    (oneSession.next ≤ 3 ∧ 2 < oneSession.next ∧ Map.has oneSession.ahead 3 = false ∧ Map.get? oneSession.partials 3 = none ∧
      (joinFragment 0 none (sealed 3)).whole = some (zeros 32)) ∧
    (oneSession.lastHeard + 60000000000 ≤ later.now ∧ later.now < later.now - 5 + 60000000000) ∧
    (let s := later fun l => { l with lastTelemetry := 70000000000 }
     s.now < s.lodge.lastTelemetry + s.lodge.settings.telemetryMs * 1000000) ∧
    (unitsSince later.correctedErrors later.lodge.correctedBase 1000 = 0 ∧
      unitsSince later.replays later.lodge.replaysBase 10000 = 0) ∧
    (∀ t ∈ [(0, true), (70000000000, false)], let s := later fun l => { l with txns := [openTxn t.1] }
      (s.txn? 9).any (fun x => x.state == .opened && !x.committing) = true ∧
        decide (t.1 + (openTxn t.1).timeoutMs * 1000000 ≤ s.now) = t.2) ∧
    (∀ t ∈ [(5, true), (70000000005, false)],
      let s := { later with strongroom := { ready.strongroom with loans := [loanTo t.1] } }
      s.loan? 9 = some (loanTo t.1) ∧ t.1 ≠ 0 ∧ s.loanBusy 9 = false ∧ decide ((loanTo t.1).notAfter ≤ s.now) = t.2) ∧
    (later.strongroom.quotes = [] ∧
      later.host.commands.find? (fun e => e.2.work == .activate || e.2.work == .probation) = none) ∧
    (let s := working .activate (later fun l => { l with stagedFw := some {} })
     (s.host.commands.find? fun e => e.2.work == .activate) = some (outstanding 7 .activate) ∧ s.lodge.stagedFw = some {}) ∧
    ((working .probation).host.commands.find? fun e => e.2.work == .probation) = some (outstanding 7 .probation) := by
  decide +kernel

/-- Rings 0 and 1 bound, with local memory that context 1 maps. -/
def ringOf (c : Nat) : Ring :=
  { state := .bound, cmdLog2 := 8, replyLog2 := 8, boundCtx := c, cmdTail := 5, cmdHead := 2, replyTail := 7, replyHead := 6
    cmdBase := 0x100000, replyBase := 0x200000 }
def ringed (x : Ring := ringOf 1) (h : HostIf → HostIf := id) : State :=
  { ready with host := h { ready.host with rings := [(0, ringOf 0), (1, x)] }
               memory := { ready.memory with bytes := [(0x100, 5), (0x108, 0x80)], pages := [(0, { owner := .ctx 1 }), (1, { owner := .ctx 1 })] } }
/-- A command as a ring's entries spell it: an opcode, a context, a ring and a length of parameters. -/
def entry (op ctx ring len : Nat) : Bytes := le 2 op ++ le 2 ctx ++ le 2 ring ++ le 2 len ++ zeros 24

theorem witness_HostRegistersWindowsAndRings :
    (ringed.deviceReady = true ∧ State.reset.deviceReady = false ∧ (ringed.ring 1).state = .bound ∧
      (ringed.ring 2).state = .unbound) ∧
    (let tail := BitVec.setWidth 32 (0x0000000700000006 : Word)
     let head := BitVec.setWidth 32 ((0x0000000700000006 : Word) >>> 32)
     (tail - (ringed.ring 1).cmdHead).toNat ≤ (ringed.ring 1).cmdSize ∧
      ((ringed.ring 1).replyTail - head).toNat ≤ (ringed.ring 1).replySize) ∧
    ((ringed.ring 1).cmdSize < (BitVec.setWidth 32 (0x0000000700000200 : Word) - (ringed.ring 1).cmdHead).toNat) ∧
    ((1 : BitVec 32).getLsbD 0 = true ∧ (2 : BitVec 32).getLsbD 0 = false ∧ ringed.lodge.phase ≠ .off) ∧
    ((ringed (ringOf 1) fun h => { h with snapshotBusy := true }).host.snapshotBusy = true ∧ ringed.host.snapshotBusy = false) ∧
    (ringed.chipOn = true ∧ ringed.host.resetBusy = false ∧ State.reset.chipOn = false ∧
      (∀ d ∈ [(1, 0), (2, 0), (3, 1), (4, 0)], ringed.resetStands d.1 d.2 = true) ∧ 0 < ringed.variant.arrays ∧
      ringed.resetStands 1 1000 = false ∧ ringed.chipResetting = false) ∧
    (let s := ringed (ringOf 1) fun h => { h with bar2Base := 0x100, bar2Ctx := 1 }
     (unitsOf pageBytes 0x100 16).all (s.bar2Reaches false) = true ∧
         (unitsOf pageBytes 0x100 16).all (s.bar2Reaches true) = true ∧
      s.boundTo 0x100 16 = none ∧ s.awayPages 0x100 16 = [] ∧ clean s = true ∧ s.host.writesWaiting = []) ∧
    (let s := ringed { ringOf 1 with state := .draining }; (s.ring 1).state = .draining ∧ (s.ring 1).outstanding = 0) ∧
    (ringed { ringOf 1 with outstanding := 3 }).ring 1 ≠ {} ∧
        ((ringed { ringOf 1 with outstanding := 3 }).ring 1).outstanding ≠ 0 ∧
    (ringed.stewardRunning = true ∧ (ringed.ring 1).waiting ≠ 0 ∧ ringed.lodge.sessions = [] ∧
      State.reset.stewardRunning = false) := by decide +kernel

/-! ### Host commands -/

/-- A module in full service with rings 0, 1 and 3 bound, one session, and transactions of ring 1, of the session, and one
that has committed. Contexts 1 and 2 are `ACTIVE`, 3 is `SUSPENDED` and 4 `DRAINING`. -/
def served : State := { later with
  host := { ready.host with rings := [(0, { ringOf 0 with cmdTail := 100 }), (1, { ringOf 1 with cmdTail := 100 }),
    (2, { ringOf 0 with state := .unbound }), (3, ringOf 1)] }
  lodge := { later.lodge with sessions := [oneSession], txns := [
    { openTxn 70000000000 with origin := 1 }, { openTxn 70000000000 with id := 10, origin := 2, originIndex := 1 },
    { openTxn 70000000000 with id := 11, state := .committed, origin := 1 }] }
  ctxs := [(1, { state := .active, generation := 1, maxArrays := 4, maxThreads := 4, quota := {
      atticLimit := 1000, cellarPinLimit := 1000, pantryCellarLimit := 4096, pantryLimit := 4096 } }),
    (2, { state := .active, generation := 3 }), (3, { state := .suspended, generation := 3 }),
    (4, { state := .draining, generation := 3 })]
  memory := { ready.memory with bytes := [(0x100, 5), (0x108, 0x80)], pages := [(0, { owner := .ctx 1 }),
    (1, { owner := .ctx 1 }), (5, { owner := .ctx 1, state := .dropped })] } }
/-- n bytes of parameters with fields (offset, size, value), and the header of a command on a ring or in the session. -/
def params (n : Nat) (l : List (Nat × Nat × Nat)) : Bytes :=
  l.foldl (fun b e => b.take e.1 ++ le e.2.1 e.2.2 ++ b.drop (e.1 + e.2.1)) (zeros n)
def inSession (n : Nat) : CmdHeader :=
  { ring := 0xFFFF, session := 1, ctxId := 0, ringId := 0xFFFF, paramLength := BitVec.ofNat 16 n }
def stepGuarded : State :=
  { served with guards := [{ ctx := 1, step := 7 }]
                coll := { served.coll with groups := [(groupKey 1 3, { members := [(0, 1)], epoch := 1, own := 0, runs := 1 })] } }
def withModel : State := { served with memory := { served.memory with model := .resident, modelId := 77 } }
def loaned : State :=
  { served with strongroom := { served.strongroom with loans := [{ id := 9, model := 1, notAfter := 0, presenter := 1 }] } }
def attended : State := { served with attnPending := [(1, 2, 3), (0, 4, 250)] }
def portless : State := served.modPort 0 fun x => { x with state := .disabled }
def mirrored : State :=
  let e : MirrorEntry := { ckptId := 77, ownerDevice := 0, ownerCtx := 1, state := .current }
  { served with twin := { served.twin with state := .paired, twinDevice := 5, mirrorGib := 2, held := [e], own := [e] } }
def joined : State := served.modPort 0 fun x => { x with state := .active, neighbourDevice := 7 }
def noticed : State := served.modCtx 1 fun x => { x with notice := { spilled := 1 } }

/-- Whether the command of an opcode with n bytes of parameters on a ring of a context, or in the session, runs from a
state, each condition of `Runs`; and whether a condition of its own holds of what its rules look at. -/
def taken (s : State) (op : Nat) (h : CmdHeader) : Bool :=
  h.paramLength.toNat ≤ 4096 && (if h.session ≠ 0 then (s.session? h.session).isSome && s.sessionTakes h.session op
    else s.ringTakes h.ring op h.paramLength.toNat)
def runs (s : State) (op : Nat) (h : CmdHeader) (p : Bytes) : Bool :=
  let k := (s.begun op h p).2.1
  let v := (s.begun op h p).2.2
  let q := padTo h.paramLength.toNat p
  taken s op h && (checkForm k q).isNone && !v.absentUnit op q && !v.unitWaits op q && !(namedCtx op q).any v.noCtx
    && !v.outOfService op && !v.noticed k && h.txnId == 0
theorem taken_of {s : State} {op : Nat} {h : CmdHeader} (t : taken s op h = true) : Taken s op h := by
  simp only [taken, Bool.and_eq_true, decide_eq_true_eq] at t
  refine ⟨t.1, ?_⟩
  have := t.2
  split at this <;> simp_all
theorem runs_of {s : State} {op : Nat} {h : CmdHeader} {p : Bytes} (r : runs s op h p = true) : Runs s op h p := by
  simp only [runs, Bool.and_eq_true, Bool.not_eq_true', Option.isNone_iff_eq_none, beq_iff_eq] at r
  obtain ⟨⟨⟨⟨⟨⟨⟨a, b⟩, c⟩, d⟩, e⟩, f⟩, g⟩, i⟩ := r
  exact ⟨taken_of a, b, c, d, e, f, g, i⟩
def meets (s : State) (op : Nat) (h : CmdHeader) (p : Bytes) (pre : State → OutCmd → Bytes → Bool) : Bool :=
  runs s op h p && pre (s.begun op h p).2.2 (s.begun op h p).2.1 (padTo h.paramLength.toNat p)

theorem witness_DeviceContextAndMemoryCommandsAct_one :
    (meets served 0x0000 (hdr 1 1 0) [] (fun _ _ _ => decide (True)) = true) ∧
    (meets served 0x0001 (hdr 0 0 8) (params 8 [(0, 4, 2000)]) (fun _ _ q => decide (1000 ≤ field q 0 4 ∧
        field q 0 4 ≤ 1000000)) = true) ∧
    (meets served 0x0002 (hdr 1 1 8) (params 8 [(0, 8, 0x1000)]) (fun _ k q => decide (k.outOk (field q 0 8) = true)) = true) ∧
    (meets attended 0x0003 (hdr 0 0 4) (params 4 []) (fun _ _ _ => decide (True)) = true) ∧
    (meets attended 0x0004 (hdr 0 0 24) (params 24 [(8, 4, 1), (16, 8, 0x1000)]) (fun _ k q => decide (field q 0 1 ≤ 1 ∧
        1 ≤ field q 8 4 ∧ field q 8 4 ≤ 256 ∧
      k.outOk (field q 16 8) = true)) = true) ∧
    (meets served 0x0005 (hdr 1 1 16) (params 16 [(0, 1, 8), (2, 2, 1), (4, 2, 0), (6, 2, 2), (8, 8, 0x1000)]) (fun v k q => decide ((k.ctx = 0 ∨ (field q 0 1 = 0x08 ∧ field q 2 2 = k.ctx)) ∧
      v.countersExist (field q 0 1) (field q 2 2) (field q 4 2) (field q 6 2) = true ∧ k.outOk (field q 8 8) = true)) = true) ∧
    (meets served 0x0006 (hdr 1 1 0) [] (fun _ _ _ => decide (True)) = true) ∧
    (meets served 0x0100 (hdr 0 0 72) (params 72 [(0, 2, 9), (2, 1, 1), (3, 1, 2), (4, 1, 3), (8, 8, 77), (16, 8, 1), (24, 8, 4), (32, 8, 1), (40, 8, 4096), (48, 8, 4096)]) (fun v _ q => decide (let id := field q 0 2
      let quota := Quota.read (q.drop 16)
      let new : Ctx := { state := .active, generation := (v.ctx id).generation, priority := field q 2 1, maxArrays := field q 3 1, maxThreads := field q 4 1, model := BitVec.ofNat 64 (field q 8 8), quota := quota, savePages := savePagesOf (field q 3 1) (field q 4 1) }
      1 ≤ id ∧ id ≤ 16383 ∧ (v.ctx id).state = .unused ∧ field q 2 1 ≤ 3 ∧ 1 ≤ field q 3 1 ∧ field q 3 1 ≤ 64 ∧
      1 ≤ field q 4 1 ∧ field q 4 1 ≤ 64 ∧ field q 8 8 ≠ 0 ∧ quota.unitsOk = true ∧ v.lodge.probation ≠ 1 ∧
      v.memory.model = .none ∧ ((v.allocate 3 new.savePages).any fun w => (w.modCtx id fun _ => new).claimsFit &&
          w.ctx id == v.ctx id) = true)) = true) ∧
    (meets served 0x0101 (hdr 0 0 8) (params 8 [(0, 2, 1)]) (fun v _ q => decide (v.noCtx (field q 0 2) = false ∧
        (v.ctx (field q 0 2)).state ≠ .draining)) = true) := by decide +kernel

theorem witness_DeviceContextAndMemoryCommandsAct_two :
    (meets served 0x0102 (hdr 0 0 8) (params 8 [(0, 2, 1)]) (fun v _ q => decide (v.noCtx (field q 0 2) = false ∧
        (v.ctx (field q 0 2)).state ≠ .draining)) = true) ∧
    (meets served 0x0103 (hdr 0 0 8) (params 8 [(0, 2, 1)]) (fun v _ q => decide (v.noCtx (field q 0 2) = false ∧
        (v.ctx (field q 0 2)).state = .active)) = true) ∧
    (meets served 0x0104 (hdr 0 0 8) (params 8 [(0, 2, 1)]) (fun v _ q => decide (v.noCtx (field q 0 2) = false ∧
        (v.ctx (field q 0 2)).state = .active ∧
      (v.ctx (field q 0 2)).notice.spilled + (v.ctx (field q 0 2)).notice.dropped = 0)) = true) ∧
    (meets served 0x0104 (hdr 0 0 8) (params 8 [(0, 2, 3)]) (fun v _ q => decide (v.noCtx (field q 0 2) = false ∧
        (v.ctx (field q 0 2)).state = .suspended ∧
      (v.ctx (field q 0 2)).notice.spilled + (v.ctx (field q 0 2)).notice.dropped = 0)) = true) ∧
    (meets served 0x0105 (hdr 1 1 16) (params 16 [(0, 2, 1), (8, 8, 0x1000)]) (fun v k q => decide ((k.ctx = 0 ∨
        k.ctx = field q 0 2) ∧ v.noCtx (field q 0 2) = false ∧
      k.outOk (field q 8 8) = true)) = true) ∧
    (meets served 0x0106 (hdr 0 0 8) (params 8 [(0, 2, 2), (2, 2, 1)]) (fun v _ q => decide ((v.ring (field q 0 2)).state = .unbound ∧ (v.ring (field q 0 2)).valid = true ∧
      (field q 2 2 = 0 ∨ (field q 0 2 ≠ 0 ∧ v.noCtx (field q 2 2) = false ∧
          (v.ctx (field q 2 2)).state ≠ .draining)))) = true) ∧
    (meets served 0x0107 (hdr 0 0 8) (params 8 [(0, 2, 1)]) (fun v k q => decide (field q 0 2 ≠ 0 ∧ (k.header.session ≠ 0 ∨
        field q 0 2 ≠ k.header.ring) ∧
      ((v.ring (field q 0 2)).state = .bound ∨ (v.ring (field q 0 2)).state = .stopped))) = true) ∧
    (meets served 0x0200 (hdr 1 1 24) (params 24 [(0, 8, 12582912), (8, 8, 4194304), (16, 1, 1), (17, 1, 1)]) (fun v k q => decide (wholePages (field q 0 8) (field q 8 8) = true ∧ field q 16 1 ≤ 2 ∧
      field q 17 1 ≤ 1 ∧ (∀ i ∈ pagesOf (field q 0 8) (field q 8 8), Map.get? v.memory.pages i = none) ∧
      (v.ctxAllocate k.ctx (pagesOf (field q 0 8) (field q 8 8)).length).isSome = true)) = true) ∧
    (meets served 0x0201 (hdr 1 1 16) (params 16 [(8, 8, 4194304)]) (fun v k q => decide (wholePages (field q 0 8) (field q 8 8) = true ∧
      (∀ i ∈ pagesOf (field q 0 8) (field q 8 8), (Map.get? v.memory.pages i).map Page.owner = some (.ctx k.ctx)) ∧
      v.repairingIn (field q 0 8) (field q 8 8) = [])) = true) := by decide +kernel

theorem witness_DeviceContextAndMemoryCommandsAct_three :
    (meets served 0x0202 (hdr 1 1 32) (params 32 [(0, 8, 0x10000), (8, 8, 0x20000), (24, 1, 1)]) (fun v k q => decide (field q 0 8 % granuleBytes = 0 ∧ field q 8 8 % granuleBytes = 0 ∧
      field q 16 8 = 0 ∧ field q 24 1 = 1 ∧
      ((unitsOf granuleBytes (field q 0 8) (field q 8 8)).all fun g => v.pinnable k.ctx (g / 32)) = true)) = true) ∧
    (meets served 0x0202 (hdr 1 1 32) (params 32 [(0, 8, 0x10000), (8, 8, 0x20000)]) (fun v k q => decide (field q 0 8 % granuleBytes = 0 ∧ field q 8 8 % granuleBytes = 0 ∧
      field q 16 8 = 0 ∧ field q 24 1 = 0 ∧
      ((unitsOf granuleBytes (field q 0 8) (field q 8 8)).all fun g => v.pinnable k.ctx (g / 32)) = true ∧
      (let fresh := (unitsOf granuleBytes (field q 0 8) (field q 8 8)).filter fun g =>
      !(Map.getD v.memory.granules g {}).pins.contains k.ctx;
      v.pinsOf k.ctx + fresh.length ≤ (v.ctx k.ctx).quota.cellarPinLimit ∧
      (v.pinAll k.ctx fresh v.arraysInService).isSome = true))) = true) ∧
    (meets served 0x0203 (hdr 1 1 24) (params 24 [(8, 8, 2097152), (16, 1, 3)]) (fun v k q => decide (wholePages (field q 0 8) (field q 8 8) = true ∧ field q 16 1 = 3 ∧
      ∀ i ∈ pagesOf (field q 0 8) (field q 8 8), v.pinnable k.ctx i = true)) = true) ∧
    (meets served 0x0204 (hdr 1 1 32) (params 32 [(0, 8, 0x100), (8, 8, 0x200), (16, 8, 0x20)]) (fun v k q => decide (field q 24 1 = 0 ∧ field q 16 8 % 16 = 0 ∧ field q 16 8 ≤ 1073741824 ∧
      field q 0 8 % 16 = 0 ∧ field q 8 8 % 16 = 0 ∧
      rangesMeet (field q 0 8, field q 16 8) (field q 8 8, field q 16 8) = false ∧
      v.canRead k.ctx (field q 0 8) (field q 16 8) = true ∧ v.canWrite k.ctx (field q 8 8) (field q 16 8) = true ∧
      (v.returnRanges k.ctx [(field q 0 8, field q 16 8), (field q 8 8, field q 16 8)]).isSome = true)) = true) ∧
    (meets served 0x0205 (hdr 1 1 24) (params 24 [(0, 8, 0x100), (8, 8, 0x20), (16, 8, 0x1234)]) (fun v k q => decide (field q 8 8 % 16 = 0 ∧ field q 8 8 ≤ 1073741824 ∧ field q 0 8 % 16 = 0 ∧
      v.canWrite k.ctx (field q 0 8) (field q 8 8) = true ∧
      (v.returnRanges k.ctx [(field q 0 8, field q 8 8)]).isSome = true)) = true) ∧
    (meets served 0x0206 (hdr 0 0 64) (params 64 [(0, 2, 1), (4, 4, 2), (16, 8, 9)]) (fun v _ q => decide (let c := field q 0 2
      let w := v.modCtx c fun x => { x with quota := x.quota.select (Quota.read (q.drop 8)) (field q 4 4) }
      v.noCtx c = false ∧ field q 4 4 ≤ 127 ∧ (Quota.select {} (Quota.read (q.drop 8)) (field q 4 4)).unitsOk = true ∧
      w.poolClaims ≤ v.poolClaims ∧ w.cellarClaims ≤ v.cellarClaims)) = true) ∧
    (meets served 0x0207 (hdr 1 1 80) (params 80 [(8, 8, 0x10000)]) (fun v k q => decide (field q 0 8 % granuleBytes = 0 ∧
        field q 8 8 % granuleBytes = 0 ∧
      field q 0x10 1 = 0 ∧ field q 0x11 1 = 0 ∧ field q 0x12 2 = 0 ∧ v.canRead k.ctx (field q 0 8) (field q 8 8) = true ∧
      (v.memory.provenance.flatMap fun r => if rangesMeet (r.base, r.length) (field q 0 8, field q 8 8) then
      r.outside (field q 0 8) (field q 8 8) else [r]).length ≤ 16384)) = true) := by decide +kernel

theorem witness_FleetSecurityAndOperatorCommandsAct_one :
    (meets served 0x0300 (hdr 0 0 56) (params 56 [(0, 8, 77), (8, 1, 1), (0x18, 8, 16777216), (0x20, 8, 2101248)]) (fun v _ q => decide (let n := (unitsOf pageBytes (field q 0x18 8) (field q 0x20 8)).length
      field q 0 8 ≠ 0 ∧ field q 8 1 = 1 ∧ field q 0x10 8 % 4096 = 0 ∧ field q 0x18 8 % pageBytes = 0 ∧
      field q 0x20 8 % 4096 = 0 ∧ field q 0x18 8 + field q 0x20 8 ≤ deviceEnd ∧
      (∀ i ∈ unitsOf pageBytes (field q 0x18 8) (field q 0x20 8), Map.has v.memory.pages i = false) ∧
      v.lodge.probation ≠ 1 ∧ v.memory.model = .none ∧ ((v.poolClaims + n : Nat) : Int) ≤ v.poolCapacity ∧
      (v.allocate 3 n).isSome = true)) = true) ∧
    (meets withModel 0x0301 (hdr 0 0 8) (params 8 [(0, 8, 77)]) (fun v _ q => decide (v.memory.model = .resident ∧
        v.memory.modelId = BitVec.ofNat 64 (field q 0 8) ∧
      v.twin.stream = none ∧ (v.liveCtxs.any fun e => e.2.model == BitVec.ofNat 64 (field q 0 8)) = false)) = true) ∧
    (meets served 0x0302 (hdr 1 1 16) (params 16 [(0, 8, 0x1000), (8, 4, 400)]) (fun v k _ => decide (k.header.session = 0 ∧
        v.catalogueFull = false)) = true) ∧
    (meets loaned 0x0303 (hdr 1 1 8) (params 8 [(0, 8, 9)]) (fun v k q => decide (k.header.session = 0 ∧
        v.catalogueFull = false ∧
      v.loanBusy (BitVec.ofNat 64 (field q 0 8)) = false ∧
      ((v.loan? (BitVec.ofNat 64 (field q 0 8))).any fun l => k.ctx == 0 || l.presenter == k.ctx) = true)) = true) ∧
    (meets stepGuarded 0x0403 (hdr 1 1 16) (params 16 [(0, 8, 7), (8, 2, 3)]) (fun v k q => decide ((v.group? k.ctx (field q 8 2)).isSome = true ∧
      ((v.guard? k.ctx (field q 0 8)).any fun x => x.outcome.isNone && x.state == .opened) = true)) = true) ∧
    (meets stepGuarded 0x0404 (hdr 1 1 8) (params 8 [(0, 8, 7)]) (fun v k q => decide ((v.guard? k.ctx (field q 0 8)).map Guard.state = some .opened)) = true) ∧
    (meets portless 0x0500 (hdr 1 1 16) (params 16 []) (fun v _ q => decide (field q 0 1 < v.variant.ports ∧
        field q 0 1 < 6 ∧ field q 1 1 = 0)) = true) ∧
    (meets portless 0x0500 (hdr 0 0 16) (params 16 [(1, 1, 1), (2, 2, 64), (4, 1, 8)]) (fun v k q => decide (k.ctx = 0 ∧
        field q 0 1 < v.variant.ports ∧ field q 0 1 < 6 ∧
      field q 0 1 < v.fabric.ports.length ∧ field q 1 1 = 1 ∧ field q 2 2 = 64 ∧ field q 4 1 = 8 ∧
      (v.port (field q 0 1)).state = .disabled)) = true) ∧
    (meets served 0x0501 (hdr 0 0 32) (params 32 [(2, 2, 2), (8, 2, 5), (10, 2, 1), (12, 1, 1), (16, 2, 6), (18, 2, 3), (20, 1, 2)]) (fun v k q => decide (field q 0 1 = 0 ∧ k.ctx = 0 ∧ 8 + 8 * field q 2 2 ≤ q.length ∧
      (routeEntries q (field q 2 2)).all v.routeOk = true ∧
          ∀ i < field q 2 2, field q (13 + 8 * i) 3 = 0)) = true) := by decide +kernel

theorem witness_FleetSecurityAndOperatorCommandsAct_two :
    (meets served 0x0501 (hdr 1 1 32) (params 32 [(0, 1, 1), (2, 2, 2), (4, 2, 1), (8, 2, 5), (10, 2, 6)]) (fun v k q => decide (field q 0 1 = 1 ∧ (k.ctx = 0 ∨ k.ctx = field q 4 2) ∧
      v.noCtx (field q 4 2) = false ∧ field q 2 2 ≤ 64 ∧ 8 + 2 * field q 2 2 ≤ q.length ∧
      ∀ i < field q 2 2, field q (8 + 2 * i) 2 ≠ 0xFFFF)) = true) ∧
    (meets served 0x0502 (hdr 1 1 28) (params 28 [(0, 2, 3), (2, 2, 1), (4, 2, 1), (8, 4, 1), (18, 2, 1), (24, 2, 1)]) (fun v k q => decide (1 ≤ field q 0 2 ∧ field q 0 2 ≤ 4095 ∧ field q 6 2 = 0 ∧ 1 ≤ field q 2 2 ∧
      field q 2 2 ≤ 340 ∧ 1 ≤ field q 4 2 ∧ 16 + 12 * field q 2 2 ≤ q.length ∧
      (groupRuns q (field q 2 2)).all GroupRun.ok = true ∧ v.coll.groups = [] ∧ v.groupBusy k.ctx (field q 0 2) = false ∧
      ((membersOf (groupRuns q (field q 2 2)) (field q 4 2)).any fun ms => ms.contains (v.lodge.deviceId, k.ctx)) = true)) = true) ∧
    (meets stepGuarded 0x0502 (hdr 1 1 28) (params 28 [(0, 2, 3), (2, 2, 1), (4, 2, 1), (6, 2, 1), (8, 4, 1)]) (fun v k q => decide (1 ≤ field q 0 2 ∧ field q 0 2 ≤ 4095 ∧ field q 6 2 = 1 ∧ field q 2 2 ≤ 340 ∧
      (Map.get? v.coll.groups (groupKey k.ctx (field q 0 2))).isSome = true ∧
          v.groupBusy k.ctx (field q 0 2) = false)) = true) ∧
    (meets served 0x0503 (hdr 1 1 40) (params 40 [(0, 2, 3), (2, 2, 1), (4, 2, 1), (8, 4, 1), (20, 4, 4096)]) (fun v k q => decide (1 ≤ field q 0 2 ∧ field q 0 2 ≤ 16 ∧ field q 4 2 ≤ 170 ∧ field q 6 2 = 0 ∧
      16 + 24 * field q 4 2 ≤ q.length ∧ (planChunks q (field q 4 2)).all Chunk.ok = true ∧
      v.planBusy k.ctx (field q 0 2) = false)) = true) ∧
    (meets served 0x0504 (hdr 1 1 8) (params 8 [(0, 2, 1), (4, 4, 50)]) (fun v k q => decide ((k.ctx = 0 ∨
        k.ctx = field q 0 2) ∧ 5 ≤ field q 4 4 ∧ field q 4 4 ≤ 1000000 ∧
      (field q 0 2 ≠ 0 → v.noCtx (field q 0 2) = false))) = true) ∧
    (meets served 0x0600 (hdr 1 1 48) (params 48 [(0, 8, 77), (8, 1, 2), (9, 1, 1), (10, 2, 1), (16, 8, 0x4000), (40, 8, 2097152)]) (fun v k q => decide (let rs := rangeTable (q.drop 32) (field q 10 2)
      field q 0 8 ≠ 0 ∧ field q 8 1 = 2 ∧ field q 9 1 = 1 ∧ field q 16 8 % 4096 = 0 ∧ 1 ≤ field q 10 2 ∧
      field q 10 2 ≤ 254 ∧ 32 + 16 * field q 10 2 ≤ q.length ∧ v.rangesOk k.ctx rs = true ∧
      v.loansOf (rangePages rs) = [] ∧ v.launchRuns k.ctx = false ∧
      (v.guards.any fun g => g.ctx == k.ctx && g.state == .committing) = false ∧ v.twin.stream = none ∧
      (v.beginReturns (v.ctx k.ctx).priority ((rangePages rs).filter fun i =>
      (Map.get? v.memory.pages i).any Page.isAway)).isSome = true)) = true) ∧
    (meets mirrored 0x0601 (hdr 1 1 24) (params 24 [(0, 8, 77), (8, 1, 1), (16, 8, 0x4000)]) (fun v k q => decide (v.variant.partyWall = true ∧ field q 8 1 = 1 ∧
      ((v.twin.ownEntry (BitVec.ofNat 64 (field q 0 8))).any fun e => (k.ctx == 0 || k.ctx == e.ownerCtx) &&
          e.state == .current && e.loans == []) = true)) = true) ∧
    (meets served 0x0602 (hdr 1 1 24) (params 24 [(0, 8, 77), (8, 1, 2), (16, 8, 0x4000)]) (fun v k q => decide (field q 8 1 = 2 ∧ v.launchRuns k.ctx = false)) = true) ∧
    (meets mirrored 0x0603 (hdr 0 0 24) (params 24 [(16, 8, 0x1000)]) (fun v k q => decide (v.variant.partyWall = true ∧
        field q 0 1 = 0 ∧ field q 4 2 = 0 ∧
      k.outOk (field q 16 8) = true)) = true) := by decide +kernel

theorem witness_FleetSecurityAndOperatorCommandsAct_three :
    (meets served 0x0603 (hdr 0 0 24) (params 24 [(0, 1, 2)]) (fun v _ q => decide (v.variant.partyWall = true ∧
        field q 0 1 = 2 ∧ field q 4 2 = 0 ∧
      v.twin.state = .single)) = true) ∧
    (meets joined 0x0604 (hdr 0 0 16) (params 16 [(0, 1, 2), (2, 2, 7), (6, 2, 4)]) (fun v _ q => decide (v.variant.partyWall = true ∧ field q 0 1 = 2 ∧ field q 2 2 ≠ 0xFFFF ∧
      field q 2 2 ≠ v.lodge.deviceId ∧ field q 4 2 = 0 ∧ field q 6 2 ≤ 128 ∧ field q 6 2 % 2 = 0 ∧ v.twin.state = .single ∧
      liveEntries v.twin.held = [] ∧ v.linkedTo (field q 2 2) = true)) = true) ∧
    (meets served 0x0700 (hdr 1 1 40) (params 40 [(0, 8, 5), (32, 8, 0x1000)]) (fun v k q => decide (k.outOk (field q 32 8) = true ∧ v.strongroom.window = false ∧
      v.strongroom.quotes.length < 17)) = true) ∧
    (meets served 0x0701 (hdr 1 1 16) (params 16 [(0, 1, 1), (8, 8, 0x1000)]) (fun _ k q => decide ((field q 0 1 = 1 ∨
        field q 0 1 = 2) ∧ k.outOk (field q 8 8) = true)) = true) ∧
    (meets served 0x0800 (hdr 0 0 16) (params 16 [(0, 8, 20), (8, 1, 1), (12, 4, 200)]) (fun v k q => decide ((k.header.session ≠ 0 ∨ k.header.ring = 0) ∧ field q 0 8 ≠ 0 ∧
      field q 0 8 < 2 ^ 63 ∧ 1 ≤ field q 8 1 ∧ field q 8 1 ≤ 5 ∧ (field q 12 4 = 0 ∨ (100 ≤ field q 12 4 ∧
          field q 12 4 ≤ 600000)) ∧
      v.txn? (BitVec.ofNat 64 (field q 0 8)) = none ∧ (v.lodge.txns.filter fun t => t.state == .opened).length < 16)) = true) ∧
    (meets served 0x0801 (hdr 0 0 16) (params 16 [(0, 8, 9), (8, 8, 0x1000)]) (fun v k q => decide ((∀ e ∈ v.host.commands, e.2.parent = none) ∧ k.outOk (field q 8 8) = true ∧
      ((v.txn? (BitVec.ofNat 64 (field q 0 8))).any fun t => t.state == .opened && t.ownedBy k.header &&
          t.staged == []) = true)) = true) ∧
    (meets served 0x0802 (hdr 0 0 8) (params 8 [(0, 8, 9)]) (fun v k q => decide (((v.txn? (BitVec.ofNat 64 (field q 0 8))).any fun t => t.state == .opened && t.ownedBy k.header) = true)) = true) ∧
    (meets served 0x0803 (hdr 0 0 8) (params 8 [(0, 8, 11)]) (fun v _ q => decide ((v.txn? (BitVec.ofNat 64 (field q 0 8))).isSome = true)) = true) ∧
    (meets served 0x0A00 (inSession 24) (params 24 [(0, 1, 1), (1, 1, 1), (2, 2, 16), (8, 8, 0xABCD)]) (fun _ _ q => decide ((field q 0 1 = 1 ∨ field q 0 1 = 2) ∧ field q 1 1 = 1 ∧ 8 ≤ field q 2 2 ∧
      field q 2 2 ≤ 4088 ∧ field q 2 2 % 8 = 0 ∧ 8 + field q 2 2 ≤ q.length ∧ field q 4 4 = 0)) = true) := by decide +kernel

theorem witness_FleetSecurityAndOperatorCommandsAct_four :
    (meets served 0x0A03 (inSession 16) (params 16 [(0, 1, 1), (2, 2, 16), (8, 8, 0x100)]) (fun v _ q => decide (8 ≤ field q 2 2 ∧ field q 2 2 ≤ 4096 ∧ field q 2 2 % 8 = 0 ∧
      v.catalogueFull = false ∧ clean v = true ∧ (field q 0 1 = 1 → v.awayPages (field q 8 8) (field q 2 2) = []) ∧
      ((v.spaceBytes (field q 0 1)).any fun m => decide (field q 8 8 + field q 2 2 ≤ m)) = true)) = true) ∧
    (meets served 0x0A04 (inSession 32) (params 32 [(0, 1, 1), (2, 2, 16), (8, 8, 0x200), (16, 8, 0x1122334455667788)]) (fun v _ q => decide (field q 0 1 = 1 ∧ 8 ≤ field q 2 2 ∧ field q 2 2 ≤ 4080 ∧
      field q 2 2 % 8 = 0 ∧ 16 + field q 2 2 ≤ q.length ∧ field q 8 8 % 4096 + field q 2 2 ≤ 4096 ∧
      field q 8 8 + field q 2 2 ≤ deviceEnd ∧ v.catalogueFull = false ∧
      clean v = true ∧ v.awayPages (field q 8 8) (field q 2 2) = [] ∧
      ((v.page? (field q 8 8)).any fun g => g.state != .dropped) = true)) = true) ∧
    (meets served 0x0A05 (inSession 24) (params 24 [(0, 2, 63), (2, 1, 3), (4, 4, 2)]) (fun v _ q => decide (field q 0 2 ≤ 63 ∧ 1 ≤ field q 4 4 ∧ field q 4 4 ≤ 512 ∧
      v.lodge.trace.running = false ∧ v.catalogueFull = false ∧
          (v.releaseTrace.allocate 3 (field q 4 4)).isSome = true)) = true) ∧
    (meets served 0x0A06 (inSession 8) (params 8 []) (fun v _ q => decide (field q 0 1 ≤ 1 ∧ v.catalogueFull = false)) = true) ∧
    (meets served 0x0A07 (inSession 24) (params 24 [(8, 2, 4)]) (fun _ _ q => decide (1 ≤ field q 8 2 ∧ field q 8 2 ≤ 32 ∧
        field q 10 2 = 0)) = true) ∧
    (meets served 0x0A08 (inSession 8) (params 8 [(0, 1, 0xFF)]) (fun v _ q => decide (field q 0 1 = 0xFF ∨
      v.countersExist (field q 0 1) (field q 2 2) (field q 4 2) (field q 6 2) = true)) = true) ∧
    (meets served 0x0A09 (inSession 8) (params 8 [(0, 2, 500)]) (fun _ _ q => decide (400 ≤ field q 0 2 ∧
        field q 0 2 ≤ 1800)) = true) ∧
    (meets served 0x0A0A (inSession 8) (params 8 [(0, 1, 0xA5)]) (fun v _ q => decide (field q 0 1 = 0xA5 ∧
        v.catalogueFull = false)) = true) := by decide +kernel

theorem witness_FleetSecurityAndOperatorCommandsAct_launches :
    (∀ op ∈ [0x0400, 0x0401], let h := hdr 1 1 64;
        let p := params 64 [(0, 8, 0x40), (8, 8, 3), (0x10, 1, 1), (0x11, 1, 1), (0x18, 8, 5), (0x30, 8, 0x10000)]
      meets served op h p fun v k q => let l := v.readLaunch (served.begun op h p).1 k q
        !((List.range 64).any fun a => bitOf l.mask.toNat a && decide (v.variant.arrays ≤ a)) && !v.maskWaits l &&
          v.launchOk l (field q 0x11 1) && !v.loanExpired k.ctx && l.trainTable == 0) ∧
    (∀ s ∈ [(served, true), (working (.launch 1) served, false)], meets s.1 0x0402 (hdr 1 1 0) [] fun v k _ =>
      (v.host.commands.filter fun e => e.1 ≠ (s.1.begun 0x0402 (hdr 1 1 0) []).1 && e.2.header.ring = k.header.ring
        && e.2.header.session = k.header.session).isEmpty == s.2) ∧
    (∀ op ∈ [0x0A01, 0x0A02, 0x0A0B], let h := { inSession 8 with txnId := 10 }; let b := served.begun op h (zeros 8)
      taken served op h = true ∧ checkForm b.2.1 (padTo 8 (zeros 8)) = none ∧ b.2.2.outOfService op = false ∧
        ((b.2.2.txn? 10).any fun t => t.state == .opened && t.ownedBy b.2.1.header &&
            decide (t.staged.length < 256)) = true) := by
  decide +kernel

/-- What stands in the way of a command that is taken. -/
theorem witness_HostCommandsRunTheRulesOfTheirOpcode :
    (let h := hdr 0 0 8; let p := params 8 [(4, 4, 1)]
     taken served 0x0001 h = true ∧ (checkForm (served.begun 0x0001 h p).2.1 p).isSome = true) ∧
    (let s := { served with variant := .ec3240 }; let h := hdr 0 0 24; let b := s.begun 0x0603 h (zeros 24)
     taken s 0x0603 h = true ∧ checkForm b.2.1 (zeros 24) = none ∧ b.2.2.absentUnit 0x0603 (zeros 24) = true) ∧
    (let s := { served with strongroom := { served.strongroom with state := .failed } }; let h := hdr 1 1 64;
        let b := s.begun 0x0400 h (zeros 64)
     taken s 0x0400 h = true ∧ checkForm b.2.1 (zeros 64) = none ∧ b.2.2.absentUnit 0x0400 (zeros 64) = false ∧
      b.2.2.outOfService 0x0400 = true) ∧
    (let h := hdr 0 0 8; let p := params 8 [(0, 2, 9)]; let b := served.begun 0x0101 h p
     taken served 0x0101 h = true ∧ checkForm b.2.1 p = none ∧ b.2.2.absentUnit 0x0101 p = false ∧
      b.2.2.outOfService 0x0101 = false ∧ b.2.2.unitWaits 0x0101 p = false ∧ h.txnId = 0 ∧
      (namedCtx 0x0101 p).any b.2.2.noCtx = true) ∧
    (let h := hdr 1 1 64; let p := params 64 [(8, 8, 3)]; let b := noticed.begun 0x0400 h p
     taken noticed 0x0400 h = true ∧ checkForm b.2.1 p = none ∧ b.2.2.absentUnit 0x0400 p = false ∧
      b.2.2.outOfService 0x0400 = false ∧ b.2.2.unitWaits 0x0400 p = false ∧ (namedCtx 0x0400 p).any b.2.2.noCtx = false ∧
      b.2.2.noticed b.2.1 = true) ∧
    (let h := { hdr 0 0 64 with txnId := 9 }; let p := params 64 [(0, 2, 1), (4, 4, 2), (16, 8, 9)];
        let b := served.begun 0x0206 h p
     taken served 0x0206 h = true ∧ checkForm b.2.1 p = none ∧ b.2.2.absentUnit 0x0206 p = false ∧
      b.2.2.outOfService 0x0206 = false ∧ b.2.2.unitWaits 0x0206 p = false ∧ b.2.2.noticed b.2.1 = false ∧ h.txnId ≠ 0) ∧
    (runs served 0x0000 (hdr 1 1 0) [] = true ∧ served.ringTakes 2 0x0000 0 = false ∧ served.session? 7 = none) ∧
    (4096 < (hdr 1 1 5000).paramLength.toNat ∧ served.stewardRunning = true ∧ (served.ring 1).state = .bound ∧
      (served.ring 1).waiting ≠ 0) ∧
    (readHeader 1 0 (entry 0 1 1 0)).1 = 0x0000 ∧
    runs served 0x0000 (readHeader 1 0 (entry 0 1 1 0)).2 ((entry 0 1 1 0).drop 32) = true := by decide +kernel
theorem witness_HostRegistersWindowsAndRings_copies :
    (∀ w ∈ [Work.copyIn 16 8, .copy 0 16 8 false, .fill 16 8 6], let s := working w served
      (s.cmd? 7).map (fun k => (k.work, k.ctx)) = some (w, 1)) ∧
    (let s := working (.copy 0 16 8 false) served
     s.awayPages 0 8 = [] ∧ s.awayPages 16 8 = [] ∧ s.writable [(16, 8)] = true ∧ s.canRead 1 0 8 = true ∧
      s.canWrite 1 16 8 = true ∧ clean s = true) ∧
    (let s := { working (.copyIn 16 8) served with memory := { served.memory with pages := [(0, { owner := .ctx 1, rw := false })] } }
     s.canWrite 1 16 8 = false) := by decide +kernel

end Sys2Proof.Tests
end

section
/-! SUPPORT. Issue: where a thread issues an instruction whose fields are right, what is left of the instruction is
its own effect on the state in which the issue is counted (R113, R119, R121, R124). -/

namespace Sys2Proof.Machine

@[simp] theorem State.issued_thread (s : State) (t v : ThreadId) : (s.issued t).thread v = s.thread v :=
  s.count_thread ..
@[simp] theorem State.issued_memory (s : State) (t : ThreadId) : (s.issued t).memory = s.memory :=
  s.count_memory ..
@[simp] theorem State.issued_deviceId (s : State) (t : ThreadId) : (s.issued t).lodge.deviceId = s.lodge.deviceId :=
  s.count_deviceId ..
@[simp] theorem State.issued_gen (s : State) (t : ThreadId) (c : Nat) : (s.issued t).gen c = s.gen c := by
  simp only [State.gen, State.issued, State.count_ctx]

/-- What a context may write is in the pages, which are memory (R217, R219). -/
theorem State.canWrite_congr {s u : State} (h : u.memory = s.memory) (c a n : Nat) :
    u.canWrite c a n = s.canWrite c a n := by
  simp only [State.canWrite, State.mayWrite, State.page?, h]

/-- A thread that reads the instruction at its PC meets no trap there (R119, R120, R150). -/
theorem State.fetchTrap_of_reads {s : State} {t : ThreadId} (h : ReadsAtPc s t) :
    s.fetchTrap (s.thread t) = none := by
  simp [State.fetchTrap, h.here, h.aligned, h.readable]

/-- An instruction that issues, whose unused fields are zero and whose predicate test passes, acts on the state in which
its issue is counted. -/
theorem State.issue_of_issues {s : State} {t : ThreadId} {word : InstrWord} {p : BitVec 3} {neg legal : Bool}
    {body : Thread → State → State} (h : Issues s t p neg) (hl : legal = true) :
    s.issue t word p neg legal body = body (s.thread t) (s.issued t) := by
  simp [State.issue, State.fetchTrap_of_reads h.toReadsAtPc, h.running, h.active, h.listed, hl, Thread.passes, h.passes,
    State.issued]

/-! ### Field masks (R124) -/

/-- A field of k bits lies within the mask of its k bits. -/
theorem within_lowMask {v k : Nat} (h : v < 2 ^ k) : within v (2 ^ k - 1) = true := by
  simp [within, Nat.and_two_pow_sub_one_eq_mod, Nat.mod_eq_of_lt h]

@[simp] theorem within_zero (mask : Nat) : within 0 mask = true := by simp [within]
@[simp] theorem within_regField (r : BitVec 5) : within r.toNat 31 = true := within_lowMask (k := 5) r.isLt
@[simp] theorem within_immField (v : Word) : within v.toNat immAll = true := within_lowMask (k := 64) v.isLt
theorem within_predField {v : Nat} (h : v < 8) : within v 7 = true := within_lowMask (k := 3) h

end Sys2Proof.Machine
end

section
/-! SUPPORT. The effects that scalar instructions share, on the thread that issues: a predicate or a register written,
and the PC of the next instruction or of a branch's target (R110, R123, R125, R127). -/

namespace Sys2Proof.Machine

/-! ### Predicates (R110) -/

@[simp] theorem Thread.pred_zero (x : Thread) : x.pred 0 = true := rfl
@[simp] theorem Thread.setPred_zero (x : Thread) (v : Bool) : x.setPred 0 v = x := rfl

theorem Thread.setPred_of_ne (x : Thread) {p : BitVec 3} (v : Bool) (h : p ≠ 0) :
    x.setPred p v = { x with preds := x.preds.set p.toNat v p.isLt } := if_neg h

/-- A predicate other than p0 reads what was written. -/
theorem Thread.pred_setPred_self (x : Thread) {p : BitVec 3} (v : Bool) (h : p ≠ 0) : (x.setPred p v).pred p = v := by
  rw [x.setPred_of_ne v h, Thread.pred, beq_eq_false_iff_ne.2 h, Bool.false_or]
  exact Vector.getElem_set_self ..

/-- A write of one predicate leaves the others. -/
theorem Thread.pred_setPred_other (x : Thread) {p q : BitVec 3} (v : Bool) (h : q ≠ p) :
    (x.setPred p v).pred q = x.pred q := by
  by_cases hp : p = 0
  · rw [hp, Thread.setPred_zero]
  · have hn : p.toNat ≠ q.toNat := fun e => h (BitVec.eq_of_toNat_eq e.symm)
    simp [Thread.setPred_of_ne x v hp, Thread.pred, Vector.getElem_set_ne, hn]

/-- The PC and the predicates are written in either order. -/
theorem Thread.setPred_withPc (x : Thread) (p : BitVec 3) (v : Bool) (a : Word) :
    { x with pc := a }.setPred p v = { x.setPred p v with pc := a } := by
  unfold Thread.setPred
  split <;> rfl

/-! ### What scalar instructions do once they issue -/

theorem State.issueScalar_of_issues {s : State} {t : ThreadId} {major minor : Nat} {w : ScalarWord} {u : ScalarUse}
    {body : Thread → State → State} (h : Issues s t w.pred w.pneg) (hl : scalarLegal w u = true) :
    s.issueScalar t major minor w u body = body (s.thread t) (s.issued t) := State.issue_of_issues h hl

/-- Where a predicate instruction issues, it writes its result of two predicates to PD. -/
theorem State.predOp_of_issues {s : State} {t : ThreadId} {minor : Nat} {w : ScalarWord} {f : Bool → Bool → Bool}
    (h : Issues s t w.pred w.pneg) (hl : scalarLegal w usePred = true) :
    s.predOp t minor w f = (s.issued t).setThread t
      { (s.thread t).setPred w.pd (f ((s.thread t).pred (w.sa.setWidth 3)) ((s.thread t).pred (w.sb.setWidth 3))) with
        pc := (s.thread t).pc + 16 } := by
  rw [State.predOp, State.issueScalar_of_issues h hl, State.writePred, State.modThread_eq, State.issued_thread]

/-- A branch to a target on this module, at a multiple of 16, sets the PC (R119, R127). -/
theorem State.goto_here (s : State) (t : ThreadId) (word : InstrWord) {a : Word} (hd : devOf a = s.lodge.deviceId)
    (ha : a.toNat % 16 = 0) : s.goto t word a none = s.setThread t { s.thread t with pc := a } := by
  simp [State.goto, hd, ha, State.modThread_eq]

/-- A call to such a target also writes the address of the next instruction (R127). -/
theorem State.goto_here_link (s : State) (t : ThreadId) (word : InstrWord) {a : Word} (r : BitVec 5)
    (hd : devOf a = s.lodge.deviceId) (ha : a.toNat % 16 = 0) :
    s.goto t word a (some r) = s.setThread t { (s.thread t).setReg r ((s.thread t).pc + 16) with pc := a } := by
  simp [State.goto, hd, ha, State.modThread_eq]

/-- The end of a thread that waits for no counted cycles (R127, R156): it runs, or waits in `EXIT`. -/
theorem State.exitThread_uncounted (s : State) (t : ThreadId)
    (h : (s.thread t).wait = none ∨ (s.thread t).wait = some .exit) :
    s.exitThread t = s.setThread t { s.thread t with state := .exited, wait := none } := by
  have hc : s.countWait t = s := by
    rcases h with h | h <;> simp [State.countWait, h]
  rw [State.exitThread, hc, State.modThread_eq]

end Sys2Proof.Machine
end

section
/-! CLAIMS. Moves and predicate logic (R110, R124), and the branches (R127). -/

namespace Sys2Proof.Machine

/-- `MOV` writes the second operand to SD (R123). -/
theorem exec_mov {s : State} {t : ThreadId} {w : ScalarWord} (h : Issues s t w.pred w.pneg)
    (hl : scalarLegal w useMov = true) :
    exec (.mov t w) s = .next ((s.issued t).setThread t
      { (s.thread t).setReg w.sd (secondOperand w (s.thread t)) with pc := (s.thread t).pc + 16 }) := by
  have e : exec (.mov t w) s = execMov t w s := rfl
  rw [e, execMov, State.issueScalar_of_issues h hl, State.writeReg, State.modThread_eq, State.issued_thread]

/-- `PNOT` writes the negation of a predicate to PD (R124). -/
theorem exec_pnot {s : State} {t : ThreadId} {w : ScalarWord} (h : Issues s t w.pred w.pneg)
    (hl : scalarLegal w usePnot = true) :
    exec (.pnot t w) s = .next ((s.issued t).setThread t
      { (s.thread t).setPred w.pd (!(s.thread t).pred (w.sa.setWidth 3)) with pc := (s.thread t).pc + 16 }) := by
  have e : exec (.pnot t w) s = execPnot t w s := rfl
  rw [e, execPnot, State.issueScalar_of_issues h hl, State.writePred, State.modThread_eq, State.issued_thread]

/-- A word with only the fields of `MOV` is legal for it (R123, R124). -/
theorem scalarLegal_useMov {w : ScalarWord} (hz : ScalarZero w) (hv : w.var = 0) (hsa : w.sa = 0) (hpd : w.pd = 0)
    (hc : SecondChosen w) : scalarLegal w useMov = true := by
  obtain ⟨hi, lo⟩ := hz
  unfold SecondChosen at hc
  cases himm : w.immb <;> simp_all [scalarLegal, useMov]

/-- Settles O12: the laws of predicates, and each instruction's effect where its word's unused fields are zero. -/
theorem movesAndPredicateLogic : Obligations.MovesAndPredicateLogic := by
  unfold Obligations.MovesAndPredicateLogic
  refine ⟨fun x p q v => ⟨x.pred_zero, x.setPred_zero v, x.pred_setPred_self v, x.pred_setPred_other v⟩,
    fun s t w h hz hvar => ⟨fun hsa hpd hc => ?mov, fun hsd himmb himm hsa hsb => ?logic,
      fun hsd himmb himm hsa hsb => ?pnot⟩⟩
  case mov => exact exec_mov h (scalarLegal_useMov hz hvar hsa hpd hc)
  case logic =>
    obtain ⟨hi, lo⟩ := hz
    have hl : scalarLegal w usePred = true := by
      simp [scalarLegal, usePred, hi, lo, hvar, hsd, himmb, himm, within_predField hsa, within_predField hsb]
    simp only [List.forall_mem_cons]
    exact ⟨congrArg _ (State.predOp_of_issues h hl), congrArg _ (State.predOp_of_issues h hl),
      congrArg _ (State.predOp_of_issues h hl), by simp⟩
  case pnot =>
    obtain ⟨hi, lo⟩ := hz
    exact exec_pnot h (by simp [scalarLegal, usePnot, hi, lo, hvar, hsd, himmb, himm, hsb, within_predField hsa])

/-- `BR` to a target on this module, at a multiple of 16 (R119, R127). -/
theorem exec_br {s : State} {t : ThreadId} {w : ScalarWord} (h : Issues s t w.pred w.pneg)
    (hl : scalarLegal w { imm := immAll } = true) (hd : devOf ((s.thread t).pc + w.imm) = s.lodge.deviceId)
    (ha : ((s.thread t).pc + w.imm).toNat % 16 = 0) :
    exec (.br t w) s = .next ((s.issued t).setThread t { s.thread t with pc := (s.thread t).pc + w.imm }) := by
  have e : exec (.br t w) s = execBr t w s := rfl
  rw [e, execBr, State.issueScalar_of_issues h hl, State.goto_here _ _ _ (by simpa using hd) ha, State.issued_thread]

/-- `CALL` to such a target keeps the address of the next instruction in SD. -/
theorem exec_call {s : State} {t : ThreadId} {w : ScalarWord} (h : Issues s t w.pred w.pneg)
    (hl : scalarLegal w { sd := 31, imm := immAll } = true) (hd : devOf ((s.thread t).pc + w.imm) = s.lodge.deviceId)
    (ha : ((s.thread t).pc + w.imm).toNat % 16 = 0) :
    exec (.call t w) s = .next ((s.issued t).setThread t
      { (s.thread t).setReg w.sd ((s.thread t).pc + 16) with pc := (s.thread t).pc + w.imm }) := by
  have e : exec (.call t w) s = execCall t w s := rfl
  rw [e, execCall, State.issueScalar_of_issues h hl, State.goto_here_link _ _ _ _ (by simpa using hd) ha,
    State.issued_thread]

/-- `JMP` to such a target, from a register. -/
theorem exec_jmp {s : State} {t : ThreadId} {w : ScalarWord} (h : Issues s t w.pred w.pneg)
    (hl : scalarLegal w { sa := 31 } = true) (hd : devOf ((s.thread t).reg w.sa) = s.lodge.deviceId)
    (ha : ((s.thread t).reg w.sa).toNat % 16 = 0) :
    exec (.jmp t w) s = .next ((s.issued t).setThread t { s.thread t with pc := (s.thread t).reg w.sa }) := by
  have e : exec (.jmp t w) s = execJmp t w s := rfl
  rw [e, execJmp, State.issueScalar_of_issues h hl, State.goto_here _ _ _ (by simpa using hd) ha, State.issued_thread]

/-- `EXIT` ends its thread, or waits for the thread's tile instructions. -/
theorem exec_exit {s : State} {t : ThreadId} {w : ScalarWord} (h : Issues s t w.pred w.pneg)
    (hl : scalarLegal w {} = true) :
    exec (.exit t w) s = .next (if (s.thread t).ops.isEmpty then (s.issued t).exitThread t
      else (s.issued t).waitFor t (scalarBits w 0x03 0x03) .exit) := by
  have e : exec (.exit t w) s = execExit t w s := rfl
  rw [e, execExit, State.issueScalar_of_issues h hl]

/-- A thread that waits in `EXIT` ends once its tile instructions are complete, and waits on before (R112, R127). -/
theorem State.settle_exit (s : State) (t : ThreadId) (hs : (s.thread t).state = .waiting)
    (hw : (s.thread t).wait = some .exit) :
    s.settle t = if (s.thread t).ops.isEmpty then s.exitThread t else s := by
  simp [State.settle, hs, hw]

/-- Settles O15: each branch by its effect where it issues, and the end of `EXIT`'s wait by what a waiting thread
does next. -/
theorem branchesGoToTheirTarget : Obligations.BranchesGoToTheirTarget := by
  unfold Obligations.BranchesGoToTheirTarget
  refine ⟨?issue, fun s t hs hw => ⟨fun ho => ?ends, fun ho => ?waits⟩⟩
  case issue =>
    intro s t w h hz hvar hpd hsb himmb
    obtain ⟨hi, lo⟩ := hz
    refine ⟨fun hsd hsa ⟨hd, ha⟩ => exec_br h (by simp [*, scalarLegal]) hd ha,
      fun hsa ⟨hd, ha⟩ => exec_call h (by simp [*, scalarLegal]) hd ha,
      fun hsd himm ⟨hd, ha⟩ => exec_jmp h (by simp [*, scalarLegal]) hd ha,
      fun hsd hsa himm ho hw => ?exitEnds, fun hsd hsa himm ho => ?exitWaits⟩
    case exitEnds =>
      rw [exec_exit h (by simp [*, scalarLegal]), if_pos (by simpa using ho),
        State.exitThread_uncounted _ _ (.inl (by simpa using hw)), State.issued_thread]
    case exitWaits =>
      rw [exec_exit h (by simp [*, scalarLegal]), if_neg (by simpa using ho), State.waitFor, State.modThread_eq,
        State.issued_thread]
  case ends => rw [s.settle_exit t hs hw, if_pos (by simpa using ho), s.exitThread_uncounted t (.inr hw)]
  case waits => rw [s.settle_exit t hs hw, if_neg (by simpa using ho)]

end Sys2Proof.Machine
end

section
/-! CLAIMS. `SEM_INIT` (R140 to R142). -/

namespace Sys2Proof.Machine

/-- A number as n bytes has n bytes (R12). -/
@[simp] theorem length_le (n v : Nat) : (le n v).length = n := by
  induction n generalizing v with
  | zero => rfl
  | succ n ih => rw [le, List.length_cons, ih]

@[simp] theorem length_zeros (n : Nat) : (zeros n).length = n := List.length_replicate

/-- Where no line is under repair and no row is being relocated, no access waits (R236, R241, R243). -/
theorem State.repairingIn_nil {s : State} (hr : s.memory.repairing = []) (hw : s.memory.retiringRows = []) (a n : Nat) :
    s.repairingIn a n = [] := by
  simp [State.repairingIn, State.relocatingIn, Map.keys, hr, hw]

/-- A thread's write to pages that it may write, with no line under repair, stores its bytes (R126). -/
theorem State.threadWrite_stores (s before : State) (t : ThreadId) (word : InstrWord) (a : Word) (bs : Bytes)
    (hm : s.canWrite (s.thread t).ctx (locOf a) bs.length = true) (hr : s.repairingIn (locOf a) bs.length = []) :
    s.threadWrite before t word a bs = (s.store (locOf a) bs).advance t := by
  simp [State.threadWrite, hm, hr]

/-- An instruction that went on to the next clears its predicate (R140). -/
theorem State.clearPred_advance (s : State) {t : ThreadId} {x : Thread} (p : Nat) (hx : s.thread t = x)
    (hs : x.state = .running) :
    (s.advance t).clearPred t x.pc p =
      s.setThread t { x.setPred (BitVec.ofNat 3 p) false with pc := x.pc + 16 } := by
  rw [State.advance, State.modThread_eq, hx, State.clearPred, State.setThread_thread,
    if_pos (by simp [hs]), State.modThread_eq, State.setThread_thread, State.setThread_setThread,
    Thread.setPred_withPc]

/-- The bytes of a semaphore: its count, its owner with the owner's generation, and zeros (R141). -/
def semBytes (count ctx gen : Nat) : Bytes := le 4 count ++ le 2 ctx ++ le 2 gen ++ zeros 8

@[simp] theorem length_semBytes (count ctx gen : Nat) : (semBytes count ctx gen).length = 16 := by simp [semBytes]

/-- `IMM`[31:0] and `VAR`[2:0] as remainders. -/
theorem semN_eq (w : TileWord) : semN w = w.imm.toNat % 2 ^ 32 := by simp [semN, bits]
theorem predOf_eq (w : TileWord) : predOf w = w.var.toNat % 8 := by simp [predOf, bits]

/-- `SEM_INIT` at an address of this module that the thread's context may write stores a semaphore's bytes, clears its
predicate and goes on. -/
theorem exec_semInit {s : State} {t : ThreadId} {w : TileWord} (h : Issues s t w.pred w.pneg)
    (hl : tileLegal w { s1 := true, noTrap := false, group := false, var := 7, imm := 0xFFFFFFFF } = true)
    (ha : LocalAccess s t ((s.thread t).reg w.s1) 16 true) :
    exec (.semInit t w) s = .next
      (((s.issued t).store (locOf ((s.thread t).reg w.s1))
          (semBytes (w.imm.toNat % 2 ^ 32) (s.thread t).ctx (s.gen (s.thread t).ctx))).setThread t
        { (s.thread t).setPred (BitVec.ofNat 3 (w.var.toNat % 8)) false with pc := (s.thread t).pc + 16 }) := by
  have e : exec (.semInit t w) s = execSemInit t w s := rfl
  have hw : (s.issued t).canWrite ((s.issued t).thread t).ctx (locOf ((s.thread t).reg w.s1)) 16 = true := by
    rw [State.canWrite_congr (s.issued_memory t), State.issued_thread]
    exact ha.mapped
  have hr : (s.issued t).repairingIn (locOf ((s.thread t).reg w.s1)) 16 = [] := by
    apply State.repairingIn_nil <;> rw [State.issued_memory]
    exacts [ha.clean.repairing, ha.clean.retiring]
  rw [e, execSemInit, State.issueSync, State.issue_of_issues h hl, if_neg (not_not.2 ha.aligned),
    if_neg (by simpa using ha.here), ← semBytes, State.issued_gen, semN_eq, predOf_eq,
    State.threadWrite_stores (hm := ?_) (hr := ?_), State.clearPred_advance _ _ (by simp) h.running]
  · simpa using hw
  · simpa using hr

/-- Settles O25: the semaphore's bytes are stored and nothing else of memory, and only the thread goes on. -/
theorem semInitWritesTheSemaphore : Obligations.SemInitWritesTheSemaphore := by
  unfold Obligations.SemInitWritesTheSemaphore
  intro s t w ht h hl x a ha
  refine ⟨_, exec_semInit h hl ha, ?bytes, ?outside, State.setThread_thread .., ?others⟩
  case bytes =>
    have hb := (s.issued t).store_bytesAt a (semBytes (w.imm.toNat % 2 ^ 32) x.ctx (s.gen x.ctx))
      (by simpa using ha.clean.repairing)
    rw [length_semBytes] at hb
    exact hb
  case outside =>
    intro b hb
    have ho := (s.issued t).store_outside a (semBytes (w.imm.toNat % 2 ^ 32) x.ctx (s.gen x.ctx)) b (by simpa using hb)
    rwa [State.issued_memory] at ho
  case others =>
    intro v hv hne
    rw [State.setThread_other _ _ ht hv hne, State.store_thread, State.issued_thread]

end Sys2Proof.Machine
end

section
/-! SUPPORT. What every command keeps: the queue and the variant, and the invariants of the claims. `Keeps σ s` tells it of
a state s that has come of σ, so that each operation of the model has one lemma, `Keeps σ s` to `Keeps σ` of its result,
and the lemma of a command is the chain of the operations it calls. A scope says what is kept beside the invariants: the
operations that make the memory ready also keep a cell of a line under repair from being written, which settles O45. -/

namespace Sys2Proof.Machine

/-- An entry that a map holds is one of its list. -/
theorem Map.mem_of_get? {α : Type} {m : Map α} {k : Nat} {v : α} (h : Map.get? m k = some v) : (k, v) ∈ m := by
  induction m with
  | nil => simp [Map.get?] at h
  | cons e m ih =>
    obtain ⟨i, w⟩ := e
    simp only [Map.get?] at h
    split at h
    · simp_all
    · exact List.mem_cons_of_mem _ (ih h)

theorem Map.mem_of_mem_erase {α : Type} {m : Map α} {k : Nat} {e : Nat × α} (h : e ∈ Map.erase m k) : e ∈ m := by
  induction m with
  | nil => exact h
  | cons d m ih =>
    obtain ⟨i, w⟩ := d
    simp only [Map.erase] at h
    split at h
    · exact List.mem_cons_of_mem _ h
    · exact (List.mem_cons.1 h).elim (fun h => h ▸ List.mem_cons_self) fun h => List.mem_cons_of_mem _ (ih h)

theorem Map.put_ne_nil {α : Type} {m : Map α} {k : Nat} {v : α} : Map.put m k v ≠ [] := by
  cases m with
  | nil => exact nofun
  | cons e m =>
    simp only [Map.put]
    split
    · exact nofun
    · split <;> exact nofun

/-- A key that a map does not hold is none of its list. -/
theorem Map.ne_of_not_has {α : Type} {m : Map α} {k : Nat} (h : Map.has m k = false) : ∀ e ∈ m, e.1 ≠ k := by
  induction m with
  | nil => exact fun _ he => nomatch he
  | cons d m ih =>
    obtain ⟨i, w⟩ := d
    simp only [Map.has, Map.get?] at h
    split at h
    · cases h
    · rintro e he rfl
      obtain rfl | he := List.mem_cons.1 he
      · simp_all
      · exact ih h e he rfl

theorem Map.get?_mapVals {α β : Type} (f : Nat → α → β) (m : Map α) (k : Nat) :
    Map.get? (Map.mapVals f m) k = (Map.get? m k).map (f k) := by
  induction m with
  | nil => rfl
  | cons e m ih =>
    obtain ⟨i, w⟩ := e
    simp only [Map.mapVals, List.map_cons, Map.get?] at ih ⊢
    split
    · next hi => subst hi; rfl
    · exact ih

/-- The entry of a key whose change leaves it as it was. -/
theorem Map.getD_mapVals_of {α : Type} {m : Map α} {f : Nat → α → α} {g : Nat} {d : α} (h : ∀ x, f g x = x) :
    Map.getD (Map.mapVals f m) g d = Map.getD m g d := by
  rw [Map.getD, Map.get?_mapVals, show f g = id from funext h, Option.map_id]
  rfl

theorem Map.getD_filter_of {α : Type} {m : Map α} {p : Nat → Bool} {g : Nat} {d : α} (h : p g = true) :
    Map.getD (m.filter fun e => p e.1) g d = Map.getD m g d := by
  induction m with
  | nil => rfl
  | cons e m ih =>
    obtain ⟨i, w⟩ := e
    simp only [Map.getD] at ih ⊢
    rw [List.filter_cons]
    split
    · simp only [Map.get?]
      split
      · rfl
      · exact ih
    · next hi =>
      have : g ≠ i := fun e => hi (e ▸ h)
      simp only [Map.get?, if_neg this]
      exact ih

/-! A cell of a line under repair. Line 256 stands for a line under repair after which a row is to be retired, which no
repair begun anew asks for, and cell 65540 for one of the line's cells. A write to the cell waits for the repair's end,
unless it begins in line 255, waited for the repair of that line, and is let through when a check of line 255 starts its
repair anew and the repair finds no source. -/

/-- Line 256 is under repair, and a row is to be retired after it. -/
def Memory.marked (m : Memory) : Prop := ∃ e ∈ m.repairing, e.1 = 256 ∧ e.2.retireRow ≠ none

/-- What a check of line 255 that starts its repair leaves behind: a copy of its granule in the cellar, or an error counted
of its channel (R232, R234). -/
def Memory.loose (m : Memory) : Prop := (Map.getD m.granules 0 {}).slice.isSome = true ∨ m.channelErrors ≠ []

/-- While line 256 is under repair its cell reads as zero, unless a check of line 255 has let a write of that line
through. -/
def Memory.sheltered (m : Memory) : Prop := m.marked → m.loose ∨ cellRead m.bytes 65540 = 0

/-- If line 256 is under repair, a write that waited for line 255 may have been let through. -/
def Memory.ajar (m : Memory) : Prop := m.marked → m.loose

/-- What an operation is to keep beside the invariants: nothing, or the shelter; that an error is counted of a channel; or
what the repair of a line of its own needs to keep the shelter. -/
inductive Scope where
  | whole (shelter : Bool)
  | struck
  | line (l : Nat)

/-- The memory has what the scope speaks of. -/
def Scope.holds : Scope → Memory → Prop
  | .whole shelter, m => shelter = true → m.sheltered
  | .struck, m => m.channelErrors ≠ []
  | .line l, m => m.sheltered ∧ (l ≤ 256 → m.ajar)

/-- A write of n bytes at a does not meet the cell of line 256, or one may have been let through. -/
def Memory.spares (m : Memory) (a n : Nat) : Prop := a ≤ 65540 → 65540 < a + n → m.ajar

/-- A write of n bytes at a leaves what the scope speaks of. -/
def Scope.lets (q : Scope) (m : Memory) (a n : Nat) : Prop :=
  q.holds m → ∀ bs : Bytes, bs.length = n → q.holds { m with bytes := cellsWrite m.bytes a bs }

/-- A state that others come of, and what they are to keep of it beside the invariants. -/
structure Origin where
  state : State
  scope : Scope

/-- The scope's part holds in the state that the others come of. -/
def Origin.met (σ : Origin) : Prop := σ.scope.holds σ.state.memory

/-- The scope is not that of one line's repair. -/
class Wide (σ : Origin) : Prop where
  noLine : ∀ l, σ.scope ≠ .line l

/-- The scope is the shelter or nothing. -/
class Whole (σ : Origin) : Prop extends Wide σ where
  whole : ∃ shelter, σ.scope = .whole shelter

/-- Nothing is kept beside the invariants. -/
class Plain (σ : Origin) : Prop where
  plain : σ.scope = .whole false

/-- The queue and the variant are as they were, and each invariant that held holds. -/
structure Keeps (σ : Origin) (s : State) : Prop where
  variant : s.variant = σ.state.variant
  pending : s.pending = σ.state.pending
  service : ServiceOk σ.state → ServiceOk s
  storage : StorageOk σ.state → StorageOk s
  counters : CountersOk σ.state → CountersOk s
  numbers : NumbersOk σ.state → NumbersOk s
  scope : σ.met → σ.scope.holds s.memory

/-- What the scopes and the invariants speak of in memory. -/
structure Guarded where
  bytes : List Host.Cell
  granules : Map Granule
  repairing : Map Repair
  channelErrors : Map (List Nat)

abbrev Memory.guarded (m : Memory) : Guarded :=
  { bytes := m.bytes, granules := m.granules, repairing := m.repairing, channelErrors := m.channelErrors }

/-- What `Keeps` speaks of in a state. -/
structure Watched where
  variant : Variant
  pending : List Instr
  counters : Map Counter
  serviceLevel : Nat
  fp64Serving : Bool
  laneRate : Nat
  permittedRate : Nat
  incarnation : Nat
  memory : Guarded
  bus : List Host.Cell
  mirror : List Host.Cell
  threads : Map Thread
  nextOp : Nat

def State.watched (s : State) : Watched :=
  { variant := s.variant, pending := s.pending, counters := s.counters, serviceLevel := s.serviceLevel
    fp64Serving := s.fp64Serving, laneRate := s.laneRate, permittedRate := s.permittedRate
    incarnation := s.lodge.incarnation, memory := s.memory.guarded, bus := s.host.bus, mirror := s.twin.mirror
    threads := s.threads, nextOp := s.nextOp }

/-- What a change of memory leaves as it was, or moves to the safe side, of what the scopes speak of. -/
structure Memory.Near (m n : Memory) : Prop where
  cell : cellRead n.bytes 65540 = cellRead m.bytes 65540
  slice : (Map.getD m.granules 0 {}).slice.isSome = true → (Map.getD n.granules 0 {}).slice.isSome = true
  marked : n.marked → m.marked
  struck : m.channelErrors ≠ [] → n.channelErrors ≠ []

theorem Memory.Near.loose {m n : Memory} (h : m.Near n) : m.loose → n.loose := Or.imp h.slice h.struck

theorem Memory.Near.sheltered {m n : Memory} (h : m.Near n) (k : m.sheltered) : n.sheltered := fun hn =>
  (k (h.marked hn)).imp h.loose fun e => h.cell.trans e

theorem Memory.Near.ajar {m n : Memory} (h : m.Near n) (k : m.ajar) : n.ajar := fun hn => h.loose (k (h.marked hn))

theorem Memory.Near.holds {m n : Memory} (h : m.Near n) : ∀ {q : Scope}, q.holds m → q.holds n
  | .whole _, k => fun hb => h.sheltered (k hb)
  | .struck, k => h.struck k
  | .line _, ⟨k, hl⟩ => ⟨h.sheltered k, fun l => h.ajar (hl l)⟩

theorem Memory.ajar.sheltered {m : Memory} (h : m.ajar) : m.sheltered := fun hm => .inl (h hm)

theorem Memory.ajar_of_unrepaired {m : Memory} (h : ∀ e ∈ m.repairing, e.1 ≠ 256) : m.ajar :=
  fun ⟨e, he, h256, _⟩ => absurd h256 (h e he)

theorem Memory.ajar_of_not_has {m : Memory} (h : Map.has m.repairing 256 = false) : m.ajar :=
  Memory.ajar_of_unrepaired (Map.ne_of_not_has h)

/-- A write that spares the cell keeps the shelter: it lies outside the cell, or the shelter does not rest on the cell. -/
theorem Scope.lets_of_spares {q : Scope} {m : Memory} {a n : Nat} (h : m.spares a n) : q.lets m a n := by
  rintro k bs rfl
  have sheltered : m.sheltered → Memory.sheltered { m with bytes := cellsWrite m.bytes a bs } := by
    intro hs hm
    by_cases ha : a ≤ 65540 ∧ 65540 < a + bs.length
    · exact .inl (h ha.1 ha.2 hm)
    · exact (hs hm).imp_right fun e => (cellRead_cellsWrite_outside bs m.bytes a 65540 (by omega)).trans e
  cases q with
  | whole b => exact fun hb => sheltered (k hb)
  | struck => exact k
  | line l => exact ⟨sheltered k.1, k.2⟩

theorem Memory.near_of_guarded {m n : Memory} (e : n.guarded = m.guarded) : m.Near n := by
  injection e with hb hg hr hc
  exact ⟨by rw [hb], by rw [hg]; exact id, by unfold Memory.marked; rw [hr]; exact id, by rw [hc]; exact id⟩

/-- Memory without bytes is what a reset leaves, and the shelter stands there. -/
theorem Whole.holds_of_empty {σ : Origin} [hw : Whole σ] {m : Memory} (h : m.bytes = []) : σ.scope.holds m := by
  obtain ⟨b, hb⟩ := hw.whole
  rw [hb]
  exact fun _ _ => .inr (by rw [h]; rfl)

/-! A thread's queue is not one of the registers that its accessors write. -/

@[simp] theorem Thread.setReg_ops (x : Thread) (r : BitVec 5) (v : Word) : (x.setReg r v).ops = x.ops := rfl

@[simp] theorem Thread.setPred_ops (x : Thread) (p : BitVec 3) (v : Bool) : (x.setPred p v).ops = x.ops := by
  unfold Thread.setPred
  split <;> rfl

/-- The tile instructions of a thread have numbers that have been given out. -/
theorem numbersOk_thread {s : State} (h : NumbersOk s) (t : ThreadId) : ∀ o ∈ (s.thread t).ops, o.id < s.nextOp := by
  unfold State.thread Map.getD
  cases e : Map.get? s.threads (threadKey t) with
  | none => simp
  | some x => exact h _ (Map.mem_of_get? e)

@[simp] theorem Thread.fenced_ops (x : Thread) (mask pred : Nat) : (x.fenced mask pred).ops = x.ops := by
  unfold Thread.fenced
  refine foldl_inv (fun y : Thread => y.ops = x.ops) _ ?_ _ _ (Thread.setPred_ops _ _ _)
  exact fun _ _ h => h

theorem Thread.suspend_ops (x : Thread) : x.suspend.ops = x.ops := by
  unfold Thread.suspend
  split <;> rfl

theorem TileOp.readAnswered_id (o : TileOp) (tag : Nat) (k : Packet) (a : Answered) :
    (o.readAnswered tag k a).id = o.id := by
  unfold TileOp.readAnswered
  split <;> rfl

/-- An instruction that a queue holds has the number it is looked up by. -/
theorem State.op_id {s : State} {t : ThreadId} {id : Nat} {o : TileOp} (h : s.op? t id = some o) : o.id = id :=
  beq_iff_eq.1 (List.find?_some (p := fun o : TileOp => o.id == id) h)

theorem State.tryBind_id (s : State) (t : ThreadId) (o : TileOp) (g : Nat) : (s.tryBind t o g).1.id = o.id := by
  unfold State.tryBind
  dsimp only
  split
  · rfl
  · split
    · rfl
    · rfl
    · split <;> rfl

theorem State.bindAtIssue_id (s : State) (t : ThreadId) (o : TileOp) : (s.bindAtIssue t o).1.id = o.id := by
  unfold State.bindAtIssue
  split
  · exact s.tryBind_id t o _
  · rfl

namespace Keeps

variable {σ : Origin} {s u : State}

theorem refl {q : Scope} : Keeps ⟨s, q⟩ s := ⟨rfl, rfl, id, id, id, id, id⟩

theorem trans (h : Keeps σ s) (k : Keeps ⟨s, σ.scope⟩ u) : Keeps σ u :=
  ⟨k.variant.trans h.variant, k.pending.trans h.pending, k.service ∘ h.service, k.storage ∘ h.storage,
    k.counters ∘ h.counters, k.numbers ∘ h.numbers, k.scope ∘ h.scope⟩

/-- The end of a line's repair, where it may let a write through. -/
theorem ofLine [hw : Whole σ] {l : Nat} (h : Keeps σ s) (hl : l ≤ 256 → s.memory.ajar) (k : Keeps ⟨s, .line l⟩ u) :
    Keeps σ u := by
  refine h.trans ⟨k.variant, k.pending, k.service, k.storage, k.counters, k.numbers, ?_⟩
  obtain ⟨b, hb⟩ := hw.whole
  rw [hb]
  intro hm hs
  exact (k.scope ⟨hm hs, hl⟩).1

/-- Where nothing is to be kept beside the invariants, any scope does. -/
theorem ofAny [hp : Plain σ] {q : Scope} (h : Keeps σ s) (k : Keeps ⟨s, q⟩ u) : Keeps σ u := by
  refine h.trans ⟨k.variant, k.pending, k.service, k.storage, k.counters, k.numbers, ?_⟩
  rw [hp.plain]
  exact fun _ => nofun

/-- What only the scope of a line speaks of. -/
theorem ajar (h : Keeps ⟨s, .line 0⟩ u) (k : s.memory.ajar) : u.memory.ajar :=
  (h.scope ⟨k.sheltered, fun _ => k⟩).2 (Nat.zero_le _)

/-- A change of what `Keeps` does not speak of. -/
theorem unwatched (h : Keeps σ s) (e : u.watched = s.watched := by rfl) : Keeps σ u := by
  injection e with hv hp hc hl hf hr hm hi hg hh ht hx hn
  refine h.trans ⟨hv, hp, fun ⟨f, l, a, p, i, j⟩ => ⟨?_, ?_, ?_, ?_, ?_, ?_⟩, ?_, ?_, ?_,
    (Memory.near_of_guarded hg).holds⟩
  · rwa [hf, hv]
  · rwa [hl]
  · rwa [hr]
  · rwa [hm]
  · rwa [hi]
  · rwa [hi]
  · injection hg with hb
    simp only [StorageOk, Memory.wf, hb, hh, ht, imp_self]
  · simp only [CountersOk, hc, imp_self]
  · simp only [NumbersOk, hx, hn, imp_self]

theorem ite {c : Prop} {d : Decidable c} (h : Keeps σ s) (k : Keeps σ u) : Keeps σ (if c then s else u) := by
  split
  · exact h
  · exact k

/-- A choice by a condition that its branches use. -/
theorem dite {c : Prop} {d : Decidable c} (h : c → Keeps σ s) (k : ¬c → Keeps σ u) :
    Keeps σ (if c then s else u) := by
  split
  · exact h ‹_›
  · exact k ‹_›

theorem fst_eq {β : Type} {p : State × β} {b : β} (h : Keeps σ p.1) (e : p = (u, b)) : Keeps σ u := by
  subst e; exact h

theorem snd_eq {β : Type} {p : β × State} {b : β} (h : Keeps σ p.2) (e : p = (b, u)) : Keeps σ u := by
  subst e; exact h

theorem pair {β : Type} {b : β} (h : Keeps σ s) : Keeps σ (b, s).2 := h

theorem pairFst {β : Type} {b : β} (h : Keeps σ s) : Keeps σ (s, b).1 := h

theorem iteSnd {β : Type} {c : Prop} {d : Decidable c} {p q : β × State} (h : Keeps σ p.2) (k : Keeps σ q.2) :
    Keeps σ (if c then p else q).2 := by
  split
  · exact h
  · exact k

theorem iteFst {β : Type} {c : Prop} {d : Decidable c} {p q : State × β} (h : Keeps σ p.1) (k : Keeps σ q.1) :
    Keeps σ (if c then p else q).1 := by
  split
  · exact h
  · exact k

theorem foldl {α : Type} {f : State → α → State} {l : List α} (h : Keeps σ s)
    (hf : ∀ s a, Keeps σ s → Keeps σ (f s a)) : Keeps σ (l.foldl f s) := foldl_inv (Keeps σ) f hf l s h

theorem foldlFst {α β : Type} {f : State × β → α → State × β} {l : List α} {p : State × β} (h : Keeps σ p.1)
    (hf : ∀ q a, Keeps σ q.1 → Keeps σ (f q a).1) : Keeps σ (l.foldl f p).1 :=
  foldl_inv (fun q : State × β => Keeps σ q.1) f hf l p h

theorem foldlSnd {α β : Type} {f : β × State → α → β × State} {l : List α} {p : β × State} (h : Keeps σ p.2)
    (hf : ∀ q a, Keeps σ q.2 → Keeps σ (f q a).2) : Keeps σ (l.foldl f p).2 :=
  foldl_inv (fun q : β × State => Keeps σ q.2) f hf l p h

/-! ### One-unit changes -/

theorem modHost {f : HostIf → HostIf} (h : Keeps σ s) (e : (f s.host).bus = s.host.bus := by rfl) :
    Keeps σ (s.modHost f) := h.unwatched (by simp [State.watched, e])
theorem modLodge {f : Lodge → Lodge} (h : Keeps σ s) (e : (f s.lodge).incarnation = s.lodge.incarnation := by rfl) :
    Keeps σ (s.modLodge f) := h.unwatched (by simp [State.watched, e])
theorem modMem {f : Memory → Memory} (h : Keeps σ s) (e : (f s.memory).guarded = s.memory.guarded := by rfl) :
    Keeps σ (s.modMem f) := h.unwatched (by simp [State.watched, e])
theorem modTwin {f : Twin → Twin} (h : Keeps σ s) (e : (f s.twin).mirror = s.twin.mirror := by rfl) :
    Keeps σ (s.modTwin f) := h.unwatched (by simp [State.watched, e])
theorem modFabric {f : Fabric → Fabric} (h : Keeps σ s) : Keeps σ (s.modFabric f) := h.unwatched
theorem modCe {f : Collectives → Collectives} (h : Keeps σ s) : Keeps σ (s.modCe f) := h.unwatched
theorem modSr {f : Strongroom → Strongroom} (h : Keeps σ s) : Keeps σ (s.modSr f) := h.unwatched
theorem modCtx {c : Nat} {f : Ctx → Ctx} (h : Keeps σ s) : Keeps σ (s.modCtx c f) := h.unwatched
theorem modArray {a : Nat} {f : ArrayState → ArrayState} (h : Keeps σ s) : Keeps σ (s.modArray a f) := h.unwatched
theorem modLaunch {l : Nat} {f : Launch → Launch} (h : Keeps σ s) : Keeps σ (s.modLaunch l f) := h.unwatched
theorem free {n : Nat} (h : Keeps σ s) : Keeps σ (s.free n).2 := h.unwatched

/-! ### Counters (R391) -/

/-- A change of counters that keeps them within their bits. -/
theorem setCounters {m : Map Counter} (h : Keeps σ s) (e : CountersOk s → ∀ x ∈ m, x.2.value ≤ ctrMax) :
    Keeps σ { s with counters := m } :=
  h.trans ⟨rfl, rfl, fun k => ⟨k.fp64, k.level, k.lane, k.permitted, k.incarnationPos, k.incarnationMax⟩, id, e, id,
    id⟩

theorem openValues {e : CatEntry} (h : Keeps σ s) : Keeps σ (s.openValues e).2 := by
  unfold State.openValues
  split
  · exact h
  · exact h.free

theorem mark {cls level accession detail : Nat} (h : Keeps σ s) : Keeps σ (s.mark cls level accession detail) :=
  h.unwatched

theorem catalogue {e : CatEntry} (h : Keeps σ s) : Keeps σ (s.catalogue e) :=
  .ite h.openValues.modLodge.modLodge.mark h.openValues.modLodge

theorem raise {cls level detail : Nat} {e : CatEntry} (h : Keeps σ s) : Keeps σ (s.raise cls level e detail) :=
  h.catalogue.mark

theorem count {c : CtrId} {inst n : Nat} (h : Keeps σ s) : Keeps σ (s.count c inst n) := by
  have put : ∀ v : Counter, v.value ≤ ctrMax →
      Keeps σ { s with counters := Map.put s.counters (ctrKey c inst) v } := fun v hv =>
    h.setCounters fun hc x hx => (Map.mem_put hx).elim (hc x) fun e => e ▸ hv
  exact .ite h (.dite (fun hv => put _ hv) fun _ => .ite (put _ (Nat.le_refl _)) (put _ (Nat.le_refl _)).raise)

/-! ### Threads -/

/-- A change of threads whose tile instructions have numbers that have been given out. -/
theorem setThreads {m : Map Thread} (h : Keeps σ s)
    (e : NumbersOk s → ∀ x ∈ m, ∀ o ∈ x.2.ops, o.id < s.nextOp) : Keeps σ { s with threads := m } :=
  h.trans ⟨rfl, rfl, fun k => ⟨k.fp64, k.level, k.lane, k.permitted, k.incarnationPos, k.incarnationMax⟩, id, id, e,
    id⟩

theorem setThread {t : ThreadId} {x : Thread} (h : Keeps σ s) (e : NumbersOk s → ∀ o ∈ x.ops, o.id < s.nextOp) :
    Keeps σ (s.setThread t x) := by
  refine h.setThreads fun hn y hy => ?_
  obtain hy | rfl := Map.mem_put hy
  · exact hn y hy
  · exact e hn

theorem modThread {t : ThreadId} {f : Thread → Thread} (h : Keeps σ s)
    (e : (f (s.thread t)).ops = (s.thread t).ops := by rfl) : Keeps σ (s.modThread t f) :=
  h.setThread fun hn => e ▸ numbersOk_thread hn t

/-- An instruction of a queue is changed, and keeps its number. -/
theorem modOp {t : ThreadId} {id : Nat} {f : TileOp → TileOp} (h : Keeps σ s)
    (e : ∀ o, o.id = id → (f o).id = id := by exact fun _ h => h) : Keeps σ (s.modOp t id f) := by
  refine h.setThread fun hn o ho => ?_
  obtain ⟨p, hp, rfl⟩ := List.mem_map.1 ho
  split
  · next hi =>
    rw [e p (beq_iff_eq.1 hi), ← beq_iff_eq.1 hi]
    exact numbersOk_thread hn t p hp
  · exact numbersOk_thread hn t p hp

/-- Threads are taken out, or changed in what is not their queue. -/
theorem subThreads {m : Map Thread} (h : Keeps σ s) (e : ∀ x ∈ m, ∃ y ∈ s.threads, x.2.ops = y.2.ops) :
    Keeps σ { s with threads := m } := by
  refine h.setThreads fun hn x hx => ?_
  obtain ⟨y, hy, he⟩ := e x hx
  exact he ▸ hn y hy

theorem filterThreads {p : Nat × Thread → Bool} (h : Keeps σ s) :
    Keeps σ { s with threads := s.threads.filter p } :=
  h.subThreads fun x hx => ⟨x, List.mem_of_mem_filter hx, rfl⟩

theorem mapThreads {f : Nat → Thread → Thread} (h : Keeps σ s) (e : ∀ k x, (f k x).ops = x.ops) :
    Keeps σ { s with threads := Map.mapVals f s.threads } := by
  refine h.subThreads fun x hx => ?_
  obtain ⟨y, hy, rfl⟩ := List.mem_map.1 hx
  exact ⟨y, hy, e y.1 y.2⟩

/-! ### Bytes of memory, of the host's bus and of the mirror -/

theorem setMemory {m : Memory} (h : Keeps σ s) (e : s.memory.wf = true → m.wf = true)
    (k : σ.met → σ.scope.holds s.memory → σ.scope.holds m) : Keeps σ { s with memory := m } :=
  ⟨h.variant, h.pending, fun hr =>
    have hs := h.service hr
    ⟨hs.fp64, hs.level, hs.lane, hs.permitted, hs.incarnationPos, hs.incarnationMax⟩,
    fun hr => (h.storage hr).imp_left e, h.counters, h.numbers, fun hr => k hr (h.scope hr)⟩

theorem setBus {x : HostIf} (h : Keeps σ s) (e : cellsWf s.host.bus = true → cellsWf x.bus = true) :
    Keeps σ { s with host := x } :=
  h.trans ⟨rfl, rfl, fun k => ⟨k.fp64, k.level, k.lane, k.permitted, k.incarnationPos, k.incarnationMax⟩,
    fun ⟨hm, hb, ht⟩ => ⟨hm, e hb, ht⟩, id, id, id⟩

theorem setMirror {x : Twin} (h : Keeps σ s) (e : cellsWf s.twin.mirror = true → cellsWf x.mirror = true) :
    Keeps σ { s with twin := x } :=
  h.trans ⟨rfl, rfl, fun k => ⟨k.fp64, k.level, k.lane, k.permitted, k.incarnationPos, k.incarnationMax⟩,
    fun ⟨hm, hb, ht⟩ => ⟨hm, hb, e ht⟩, id, id, id⟩

/-- A change of memory that the scopes do not mind, and that keeps its bytes. -/
theorem near {m : Memory} (h : Keeps σ s) (k : s.memory.Near m) (e : m.bytes = s.memory.bytes := by rfl) :
    Keeps σ { s with memory := m } := h.setMemory (fun hw => by unfold Memory.wf; rwa [e]) fun _ => k.holds

/-- Where nothing is to be kept beside the invariants, memory is changed as one likes but for its bytes. -/
theorem modMemAny [hp : Plain σ] {f : Memory → Memory} (h : Keeps σ s)
    (e : (f s.memory).bytes = s.memory.bytes := by rfl) : Keeps σ (s.modMem f) :=
  h.setMemory (fun hw => by unfold Memory.wf; rwa [e]) fun _ _ => by rw [hp.plain]; exact nofun

/-- A page goes: its bytes are zero, and its granules leave the cellar. -/
theorem pageGone [hw : Wide σ] {m : Memory} (i : Nat) (h : Keeps σ s)
    (hb : m.bytes = cellsZero s.memory.bytes (i * pageBytes) pageBytes)
    (hg : ∀ g, g / 32 ≠ i → Map.getD m.granules g {} = Map.getD s.memory.granules g {})
    (hr : ∀ e ∈ m.repairing, e ∈ s.memory.repairing) (hc : m.channelErrors = s.memory.channelErrors) :
    Keeps σ { s with memory := m } := by
  have wf : s.memory.wf = true → m.wf = true := fun k => by
    unfold Memory.wf
    rw [hb]
    exact cellsWf_cellsZero _ _ _ k
  refine h.setMemory wf fun _ k => ?_
  have marked : m.marked → s.memory.marked := fun ⟨d, hd, hm⟩ => ⟨d, hr d hd, hm⟩
  have cell : cellRead m.bytes 65540 = if i = 0 then 0 else cellRead s.memory.bytes 65540 := by
    rw [hb, cellRead_cellsZero]
    refine if_congr ?_ rfl rfl
    simp only [pageBytes]
    omega
  have sheltered : s.memory.sheltered → m.sheltered := by
    intro hs hm
    by_cases hi : i = 0
    · exact .inr (cell.trans (if_pos hi))
    · refine (hs (marked hm)).imp (Or.imp (fun e => ?_) fun e => hc ▸ e) fun e => (cell.trans (if_neg hi)).trans e
      rwa [hg 0 (by omega)]
  cases hq : σ.scope with
  | whole b => exact fun hb => sheltered ((hq ▸ k : Scope.holds (.whole b) _) hb)
  | struck => exact (congrArg (· ≠ []) hc).mpr (hq ▸ k : Scope.holds .struck s.memory)
  | line l => exact absurd hq (hw.noLine l)

/-- Another list of repairs, by which line 256 is not under repair anew with a row to retire. -/
theorem modRepairing {f : Memory → Memory} (h : Keeps σ s) (k : (f s.memory).marked → s.memory.marked)
    (e : (f s.memory).guarded = { s.memory.guarded with repairing := (f s.memory).repairing } := by rfl) :
    Keeps σ (s.modMem f) := by
  injection e with hb hg _ hc
  exact h.near ⟨congrArg (fun b => cellRead b 65540) hb, by rw [hg]; exact id, k, by rw [hc]; exact id⟩ hb

/-- Repairs that are taken off the list. -/
theorem dropRepairing {f : Memory → Memory} (h : Keeps σ s)
    (k : ∀ e ∈ (f s.memory).repairing, e ∈ s.memory.repairing)
    (e : (f s.memory).guarded = { s.memory.guarded with repairing := (f s.memory).repairing } := by rfl) :
    Keeps σ (s.modMem f) := h.modRepairing (fun ⟨d, hd, hm⟩ => ⟨d, k d hd, hm⟩) e

end Keeps

/-- An outcome is a next state, and keeps what `Keeps` speaks of. -/
def Goes (σ : Origin) (o : Host.Outcome State Fault Refusal) : Prop := ∃ u, o = .next u ∧ Keeps σ u

theorem Goes.next {σ : Origin} {s : State} (h : Keeps σ s) : Goes σ (.next s) := ⟨s, rfl, h⟩

theorem Keeps.nextOr {σ : Origin} {s : State} {o : Host.Outcome State Fault Refusal} (_ : Keeps σ s) (ho : Goes σ o) :
    Keeps σ (Machine.nextOr s o) := by
  obtain ⟨u, rfl, hu⟩ := ho
  exact hu

end Sys2Proof.Machine
end

section
/-! SUPPORT. Every operation of the model keeps the queue, the variant and the invariants: one lemma per operation, in the
order of the model and under its name, whose proof is the chain of the operations that it calls. The operations up to the
checks of lines are in the order of what their lemmas ask of the scope. -/

namespace Sys2Proof.Machine.Keeps

set_option Elab.async false

variable {σ : Origin}

/-! ### Device time (R14, R451) and one-unit changes -/

theorem freeBelow {s : State} {n : Nat} (hs : Keeps σ s) : Keeps σ (s.freeBelow n).2 := by
  unfold State.freeBelow
  dsimp only
  exact hs.free

theorem random {s : State} {n : Nat} (hs : Keeps σ s) : Keeps σ (s.random n).2 := .pair hs.modSr

/-! ### Event counters (R391) -/

theorem countFree {s : State} {c : CtrId} {inst : Nat} (hs : Keeps σ s) : Keeps σ (s.countFree c inst) := by
  unfold State.countFree
  dsimp only
  exact hs.free.count

/-! ### Health events (R395) and fault records (R367, R368) -/

theorem healthEvent {s : State} {cls : Nat} (hs : Keeps σ s) : Keeps σ (s.healthEvent cls) := hs.modLodge

theorem fault {s : State} {cause unit index domain ctx : Nat} {address : Word} {detail : Nat} (hs : Keeps σ s) :
    Keeps σ (s.fault cause unit index domain ctx address detail) := by
  unfold State.fault
  dsimp only
  split
  · exact hs.raise.modLodge.healthEvent
  · exact hs.raise.modLodge

/-! ### The trace (R465) -/

theorem trace {s : State} {source unit ctx : Nat} {data : Bytes} (hs : Keeps σ s) :
    Keeps σ (s.trace source unit ctx data) := .ite hs.modLodge hs

/-! ### Sending on the Palex fabric -/

theorem modPort {s : State} {p : Nat} {f : Port → Port} (hs : Keeps σ s) : Keeps σ (s.modPort p f) := hs.modFabric

/-! ### The header's bytes (R257, R258) -/

theorem noRoute {s : State} (hs : Keeps σ s) : Keeps σ s.noRoute := hs.count

theorem setFlow {s : State} {dst vc p : Nat} (hs : Keeps σ s) : Keeps σ (s.setFlow dst vc p) := hs.modFabric

theorem endStall {s : State} {p vc : Nat} (hs : Keeps σ s) : Keeps σ (s.endStall p vc) := .ite hs.countFree hs

theorem settleFlow {s : State} {dst vc : Nat} (hs : Keeps σ s) : Keeps σ (s.settleFlow dst vc) := by
  unfold State.settleFlow
  split
  · exact hs
  · split
    · exact hs
    · split
      · exact hs
      · extract_lets p mine moved s0 s1
        have h0 : Keeps σ s0 := .ite hs hs.endStall
        have h1 : Keeps σ s1 := h0.setFlow.count.modPort
        exact h1.foldl (fun _ _ h3 => h3.modPort)

/-- An operation that may answer no state: what it answers has come of the state before. -/
theorem flowPort {s u : State} {dst vc p : Nat} (hs : Keeps σ s) (e : s.flowPort dst vc = some (p,
    u)) : Keeps σ u := by
  simp only [State.flowPort] at e
  split at e
  · split at e
    · cases e; exact hs.settleFlow
    · cases e
  · obtain ⟨q, -, e⟩ := Option.map_eq_some_iff.1 e
    cases e; exact hs.settleFlow.setFlow

theorem enqueue {s : State} {p : Nat} {o : OutPacket} (hs : Keeps σ s) : Keeps σ (s.enqueue p o) := hs.modPort

theorem hello {s : State} {dst : Nat} (hs : Keeps σ s) : Keeps σ (s.hello dst) := by
  unfold State.hello
  split
  · exact hs
  · exact ((hs.flowPort ‹_›).enqueue).modFabric

theorem helloFirst {s : State} {dst : Nat} (hs : Keeps σ s) : Keeps σ (s.helloFirst dst) := .ite hs hs.hello

theorem settleFlows {s : State} (hs : Keeps σ s) : Keeps σ s.settleFlows := hs.foldl (fun _ _ h => h.settleFlow)

theorem portFor {s u : State} {type dst vc p : Nat} (hs : Keeps σ s) (e : s.portFor type dst vc = some (p, u)) :
    Keeps σ u := by
  unfold State.portFor at e
  split at e
  · split at e
    · cases e; exact hs
    · cases e
  · exact hs.flowPort e

theorem modRequest {s : State} {tag : Nat} {f : Request → Request} (hs : Keeps σ s) :
    Keeps σ (s.modRequest tag f) := hs.modFabric

theorem startTimer {s : State} {tag : Nat} (hs : Keeps σ s) : Keeps σ (s.startTimer tag) := hs.modRequest

theorem sendRequest {s : State} {tag : Nat} (hs : Keeps σ s) : Keeps σ (s.sendRequest tag) := by
  unfold State.sendRequest
  split
  · exact hs
  · extract_lets d __src __src'
    split
    · exact hs
    · split
      · exact hs.helloFirst.startTimer
      · split
        · exact .ite hs.startTimer hs
        · exact .ite (hs.portFor ‹_›) (((hs.portFor ‹_›).enqueue).modRequest)

theorem emit {s : State} {o : OutPacket} (hs : Keeps σ s) : Keeps σ (s.emit o) := by
  unfold State.emit
  extract_lets d
  split
  · exact hs.helloFirst.modFabric
  · split
    · exact hs.modFabric
    · exact (hs.portFor ‹_›).enqueue

theorem pump {s : State} (hs : Keeps σ s) : Keeps σ s.pump :=
  (hs.modFabric.foldl (fun _ _ h => h.emit)).foldl (fun _ _ h1 => h1.sendRequest)

theorem request {s : State} {type dst ctx : Nat} {addr : Word} {len : Nat} {unit : ReqUnit} {operand : Word}
    {payload : Bytes} {operation : Nat} {select byTag : Bool} {thread : Option ThreadId} {owner : Option Nat}
    {span : Option (Nat × Nat)} (hs : Keeps σ s) :
    Keeps σ (s.request type dst ctx addr len unit operand payload operation select byTag thread owner span).2 :=
  .pair hs.modFabric.sendRequest

theorem writeRequest {s : State} {dst ctx a : Nat} {bs : Bytes} {unit : ReqUnit} {thread : Option ThreadId}
    (hs : Keeps σ s) :
    Keeps σ (s.writeRequest dst ctx a bs unit thread).2 := hs.request

theorem retire {s : State} {tag : Nat} (hs : Keeps σ s) : Keeps σ (s.retire tag) := hs.modFabric

theorem respond {s : State} {type : Nat} {k : Packet} {len : Nat} {operand : Word} {payload : Bytes}
    {status : Nat} (hs : Keeps σ s) :
    Keeps σ (s.respond type k len operand payload status) := hs.emit

/-! ### The Curator -/

theorem modPage {s : State} {i : Nat} {f : Page → Page} (hs : Keeps σ s) : Keeps σ (s.modPage i f) := hs.modMem

/-! ### Reading and writing -/

/-- A granule is changed, and stays where it is in the cellar. -/
theorem modGranule {s : State} {g : Nat} {f : Granule → Granule} (hs : Keeps σ s)
    (e : ∀ x, (f x).slice = x.slice := by intro _; rfl) : Keeps σ (s.modGranule g f) := by
  refine hs.near ⟨rfl, fun h => ?_, id, id⟩
  by_cases hg : g = 0
  · subst hg
    exact (congrArg Option.isSome ((congrArg Granule.slice (Map.getD_put_self ..)).trans (e _))).trans h
  · exact (congrArg (fun x : Granule => x.slice.isSome) (Map.getD_put_other _ _ _ _ _ (Ne.symm hg))).trans h

/-- Granules are changed, and stay where they are in the cellar. -/
theorem modGranules {s : State} {f : Memory → Memory} {g : Nat → Granule → Granule} (hs : Keeps σ s)
    (k : ∀ i x, (g i x).slice = x.slice := by intro _ _; rfl)
    (e : (f s.memory).guarded = { s.memory.guarded with granules := Map.mapVals g s.memory.granules } := by rfl) :
    Keeps σ (s.modMem f) := by
  injection e with hb hg hr hc
  refine hs.near ⟨congrArg (fun b => cellRead b 65540) hb, fun h => ?_, fun h => ?_, fun h => hc ▸ h⟩ hb
  · rw [hg, Map.getD, Map.get?_mapVals]
    rw [Map.getD] at h
    cases hx : Map.get? s.memory.granules 0 with
    | none => rw [hx] at h; exact h
    | some x =>
      rw [hx] at h
      exact (congrArg Option.isSome (k 0 x)).trans h
  · unfold Memory.marked at h ⊢
    rwa [hr] at h

theorem touch {s : State} {a n : Nat} (hs : Keeps σ s) : Keeps σ (s.touch a n) :=
  hs.foldl (fun _ _ h => h.modGranule)

theorem copyOnWrite {s : State} {a n : Nat} (hs : Keeps σ s) : Keeps σ (s.copyOnWrite a n) := by
  unfold State.copyOnWrite
  split
  · exact hs
  · exact hs.foldl (fun _ _ h1 => .ite h1.modTwin.modMem.count h1.modTwin)

theorem staleProvenance {s : State} {a n : Nat} (hs : Keeps σ s) : Keeps σ (s.staleProvenance a n) :=
  hs.modMem.count

theorem clearLost {s : State} {a n : Nat} (hs : Keeps σ s) : Keeps σ (s.clearLost a n) := .ite hs hs.modMem

theorem cleanAttic {s : State} {line : Nat} (hs : Keeps σ s) : Keeps σ (s.cleanAttic line) := hs.modMem

theorem cleanCellar {s : State} {l : Nat} (hs : Keeps σ s) : Keeps σ (s.cleanCellar l) := hs.modMem

theorem clearErrors {s : State} {a n : Nat} (hs : Keeps σ s) : Keeps σ (s.clearErrors a n) :=
  hs.foldl (fun _ _ h => .ite h.cleanCellar h.cleanAttic)

/-- Bytes of memory are written, where the scope lets them. -/
theorem setBytes {s : State} {a : Nat} {bs : Bytes} (hs : Keeps σ s) (k : σ.met → σ.scope.lets s.memory a bs.length) :
    Keeps σ (s.setBytes a bs) :=
  hs.setMemory (s.setBytes_wf a bs) fun hm h => k hm h bs rfl

theorem storeNow {s : State} {a : Nat} {bs : Bytes} (hs : Keeps σ s) (k : σ.met → s.memory.spares a bs.length) :
    Keeps σ (s.storeNow a bs) := by
  have before : ∀ {τ : Origin}, Keeps τ s → Keeps τ ((unitsOf granuleBytes a bs.length).foldl
      (fun s g => s.modGranule g fun x => { x with dirty := x.dirty || x.slice.isSome })
      (((((s.copyOnWrite a bs.length).staleProvenance a bs.length).clearLost a bs.length).clearErrors a
        bs.length).touch a bs.length)) := fun h =>
    h.copyOnWrite.staleProvenance.clearLost.clearErrors.touch.foldl fun _ _ h => h.modGranule
  exact (before hs).setBytes fun hm => Scope.lets_of_spares fun ha hn => (before .refl).ajar (k hm ha hn)

theorem semAddNow {s : State} {array a n : Nat} (hs : Keeps σ s) (k : σ.met → s.memory.spares a 4) :
    Keeps σ (s.semAddNow array a n) := by
  have stored : ∀ v, Keeps σ (s.storeNow a (le 4 v)) := fun v => hs.storeNow (by rwa [length_le])
  exact .ite hs.count (.ite (stored _) (stored _).count)

theorem addLost {s : State} {l : Nat} (hs : Keeps σ s) : Keeps σ (s.addLost l) := by
  unfold State.addLost
  extract_lets i
  refine hs.modMem ?_
  split
  · rfl
  · split <;> rfl

theorem markLost {s : State} {ls : List Nat} (hs : Keeps σ s) : Keeps σ (s.markLost ls) :=
  hs.foldl (fun _ _ h => .ite h h.addLost.count)

/-! ### Cellar placement (R222 to R225) and frames (R229 to R231) -/

theorem forgetErrors {s : State} {g : Nat} {dirty : Bool} (hs : Keeps σ s) : Keeps σ (s.forgetErrors g dirty) :=
  .ite hs (hs.foldl (fun _ _ h => .ite h.cleanCellar.cleanAttic h.cleanCellar))

theorem forgetLost {s : State} {i : Nat} (hs : Keeps σ s) : Keeps σ (s.forgetLost i) := hs.modMem

theorem freshFrame {s : State} {f : Nat} (hs : Keeps σ s) : Keeps σ (s.freshFrame f) := hs.modMem

/-- A chain of operations that may answer no state. -/
theorem foldBind {α : Type} {f : State → α → Option State} {l : List α} {s u : State} (hs : Keeps σ s)
    (hf : ∀ s v a, Keeps σ s → f s a = some v → Keeps σ v)
    (e : l.foldl (fun o a => o.bind fun s => f s a) (some s) = some u) : Keeps σ u := by
  have all := foldl_inv (fun o => ∀ v, o = some v → Keeps σ v) (fun o a => o.bind fun s => f s a)
    (fun o a ho v hv => by
      obtain ⟨w, rfl, hw⟩ := Option.bind_eq_some_iff.1 hv
      exact hf w v a (ho w rfl) hw) l (some s) (fun v hv => Option.some.inj hv ▸ hs)
  exact all u e

/-! ### Errors (R232 to R236) -/

theorem retireRow {s : State} {row : Nat} (hs : Keeps σ s) : Keeps σ (s.retireRow row) := by
  unfold State.retireRow
  split
  · exact hs
  · exact .ite hs.modMem (.ite hs.count hs.count.modMem.fault)

theorem corrected {s : State} {cellar : Bool} {attic : Nat} (hs : Keeps σ s) : Keeps σ (s.corrected cellar attic) :=
  .ite hs.count (.ite hs.modMem.count.retireRow hs.modMem.count)

theorem wakeLine {s : State} {l : Nat} (hs : Keeps σ s) : Keeps σ (s.wakeLine l) :=
  .ite hs (hs.mapThreads fun _ x => by split <;> rfl)

theorem endReset {s : State} (hs : Keeps σ s) : Keeps σ s.endReset := by
  unfold State.endReset
  exact hs.modHost.fault

theorem uncorrectableCellar {s : State} {l : Nat} (hs : Keeps σ s) : Keeps σ (s.uncorrectable true l) := by
  simp only [State.uncorrectable, if_true]
  exact hs.count.fault

theorem settleWild {s : State} {local_ : Option Nat} {block : Nat} (hs : Keeps σ s)
    (k : ∀ a, local_ = some a → σ.met → σ.scope.lets s.memory a 64) : Keeps σ (s.settleWild local_ block) := by
  unfold State.settleWild
  split
  · exact hs
  · dsimp only
    split
    · exact hs.free
    · refine Keeps.modMem ?_
      split
      · next a => exact hs.free.setBytes (by simpa [Config.freeBytes] using k a rfl)
      · exact hs.free

/-- A settled line is none of those under repair, and is written within its own bytes. -/
theorem settleLine {s : State} {l : Nat} (hs : Keeps σ s) (k : l = 256 → s.memory.ajar) : Keeps σ (s.settleLine l) := by
  refine (List.foldlRecOn (motive := fun u => Keeps σ u ∧ (l = 256 → u.memory.ajar)) _ _ ⟨hs, k⟩ ?_).1
  rintro u ⟨hu, hl⟩ ⟨b, i⟩ hi
  have hi : i < 4 := by simpa [blocksOf, countUp] using (List.mem_zipIdx hi).2.1
  have spares : u.memory.spares (l * lineBytes + 64 * i) 64 := fun ha hn => hl (by simp only [lineBytes] at ha hn; omega)
  have settled : ∀ {τ : Origin}, Keeps τ u → Keeps τ (u.settleWild (some (l * lineBytes + 64 * i)) b) := fun h =>
    h.settleWild fun a e _ => Option.some.inj e ▸ Scope.lets_of_spares spares
  exact ⟨settled hu, fun h => (settled .refl).ajar (hl h)⟩

/-! ### The repair of a line (R237 to R243) -/

section Line

variable {r : State} {l : Nat}

theorem applyDeferredAt {s : State} (hs : Keeps ⟨r, .line l⟩ s) : Keeps ⟨r, .line l⟩ (s.applyDeferred l) := by
  unfold State.applyDeferred
  refine List.foldlRecOn (motive := fun u => Keeps ⟨r, .line l⟩ u) _ _ hs.modMem ?_
  intro u hu w hw
  have atLine : w.addr / lineBytes = l := of_decide_eq_true (List.mem_filter.1 hw).2
  have spares : ∀ n, Origin.met ⟨r, .line l⟩ → u.memory.spares w.addr n := fun n hm ha _ =>
    (hu.scope hm).2 (by simp only [lineBytes] at atLine; omega)
  cases w with
  | write a bs => exact hu.storeNow (spares _)
  | post a array n => exact hu.semAddNow (spares 4)

theorem releaseLineAt {s : State} (hs : Keeps ⟨r, .line l⟩ s) : Keeps ⟨r, .line l⟩ (s.releaseLine l) :=
  ((Keeps.ite hs.countFree hs).applyDeferredAt).wakeLine

theorem loseLineAt {s : State} (hs : Keeps ⟨r, .line l⟩ s) : Keeps ⟨r, .line l⟩ (s.loseLine l) :=
  (hs.dropRepairing fun _ => Map.mem_of_mem_erase).addLost.count.fault.releaseLineAt

/-- The repair of a line goes on, and what it is to retire stays. -/
theorem modRepair {s : State} {f : Repair → Repair} (hs : Keeps σ s)
    (e : ∀ x, (f x).retireRow = x.retireRow := by intro _; rfl) :
    Keeps σ (s.modMem fun m => { m with repairing := Map.modify m.repairing l f }) := by
  refine hs.modRepairing ?_
  rintro ⟨d, hd, h256, hrow⟩
  simp only [Map.modify] at hd
  split at hd
  · exact ⟨d, hd, h256, hrow⟩
  · next x hx =>
    obtain hd | rfl := Map.mem_put hd
    · exact ⟨d, hd, h256, hrow⟩
    · exact ⟨(l, x), Map.mem_of_get? hx, h256, e x ▸ hrow⟩

theorem repairGoAt {s : State} {fuel : Nat} (hs : Keeps ⟨r, .line l⟩ s) :
    Keeps ⟨r, .line l⟩ (State.repairGo l fuel s) := by
  induction fuel generalizing s with
  | zero => exact hs
  | succ fuel ih =>
    unfold State.repairGo
    split
    · exact hs
    · split
      · exact hs.loseLineAt
      · exact .ite (ih hs.noRoute.modRepair.count) (.ite hs.modRepair (.ite hs.request.modRepair hs.request.modRepair))

theorem startRepairAt {s : State} (hs : Keeps ⟨r, .line l⟩ s) : Keeps ⟨r, .line l⟩ (s.startRepair l) := by
  unfold State.startRepair
  dsimp only
  refine (hs.modRepairing ?_).repairGoAt
  rintro ⟨e, he, h256, hrow⟩
  obtain he | rfl := Map.mem_put he
  · exact ⟨e, he, h256, hrow⟩
  · exact absurd rfl hrow

end Line

/-! ### Eviction and the retirement of channels (R229 to R231, R236, R375) -/

/-- The granules of a page are emptied, and no other, after the errors of those in the cellar are forgotten. -/
theorem emptyGranules_eq (s : State) (i : Nat) : ∃ (u : State) (f : Nat → Granule → Granule),
    (∀ {τ : Origin}, Keeps τ s → Keeps τ u) ∧ (∀ g, g / 32 ≠ i → ∀ x, f g x = x) ∧
      s.emptyGranules i = u.modMem fun m => { m with granules := Map.mapVals f m.granules } :=
  ⟨_, fun g x => if g / 32 == i then { x with slice := none, dirty := false, switchTo := none, touchedAt := none } else x,
    fun h => h.foldl fun _ _ h => h.forgetErrors, fun g hg x => if_neg (by simpa using hg), rfl⟩

/-- An error is counted of a channel. -/
theorem strike {s : State} {ch : Nat} {ts : List Nat} (hs : Keeps σ s) :
    Keeps σ (s.modMem fun m => { m with channelErrors := Map.put m.channelErrors ch ts }) :=
  hs.near ⟨rfl, id, id, fun _ => Map.put_ne_nil⟩

section Wide

variable [Wide σ]

theorem evictPage {s : State} {i : Nat} (hs : Keeps σ s) : Keeps σ (s.evictPage i) := by
  unfold State.evictPage
  split
  · exact hs
  · split
    · exact hs
    · refine .ite (Keeps.count (.modCtx ?_)) hs.modPage.modCtx.count
      obtain ⟨u, f, hu, hf, e⟩ := emptyGranules_eq (s.modPage i fun p => { p with state := .dropped }) i
      rw [e]
      exact Keeps.pageGone (s := u) i (hu hs.modPage) rfl (fun g hg => Map.getD_mapVals_of (hf g hg)) (fun _ h => h) rfl

theorem makeRoom {s u : State} {cls n fuel : Nat} (hs : Keeps σ s)
    (e : s.makeRoom cls n fuel = some u) : Keeps σ u := by
  induction fuel generalizing s with
  | zero =>
    unfold State.makeRoom at e
    split at e
    · cases e; exact hs
    · cases e
  | succ fuel ih =>
    unfold State.makeRoom at e
    split at e
    · cases e; exact hs
    · split at e
      · cases e
      · exact ih hs.evictPage e

theorem beginChannelReset {s : State} {ch : Nat} (hs : Keeps σ s) : Keeps σ (s.beginChannelReset ch) := by
  have room : Keeps σ ((s.makeRoom 3 1024 s.memory.pages.length).getD s) := by
    cases e : s.makeRoom 3 1024 s.memory.pages.length with
    | none => exact hs
    | some u => exact hs.makeRoom e
  exact .ite hs.count.fault.endReset room.modMem

theorem retireChannel {s : State} {ch : Nat} (hs : Keeps σ s) : Keeps σ (s.retireChannel ch) :=
  .ite hs.modHost (.ite hs.modHost.beginChannelReset hs)

theorem uncorrectable {s : State} {cellar : Bool} {l : Nat} (hs : Keeps σ s) : Keeps σ (s.uncorrectable cellar l) :=
  .ite hs.count.fault (.ite hs.strike.count.fault.retireChannel hs.strike.count.fault)

end Wide

/-- An uncorrectable error of a line that is not in the cellar is counted of its channel. -/
theorem uncorrectable_struck {s : State} {l : Nat} : (s.uncorrectable false l).memory.channelErrors ≠ [] := by
  unfold State.uncorrectable
  extract_lets a c ch ts s1
  rw [if_neg nofun]
  have wide : Wide ⟨s.modMem fun m => { m with channelErrors := Map.put m.channelErrors ch ts }, .struck⟩ := ⟨nofun⟩
  have h1 : Keeps ⟨s.modMem fun m => { m with channelErrors := Map.put m.channelErrors ch ts }, .struck⟩ s1 :=
    Keeps.refl.count.fault
  exact (Keeps.ite h1.retireChannel h1).scope Map.put_ne_nil

/-! ### Writes and checks -/

theorem store {s : State} {a : Nat} {bs : Bytes} (hs : Keeps σ s) : Keeps σ (s.store a bs) := by
  unfold State.store
  refine .dite (fun h => hs.storeNow fun _ ha hn => Memory.ajar_of_unrepaired ?_) fun _ => ?_
  · rintro ⟨_, x⟩ he rfl
    simp only [Bool.or_eq_true, List.isEmpty_iff, State.repairingIn, List.append_eq_nil_iff, List.filter_eq_nil_iff] at h
    obtain h | ⟨none, -⟩ := h
    · rw [h] at he
      exact nomatch he
    · have touched : a < (256 + 1) * lineBytes ∧ 256 * lineBytes < a + bs.length := by simp only [lineBytes]; omega
      exact none 256 (List.mem_map.2 ⟨_, he, rfl⟩) (by simpa using touched)
  · refine hs.foldl fun u l hu => ?_
    refine .dite (fun _ => hu.modMem) fun h => hu.storeNow fun _ ha hn => ?_
    have : l = 256 := by
      simp only [List.length_take, List.length_drop, lineBytes] at ha hn
      omega
    subst this
    exact Memory.ajar_of_not_has (by simpa using h)

theorem semAdd {s : State} {array a n : Nat} (hs : Keeps σ s) : Keeps σ (s.semAdd array a n) := by
  unfold State.semAdd
  refine .dite (fun _ => hs.modMem) fun h => hs.semAddNow fun _ ha hn => ?_
  have : a / lineBytes = 256 := by simp only [lineBytes]; omega
  exact Memory.ajar_of_not_has (this ▸ by simpa using h)

section Whole

variable [Whole σ]

theorem allocate {s u : State} {cls n : Nat} (hs : Keeps σ s) (e : s.allocate cls n = some u) : Keeps σ u := by
  obtain ⟨v, ev, rfl⟩ := Option.map_eq_some_iff.1 e
  exact (hs.makeRoom ev).modMem

theorem ctxAllocate {s u : State} {c n : Nat} (hs : Keeps σ s) (e : s.ctxAllocate c n = some u) : Keeps σ u := by
  unfold State.ctxAllocate at e
  split at e
  · cases e; exact hs
  · split at e
    · cases e
    · exact hs.allocate e

theorem unmapPage {s : State} {i : Nat} (hs : Keeps σ s) : Keeps σ (s.unmapPage i) := by
  unfold State.unmapPage
  split
  · exact hs
  · exact Keeps.pageGone (s := s.copyOnWrite (i * pageBytes) pageBytes) i hs.copyOnWrite rfl
      (fun g hg => Map.getD_filter_of (p := fun g => g / 32 != i) (by simpa using hg)) (fun _ h => List.mem_of_mem_filter h)
      rfl

theorem beginReturn {s u : State} {cls i : Nat} (hs : Keeps σ s)
    (e : s.beginReturn cls i = some u) : Keeps σ u := by
  unfold State.beginReturn at e
  split at e
  · cases e; exact hs
  · split at e
    · cases e; exact hs
    · split at e
      · cases e
      · obtain ⟨v, ev, rfl⟩ := Option.map_eq_some_iff.1 e
        have hv := hs.allocate ev
        exact (Keeps.ite hv.modMem hv).freshFrame.modPage

theorem beginReturns {s u : State} {cls : Nat} {is : List Nat} (hs : Keeps σ s)
    (e : s.beginReturns cls is = some u) :
    Keeps σ u := hs.foldBind (fun _ _ _ h => h.beginReturn) e

theorem startRepair {s : State} {l : Nat} (hs : Keeps σ s) (k : l ≤ 256 → s.memory.ajar) : Keeps σ (s.startRepair l) :=
  hs.ofLine k (startRepairAt .refl)

/-- A line's repair after an uncorrectable error of the attic. -/
theorem atticRepair {s : State} {l attic : Nat} (hs : Keeps σ s) :
    Keeps σ (((s.uncorrectable false l).cleanAttic attic).startRepair l) :=
  hs.uncorrectable.cleanAttic.startRepair fun _ _ => .inr uncorrectable_struck

theorem cellarRepair {s : State} {l : Nat} {dirty : Bool} (hs : Keeps σ s) (k : l ≤ 256 → s.memory.ajar) :
    Keeps σ (s.cellarRepair l dirty) := by
  unfold State.cellarRepair
  extract_lets s1 s2 attic
  have counted : ∀ {τ : Origin}, Keeps τ s → Keeps τ s1 := fun h => h.uncorrectableCellar.cleanCellar
  have h1 : Keeps σ s1 := counted hs
  have k1 : l ≤ 256 → s1.memory.ajar := fun h => (counted .refl).ajar (k h)
  have h2 : Keeps σ s2 := h1.settleLine fun h => k1 (Nat.le_of_eq h)
  split
  · exact h1.startRepair k1
  · split
    · exact h2.count
    · exact h2.corrected.cleanAttic.count
    · exact h2.atticRepair

/-- A line whose repair is over or has not begun is checked, so none is checked that waits for its repair. -/
theorem checkLine {s : State} {l : Nat} (hs : Keeps σ s) : Keeps σ (s.checkLine l) := by
  unfold State.checkLine
  refine .dite (fun _ => hs) fun h => ?_
  have free : l = 256 → s.memory.ajar := fun e => Memory.ajar_of_not_has (by simp_all)
  refine .dite (fun hc => ?_) fun _ => ?_
  · have held : l ≤ 256 → s.memory.ajar := fun hl => by
      by_cases e : l = 256
      · exact free e
      · have : l * lineBytes / granuleBytes = 0 := Nat.div_eq_of_lt (by simp only [lineBytes, granuleBytes]; omega)
        unfold State.inCellar at hc
        exact fun _ => .inl (this ▸ hc)
    split
    · exact hs
    · exact hs.corrected.cleanCellar
    · exact hs.cellarRepair held
  · extract_lets s1 attic
    have h1 : Keeps σ s1 := hs.settleLine free
    split
    · exact h1
    · exact h1.corrected.cleanAttic
    · exact h1.atticRepair

theorem checkRead {s : State} {a n : Nat} (hs : Keeps σ s) : Keeps σ (s.checkRead a n) :=
  hs.foldl (fun _ _ h => h.checkLine)

end Whole


/-! ### Operations that keep nothing beside the invariants -/

section Plain

set_option linter.unusedSectionVars false

variable [Whole σ] [hp : Plain σ]

theorem evictGranule {s : State} {g : Nat} (hs : Keeps σ s) : Keeps σ (s.evictGranule g) :=
  hs.forgetErrors.modMemAny.count.trace

theorem emptyGranules {s : State} {i : Nat} (hs : Keeps σ s) : Keeps σ (s.emptyGranules i) :=
  (hs.foldl (fun _ _ h => h.forgetErrors)).modMemAny

theorem loseLine {s : State} {l : Nat} (hs : Keeps σ s) : Keeps σ (s.loseLine l) := hs.ofAny (loseLineAt .refl)

theorem releaseLine {s : State} {l : Nat} (hs : Keeps σ s) : Keeps σ (s.releaseLine l) := hs.ofAny (releaseLineAt .refl)

theorem repairNext {s : State} {l : Nat} (hs : Keeps σ s) : Keeps σ (s.repairNext l) := hs.ofAny (repairGoAt .refl)

theorem repairFailed {s : State} {l : Nat} (hs : Keeps σ s) : Keeps σ (s.repairFailed l) := hs.count.repairNext

theorem lets {m : Memory} {a n : Nat} : σ.scope.lets m a n := by
  rw [hp.plain]
  exact fun _ _ _ => nofun

theorem repairDone {s : State} {l : Nat} {bs : Bytes} (hs : Keeps σ s) : Keeps σ (s.repairDone l bs) :=
  (hs.setBytes fun _ => lets).modMemAny.count.retireRow.releaseLine

theorem uncorrectableFrame {s : State} {attic : Nat} (hs : Keeps σ s) : Keeps σ (s.uncorrectableFrame attic) :=
  .ite hs.strike.count.fault.retireRow.retireChannel hs.strike.count.fault.retireRow

theorem scrubLine {s : State} {attic : Nat} (hs : Keeps σ s) : Keeps σ (s.scrubLine attic) := by
  unfold State.scrubLine
  extract_lets fix s1
  have settled : ∀ {u : State} {o : Option Nat} {b : Nat}, Keeps σ u → Keeps σ (u.settleWild o b) := fun h =>
    h.settleWild fun _ _ _ => lets
  have h1 : Keeps σ s1 := hs.foldl fun _ _ h => settled h
  split
  · split
    · exact h1
    · exact h1.corrected.cleanAttic
    · exact h1.uncorrectableFrame.cleanAttic
  · split
    · exact hs
    · extract_lets s1' s2
      have h1' : Keeps σ s1' := hs.foldl fun _ _ h => settled h
      have h2 : Keeps σ s2 := h1'.uncorrectable.cleanAttic
      split
      · exact h1'
      · exact h1'.corrected.cleanAttic
      · exact .ite h2 (h2.ofAny (startRepairAt .refl))

end Plain

/-! The laws of a whole scope hold from here on. -/

variable [Whole σ]

set_option linter.unusedSectionVars false

/-! ### Promotion (R223, R234) -/

theorem freeGranule [Plain σ] {s : State} {v : Nat} (hs : Keeps σ s) : Keeps σ (s.freeGranule v).2 := by
  unfold State.freeGranule
  extract_lets x s1
  have h1 : Keeps σ s1 := .ite hs.checkRead hs
  exact .iteSnd (.pair h1.evictGranule) h1

theorem migrates {s : State} {n : Nat} (hs : Keeps σ s) : Keeps σ (s.migrates n) := hs.modMem

theorem promote [Plain σ] {s : State} {g a : Nat} (hs : Keeps σ s) : Keeps σ (s.promote g a) := by
  have freed : ∀ o : Option Nat, Keeps σ ((o.map s.freeGranule).getD (false, s)).2 := by
    rintro (- | v)
    · exact hs
    · exact hs.freeGranule
  have room : ∀ (c : Prop) (d : Decidable c) (o : Option Nat),
      Keeps σ (if c then (true, s) else (o.map s.freeGranule).getD (false, s)).2 := fun _ _ o => .iteSnd hs
          (freed o)
  unfold State.promote
  dsimp only
  refine .ite hs (.ite hs.count ?_)
  split
  · next e => exact Eq.mp (congrArg (fun p : Bool × State => Keeps σ p.2) e) (room _ _ _)
  · next e =>
    have h2 := Eq.mp (congrArg (fun p : Bool × State => Keeps σ p.2) e) (room _ _ _)
    exact h2.migrates.modGranule.trace

theorem countedTouch [Plain σ] {s : State} {a n array : Nat} (hs : Keeps σ s) : Keeps σ (s.countedTouch a n array) :=
  hs.touch.foldl (fun _ _ h => .ite h (.ite h.modGranule.promote h.modGranule))

theorem countLost {s : State} {a n : Nat} (hs : Keeps σ s) : Keeps σ (s.countLost a n) := hs.count

/-! ### Binding (R426, R427) -/

theorem countSuppressed {s : State} {id : Word} {n : Nat} (hs : Keeps σ s) : Keeps σ (s.countSuppressed id n) :=
  hs.count.count.modSr

theorem bind {s : State} {src n dst m : Nat} (hs : Keeps σ s) : Keeps σ (s.bind src n dst m) := by
  unfold State.bind
  split
  · exact hs
  · exact hs.foldl (fun _ _ h1 => h1.modPage)

/-! ### Encoding output tiles -/

theorem storeAll {s : State} {ws : Writes} (hs : Keeps σ s) : Keeps σ (s.storeAll ws) :=
  hs.foldl (fun _ _ h => h.store)

/-! ### Finding tags -/

theorem modTag {s : State} {a c slot : Nat} {f : Tag → Tag} (hs : Keeps σ s) : Keeps σ (s.modTag a c slot f) :=
  hs.unwatched

/-! ### The sum of squares (R165 to R167) -/

theorem enterRoot {s : State} {a c slot index : Nat} {root : Option (Option Num)} (hs : Keeps σ s) :
    Keeps σ (s.enterRoot a c slot index root) := by
  unfold State.enterRoot
  split
  · exact hs
  · extract_lets y
    dsimp only
    exact hs.modTag.count

theorem takeContribution {s : State} {a c slot : Nat} (hs : Keeps σ s) : Keeps σ (s.takeContribution a c slot).2 :=
  .pair hs.modTag

/-! ### Traps (R150 to R154) -/

theorem withdrawArrivals {s : State} {t : ThreadId} {c : Nat} (hs : Keeps σ s) : Keeps σ (s.withdrawArrivals t c) :=
  hs.modCtx

theorem countWait {s : State} {t : ThreadId} (hs : Keeps σ s) : Keeps σ (s.countWait t) := by
  unfold State.countWait
  split
  · exact hs.countFree
  · exact hs.countFree
  · exact hs.countFree
  · exact hs.countFree
  · exact hs.countFree
  · exact hs.countFree
  · exact hs

theorem trapOne {s : State} {t : ThreadId} {pc : Word} {word : InstrWord} {r : Trap} (hs : Keeps σ s) :
    Keeps σ (s.trapOne t pc word r) := by
  unfold State.trapOne
  extract_lets x
  split
  · exact hs
  · extract_lets s1 s2 s3
    have h1 : Keeps σ s1 := hs.countWait.store
    have h2 : Keeps σ s2 := h1.modThread.withdrawArrivals
    have h3 : Keeps σ s3 := h2.modLaunch
    exact h3.count

theorem trap {s : State} {t : ThreadId} {pc : Word} {word : InstrWord} {r : Trap} (hs : Keeps σ s) :
    Keeps σ (s.trap t pc word r) := by
  unfold State.trap
  extract_lets x id s1
  have h1 : Keeps σ s1 := hs.trapOne
  split
  · exact h1
  · split
    · exact hs.modThread
    · exact .ite h1 (h1.foldl (fun _ _ h2 => .ite h2.trapOne h2))

/-! ### Issue (R113, R119) -/

theorem advance {s : State} {t : ThreadId} (hs : Keeps σ s) : Keeps σ (s.advance t) := hs.modThread

theorem waitFor {s : State} {t : ThreadId} {word : InstrWord} {w : Wait} (hs : Keeps σ s) :
    Keeps σ (s.waitFor t word w) := hs.modThread

theorem wake {s : State} {t : ThreadId} (hs : Keeps σ s) : Keeps σ (s.wake t) := hs.modThread

theorem issue {s : State} {t : ThreadId} {word : InstrWord} {p : BitVec 3} {neg legal : Bool}
    {body : Thread → State → State} (hs : Keeps σ s) (hb : ∀ (a : Thread) (a_1 : State), Keeps σ a_1 → Keeps σ
    (body a a_1)) :
    Keeps σ (s.issue t word p neg legal body) := by
  unfold State.issue
  extract_lets x s1 m
  have h1 : Keeps σ s1 := hs.count
  split
  · exact hs
  · split
    · exact hs.trap
    · split
      · exact h1.trap
      · exact .ite h1.trap (.ite h1.advance (hb _ _ h1))

theorem issueScalar {s : State} {t : ThreadId} {major minor : Nat} {w : ScalarWord} {u : ScalarUse}
    {body : Thread → State → State} (hs : Keeps σ s) (hb : ∀ (a : Thread) (a_1 : State), Keeps σ a_1 → Keeps σ
    (body a a_1)) :
    Keeps σ (s.issueScalar t major minor w u body) := hs.issue (fun _ _ h => hb _ _ h)

/-! ### Versioned readers (R195) -/

theorem countReader {s : State} {c region slot : Nat} {up : Bool} (hs : Keeps σ s) :
    Keeps σ (s.countReader c region slot up) := hs.unwatched

theorem dropReader {s : State} {t : ThreadId} {o : TileOp} (hs : Keeps σ s) : Keeps σ (s.dropReader t o) := by
  unfold State.dropReader
  split
  · exact hs.countReader.modOp
  · exact hs

/-! ### Semaphores (R141 to R144) -/

theorem violation {s : State} {cause inst : Nat} (hs : Keeps σ s) : Keeps σ (s.violation cause inst) := hs.count

/-! ### Conditions (R137) -/

theorem noteCode {s : State} {launch : Nat} {c : Code} (hs : Keeps σ s) : Keeps σ (s.noteCode launch c) :=
  .ite hs.modLaunch hs

theorem failWait {s : State} {t : ThreadId} {pred : Nat} {noTrap : Bool} {c : Code} (hs : Keeps σ s) :
    Keeps σ (s.failWait t pred noTrap c) :=
  .ite ((hs.noteCode.count.countWait.modThread (by simp)).advance) hs.noteCode.count.trap

/-! ### Waiting for groups (R140) -/

theorem arrive {s : State} {t : ThreadId} {index parts pred : Nat} (hs : Keeps σ s) :
    Keeps σ (s.arrive t index parts pred) := by
  unfold State.arrive
  extract_lets x b arr
  split
  · exact hs.trap
  · exact .ite hs.modCtx.modThread (hs.modCtx.foldl (fun _ _ h1 => h1.countWait.modThread (by simp)))

theorem localViolation {s : State} {c a : Nat} {v : Nat × Nat} (hs : Keeps σ s) :
    Keeps σ (s.localViolation c a v) := .ite hs.violation (.ite hs.violation hs.violation)

theorem postLocal {s : State} {t : ThreadId} {c a n : Nat} {broadcast : Bool} (hs : Keeps σ s) :
    Keeps σ (s.postLocal t c a n broadcast).1 := by
  unfold State.postLocal
  split
  · exact .pairFst hs.semAdd
  · split
    · exact hs
    · exact .pairFst hs.localViolation

theorem postEnd {s : State} {t : ThreadId} {pred : Nat} {noTrap : Bool} {failDevice : Nat} (hs : Keeps σ s) :
    Keeps σ (s.postEnd t pred noTrap failDevice) := by
  unfold State.postEnd
  extract_lets x go s1 s2
  have h1 : Keeps σ s1 := hs.noteCode
  have h2 : Keeps σ s2 := h1.unwatched
  exact .ite (hs.modThread (by simp)) (.ite (h2.modThread (by simp)) h1.trap)

theorem postStart {s : State} {t : ThreadId} {a : Word} {n pred : Nat} {noTrap : Bool} (hs : Keeps σ s) :
    Keeps σ (s.postStart t a n pred noTrap) := by
  unfold State.postStart
  extract_lets x r
  have hr : Keeps σ r.1 := hs.foldlFst fun q d h => by
    dsimp only
    split
    · exact h.postLocal
    · split
      · exact h.noRoute
      · exact h.request
  clear_value r
  obtain ⟨s1, tags, bad, tr⟩ := r
  cases tr with
  | some tr => exact hr.trap
  | none =>
    cases tags with
    | nil => exact hr.postEnd
    | cons _ _ => exact Keeps.modThread hr

/-! ### Timetables (R146, R147, R173, R174) -/

theorem exitThread {s : State} {t : ThreadId} (hs : Keeps σ s) : Keeps σ (s.exitThread t) := hs.countWait.modThread

theorem writePhase {s : State} {id : Nat} {ended : Bool} (hs : Keeps σ s) : Keeps σ (s.writePhase id ended).2 := by
  unfold State.writePhase
  split
  · exact hs
  · extract_lets k e a opened start wait
    exact .iteSnd hs (.pair hs.store.count)

theorem enterSlot {s : State} {t : ThreadId} {k : Nat} {e : SlotEntry} {pred : Nat} {failed : Option Code}
    (hs : Keeps σ s) :
    Keeps σ (s.enterSlot t k e pred failed) := by
  unfold State.enterSlot
  extract_lets s1 x
  have h1 : Keeps σ s1 := hs.modThread
  split
  · exact h1.failWait
  · exact .ite h1.trap (h1.modThread (by simp))

theorem passGate {s : State} {t : ThreadId} {k pred : Nat} {noTrap : Bool} (hs : Keeps σ s) :
    Keeps σ (s.passGate t k pred noTrap) := by
  unfold State.passGate
  extract_lets x
  split
  · exact hs
  · extract_lets e
    split
    · exact hs.enterSlot
    · exact .ite hs.enterSlot hs.failWait
    · exact hs.trap
    · exact hs.modThread

theorem tryGate {s : State} {l : Launch} {e : SlotEntry} (hs : Keeps σ s) : Keeps σ (s.tryGate l e).2 := by
  unfold State.tryGate
  extract_lets a m
  split
  · exact hs
  · split
    · exact hs
    · split
      · exact hs
      · split
        · exact hs
        · exact .iteSnd (.pair hs.store) hs

theorem settleGate {s : State} {id : Nat} {g : Gate} {cycles : Option Nat} (hs : Keeps σ s) :
    Keeps σ (s.settleGate id g cycles) := by
  unfold State.settleGate
  extract_lets s1
  have h1 : Keeps σ s1 := hs.modLaunch
  dsimp only
  refine Keeps.foldl ?_ fun _ _ h3 => ?_
  · split
    · split
      · exact (Keeps.iteSnd h1.writePhase h1).trap
      · exact .iteSnd h1.writePhase h1
    · exact .iteSnd h1.writePhase h1
  · split
    · refine Keeps.passGate ?_
      exact (show Keeps _ _ by split; exacts [h3.count, h3.countFree]).modThread
    · exact h3

theorem arriveGate {s : State} {t : ThreadId} {pred : Nat} {noTrap : Bool} (hs : Keeps σ s) :
    Keeps σ (s.arriveGate t pred noTrap) := by
  unfold State.arriveGate
  extract_lets x
  split
  · exact hs
  · next k s1 _ l _ =>
    have h1 : Keeps σ s1 := hs.modLaunch
    refine .ite hs.exitThread ?_
    split
    · exact hs.trap
    · refine .ite hs.passGate ?_
      split
      next g s2 e =>
        have h2 : Keeps σ s2 := h1.tryGate.snd_eq e
        exact .ite h2.modThread h2.modThread.settleGate

theorem slotStep {s : State} {t : ThreadId} (hs : Keeps σ s) : Keeps σ (s.slotStep t) := by
  unfold State.slotStep
  extract_lets x
  split
  · split
    · exact hs
    · exact .ite hs.exitThread (.ite hs.modLaunch hs.countWait.modThread.arriveGate)
  · exact hs

theorem unitPost {s : State} {c array : Nat} {a : Word} {n : Nat} (hs : Keeps σ s) :
    Keeps σ (s.unitPost c array a n) := by
  unfold State.unitPost
  split
  · split
    · exact hs.semAdd
    · exact .ite hs hs.violation
  · exact .ite hs.noRoute hs.request

theorem endSlot {s : State} {id : Nat} (hs : Keeps σ s) : Keeps σ (s.endSlot id) := by
  unfold State.endSlot
  split
  · exact hs
  · extract_lets e
    dsimp only
    refine Keeps.foldl ?_ fun _ _ h3 => .ite h3.slotStep h3
    refine Keeps.modLaunch ?_
    split
    · split
      · exact hs.writePhase.trap
      · exact hs.writePhase
    · refine Keeps.unitPost ?_
      split
      · exact hs.writePhase.trap
      · exact hs.writePhase

theorem failWaiters {s : State} {c : Nat} (hs : Keeps σ s) : Keeps σ (s.failWaiters c) := by
  unfold State.failWaiters
  extract_lets hit s1
  have h1 : Keeps σ s1 := hs.foldl (fun _ _ h => by dsimp only; split; exacts [.ite h.failWait h, h])
  refine h1.foldl fun _ _ h3 => ?_
  split
  · extract_lets e
    exact .ite h3.settleGate h3
  · exact h3

/-! ### What a waiting thread does next -/

theorem settle {s : State} {t : ThreadId} (hs : Keeps σ s) : Keeps σ (s.settle t) := by
  unfold State.settle
  dsimp only
  refine .ite hs ?_
  split
  · exact .ite (hs.modThread (Thread.fenced_ops _ _ _)) hs
  · exact .ite hs.postStart hs
  · exact .ite hs.arrive hs
  · exact .ite hs.countWait.wake hs
  · exact .ite hs.wake hs
  · exact .ite hs.exitThread hs
  · exact hs.slotStep
  · exact hs

/-! ### Tile instructions in flight -/

theorem leave {s : State} {t : ThreadId} {o : TileOp} (hs : Keeps σ s) : Keeps σ (s.leave t o) := by
  unfold State.leave
  extract_lets nf s1 s2
  have h1 : Keeps σ s1 := hs.dropReader.setThread fun hn p hp =>
    numbersOk_thread hn t p (List.mem_of_mem_filter hp)
  have h2 : Keeps σ s2 := h1.modLaunch
  split
  · exact h2
  · exact h2.foldl fun _ _ h => h.store

theorem opEnd {s : State} {t : ThreadId} {o : TileOp} (hs : Keeps σ s) : Keeps σ (s.opEnd t o) := by
  unfold State.opEnd
  extract_lets s1 x dead s2 s2' s3
  have h1 : Keeps σ s1 := hs.leave
  have h2 : Keeps σ s2 := by
    simp only [s2]
    split
    · exact h1
    · exact h1.noteCode
  have h2' : Keeps σ s2' := h2.count
  have h3 : Keeps σ s3 := by
    simp only [s3]
    split
    · exact .ite h2.count h2.trap
    · exact h2
    · exact .ite h2'.unwatched.modThread (.ite h2.count h2.trap)
  exact h3.settle

theorem dropContribs {s : State} {t : ThreadId} {o : TileOp} (hs : Keeps σ s) : Keeps σ (s.dropContribs t o) :=
  hs.foldl (fun _ _ h => h.enterRoot)

theorem opTrap {s : State} {t : ThreadId} {o : TileOp} {r : Trap} (hs : Keeps σ s) : Keeps σ (s.opTrap t o r) :=
  hs.dropContribs.opEnd

theorem enqueueOp {s : State} {t : ThreadId} {o : TileOp} (hs : Keeps σ s) : Keeps σ (s.enqueueOp t o) := by
  have queued : ∀ x : Thread, x.ops = (s.thread t).ops ++ [{ o with id := s.nextOp, issuedAt := s.now }] →
      Keeps σ ({ s with nextOp := s.nextOp + 1 }.setThread t x) := by
    intro x hx
    refine hs.trans ⟨rfl, rfl,
      fun k => ⟨k.fp64, k.level, k.lane, k.permitted, k.incarnationPos, k.incarnationMax⟩, id, id,
      fun hn y hy p hp => ?_, id⟩
    obtain hy | rfl := Map.mem_put hy
    · exact Nat.lt_succ_of_lt (hn y hy p hp)
    · rw [hx, List.mem_append, List.mem_singleton] at hp
      obtain hp | rfl := hp
      · exact Nat.lt_succ_of_lt (numbersOk_thread hn t p hp)
      · exact Nat.lt_succ_self _
  exact (queued _ rfl).count.trace

/-- A tile instruction issues: its checks keep what they are to keep,
    and it enters the queue under the next number. -/
theorem issueTile {s : State} {t : ThreadId} {major minor : Nat} {w : TileWord} {v : TileUse} {kind : TileKind}
    {check : Thread → TileOp → State → Except Trap (TileOp × State)} {stall : TileOp → Bool} (hs : Keeps σ s)
    (hc : ∀ x o s p, Keeps σ s → check x o s = .ok p → Keeps σ p.2) :
    Keeps σ (s.issueTile t major minor w v kind check stall) := by
  unfold State.issueTile
  refine hs.issue fun x s1 h1 => ?_
  split
  · exact hs.waitFor
  · split
    · exact h1.trap
    · next o s2 e => exact .ite hs.waitFor (hc x _ s1 (o, s2) h1 e).enqueueOp

/-! ### Guards (R198) -/

theorem modGuard {s : State} {c step : Nat} {f : Guard → Guard} (hs : Keeps σ s) : Keeps σ (s.modGuard c step f) :=
  hs.unwatched

theorem makeGuard {s : State} {c step : Nat} {st : GuardState} (hs : Keeps σ s) : Keeps σ (s.makeGuard c step st) :=
  hs.unwatched

/-! ### Version regions (R193, R194) -/

theorem modRegion {s : State} {c g : Nat} {f : Region → Region} (hs : Keeps σ s) : Keeps σ (s.modRegion c g f) :=
  hs.unwatched

theorem writeRegion {s : State} {c g : Nat} (hs : Keeps σ s) : Keeps σ (s.writeRegion c g) := by
  unfold State.writeRegion
  split
  · exact hs
  · split
    · exact hs
    · extract_lets a
      exact hs.store.store

/-! ### Binding an instruction's versioned read (R194, R195) -/

theorem tryBind {s : State} {t : ThreadId} {o : TileOp} {g : Nat} (hs : Keeps σ s) :
    Keeps σ (s.tryBind t o g).2 := by
  unfold State.tryBind
  extract_lets x tag
  split
  · exact hs
  · split
    · exact hs
    · exact .pair hs.count
    · exact .iteSnd hs (.pair hs.countReader)

theorem bindAtIssue {s : State} {t : ThreadId} {o : TileOp} (hs : Keeps σ s) : Keeps σ (s.bindAtIssue t o).2 := by
  unfold State.bindAtIssue
  split
  · exact hs.tryBind
  · exact hs

/-! ### Sources -/

theorem sourcesReady {s : State} {rs : List (Nat × Nat)} (hs : Keeps σ s) : Keeps σ (s.sourcesReady rs).1 :=
  .pairFst (hs.foldl (fun _ _ h => h.checkRead))

theorem requestRanges {s : State} {t : ThreadId} {o : TileOp} {id : Nat} {d : Desc} {rs : List (Nat × Nat)}
    (hs : Keeps σ s) :
    Keeps σ (s.requestRanges t o id d rs).2 := by
  unfold State.requestRanges
  extract_lets x units ps sel byTag opd
  dsimp only
  exact hs.foldlSnd (fun _ _ h1 => .pair h1.request)

theorem fetchTile {s : State} {t : ThreadId} {o : TileOp} {d : Desc} (hs : Keeps σ s) :
    Keeps σ (s.fetchTile t o d).2 := .iteSnd (.pair hs.noRoute) (.pair hs.requestRanges)

/-! ### The copy -/

theorem landCopy {s : State} {ps : List CopyPiece} {local_ : Bool} (hs : Keeps σ s) :
    Keeps σ (s.landCopy ps local_) := hs.storeAll.markLost

theorem landOwn {s : State} {c : Nat} {ps : List CopyPiece} {local_ : Bool} (hs : Keeps σ s) :
    Keeps σ (s.landOwn c ps local_) := by
  unfold State.landOwn
  extract_lets mine bad
  refine hs.landCopy.foldl fun _ _ h2 => ?_
  split
  · exact h2.localViolation
  · exact h2

theorem bindTiles {s : State} {src dst : List (Nat × Nat)} (hs : Keeps σ s) : Keeps σ (s.bindTiles src dst) :=
  hs.foldl (fun _ _ h => h.foldl (fun _ _ h1 => h1.bind))

theorem sendWrites {s : State} {t : ThreadId} {id dev : Nat} {ws : Writes} (hs : Keeps σ s) :
    Keeps σ (s.sendWrites t id dev ws).2 := by
  unfold State.sendWrites
  extract_lets x ps
  dsimp only
  exact hs.foldlSnd (fun _ _ h1 => .pair h1.writeRequest)

theorem suppress {s : State} {ps : List CopyPiece} {dev : Nat} (hs : Keeps σ s) :
    Keeps σ (s.suppress ps dev).2 := by
  unfold State.suppress
  dsimp only
  split
  · exact hs
  · exact .pair hs.countSuppressed

theorem readTouches [Plain σ] {s : State} {t : ThreadId} {rs : List (Nat × Nat)} (hs : Keeps σ s) :
    Keeps σ (s.readTouches t rs) := hs.foldl (fun _ _ h => h.countedTouch.countLost)

theorem opGo [Plain σ] {s : State} {t : ThreadId} {o : TileOp} (hs : Keeps σ s) : Keeps σ (s.opGo t o) := by
  unfold State.opGo
  split
  · exact hs
  · extract_lets rs
    dsimp only
    split
    · exact hs.sourcesReady
    · refine Keeps.modOp ?_
      refine Keeps.readTouches ?_
      refine (Keeps.pairFst hs.sourcesReady).foldlFst fun _ _ h8 => ?_
      split
      · exact .pairFst h8.landOwn
      · split
        · exact .pairFst h8.noRoute
        · exact .pairFst ((Keeps.iteSnd h8.suppress h8).sendWrites)

theorem landPieces {s : State} {t : ThreadId} {o : TileOp} {ps : List CopyPiece} (hs : Keeps σ s) :
    Keeps σ (s.landPieces t o ps) := hs.landCopy.modOp

theorem advanceCopy {s : State} {t : ThreadId} {o : TileOp} (hs : Keeps σ s) : Keeps σ (s.advanceCopy t o) := by
  unfold State.advanceCopy
  dsimp only
  exact .ite hs.sourcesReady hs.sourcesReady.freeBelow.landPieces.modOp

theorem finishCopy [Plain σ] {s : State} {t : ThreadId} {o : TileOp} (hs : Keeps σ s) : Keeps σ (s.finishCopy t o) := by
  unfold State.finishCopy
  extract_lets rs
  dsimp only
  split
  · exact hs.sourcesReady
  · split
    · exact hs.sourcesReady.landPieces.readTouches.bindTiles
    · exact hs.sourcesReady.landPieces.readTouches.bindTiles.opEnd

/-! ### Issue (R135) -/

theorem issueMove [Plain σ] {s : State} {t : ThreadId} {minor : Nat} {w : TileWord} {kind : TileKind}
    {aAway dAway bcast : Bool}
    (hs : Keeps σ s) : Keeps σ (s.issueMove t minor w kind aAway dAway bcast) := by
  have queued : Keeps σ (s.issueTile t 0x10 minor w { d := true, a := true } kind fun x o s =>
      match s.checkMove t x o aAway dAway bcast with
      | some r => .error r
      | none =>
        let a := Desc.parse o.a
        .ok (if a.dev = s.lodge.deviceId then
          (if kind.selects then s.bindAtIssue t o else (o, s))
        else s.fetchTile t o a)) := by
    refine hs.issueTile fun x o s p h e => ?_
    split at e
    · cases e
    · cases e
      exact .iteSnd (.iteSnd h.bindAtIssue h) h.fetchTile
  unfold State.issueMove
  extract_lets s1
  split
  · exact queued
  · exact Keeps.opGo queued

theorem execTld [Plain σ] {t : ThreadId} {w : TileWord} {s : State} (hs : Keeps σ s) : Goes σ (execTld t w s) :=
  .next hs.issueMove

theorem execTst [Plain σ] {t : ThreadId} {w : TileWord} {s : State} (hs : Keeps σ s) : Goes σ (execTst t w s) :=
  .next hs.issueMove

theorem execTcp [Plain σ] {t : ThreadId} {w : TileWord} {s : State} (hs : Keeps σ s) : Goes σ (execTcp t w s) :=
  .next hs.issueMove

/-! ### Output tiles (R105, R161 to R167) -/

theorem takeContributions {s : State} {t : ThreadId} {c : Nat} {ds : List Desc} (hs : Keeps σ s) :
    Keeps σ (s.takeContributions t c ds).2 := by
  unfold State.takeContributions
  dsimp only
  exact hs.foldlSnd (fun _ _ h1 => .iteSnd h1 (.pair h1.takeContribution))

theorem enterBlock {s : State} {t : ThreadId} {o : TileOp} {k f : Nat} {vals : List (List Num)} {convs : List
    (List Conv)} (hs : Keeps σ s) :
    Keeps σ (s.enterBlock t o k f vals convs) := by
  unfold State.enterBlock
  split
  · exact hs
  · exact hs.modTag

theorem enterSats {s : State} {t : ThreadId} {o : TileOp} {k n : Nat} (hs : Keeps σ s) :
    Keeps σ (s.enterSats t o k n) := by
  unfold State.enterSats
  split
  · exact hs
  · exact hs.modTag

theorem enterContribution {s : State} {t : ThreadId} {o : TileOp} {k : Nat} {root : Option Num} (hs : Keeps σ s) :
    Keeps σ (s.enterContribution t o k root) := by
  unfold State.enterContribution
  split
  · exact hs
  · exact hs.enterRoot

theorem writeRows {s : State} {t : ThreadId} {o : TileOp} {k : Nat} {d : Desc} {r c : Nat} {vals : List
    (List Num)} (hs : Keeps σ s) :
    Keeps σ (s.writeRows t o k d r c vals) := hs.storeAll.enterBlock.modOp

/-! ### Element-wise instructions (R133, R134) -/

theorem elemStep {s : State} {t : ThreadId} {o : TileOp} {n : Nat} (hs : Keeps σ s) : Keeps σ (s.elemStep t o n) :=
  ((hs.foldl (fun _ _ h => h.touch.countLost)).foldl (fun _ _ h1 => h1.writeRows)).modOp

theorem elemReady {s : State} {t : ThreadId} {o : TileOp} (hs : Keeps σ s) : Keeps σ (s.elemReady t o).1 := by
  unfold State.elemReady
  extract_lets d r
  split
  · exact hs
  · dsimp only
    exact hs.sourcesReady

theorem advanceElem {s : State} {t : ThreadId} {o : TileOp} (hs : Keeps σ s) : Keeps σ (s.advanceElem t o) := by
  unfold State.advanceElem
  dsimp only
  exact .ite hs.elemReady hs.elemReady.freeBelow.elemStep

theorem finishElem {s : State} {t : ThreadId} {o : TileOp} (hs : Keeps σ s) : Keeps σ (s.finishElem t o) := by
  unfold State.finishElem
  dsimp only
  split
  · exact hs.elemReady
  · split
    · exact hs.elemReady.elemStep
    · exact hs.elemReady.elemStep.enterContribution.opEnd

theorem issueElem {s : State} {t : ThreadId} {minor : Nat} {w : TileWord} {v : TileUse} {kind : TileKind}
    (hs : Keeps σ s) : Keeps σ (s.issueElem t minor w v kind) := by
  refine hs.issueTile fun x o s p h e => ?_
  dsimp only at e
  split at e
  · cases e
  · cases e
    exact h.takeContributions

theorem execVopAdd {t : ThreadId} {w : TileWord} {s : State} (hs : Keeps σ s) : Goes σ (execVopAdd t w s) :=
  .next hs.issueElem

theorem execVopSub {t : ThreadId} {w : TileWord} {s : State} (hs : Keeps σ s) : Goes σ (execVopSub t w s) :=
  .next hs.issueElem

theorem execVopMul {t : ThreadId} {w : TileWord} {s : State} (hs : Keeps σ s) : Goes σ (execVopMul t w s) :=
  .next hs.issueElem

theorem execVopMax {t : ThreadId} {w : TileWord} {s : State} (hs : Keeps σ s) : Goes σ (execVopMax t w s) :=
  .next hs.issueElem

theorem execVopMin {t : ThreadId} {w : TileWord} {s : State} (hs : Keeps σ s) : Goes σ (execVopMin t w s) :=
  .next hs.issueElem

theorem execVopScale {t : ThreadId} {w : TileWord} {s : State} (hs : Keeps σ s) : Goes σ (execVopScale t w s) :=
  .next hs.issueElem

theorem execVopAbs {t : ThreadId} {w : TileWord} {s : State} (hs : Keeps σ s) : Goes σ (execVopAbs t w s) :=
  .next hs.issueElem

theorem execVopNeg {t : ThreadId} {w : TileWord} {s : State} (hs : Keeps σ s) : Goes σ (execVopNeg t w s) :=
  .next hs.issueElem

theorem execVopFma {t : ThreadId} {w : TileWord} {s : State} (hs : Keeps σ s) : Goes σ (execVopFma t w s) :=
  .next hs.issueElem

theorem execActRelu {t : ThreadId} {w : TileWord} {s : State} (hs : Keeps σ s) : Goes σ (execActRelu t w s) :=
  .next hs.issueElem

theorem execActGelu {t : ThreadId} {w : TileWord} {s : State} (hs : Keeps σ s) : Goes σ (execActGelu t w s) :=
  .next hs.issueElem

theorem execActSilu {t : ThreadId} {w : TileWord} {s : State} (hs : Keeps σ s) : Goes σ (execActSilu t w s) :=
  .next hs.issueElem

theorem execActExp {t : ThreadId} {w : TileWord} {s : State} (hs : Keeps σ s) : Goes σ (execActExp t w s) :=
  .next hs.issueElem

theorem execActTanh {t : ThreadId} {w : TileWord} {s : State} (hs : Keeps σ s) : Goes σ (execActTanh t w s) :=
  .next hs.issueElem

theorem execActSigmoid {t : ThreadId} {w : TileWord} {s : State} (hs : Keeps σ s) : Goes σ (execActSigmoid t w s) :=
  .next hs.issueElem

theorem execActRecip {t : ThreadId} {w : TileWord} {s : State} (hs : Keeps σ s) : Goes σ (execActRecip t w s) :=
  .next hs.issueElem

theorem execActRsqrt {t : ThreadId} {w : TileWord} {s : State} (hs : Keeps σ s) : Goes σ (execActRsqrt t w s) :=
  .next hs.issueElem

theorem execCvt {t : ThreadId} {w : TileWord} {s : State} (hs : Keeps σ s) : Goes σ (execCvt t w s) :=
  .next hs.issueElem

/-! ### The landing (R26 to R30) -/

theorem stopAt {s : State} {t : ThreadId} {id p dev : Nat} {c : Code} (hs : Keeps σ s) :
    Keeps σ (s.stopAt t id p c dev) :=
  hs.modOp fun o h => by
    split
    · split <;> exact h
    · exact h

theorem askHalf {s : State} {a : Nat} {t : ThreadId} {id p : Nat} (hs : Keeps σ s) : Keeps σ
    (s.askHalf a t id p) := by
  unfold State.askHalf
  split
  · next o h eo eh =>
    extract_lets aux d s1
    have h1 : Keeps σ s1 := hs.modArray
    refine .ite hs (.ite (.ite h1.noRoute.stopAt ?_) (.ite h1 ?_))
    · split
      next tags s2 e => exact (h1.requestRanges.snd_eq e).modArray
    · split
      next o' s2 e =>
        refine (h1.bindAtIssue.snd_eq e).modOp fun _ _ => ?_
        have := s1.bindAtIssue_id t o
        rw [e] at this
        exact this.trans (State.op_id eo)
  · exact hs

theorem sequence {s : State} {a : Nat} (hs : Keeps σ s) : Keeps σ (s.sequence a) := by
  unfold State.sequence
  split
  · exact hs
  · extract_lets s1 fill s2
    have h1 : Keeps σ s1 := by
      simp only [s1]
      split
      · exact .ite hs.modArray.modArray hs
      · exact hs
    have h2 : Keeps σ s2 := h1.modArray.foldl (fun _ _ h3 => h3.askHalf)
    exact .ite (h2.modArray.foldl (fun _ _ h4 => h4.askHalf)) h2

theorem endMiss {s : State} {a : Nat} (hs : Keeps σ s) : Keeps σ (s.endMiss a) := .ite hs.countFree hs

theorem arrayReads [Plain σ] {s : State} {a : Nat} {rs : List (Nat × Nat)} (hs : Keeps σ s) :
    Keeps σ (s.arrayReads a rs) :=
  hs.foldl (fun _ _ h => h.countedTouch.countLost)

theorem modFold {s : State} {t : ThreadId} {id : Nat} {f : Fold → Fold} (hs : Keeps σ s) :
    Keeps σ (s.modFold t id f) := hs.modOp

theorem landFill [Plain σ] {s : State} {a : Nat} {t : ThreadId} {o : TileOp} {p : Nat} {h : LandingHalf}
    (hs : Keeps σ s) :
    Keeps σ (s.landFill a t o p h) := by
  unfold State.landFill
  extract_lets aux sh full
  dsimp only
  split
  · split
    · exact hs.sourcesReady
    · split
      · exact hs.sourcesReady.arrayReads.count.modArray.modFold
      · exact hs.sourcesReady.arrayReads.count.modArray
  · split
    · exact hs.sourcesReady
    · split
      · exact hs.sourcesReady.arrayReads.count.modArray.modFold
      · exact hs.sourcesReady.arrayReads.count.modArray

theorem execLandingFillComplete [Plain σ] {array : Nat} {s : State} (hs : Keeps σ s) :
    Goes σ (execLandingFillComplete array s) := by
  unfold Machine.execLandingFillComplete
  extract_lets s1
  have h1 : Keeps σ s1 := hs.sequence
  refine .next ?_
  split
  · exact h1
  · split
    · exact h1.landFill
    · exact h1

/-! ### Fronts (R24, R25, R31) -/

theorem execFrontEntry {array cycles : Nat} {s : State} (hs : Keeps σ s) :
    Goes σ (execFrontEntry array cycles s) := by
  unfold Machine.execFrontEntry
  refine .next ?_
  split
  · exact hs
  · extract_lets x aux e
    split
    · exact .ite hs hs.modArray.modFold.count.count.sequence
    · exact hs

/-! ### Passes (R23, R27, R34 to R37, R56) -/

theorem startPass [Plain σ] {s : State} {a cycles : Nat} {t : ThreadId} {o : TileOp} {p : Nat} {rows : List (List Num)}
    {rs : List (Nat × Nat)} (hs : Keeps σ s) :
    Keeps σ (s.startPass a cycles t o p rows rs) := by
  unfold State.startPass
  extract_lets aux sh x block s1 poison s2 s3 o' s4
  have h1 : Keeps σ s1 := hs.arrayReads.count.count.count.count.count
  have h2 : Keeps σ s2 := h1.modOp
  have h3 : Keeps σ s3 := h2.modArray
  have h4 : Keeps σ s4 := by
    simp only [s4]
    split
    · exact .ite h3.modArray.modArray h3
    · exact .ite h3.modArray h3
  exact h4.trace.sequence

theorem execPassStart [Plain σ] {array cycles : Nat} {s : State} (hs : Keeps σ s) :
    Goes σ (execPassStart array cycles s) := by
  unfold Machine.execPassStart
  refine .next ?_
  split
  · exact hs
  · extract_lets aux
    split
    · exact hs
    · split
      · exact hs
      · dsimp only
        exact .ite hs.sourcesReady.startPass hs.sourcesReady

/-! ### Drain (R39, R91, R92) -/

theorem writeBlock {s : State} {t : ThreadId} {o : TileOp} {k r c : Nat} {vals : List (List Num)} (hs : Keeps σ s) :
    Keeps σ (s.writeBlock t o k r c vals) := hs.writeRows

theorem finalBlock {s : State} {t : ThreadId} {o : TileOp} {aux : Bool} {sh : PassShape} {roots : List
    (List Num)} (hs : Keeps σ s) :
    Keeps σ (s.finalBlock t o aux sh roots) := .ite hs.writeBlock (.ite hs.modFold hs.modFold.writeBlock)

theorem finishFold {s : State} {t : ThreadId} {id : Nat} (hs : Keeps σ s) : Keeps σ (s.finishFold t id) := by
  unfold State.finishFold
  split
  · exact hs
  · exact .ite hs ((hs.foldl (fun _ _ h1 => h1.enterContribution)).modOp)

theorem stopMatrix {s : State} {t : ThreadId} {id : Nat} (hs : Keeps σ s) : Keeps σ (s.stopMatrix t id) := by
  unfold State.stopMatrix
  split
  · exact hs
  · split
    · exact hs
    · exact .ite hs hs.dropContribs.modOp.modArray.sequence

theorem execPassDrain {array : Nat} {s : State} (hs : Keeps σ s) : Goes σ (execPassDrain array s) := by
  unfold Machine.execPassDrain
  refine .next ?_
  split
  · exact hs
  · split
    · exact hs.modArray
    · extract_lets aux sh d nodes carry roots s1 s2
      have h1 : Keeps σ s1 := hs.modArray.modFold
      have h2 : Keeps σ s2 := .ite h1.finalBlock h1
      exact .ite hs h2.finishFold.stopMatrix

/-! ### Sleep and wake (R53, R456) -/

theorem execArrayPowerGate {array : Nat} {s : State} (hs : Keeps σ s) : Goes σ (execArrayPowerGate array s) :=
  .next (.ite hs hs.modArray)

theorem execArrayWake {array cycles : Nat} {s : State} (hs : Keeps σ s) : Goes σ (execArrayWake array cycles s) :=
  .next (.ite hs hs.modArray.count.sequence)

/-! ### Issue (R130 to R132) -/

theorem startMatrix {s : State} {t : ThreadId} {x : Thread} {o : TileOp} {dests : List Desc} (hs : Keeps σ s) :
    Keeps σ (s.startMatrix t x o dests).2 := by
  unfold State.startMatrix
  dsimp only
  exact hs.takeContributions

theorem takeUp {s : State} {t : ThreadId} {id : Nat} (hs : Keeps σ s) : Keeps σ (s.takeUp t id) := by
  unfold State.takeUp
  split
  · exact hs
  · exact hs.sequence

theorem execMma {t : ThreadId} {w : TileWord} {s : State} (hs : Keeps σ s) : Goes σ (execMma t w s) := by
  refine .next (Keeps.takeUp (hs.issueTile fun x o s p h e => ?_))
  split at e
  · cases e
  · cases e; exact h.startMatrix

theorem execMmab {t : ThreadId} {w : TileWord} {s : State} (hs : Keeps σ s) : Goes σ (execMmab t w s) := by
  refine .next (Keeps.takeUp (hs.issueTile fun x o s p h e => ?_))
  dsimp only at e
  split at e
  · cases e
  · cases e; exact h.startMatrix

/-! ### Statistics instructions -/

theorem execStagOpen {t : ThreadId} {w : TileWord} {s : State} (hs : Keeps σ s) : Goes σ (execStagOpen t w s) := by
  unfold Machine.execStagOpen
  extract_lets s1
  have h1 : Keeps σ s1 := hs.issueTile fun x o s p h e => by
    dsimp only at e
    split at e
    · cases e
    · cases e; exact h.unwatched
  refine .next ?_
  split
  · exact h1.opEnd
  · exact h1

theorem execStagClose {t : ThreadId} {w : TileWord} {s : State} (hs : Keeps σ s) : Goes σ
    (execStagClose t w s) := by
  refine .next (hs.issueTile fun x o s p h e => ?_)
  dsimp only at e
  split at e
  · cases e
  · split at e
    · cases e
    · split at e
      · cases e
      · split at e
        · cases e
        · cases e; exact h.modTag

theorem execTagRecordWrite {array ctx slot : Nat} {s : State} (hs : Keeps σ s) :
    Goes σ (execTagRecordWrite array ctx slot s) := by
  unfold Machine.execTagRecordWrite
  refine .next ?_
  split
  · exact hs
  · split
    · exact hs
    · split
      · exact hs
      · extract_lets rs s1
        have h1 : Keeps σ s1 := hs.store.count
        exact .ite hs h1.unwatched.opEnd

/-! ### The Pantry (R180 to R185) -/

theorem modStash {s : State} {c : Nat} {key : Word} {f : Stash → Stash} (hs : Keeps σ s) :
    Keeps σ (s.modStash c key f) := hs.unwatched

theorem freeStash {s : State} {c : Nat} {key : Word} (hs : Keeps σ s) : Keeps σ (s.freeStash c key) := by
  unfold State.freeStash
  exact hs.unwatched.modMem

theorem startStash {s : State} {t : ThreadId} {o : TileOp} (hs : Keeps σ s) : Keeps σ (s.startStash t o) := by
  unfold State.startStash
  extract_lets c s1 q mine charge inCellar held stays spills more frames e roomFor s2 chosen
  have h1 : Keeps σ s1 := hs.count
  have room : ∀ u, roomFor = some u → Keeps σ u := by
    intro u hu
    simp only [roomFor] at hu
    split at hu
    · cases hu
    · exact h1.ctxAllocate hu
  refine .ite h1.opTrap ?_
  clear_value roomFor
  cases roomFor with
  | none =>
    have h2 : Keeps σ s2 := h1.unwatched
    exact h2.count.modLaunch.modCtx.opEnd
  | some u =>
    have h3 : Keeps σ { u with
        nextOrder := s1.nextOrder + 1
        stashes := (u.stashes.map fun f => if chosen f then { f with state := .spilling } else f) ++ [e] } :=
      (room u rfl).unwatched
    exact h3.modCtx.modOp

/-- A check that leaves the state as it was. -/
theorem execStash {t : ThreadId} {w : TileWord} {s : State} (hs : Keeps σ s) : Goes σ (execStash t w s) := by
  unfold Machine.execStash
  extract_lets s1
  have h1 : Keeps σ s1 := hs.issueTile fun x o s p h e => by
    dsimp only at e
    split at e
    · cases e
    · cases e; exact h
  refine .next ?_
  split
  · exact h1.startStash
  · exact h1

theorem startUnstash {s : State} {t : ThreadId} {o : TileOp} (hs : Keeps σ s) : Keeps σ (s.startUnstash t o) := by
  unfold State.startUnstash
  extract_lets c d s1
  have h1 : Keeps σ s1 := hs.modStash
  split
  · exact hs.opTrap
  · extract_lets a
    split
    · exact hs
    · split
      · exact hs.opTrap
      · split
        · exact hs.opTrap
        · split
          · exact hs.opTrap
          · exact .ite hs.opTrap (.ite hs.freeStash.opEnd h1.modMem.modOp)

theorem execUnstash {t : ThreadId} {w : TileWord} {s : State} (hs : Keeps σ s) : Goes σ (execUnstash t w s) := by
  unfold Machine.execUnstash
  extract_lets s1
  have h1 : Keeps σ s1 := hs.issueTile fun x o s p h e => by
    dsimp only at e
    split at e
    · cases e
    · cases e; exact h
  refine .next ?_
  split
  · exact h1.startUnstash
  · exact h1

theorem checkStash {s : State} {e : Stash} (hs : Keeps σ s) : Keeps σ (s.checkStash e) :=
  .ite hs (hs.modStash.count.foldl (fun _ _ h => h.count.fault.count.fault))

theorem checkKey {s : State} {c : Nat} {key : Word} (hs : Keeps σ s) : Keeps σ (s.checkKey c key) := by
  unfold State.checkKey
  cases s.stash? c key with
  | none => exact hs
  | some e => exact hs.checkStash

theorem landStash {s : State} {t : ThreadId} {o : TileOp} {ps : List CopyPiece} (hs : Keeps σ s) :
    Keeps σ (s.landStash t o ps) := hs.landCopy.modOp

theorem advanceUnstash {s0 : State} {t : ThreadId} {o : TileOp} (hs : Keeps σ s0) :
    Keeps σ (s0.advanceUnstash t o) := by
  unfold State.advanceUnstash
  extract_lets s
  have h : Keeps σ s := hs.checkKey
  split
  · exact h
  · dsimp only
    exact h.freeBelow.landStash.modOp

theorem finishUnstash {s0 : State} {t : ThreadId} {o : TileOp} (hs : Keeps σ s0) :
    Keeps σ (s0.finishUnstash t o) := by
  unfold State.finishUnstash
  extract_lets s
  have h : Keeps σ s := hs.checkKey
  split
  · exact h
  · extract_lets s1
    have h1 : Keeps σ s1 := h.landStash.freeStash
    split
    · exact h1
    · exact h1.opEnd

theorem resolveRecomp {s : State} {t : ThreadId} {key block : Word} (hs : Keeps σ s) :
    Keeps σ (s.resolveRecomp t key block) := by
  unfold State.resolveRecomp
  extract_lets x
  split
  · exact hs.trap
  · split
    · exact hs.modThread
    · exact hs.trap
    · exact .ite hs.trap hs.modThread
    · exact hs.modThread

theorem execRecomp {t : ThreadId} {w : TileWord} {s : State} (hs : Keeps σ s) : Goes σ (execRecomp t w s) :=
  .next (hs.issue (fun _ _ h => .ite hs.waitFor h.count.modThread.resolveRecomp))

theorem stashSettled {s : State} {c : Nat} {key : Word} (hs : Keeps σ s) : Keeps σ (s.stashSettled c key) := by
  unfold State.stashSettled
  extract_lets s1
  have h1 : Keeps σ s1 := by
    simp only [s1]
    refine hs.foldl fun _ _ h3 => ?_
    split
    · exact h3.resolveRecomp
    · exact h3
  exact h1.foldl (fun _ _ h4 => h4.foldl (fun _ _ h5 => .ite h5.startUnstash h5))

theorem stashLeft {s : State} {e : Stash} {o : TileOp} (hs : Keeps σ s) : Keeps σ (s.stashLeft e o).1 := by
  unfold State.stashLeft
  extract_lets older a
  split
  · exact hs
  · dsimp only
    split
    · exact .pairFst hs.sourcesReady
    · exact .pairFst hs.sourcesReady

theorem fillStash {s : State} {e : Stash} {ps : List CopyPiece} (hs : Keeps σ s) : Keeps σ (s.fillStash e ps) :=
  (hs.foldl (fun _ _ h => h.touch.countLost)).modStash

theorem advanceStash {s : State} {t : ThreadId} {o : TileOp} (hs : Keeps σ s) : Keeps σ (s.advanceStash t o) := by
  unfold State.advanceStash
  split
  · exact hs
  · split
    · exact hs.stashLeft.fst_eq ‹_›
    · dsimp only
      exact (((hs.stashLeft.fst_eq ‹_›).freeBelow).fillStash).modOp

theorem execStashFillComplete {ctx : Nat} {key : Word} {cycles : Nat} {s : State} (hs : Keeps σ s) :
    Goes σ (execStashFillComplete ctx key cycles s) := by
  unfold Machine.execStashFillComplete
  refine .next ?_
  split
  · exact hs
  · split
    · exact hs
    · split
      · exact hs
      · split
        · exact hs.stashLeft.fst_eq ‹_›
        · extract_lets s2 lost s3
          have h2 : Keeps σ s2 := (hs.stashLeft.fst_eq ‹_›).fillStash
          have h3 : Keeps σ s3 := h2.modStash.count
          exact h3.opEnd.stashSettled

theorem execPantrySpillComplete {ctx : Nat} {key : Word} {s : State} (hs : Keeps σ s) :
    Goes σ (execPantrySpillComplete ctx key s) := by
  unfold Machine.execPantrySpillComplete
  refine .next ?_
  split
  · exact hs
  · exact .ite hs hs.checkKey.modStash.count.count

/-! ### The Stair (R187 to R192) -/

theorem modBucket {s : State} {c b : Nat} {f : Bucket → Bucket} (hs : Keeps σ s) : Keeps σ (s.modBucket c b f) :=
  hs.unwatched

theorem writeBucket {s : State} {c b : Nat} (hs : Keeps σ s) : Keeps σ (s.writeBucket c b) := by
  unfold State.writeBucket
  split
  · extract_lets a
    exact hs.store.store
  · exact hs

theorem setBucket {s : State} {c b : Nat} {st : BucketState} (hs : Keeps σ s) : Keeps σ (s.setBucket c b st) :=
  hs.modBucket.writeBucket

theorem startBkt {s : State} {t : ThreadId} {o : TileOp} (hs : Keeps σ s) : Keeps σ (s.startBkt t o) := by
  unfold State.startBkt
  extract_lets c
  dsimp only
  split
  · exact hs
  · split
    · exact hs
    · split
      · exact hs.opTrap
      · exact .ite hs ((Keeps.ite hs.setBucket hs).modOp)

theorem execBktAdd {t : ThreadId} {w : TileWord} {s : State} (hs : Keeps σ s) : Goes σ (execBktAdd t w s) := by
  unfold Machine.execBktAdd
  extract_lets s1
  have h1 : Keeps σ s1 := hs.issueTile fun x o s p h e => by
    split at e
    · cases e
    · cases e; exact h
  refine .next ?_
  split
  · exact h1.startBkt
  · exact h1

theorem execBktAddStart {t : ThreadId} {id cycles : Nat} {s : State} (hs : Keeps σ s) :
    Goes σ (execBktAddStart t id cycles s) := by
  unfold Machine.execBktAddStart
  refine .next ?_
  split
  · exact hs
  · exact .ite hs (.ite hs.startBkt hs.startBkt.count)

theorem bktStep {s : State} {t : ThreadId} {o : TileOp} {k : Bucket} {sg : Segment} {n : Nat} (hs : Keeps σ s) :
    Keeps σ (s.bktStep t o k sg n) := by
  unfold State.bktStep
  extract_lets c a planes cols at_ leaf
  dsimp only
  exact ((((hs.foldl (fun _ _ h1 => h1.touch.countLost)).storeAll).storeAll).modBucket).modOp

theorem bktReady {s : State} {t : ThreadId} {o : TileOp} (hs : Keeps σ s) : Keeps σ (s.bktReady t o).1 := by
  unfold State.bktReady
  dsimp only
  split
  · exact hs
  · split
    · exact hs
    · split
      · exact .pairFst hs.sourcesReady
      · exact .pairFst hs.sourcesReady

theorem advanceBkt {s : State} {t : ThreadId} {o : TileOp} (hs : Keeps σ s) : Keeps σ (s.advanceBkt t o) := by
  unfold State.advanceBkt
  split
  · exact hs.bktReady.fst_eq ‹_›
  · dsimp only
    exact ((hs.bktReady.fst_eq ‹_›).freeBelow).bktStep

theorem finishBkt {s : State} {t : ThreadId} {o : TileOp} (hs : Keeps σ s) : Keeps σ (s.finishBkt t o) := by
  unfold State.finishBkt
  extract_lets c
  split
  next b g m _ =>
    split
    · next e => exact hs.bktReady.fst_eq e
    · next s1 k sg e =>
      have h1 : Keeps σ s1 := hs.bktReady.fst_eq e
      refine .ite h1.opEnd ?_
      extract_lets s2 last a full
      have h2 : Keeps σ s2 := h1.bktStep
      split
      · exact h2
      · extract_lets status s3 s4 s5 s6 s7
        have h3 : Keeps σ s3 := .ite h2 h2.modLaunch
        have h4 : Keeps σ s4 := h3.modBucket.count
        have h6 : Keeps σ s6 := .ite h4.store.store h4.store
        have h7 : Keeps σ s7 := .ite h6.setBucket.count h6.writeBucket
        exact h7.opEnd

/-! ### `VER_READ` and bindings (R194, R196) -/

theorem execVerRead {t : ThreadId} {w : TileWord} {s : State} (hs : Keeps σ s) : Goes σ (execVerRead t w s) := by
  refine .next (hs.issueTile fun x o s p h e => ?_)
  dsimp only at e
  split at e
  · cases e
  · cases e; exact .iteSnd h.bindAtIssue h.fetchTile

theorem finishVerRead {s : State} {t : ThreadId} {o : TileOp} (hs : Keeps σ s) : Keeps σ (s.finishVerRead t o) :=
  .ite hs hs.modThread.opEnd

theorem execVersionedReadBind [Plain σ] {t : ThreadId} {id cycles : Nat} {s : State} (hs : Keeps σ s) :
    Goes σ (Machine.execVersionedReadBind t id cycles s) := by
  unfold Machine.execVersionedReadBind
  refine .next ?_
  split
  · exact hs
  · next o eo =>
    dsimp only
    have bound : Keeps σ ((s.bindAtIssue t { o with reader := false }).2.modOp t id fun _ =>
        (s.bindAtIssue t { o with reader := false }).1) :=
      hs.bindAtIssue.modOp fun _ _ => by
        rw [State.bindAtIssue_id]
        exact (State.op_id eo : o.id = id)
    exact .ite hs (.ite hs bound.count.count.opGo.sequence)

/-! ### `UPDATE` (R203 to R209) -/

theorem execUpdate {t : ThreadId} {w : TileWord} {s : State} (hs : Keeps σ s) : Goes σ
    (Machine.execUpdate t w s) := by
  refine .next (hs.issueTile fun x o s p h e => ?_)
  split at e
  · cases e
  · dsimp only at e
    rw [← Except.ok.inj e]
    exact h.takeContributions

theorem beginUpdate {s : State} {t : ThreadId} {o : TileOp} {guardCycles readerCycles : Nat} (hs : Keeps σ s) :
    Keeps σ (s.beginUpdate t o guardCycles readerCycles) := by
  unfold State.beginUpdate
  dsimp only
  split
  · split
    · exact hs
    · next r _ =>
      generalize firstTrap _ = bad
      cases bad with
      | some tr => exact hs.count.opTrap
      | none =>
        dsimp only
        exact .ite hs (Keeps.count (Keeps.count (Keeps.ite hs.modRegion.writeRegion hs))).modOp
  · exact hs.opTrap

theorem execUpdateStart {t : ThreadId} {id guardCycles readerCycles : Nat} {s : State} (hs : Keeps σ s) :
    Goes σ (execUpdateStart t id guardCycles readerCycles s) := by
  unfold Machine.execUpdateStart
  refine .next ?_
  split
  · exact hs
  · split
    · exact hs
    · extract_lets x
      split
      · exact hs
      · split
        · exact hs
        · exact hs
        · exact hs.count.count.dropContribs.opEnd
        · exact hs.beginUpdate

theorem updateRows {s : State} {t : ThreadId} {o : TileOp} {b : OptBlock} {c : Desc} {r n : Nat} (hs : Keeps σ s) :
    Keeps σ (s.updateRows t o b c r n) := by
  unfold State.updateRows
  extract_lets d a m v rs lost val at_ ins rnd enc stored em ev sm sv wNew ed sd ec delta dconv ws s2 s3
  have h2 : Keeps σ s2 := (hs.foldl (fun _ _ h => h.touch.countLost)).storeAll
  have h3 : Keeps σ s3 := h2.enterBlock.enterBlock.enterSats
  exact h3.modOp

theorem updateStep {s : State} {t : ThreadId} {o : TileOp} {b : OptBlock} {c : Desc} {n : Nat} (hs : Keeps σ s) :
    Keeps σ (s.updateStep t o b c n) := (hs.foldl (fun _ _ h => h.updateRows)).modOp

theorem updateReady {s : State} {o : TileOp} {b : OptBlock} {c : Desc} (hs : Keeps σ s) :
    Keeps σ (s.updateReady o b c).1 := by
  unfold State.updateReady
  dsimp only
  exact hs.sourcesReady

theorem advanceUpdate {s : State} {t : ThreadId} {o : TileOp} (hs : Keeps σ s) : Keeps σ (s.advanceUpdate t o) := by
  unfold State.advanceUpdate
  split
  · exact hs
  · extract_lets c
    dsimp only
    exact .ite hs.updateReady hs.updateReady.freeBelow.updateStep

theorem finishUpdate {s : State} {t : ThreadId} {o : TileOp} (hs : Keeps σ s) : Keeps σ (s.finishUpdate t o) := by
  unfold State.finishUpdate
  split
  · exact hs
  · extract_lets x c
    dsimp only
    split
    · exact hs.updateReady
    · split
      · exact hs.updateReady.updateStep
      · refine Keeps.opEnd ?_
        split
        · exact hs.updateReady.updateStep.enterContribution.enterContribution.modRegion.count.modRegion.writeRegion
        · exact hs.updateReady.updateStep.enterContribution.enterContribution.modRegion.count

/-! ### Rings (R324 to R328) -/

theorem modRing {s : State} {n : Nat} {f : Ring → Ring} (hs : Keeps σ s) : Keeps σ (s.modRing n f) := hs.modHost

theorem busWrite {s : State} {a : Nat} {bs : Bytes} (hs : Keeps σ s) : Keeps σ (s.busWrite a bs) :=
  hs.setBus (cellsWf_cellsWrite _ _ _)

theorem pushReply {s : State} {n : Nat} {bs : Bytes} {interim : Bool} (hs : Keeps σ s) :
    Keeps σ (s.pushReply n bs interim) := hs.busWrite.modRing.count

theorem stopRing {s : State} {n cause : Nat} (hs : Keeps σ s) : Keeps σ (s.stopRing n cause) :=
  .ite hs.modRing.count.fault hs

theorem settleRing {s : State} {n : Nat} (hs : Keeps σ s) : Keeps σ (s.settleRing n) := .ite hs.modRing hs

/-! ### Sessions (R438) -/

theorem modSession {s : State} {id : Nat} {f : Session → Session} (hs : Keeps σ s) : Keeps σ (s.modSession id f) :=
  hs.modLodge

theorem sendMessage {s : State} {id : Nat} {m : Bytes} {type : Nat} (hs : Keeps σ s) :
    Keeps σ (s.sendMessage id m type) := hs.modSession

/-! ### Final and interim replies -/

theorem modCmd {s : State} {h : Nat} {f : OutCmd → OutCmd} (hs : Keeps σ s) : Keeps σ (s.modCmd h f) := hs.modHost

theorem cmdEntry {s : State} {k : OutCmd} {cls index code : Nat} (hs : Keeps σ s) :
    Keeps σ (s.cmdEntry k cls index code).2 := by
  unfold State.cmdEntry
  dsimp only
  exact hs.free

theorem traceCommand {s : State} {k : OutCmd} {code : Nat} (hs : Keeps σ s) : Keeps σ (s.traceCommand k code) :=
  hs.trace

theorem logDone {s : State} {k : OutCmd} {r : Reply} (hs : Keeps σ s) : Keeps σ (s.logDone k r) := by
  unfold State.logDone
  split
  · dsimp only
    exact .ite hs.cmdEntry.catalogue hs
  · exact hs

theorem finishOne {s : State} {h : Nat} {r : Reply} (hs : Keeps σ s) : Keeps σ (s.finishOne h r) := by
  unfold State.finishOne
  split
  · exact hs
  · extract_lets s1 s2 s1' m n s2'
    have h1 : Keeps σ s1 := hs.logDone.modHost
    have h2 : Keeps σ s2 := .ite h1 h1.busWrite
    have h1' : Keeps σ s1' := h1.traceCommand
    have h2' : Keeps σ s2' := .ite h1' h1'.busWrite
    split
    · exact h2.modCmd
    · exact .ite h1'.modSession.sendMessage h2'.pushReply.modRing

theorem finishCmd {s : State} {h : Nat} {r : Reply} (hs : Keeps σ s) : Keeps σ (s.finishCmd h r) := by
  unfold State.finishCmd
  split
  · exact hs
  · extract_lets s1
    have h1 : Keeps σ s1 := hs.finishOne
    split
    · exact h1
    · exact h1.finishOne

theorem interim {s : State} {h : Nat} {c : Code} {result : Bytes} (hs : Keeps σ s) :
    Keeps σ (s.interim h c result) := by
  unfold State.interim
  split
  · exact hs
  · extract_lets reply r
    exact .ite hs.traceCommand.sendMessage (.ite hs.traceCommand.pushReply hs.count)

theorem finishWhere {s : State} {p : OutCmd → Bool} {r : Reply} (hs : Keeps σ s) : Keeps σ (s.finishWhere p r) :=
  hs.foldl (fun _ _ h => h.finishCmd)

/-! ### Sending (R302, R305 to R307) -/

theorem modColl {s : State} {id : Nat} {f : Coll → Coll} (hs : Keeps σ s) : Keeps σ (s.modColl id f) := hs.modCe

theorem collSend {s : State} {c : Coll} {g : CollGroup} {j sub : Nat} {operand : Word} {data : Bytes}
    {chunk piece offset : Nat} {addr : Option Word} (hs : Keeps σ s) :
    Keeps σ (s.collSend c g j sub operand data chunk piece offset addr) := hs.emit.count

theorem collRequest {s : State} {c : Coll} {g : CollGroup} {j sub : Nat} {unit : ReqUnit} {addr : Option Word}
    (hs : Keeps σ s) :
    Keeps σ (s.collRequest c g j sub unit addr) := hs.request

theorem probe {s : State} {id j : Nat} (hs : Keeps σ s) : Keeps σ (s.probe id j) := by
  unfold State.probe
  split
  · exact hs
  · split
    · exact hs
    · exact hs.collRequest.modColl

theorem sendStream {s : State} {id : Nat} {c : Coll} {g : CollGroup} {j key sub chunk : Nat} {bs : Bytes}
    {addr : Nat → Nat} (hs : Keeps σ s) :
    Keeps σ (s.sendStream id c g j key sub chunk bs addr) := by
  unfold State.sendStream
  extract_lets dev ps loan good bad pieces s1 s2
  have h1 : Keeps σ s1 := hs.foldl (fun _ _ h => h.collSend)
  have h2 : Keeps σ s2 := by
    simp only [s2]
    split
    · exact h1
    · exact h1.countSuppressed
  exact h2.modColl

/-! ### The outcome of a step (R198 to R201) -/

theorem guardOutcome {s : State} {c step : Nat} {code : Code} {fl fd : Nat} (hs : Keeps σ s) :
    Keeps σ (s.guardOutcome c step code fl fd) := by
  unfold State.guardOutcome
  split
  · exact hs
  · extract_lets s1 s2
    have h1 : Keeps σ s1 := .ite hs (.ite hs.modGuard.modCtx.count hs.modGuard.count)
    have h2 : Keeps σ s2 := h1.modGuard
    exact h2.foldl (fun _ _ h1 => h1.finishCmd)

/-! ### The end of a collective (R292, R299, R302) -/

theorem collFields {s : State} {c : Coll} {code : Code} {fl fd flags : Nat} {rec : Bytes} (hs : Keeps σ s) :
    Keeps σ (s.collFields c code fl fd flags rec) := by
  unfold State.collFields
  extract_lets s1 array
  have h1 : Keeps σ s1 := .ite hs hs.store
  exact .ite h1 h1.unitPost

theorem smearScratch {s : State} {c : Coll} (hs : Keeps σ s) : Keeps σ (s.smearScratch c) := by
  unfold State.smearScratch
  dsimp only
  exact .ite hs hs.free.store

theorem dropCollRequests {s : State} {id : Nat} (hs : Keeps σ s) : Keeps σ (s.dropCollRequests id) := hs.modFabric

theorem breakGroup {s : State} {c : Coll} {fl : Nat} (hs : Keeps σ s) : Keeps σ (s.breakGroup c fl) := hs.modCe

theorem collFail {s : State} {id : Nat} {code : Code} {fl : Nat} {tr : Option Trap} (hs : Keeps σ s) :
    Keeps σ (s.collFail id code fl tr) := by
  unfold State.collFail
  split
  · exact hs
  · split
    · exact hs
    · extract_lets g peer fd own final flags s1 s2
      have h1 : Keeps σ s1 := hs.modColl.dropCollRequests
      have h2 : Keeps σ s2 := h1.smearScratch.collFields
      split
      · split
        · exact h2
        · split
          · exact h2.opTrap
          · exact h2.dropContribs.opEnd
      · exact h2.foldl (fun _ _ h3 => h3.enterRoot)
      · exact h2.guardOutcome

theorem collLost {s : State} {id fl : Nat} (hs : Keeps σ s) : Keeps σ (s.collLost id fl) := by
  unfold State.collLost
  split
  · exact hs
  · exact .ite hs hs.count.breakGroup.collFail

/-! ### What a member's packets tell (R298, R307, R308) -/

theorem collNote {s : State} {id : Nat} {k : Packet} (hs : Keeps σ s) : Keeps σ (s.collNote id k) := by
  unfold State.collNote
  split
  · exact hs
  · extract_lets h compared key pos
    exact .ite hs.count.collFail hs.modColl

theorem takeEarly {s : State} {id : Nat} (hs : Keeps σ s) : Keeps σ (s.takeEarly id) := by
  unfold State.takeEarly
  split
  · exact hs
  · extract_lets mine s1
    have h1 : Keeps σ s1 := hs.modCe
    exact h1.foldl (fun _ _ h1 => .ite h1.collNote h1)

/-! ### Reduction and results (R294 to R297, R299) -/

theorem collCombine {s : State} {id : Nat} {c : Coll} {g : CollGroup} (hs : Keeps σ s) :
    Keeps σ (s.collCombine id c g) := hs.storeAll.modColl

theorem enterSegments {s : State} {c : Coll} (hs : Keeps σ s) : Keeps σ (s.enterSegments c) := by
  unfold State.enterSegments
  split
  · split
    · exact hs
    · dsimp only
      exact hs.foldl (fun _ _ h3 => h3.modTag.enterRoot)
  · exact hs

theorem collDone {s : State} {id : Nat} {c : Coll} {g : CollGroup} (hs : Keeps σ s) :
    Keeps σ (s.collDone id c g) := by
  unfold State.collDone
  extract_lets n code d flags ended
  dsimp only
  split
  · split
    · exact hs.modColl.dropCollRequests.smearScratch.collFields
    · split
      · refine Keeps.opEnd ?_
        split
        · exact hs.modColl.dropCollRequests.smearScratch.collFields
        · exact hs.modColl.dropCollRequests.smearScratch.collFields.enterBlock.enterSats.enterContribution
      · exact hs.modColl.dropCollRequests.smearScratch.collFields.dropContribs.opEnd
  · split
    · exact hs.modColl.dropCollRequests.smearScratch.collFields.enterSegments
    · exact hs.modColl.dropCollRequests.smearScratch.collFields.foldl (fun _ _ h3 => h3.enterRoot)
  · exact hs.modColl.dropCollRequests.smearScratch.collFields.guardOutcome

/-! ### Placing what has arrived (R300, R307, R312) -/

theorem collPlace {s : State} {id : Nat} (hs : Keeps σ s) : Keeps σ (s.collPlace id) := by
  unfold State.collPlace
  split
  · exact hs
  · split
    · exact hs
    · extract_lets n cs
      refine hs.foldl fun _ _ h12 => ?_
      exact h12.foldl (fun _ _ h13 => .ite h13 ((h13.foldl (fun _ _ h14 => h14.store)).modColl))

theorem collAcks {s : State} {id : Nat} (hs : Keeps σ s) : Keeps σ (s.collAcks id) := by
  unfold State.collAcks
  split
  · exact hs
  · split
    · exact hs
    · extract_lets n keys
      exact hs.foldl (fun _ _ h2 => .ite h2 h2.collSend.modColl)

/-! ### Sending what may be sent -/

theorem giveTile {s : State} {id : Nat} {c : Coll} {g : CollGroup} {j : Nat} (hs : Keeps σ s) :
    Keeps σ (s.giveTile id c g j) := by
  unfold State.giveTile
  extract_lets n part
  dsimp only
  split
  · exact hs.modColl
  · split
    · exact hs.sourcesReady
    · split
      · exact ((hs.sourcesReady.foldl (fun _ _ h12 => h12.touch.countLost)).sendStream).modColl
      · split
        · exact (hs.sourcesReady.foldl (fun _ _ h15 => h15.touch.countLost)).sendStream
        · exact ((hs.sourcesReady.foldl (fun _ _ h16 => h16.touch.countLost)).sendStream).collFail

theorem giveResult {s : State} {id : Nat} {c : Coll} {g : CollGroup} {j : Nat} (hs : Keeps σ s) :
    Keeps σ (s.giveResult id c g j) := hs.sendStream.modColl

theorem stageChunks {s : State} {id : Nat} (hs : Keeps σ s) : Keeps σ (s.stageChunks id) := by
  unfold State.stageChunks
  split
  · exact hs
  · split
    · exact hs
    · extract_lets cs big room now next
      refine hs.foldl fun _ _ h4 => ?_
      split
      · exact h4
      · exact .ite h4 (.ite h4.collFail h4.modColl.count)

theorem giveChunk {s : State} {id i : Nat} {x : Chunk} (hs : Keeps σ s) : Keeps σ (s.giveChunk id i x) := by
  unfold State.giveChunk
  split
  · exact hs
  · split
    · exact hs
    · extract_lets cs waits
      dsimp only
      split
      · exact hs
      · split
        · split
          · exact hs
          · split
            · split
              · exact hs.modColl.collFail
              · exact hs.modColl.bind.modColl
            · split
              · exact hs
              · split
                · exact hs.sendStream.collFail
                · exact hs.sendStream.modColl
        · split
          · exact hs.sourcesReady
          · split
            · split
              · exact hs.sourcesReady.modColl.collFail
              · exact hs.sourcesReady.modColl.bind.modColl
            · split
              · exact hs
              · split
                · exact hs.sourcesReady.sendStream.collFail
                · exact hs.sourcesReady.sendStream.modColl

theorem givePlan {s : State} {id : Nat} (hs : Keeps σ s) : Keeps σ (s.givePlan id) := by
  unfold State.givePlan
  split
  · exact hs
  · split
    · exact hs
    · extract_lets mine pass
      exact (hs.foldl (fun _ _ h4 => h4.stageChunks.giveChunk.collPlace)).foldl (fun _ _ h5 =>
          h5.stageChunks.giveChunk.collPlace)

theorem giveFlags {s : State} {id fuel : Nat} (hs : Keeps σ s) : Keeps σ (s.giveFlags id fuel) := by
  induction fuel generalizing s with
  | zero => exact hs
  | succ fuel ih =>
    unfold State.giveFlags
    split
    · exact hs
    · split
      · exact hs
      · extract_lets n from_
        split
        · exact hs
        · exact ih (.ite hs.modColl.collSend hs.modColl)

/-! ### First-writer-wins slots (R315 to R317) -/

theorem claimSlot {s : State} {ct a logical dev c : Nat} (hs : Keeps σ s) :
    Keeps σ (s.claimSlot ct a logical dev c).2.2.2 := by
  unfold State.claimSlot
  dsimp only
  split
  · exact .pair hs.count
  · exact .pair hs.store.store.store.modCe

theorem releaseSlot {s : State} {a : Nat} (hs : Keeps σ s) : Keeps σ (s.releaseSlot a) := hs.store.modCe

theorem fillSlot {s : State} {ct addr number : Nat} {bs : Bytes} (hs : Keeps σ s) :
    Keeps σ (s.fillSlot ct addr number bs).2 := by
  unfold State.fillSlot
  split
  · exact .pair hs.count
  · split
    · exact .pair hs.count
    · extract_lets h s1 w s2 sem
      have h1 : Keeps σ s1 := hs.store
      have h2 : Keeps σ s2 := h1.store.store.modCe
      split
      · exact .pair hs.count
      · split
        · exact .pair hs.releaseSlot
        · exact .iteSnd (.pair h1.modCe) (.pair ((Keeps.ite h2 h2.unitPost).count))

theorem giveUpSlot {s : State} {c : Coll} {g : CollGroup} {number : Nat} (hs : Keeps σ s) :
    Keeps σ (s.giveUpSlot c g number) := .ite hs.releaseSlot hs.collSend

theorem claimed {s : State} {id number : Nat} {won : Bool} {length : Nat} (hs : Keeps σ s) :
    Keeps σ (s.claimed id number won length) := by
  unfold State.claimed
  split
  · exact hs
  · split
    · exact hs
    · split
      · exact hs
      · exact .ite hs.modColl (.ite hs.giveUpSlot.collFail hs.modColl)

theorem askSlot {s : State} {id : Nat} {c : Coll} {g : CollGroup} (hs : Keeps σ s) :
    Keeps σ (s.askSlot id c g) := by
  unfold State.askSlot
  dsimp only
  exact .ite hs.claimSlot.claimed (.ite hs hs.collRequest)

theorem sendSlot {s : State} {id number : Nat} {c : Coll} {g : CollGroup} (hs : Keeps σ s) :
    Keeps σ (s.sendSlot id number c g) := by
  unfold State.sendSlot
  dsimp only
  split
  · exact hs.sourcesReady
  · split
    · refine Keeps.collFail ?_
      refine Keeps.giveUpSlot ?_
      refine Keeps.foldl ?_ fun _ _ h39 => .ite h39.fillSlot h39.collSend
      split
      · exact hs.sourcesReady.foldl (fun _ _ h37 => h37.touch.countLost)
      · exact (hs.sourcesReady.foldl (fun _ _ h38 => h38.touch.countLost)).countSuppressed
    · refine Keeps.modColl ?_
      refine Keeps.foldl ?_ fun _ _ h55 => .ite h55.fillSlot h55.collSend
      split
      · exact hs.sourcesReady.foldl (fun _ _ h53 => h53.touch.countLost)
      · exact (hs.sourcesReady.foldl (fun _ _ h54 => h54.touch.countLost)).countSuppressed

theorem giveSlot {s : State} {id : Nat} (hs : Keeps σ s) : Keeps σ (s.giveSlot id) := by
  unfold State.giveSlot
  split
  · exact hs
  · split
    · exact hs
    · extract_lets s1
      have h1 : Keeps σ s1 := .ite hs.askSlot hs
      split
      · exact h1
      · split
        · exact .ite h1 h1.sendSlot
        · exact h1

theorem giveResults {s : State} {id n : Nat} {g : CollGroup} (hs : Keeps σ s) : Keeps σ (s.giveResults id n g) := by
  unfold State.giveResults
  refine hs.foldl fun _ _ h2 => ?_
  split
  · exact .ite h2.giveResult h2
  · exact h2

theorem collStep {s : State} {id : Nat} (hs : Keeps σ s) : Keeps σ (s.collStep id) := by
  unfold State.collStep
  extract_lets s0
  have h0 : Keeps σ s0 := hs.collPlace
  split
  · exact h0
  · split
    · exact h0
    · extract_lets n s1 s2
      have h1 : Keeps σ s1 := .ite h0.giveFlags (.ite h0.givePlan.collPlace (.ite h0.giveSlot
        (h0.foldl fun s j h => by
          split
          · exact .ite h.giveTile h
          · exact h)))
      have h2 : Keeps σ s2 := h1.collAcks
      clear_value s2
      refine .ite h0 ?_
      split
      · exact h2
      · extract_lets contrib part
        split
        next s3 ready e =>
          have h3 : Keeps σ s3 := Keeps.fst_eq (.iteFst h2.sourcesReady h2) e
          clear e
          extract_lets s4 s5
          have h5 : Keeps σ s5 := Keeps.giveResults (.ite h3.collCombine h3)
          clear_value s5
          split
          · exact h5
          · extract_lets idle s6 s7 given whole fww
            have h6 : Keeps σ s6 := .ite h5.modColl.count h5
            have h7 : Keeps σ s7 := h6.foldl fun _ _ h => .ite h h.probe
            exact .ite h5 (.ite h7.count.collDone h7)

/-! ### Starting (R299 to R302) -/

theorem ownCopy {s : State} {id : Nat} {c : Coll} {g : CollGroup} (hs : Keeps σ s) :
    Keeps σ (s.ownCopy id c g) := by
  unfold State.ownCopy
  extract_lets n src dst s1
  have h1 : Keeps σ s1 := .ite hs hs.landCopy.bindTiles.modColl
  exact .ite hs (.ite ((h1.foldl (fun _ _ h => h.countLost)).collFail) h1)

theorem collStart {s : State} {id : Nat} (hs : Keeps σ s) : Keeps σ (s.collStart id) := by
  unfold State.collStart
  split
  · exact hs
  · split
    · exact hs
    · split
      · exact hs
      · split
        · exact hs.modColl.collLost
        · extract_lets n s1 c hello s2 s3 s4
          have h1 : Keeps σ s1 := hs.modColl
          have h2 : Keeps σ s2 := h1.foldl (fun _ _ h20 => h20.collSend)
          have h3 : Keeps σ s3 := .ite h2.collSend h2
          have h4 : Keeps σ s4 := .ite (h3.foldl (fun _ _ h21 => h21.checkRead)) h3
          exact h4.ownCopy.takeEarly

theorem collPump {s : State} (hs : Keeps σ s) : Keeps σ s.collPump :=
  hs.foldl (fun _ _ h => .ite h.collStart.collStep h.collStep)

theorem collAdd {s : State} {c : Coll} (hs : Keeps σ s) : Keeps σ (s.collAdd c).2 := .pair hs.modCe

/-! ### The operation block (R292) -/

theorem issueColl {s : State} {t : ThreadId} {op : Nat} {w : TileWord} (hs : Keeps σ s) :
    Keeps σ (s.issueColl t op w) := by
  have queued : Keeps σ (s.issueTile t 0x70 0x00 w { d := true, a := true, s1 := true, conv := true, imm :=
      0xFFFFFF }
      (.coll op) fun x o s => match s.checkColl t x o op with
        | some r => .error r
        | none =>
          let b := CollBlock.read (s.bytesAt (locOf o.s1) 128)
          let own := ((s.group? x.ctx b.group).map (·.own)).getD 0
          if (usesOf op b.root own).2 then
            let (cs, s1) := s.takeContributions t x.ctx [Desc.parse o.d]
            .ok ({ o with contribs := cs }, s1)
          else .ok (o, s)) := by
    refine hs.issueTile fun x o s p h e => ?_
    split at e
    · cases e
    · dsimp only at e
      split at e
      · cases e; exact h.takeContributions
      · cases e; exact h
  unfold State.issueColl
  extract_lets s1
  have h1 : Keeps σ s1 := queued
  clear_value s1
  split
  · exact h1
  · dsimp only
    split
    · exact h1
    · exact h1.modOp.modCe.count.collAdd.collStart.collStep

theorem execAllReduce {t : ThreadId} {w : TileWord} {s : State} (hs : Keeps σ s) : Goes σ (execAllReduce t w s) :=
  .next hs.issueColl

theorem execReduceScatter {t : ThreadId} {w : TileWord} {s : State} (hs : Keeps σ s) :
    Goes σ (execReduceScatter t w s) := .next hs.issueColl

theorem execAllGather {t : ThreadId} {w : TileWord} {s : State} (hs : Keeps σ s) : Goes σ (execAllGather t w s) :=
  .next hs.issueColl

theorem execReduce {t : ThreadId} {w : TileWord} {s : State} (hs : Keeps σ s) : Goes σ (execReduce t w s) :=
  .next hs.issueColl

theorem execBroadcast {t : ThreadId} {w : TileWord} {s : State} (hs : Keeps σ s) : Goes σ (execBroadcast t w s) :=
  .next hs.issueColl

theorem execAllToAll {t : ThreadId} {w : TileWord} {s : State} (hs : Keeps σ s) : Goes σ (execAllToAll t w s) :=
  .next hs.issueColl

theorem execPermute {t : ThreadId} {w : TileWord} {s : State} (hs : Keeps σ s) : Goes σ (execPermute t w s) :=
  .next hs.issueColl

theorem execFwwPut {t : ThreadId} {w : TileWord} {s : State} (hs : Keeps σ s) : Goes σ (execFwwPut t w s) :=
  .next hs.issueColl

theorem execGroupBarrier {t : ThreadId} {w : TileWord} {s : State} (hs : Keeps σ s) :
    Goes σ (execGroupBarrier t w s) := .next hs.issueColl

/-! ### Bucket reductions (R192, R301) -/

theorem closeBucket {s : State} {c b : Nat} {fail : Option Code} {nf : BitVec 3} (hs : Keeps σ s) :
    Keeps σ (s.closeBucket c b fail nf) := by
  unfold State.closeBucket
  split
  · extract_lets st s1 s2
    have h1 : Keeps σ s1 := hs.modBucket.setBucket.count
    have h2 : Keeps σ s2 := by
      simp only [s2]
      split
      · exact h1.modLaunch
      · exact h1
    exact .ite h2 h2.unitPost
  · exact hs

theorem bucketTags {s : State} {c : Nat} {k : Bucket} {bl : CollBlock} (hs : Keeps σ s) :
    Keeps σ (s.bucketTags c k bl).2 := by
  unfold State.bucketTags
  dsimp only
  exact .iteSnd hs (.iteSnd (.pair hs.count) (hs.foldlSnd (fun _ _ h1 => .pair h1.takeContribution)))

theorem execBucketFoldComplete {ctx bucket : Nat} {s : State} (hs : Keeps σ s) :
    Goes σ (execBucketFoldComplete ctx bucket s) := by
  unfold Machine.execBucketFoldComplete
  refine .next ?_
  split
  · split
    · exact hs
    · split
      · exact hs.closeBucket
      · extract_lets bl s1
        have h1 : Keeps σ s1 := hs.setBucket.count
        split
        · exact h1.closeBucket
        · dsimp only
          exact .ite h1.closeBucket h1.bucketTags.collAdd.collStart.collStep
  · exact hs

theorem execBucketReductionEnd {ctx bucket : Nat} {s : State} (hs : Keeps σ s) :
    Goes σ (execBucketReductionEnd ctx bucket s) := by
  unfold Machine.execBucketReductionEnd
  refine .next ?_
  split
  · exact .ite hs hs.closeBucket
  · exact hs

/-! ### The commit point (R199, R200) -/

theorem commitStart {s : State} {c step : Nat} (hs : Keeps σ s) : Keeps σ (s.commitStart c step) := by
  unfold State.commitStart
  split
  · exact hs
  · split
    · exact hs
    · split
      · exact hs.modGuard.finishCmd
      · extract_lets clean s1
        have h1 : Keeps σ s1 := .ite hs.modGuard hs
        dsimp only
        exact .ite h1.guardOutcome h1.collAdd.collStart.collStep

theorem commitPointReached {s : State} {c step : Nat} (hs : Keeps σ s) : Keeps σ (s.commitPointReached c step) :=
  .ite hs.commitStart hs

/-! ### Moving the threads of a context (notes/assumptions/28.md) -/

theorem renameThreads {s : State} {c : Nat} {f : ThreadId → ThreadId} (hs : Keeps σ s) :
    Keeps σ (s.renameThreads c f) := by
  have moved : ∀ (m : Map Thread) (l : Map Thread), (∀ x ∈ l, x ∈ s.threads) → (∀ x ∈ m, ∃ y ∈ s.threads,
      x.2.ops = y.2.ops) →
      ∀ x ∈ l.foldl (fun m e => Map.put m (threadKey (f (keyThread e.1))) e.2) m, ∃ y ∈ s.threads,
          x.2.ops = y.2.ops := by
    intro m l
    induction l generalizing m with
    | nil => exact fun _ hm => hm
    | cons e l ih =>
      intro hl hm
      refine ih _ (fun x hx => hl x (List.mem_cons_of_mem _ hx)) fun x hx => ?_
      obtain hx | rfl := Map.mem_put hx
      · exact hm x hx
      · exact ⟨e, hl e List.mem_cons_self, rfl⟩
  exact (hs.subThreads (moved _ _ (fun x hx => List.mem_of_mem_filter hx)
    fun x hx => ⟨x, List.mem_of_mem_filter hx, rfl⟩)).unwatched

/-! ### The request to suspend (R359, R360) -/

theorem endWaits {s : State} {c : Nat} (hs : Keeps σ s) : Keeps σ (s.endWaits c) :=
  (hs.foldl (fun _ _ h => h.endMiss)).foldl (fun _ _ h1 => .ite h1.countWait h1)

theorem suspendCtx {s : State} {c : Nat} {cause : SuspendCause} {byClass : Nat} (hs : Keeps σ s) :
    Keeps σ (s.suspendCtx c cause byClass) := by
  unfold State.suspendCtx
  extract_lets displaced s1 rec_ s2 s3 s4
  have h1 : Keeps σ s1 := hs.endWaits.modCtx
  have h2 : Keeps σ s2 := h1.foldl fun s id h => by
    split
    · exact h
    · exact h.interim
  have h3 : Keeps σ s3 := h2.failWaiters
  have h4 : Keeps σ s4 := h3.foldl fun s t h => (h.modThread (Thread.suspend_ops _)).withdrawArrivals
  clear_value s4
  exact h4.unwatched

/-! ### The save (R360, R361) -/

theorem withdrawPackets {s : State} {c : Nat} (hs : Keeps σ s) : Keeps σ (s.withdrawPackets c) := by
  unfold State.withdrawPackets
  exact hs.modFabric.modCtx

theorem advanceOp {s : State} {t : ThreadId} {id : Nat} (hs : Keeps σ s) : Keeps σ (s.advanceOp t id) := by
  unfold State.advanceOp
  split
  · exact hs
  · split
    · exact hs
    · split
      · exact .ite hs hs.advanceCopy
      · exact .ite hs hs.advanceCopy
      · exact .ite hs hs.advanceCopy
      · exact hs.advanceElem
      · exact hs.advanceElem
      · exact hs.advanceElem
      · exact hs.advanceStash
      · exact hs.advanceUnstash
      · exact hs.advanceBkt
      · exact hs.advanceUpdate
      · exact hs
      · exact hs
      · exact hs
      · exact hs
      · exact hs
      · exact hs
      · exact hs

theorem advanceAll {s : State} {c : Nat} (hs : Keeps σ s) : Keeps σ (s.advanceAll c) :=
  hs.foldl (fun _ _ h => h.advanceOp)

theorem clearArrays {s : State} {c : Nat} (hs : Keeps σ s) : Keeps σ (s.clearArrays c) := hs.unwatched

theorem countReaders {s : State} {c : Nat} {up : Bool} (hs : Keeps σ s) : Keeps σ (s.countReaders c up) := by
  unfold State.countReaders
  refine hs.foldl fun _ _ h4 => ?_
  refine h4.foldl fun _ _ h7 => ?_
  split
  · exact h7.countReader
  · exact h7

theorem sequenceAll {s : State} (hs : Keeps σ s) : Keeps σ s.sequenceAll := hs.foldl (fun _ _ h => h.sequence)

theorem execSuspendSaveComplete {ctx : Nat} {s : State} (hs : Keeps σ s) : Goes σ
    (execSuspendSaveComplete ctx s) := by
  have saved : ∀ s : State, Keeps σ s → Keeps σ { s with threads := Map.mapVals (fun _ (x : Thread) =>
      if x.ctx == ctx then { x with ops := x.ops.map TileOp.saved } else x) s.threads } := by
    intro s h
    refine h.setThreads fun hn y hy o ho => ?_
    obtain ⟨e, he, rfl⟩ := List.mem_map.1 hy
    dsimp only at ho
    split at ho
    · obtain ⟨p, hp, rfl⟩ := List.mem_map.1 ho
      exact hn e he p hp
    · exact hn e he o ho
  unfold Machine.execSuspendSaveComplete
  refine .next (.ite hs ?_)
  extract_lets s0 s1 s2 s3 s4
  have h2 : Keeps σ s2 := (saved s0 hs.advanceAll).countReaders.clearArrays.withdrawPackets
  have h3 : Keeps σ s3 := h2.unwatched
  have h4 : Keeps σ s4 := h3.modCtx.renameThreads
  exact h4.finishWhere.sequenceAll

/-! ### Re-admission and restoration (R357, R363) -/

theorem readmit {s : State} {c : Nat} (hs : Keeps σ s) : Keeps σ (s.readmit c) := by
  unfold State.readmit
  split
  · exact hs
  · split
    · exact hs
    · exact ((hs.beginReturns ‹_›).modCtx).renameThreads

theorem execContextReadmission {ctx : Nat} {s : State} (hs : Keeps σ s) : Goes σ (execContextReadmission ctx s) :=
  .next hs.readmit

theorem stopResumed {s : State} {t : ThreadId} (hs : Keeps σ s) : Keeps σ (s.stopResumed t) := by
  unfold State.stopResumed
  extract_lets x
  split
  · exact hs
  · split
    · exact hs
    · exact .ite hs hs.trapOne

theorem takeDue {s : State} {t : ThreadId} (hs : Keeps σ s) : Keeps σ (s.takeDue t) := by
  unfold State.takeDue
  dsimp only
  split
  · exact hs
  · exact hs.modThread.trap

theorem resumeThreads {s : State} {c : Nat} (hs : Keeps σ s) : Keeps σ (s.resumeThreads c) :=
  (hs.foldl (fun _ _ h => h.modThread)).foldl (fun _ _ h1 => h1.takeDue.stopResumed)

theorem execContextRestoreComplete {ctx : Nat} {s : State} (hs : Keeps σ s) :
    Goes σ (execContextRestoreComplete ctx s) := by
  unfold Machine.execContextRestoreComplete
  extract_lets x s1 s2 s3 s5 s6
  have h1 : Keeps σ s1 := hs.modCtx
  have h2 : Keeps σ s2 := h1.unwatched
  have h3 : Keeps σ s3 := h2.countReaders.resumeThreads
  have h5 : Keeps σ s5 := h3.foldl (fun _ _ h => h.emit)
  have h6 : Keeps σ s6 := h5.pump.collPump.sequenceAll
  refine .next ?_
  exact .ite hs h6.finishWhere

theorem execTagUnitBind {array ctx slot cycles : Nat} {s : State} (hs : Keeps σ s) :
    Goes σ (execTagUnitBind array ctx slot cycles s) := by
  unfold Machine.execTagUnitBind
  extract_lets x s1 s2
  have h1 : Keeps σ s1 := hs.modTag.count
  have h2 : Keeps σ s2 := .ite h1.resumeThreads h1
  refine .next ?_
  split
  · exact hs
  · exact .ite hs (.ite hs h2.sequence.collPump)

/-! ### The training table -/

theorem loadTrain {s : State} {id : Nat} {l : Launch} {tr : Train} (hs : Keeps σ s) :
    Keeps σ (s.loadTrain id l tr) := by
  unfold State.loadTrain
  extract_lets c s1 s2 s3
  have h1 : Keeps σ s1 := by
    simp only [s1]
    split
    · exact hs
    · exact hs.modGuard
  have h2 : Keeps σ s2 := h1.unwatched
  have h3 : Keeps σ s3 := h2.foldl (fun _ _ h => (h.foldl (fun _ _ h1 => h1.store)).writeBucket)
  exact h3.foldl (fun _ _ h2 => h2.writeRegion)

/-! ### Start and end of a launch -/

theorem dropLaunch {s : State} {id : Nat} {r : Reply} (hs : Keeps σ s) : Keeps σ (s.dropLaunch id r) := by
  unfold State.dropLaunch
  split
  · exact hs
  · exact hs.unwatched.finishCmd

theorem startLaunch {s : State} {id : Nat} (hs : Keeps σ s) : Keeps σ (s.startLaunch id) := by
  unfold State.startLaunch
  split
  · exact hs
  · extract_lets c step table ts s1 s2 s3 s4
    clear_value table
    cases table with
    | none => exact hs.dropLaunch
    | some tr =>
      have h1 : Keeps σ s1 := hs.foldl fun _ _ h => h.setThread fun _ _ ho => nomatch ho
      have h2 : Keeps σ s2 :=
        (Keeps.unwatched h1 : Keeps σ { s1 with admitting := s1.admitting.filter (· ≠ id) }).modLaunch
      have h3 : Keeps σ s3 := h2.modCtx
      have h4 : Keeps σ s4 := .ite h3 h3.makeGuard
      cases tr with
      | none => exact h4
      | some _ => exact h4.loadTrain

theorem admitLaunch {s u : State} {id : Nat} {l : Launch} {as : List Nat} (hs : Keeps σ s)
    (e : s.admitLaunch id l as = some u) : Keeps σ u := by
  unfold State.admitLaunch at e
  extract_lets away s1 at e
  have h1 : Keeps σ s1 := hs.modLaunch
  split at e
  · cases e; exact h1.startLaunch
  · obtain ⟨v, ev, rfl⟩ := Option.map_eq_some_iff.1 e
    exact (h1.beginReturns ev).unwatched

theorem submit {s : State} {id : Nat} (hs : Keeps σ s) : Keeps σ (s.submit id) := by
  have displaced : ∀ (v u : State) (l : Launch) (cs : List Nat) (is : List Nat), Keeps σ v →
      (v.beginReturns l.cls is).map (fun s2 => cs.foldl (fun s c => s.suspendCtx c .displaced l.cls)
        { s2 with admitting := s2.admitting ++ [id] }) = some u → Keeps σ u := by
    intro v u l cs is hv hu
    obtain ⟨w, hw, rfl⟩ := Option.map_eq_some_iff.1 hu
    exact (Keeps.unwatched (hv.beginReturns hw) : Keeps σ { w with admitting := w.admitting ++ [id] }).foldl
      fun _ _ h => h.suspendCtx
  unfold State.submit
  split
  · exact hs
  · dsimp only
    refine .ite hs.dropLaunch ?_
    split
    · next u hu =>
      split at hu
      · obtain ⟨as, -, ha⟩ := Option.bind_eq_some_iff.1 hu
        exact hs.admitLaunch ha
      · cases hu
    · split
      · next u hu =>
        split at hu
        · obtain ⟨d, -, hd⟩ := Option.bind_eq_some_iff.1 hu
          exact displaced _ _ _ _ _ hs.modLaunch hd
        · cases hu
      · exact .ite hs.interim hs.dropLaunch

theorem execAdmission {s : State} (hs : Keeps σ s) : Goes σ (execAdmission s) := by
  unfold Machine.execAdmission
  refine .next ?_
  split
  · exact hs.startLaunch
  · split
    · split
      · exact hs
      · refine .ite hs.dropLaunch ?_
        split
        · next e =>
          obtain ⟨as, -, ha⟩ := Option.bind_eq_some_iff.1 e
          exact hs.admitLaunch ha
        · exact hs
    · exact hs

/-! ### The completion of tile instructions (R136) -/

theorem completeOp [Plain σ] {s : State} {t : ThreadId} {o : TileOp} (hs : Keeps σ s) : Keeps σ (s.completeOp t o) := by
  unfold State.completeOp
  extract_lets matrix inFlight s1
  have h1 : Keeps σ s1 := hs.stopMatrix
  split
  · exact hs.opEnd
  · split
    · exact hs.dropContribs.opEnd.sequence
    · split
      · split
        · exact .ite (.ite hs.opEnd hs) hs.opGo
        · exact .ite hs.finishCopy hs
      · split
        · exact .ite (.ite hs.opEnd hs) hs.opGo
        · exact .ite hs.finishCopy hs
      · split
        · exact .ite (.ite hs.opEnd hs) hs.opGo
        · exact .ite hs.finishCopy hs
      · exact hs.finishElem
      · exact hs.finishElem
      · exact hs.finishElem
      · split
        · exact .ite h1.opEnd h1
        · exact h1
      · split
        · exact .ite h1.opEnd h1
        · exact h1
      · exact hs.finishUnstash
      · exact hs.finishBkt
      · exact hs.finishVerRead
      · exact hs.finishUpdate
      · exact hs
      · exact hs
      · exact hs
      · exact hs
      · exact hs

theorem completeInstruction [Plain σ] {s : State} {t : ThreadId} {id : Nat} (hs : Keeps σ s) :
    Keeps σ (s.completeInstruction t id) := by
  unfold State.completeInstruction
  split
  · exact hs
  · exact .ite hs hs.completeOp

/-! ### The end of a launch (R155) -/

theorem measure {s : State} {l : Launch} (hs : Keeps σ s) : Keeps σ (s.measure l) := by
  unfold State.measure
  extract_lets elapsed queued
  dsimp only
  exact hs.free.modCtx

theorem freeOrphans {s : State} {id c : Nat} (hs : Keeps σ s) : Keeps σ (s.freeOrphans id c) :=
  hs.foldl (fun _ _ h => h.freeStash.count)

theorem completeLaunch {s : State} {launch : Nat} (hs : Keeps σ s) : Keeps σ (s.completeLaunch launch) := by
  unfold State.completeLaunch
  split
  · exact hs
  · refine .ite hs ?_
    extract_lets s1
    have h1 : Keeps σ s1 := .ite hs.endSlot hs
    split
    · exact h1
    · extract_lets clean s2 s3
      have h3 : Keeps σ s3 := h1.modGuard.freeOrphans.measure
      have h4 : Keeps σ { s3 with
          threads := s3.threads.filter fun e => e.2.launch ≠ launch || e.2.state == ThreadState.idle } :=
        h3.filterThreads
      exact (Keeps.unwatched h4 : Keeps σ { s3 with
          threads := s3.threads.filter fun e => e.2.launch ≠ launch || e.2.state == ThreadState.idle
          launches := Map.erase s3.launches launch }).finishCmd

/-! ### Pair state and directories (R399 to R401) -/

theorem setPair {s : State} {p : PairState} (hs : Keeps σ s) : Keeps σ (s.setPair p) := .ite hs hs.modTwin.raise

theorem twinSend {s : State} {sub : Nat} {ckpt : Word} {data : Bytes} {off : Nat} {dev : Option Nat}
    (hs : Keeps σ s) :
    Keeps σ (s.twinSend sub ckpt data off dev) := hs.emit

theorem dirSync {s : State} {gone : Word} (hs : Keeps σ s) : Keeps σ (s.dirSync gone) := .ite hs hs.twinSend

/-- A range of each entry that is given up is zeroed. -/
theorem cellsWf_zeroEntries (l : List MirrorEntry) (m : List Host.Cell) (h : cellsWf m = true) :
    cellsWf (l.foldl (fun m e => cellsZero m e.offset e.bytes) m) = true :=
  foldl_inv (fun m => cellsWf m = true) _ (fun _ _ hm => cellsWf_cellsZero _ _ _ hm) l m h

theorem freeHeld {s : State} {p : MirrorEntry → Bool} (hs : Keeps σ s) : Keeps σ (s.freeHeld p) :=
  hs.setMirror (cellsWf_zeroEntries _ _)

/-! ### Checkpoint streams (R402 to R404) -/

theorem unstage {s : State} {i : Nat} (hs : Keeps σ s) : Keeps σ (s.unstage i) := .ite hs.modMem hs

theorem closeStream {s : State} (hs : Keeps σ s) : Keeps σ s.closeStream := by
  unfold State.closeStream
  exact (hs.foldl (fun _ _ h => h.unstage)).modTwin

theorem abandonStream {s : State} {r : Reply} (hs : Keeps σ s) : Keeps σ (s.abandonStream r) := by
  unfold State.abandonStream
  split
  · exact hs
  · extract_lets s1
    have h1 : Keeps σ s1 := hs.closeStream.modTwin.count
    exact (Keeps.ite h1.dirSync h1).finishCmd

theorem settleAdoption {s : State} (hs : Keeps σ s) : Keeps σ s.settleAdoption := .ite hs.modTwin.setPair hs

theorem finishStream {s : State} (hs : Keeps σ s) : Keeps σ s.finishStream := by
  unfold State.finishStream
  split
  · exact hs
  · exact (Keeps.modTwin hs.closeStream (by split <;> rfl)).count.finishCmd.settleAdoption

theorem writeImage {s : State} {h : Nat} {toHost : Bool} {dst : Word} {ctx : Nat} {image : Bytes} (hs : Keeps σ s) :
    Keeps σ (s.writeImage h toHost dst ctx image) := .ite hs.busWrite (hs.foldl (fun _ _ h => h.request))

theorem sendPage {s : State} {t : Stream} {i : Nat} (hs : Keeps σ s) : Keeps σ (s.sendPage t i) := by
  unfold State.sendPage
  have same : ∀ w : Twin,
      ({ w with stream := w.stream.map fun t => { t with sent := 1 } } : Twin).mirror = w.mirror := fun _ => rfl
  exact Keeps.modTwin (Keeps.foldl (.ite hs hs.touch) fun _ _ h => h.twinSend) (same _)

theorem streamGo {s : State} (hs : Keeps σ s) : Keeps σ s.streamGo := by
  unfold State.streamGo
  split
  · exact hs
  · extract_lets fresh s1 data image s2
    have h1 : Keeps σ s1 := hs.foldl (fun _ _ h5 => h5.checkRead.touch)
    have h2 : Keeps σ s2 := h1.writeImage.modTwin
    split
    · exact hs
    · split
      · split
        · split
          · exact hs
          · split
            · exact hs
            · exact hs.twinSend.modTwin
        · extract_lets s1'
          have h1' : Keeps σ s1' := .ite hs.checkRead hs
          split
          · exact hs
          · exact .ite h1'.countLost.abandonStream (.ite h1' h1'.sendPage)
      · split
        · exact hs
        · split
          · exact (h1.foldl (fun _ _ h10 => h10.countLost)).abandonStream
          · exact .ite h1 (.ite h2 h2.finishStream)

theorem streamAck {s : State} {ckpt : Word} {off : Nat} (hs : Keeps σ s) : Keeps σ (s.streamAck ckpt off) := by
  unfold State.streamAck
  split
  · exact hs
  · split
    · exact hs
    · split
      · exact .ite hs.finishStream hs
      · extract_lets base pos
        exact .ite hs hs.unstage.modTwin.streamGo

theorem streamResume {s : State} (hs : Keeps σ s) : Keeps σ s.streamResume := hs.modTwin.streamGo

/-! ### Drains and restores (R405, R407) -/

theorem endJob {s : State} {h : Nat} {r : Reply} (hs : Keeps σ s) : Keeps σ (s.endJob h r) :=
  hs.modTwin.modFabric.finishCmd.streamGo

theorem drained {s : State} {h : Nat} {j : MirrorJob} (hs : Keeps σ s) : Keeps σ (s.drained h j) :=
  hs.modTwin.dirSync.endJob

theorem restored {s : State} {h : Nat} {j : MirrorJob} (hs : Keeps σ s) : Keeps σ (s.restored h j) :=
  hs.modTwin.dirSync.endJob.settleAdoption

theorem jobGo {s : State} {h : Nat} (hs : Keeps σ s) : Keeps σ (s.jobGo h) := by
  unfold State.jobGo
  split
  · exact hs
  · split
    · exact hs
    · split
      · extract_lets off
        exact hs.request
      · exact .ite hs.restored (.ite hs.writeImage.modCmd hs.writeImage.modCmd.drained)

theorem jobData {s : State} {h : Nat} {got : Bytes} (hs : Keeps σ s) : Keeps σ (s.jobData h got) := by
  unfold State.jobData
  split
  · exact hs
  · extract_lets bs at_ s1 a loans s2 s3
    have h1 : Keeps σ s1 := hs.modTwin
    have h2 : Keeps σ s2 := h1.store
    have h3 : Keeps σ s3 := by
      simp only [s3]
      split
      · exact h2
      · exact h2.foldl (fun _ _ h3 => h3.modPage)
    exact .ite h1.jobGo (.ite h1.endJob h3.jobGo)

theorem imageAck {s : State} {h : Nat} (hs : Keeps σ s) : Keeps σ (s.imageAck h) := by
  unfold State.imageAck
  split
  · exact hs
  · split
    · split
      · exact hs.finishStream
      · split
        · exact .ite hs.drained hs
        · exact hs
    · split
      · exact .ite hs.drained hs
      · exact hs

theorem unpair {s : State} (hs : Keeps σ s) : Keeps σ s.unpair := by
  unfold State.unpair
  extract_lets twin peer spare s0 s1 s2 s3
  have h0 : Keeps σ s0 := .ite hs.modTwin hs
  have h1 : Keeps σ s1 := by
    simp only [s1]
    split
    · exact .ite h0.abandonStream h0
    · exact h0
  have h2 : Keeps σ s2 := h1.foldl (fun _ _ h => .ite h.count.endJob h.endJob)
  have h3 : Keeps σ s3 := h2.modTwin
  exact h3.freeHeld.setPair

/-! ### Teardown of a context with work in flight (R336, R382 to R384) -/

theorem abortCmd {s : State} {h : Nat} {r : Reply} (hs : Keeps σ s) : Keeps σ (s.abortCmd h r) :=
  .ite hs.modSr.endJob hs.modSr.finishCmd

theorem retireGeneration {s : State} {c : Nat} (hs : Keeps σ s) : Keeps σ (s.retireGeneration c) :=
  hs.foldl (fun _ _ h => h.emit)

theorem discardPackets {s : State} {c : Nat} (hs : Keeps σ s) : Keeps σ (s.discardPackets c) := by
  unfold State.discardPackets
  exact hs.modFabric.modCtx

theorem dropColls {s : State} {c : Nat} (hs : Keeps σ s) : Keeps σ (s.dropColls c) := hs.modCe.count

theorem abortCommands {s : State} {c h : Nat} (hs : Keeps σ s) : Keeps σ (s.abortCommands c h) :=
  hs.foldl (fun _ _ h => h.abortCmd)

theorem startDrain {s : State} {c h : Nat} {destroy : Bool} (hs : Keeps σ s) : Keeps σ
    (s.startDrain c h destroy) := by
  unfold State.startDrain
  extract_lets s1 s2 s3 bound s4 s5 s6 s7
  have h2 : Keeps σ s2 := hs.endWaits.retireGeneration.modCtx
  have h3 : Keeps σ s3 := by
    simp only [s3]
    split
    · exact .ite h2.abandonStream h2
    · exact h2
  have h5 : Keeps σ s5 := (Keeps.ite (h3.foldl fun _ _ h => h.modRing) h3).abortCommands.clearArrays
  have gone : Keeps σ { s5 with
      threads := s5.threads.filter fun e => e.2.ctx ≠ c || e.2.state == ThreadState.idle } := h5.filterThreads
  have h6 : Keeps σ s6 := (Keeps.unwatched gone : Keeps σ { s5 with
    launches := s5.launches.filter fun e => e.2.ctx ≠ c
    admitting := s5.admitting.filter fun id => !(s5.launch? id).any fun (l : Launch) => l.ctx == c
    threads := s5.threads.filter fun e => e.2.ctx ≠ c || e.2.state == ThreadState.idle }).modCtx
  exact h6.discardPackets.dropColls.pump.sequenceAll

theorem freeContext {s : State} {c : Nat} (hs : Keeps σ s) : Keeps σ (s.freeContext c) := by
  unfold State.freeContext
  extract_lets pages s1
  have h1 : Keeps σ s1 := hs.unwatched
  exact (h1.foldl fun _ _ h => h.unmapPage).modGranules (g := fun _ g => { g with pins := g.pins.filter (· ≠ c) })

theorem dropGroups {s : State} {c : Nat} (hs : Keeps σ s) : Keeps σ (s.dropGroups c) := hs.modCe

theorem endDrain {s : State} {c : Nat} (hs : Keeps σ s) : Keeps σ (s.endDrain c) := by
  unfold State.endDrain
  split
  · exact hs
  · extract_lets g save s1 s2
    have h1 : Keeps σ s1 := hs.freeContext
    have h2 : Keeps σ s2 := .ite h1.modCtx.dropGroups.modMem h1.modCtx
    exact h2.finishCmd.sequenceAll

theorem drainComplete {s : State} {c : Nat} (hs : Keeps σ s) : Keeps σ (s.drainComplete c) := .ite hs.endDrain hs

theorem drainForce {s : State} {c : Nat} (hs : Keeps σ s) : Keeps σ (s.drainForce c) := by
  unfold State.drainForce
  split
  · exact hs
  · extract_lets tags items s1 s2 s3
    have h1 : Keeps σ s1 := hs.foldl (fun _ _ h1 => h1.retire)
    have h2 : Keeps σ s2 := h1.unwatched
    have h3 : Keeps σ s3 := h2.count.count
    exact .ite hs h3.fault.endDrain

/-! ### What the meanings of host commands share -/

theorem sayReply {s : State} {c : Code} {result : Bytes} (hs : Keeps σ s) : Keeps σ (s.says c result).2 := hs

theorem waits {s : State} {h : Nat} {w : Work} (hs : Keeps σ s) : Keeps σ (s.waits h w).2 := .pair hs.modCmd

/-! ### Device commands -/

theorem cmdNop {s : State} (hs : Keeps σ s) : Keeps σ s.cmdNop.2 := hs.sayReply

theorem cmdHeartbeat {s : State} {p : Bytes} (hs : Keeps σ s) : Keeps σ (s.cmdHeartbeat p).2 :=
  .iteSnd hs.sayReply hs.sayReply

theorem cmdQueryCaps {s : State} {k : OutCmd} {p : Bytes} (hs : Keeps σ s) : Keeps σ (s.cmdQueryCaps k p).2 :=
  .iteSnd hs.sayReply hs

theorem cmdAckAttention {s : State} {p : Bytes} (hs : Keeps σ s) : Keeps σ (s.cmdAckAttention p).2 :=
  hs.unwatched.sayReply

theorem cmdQueryFault {s : State} {k : OutCmd} {p : Bytes} (hs : Keeps σ s) : Keeps σ (s.cmdQueryFault k p).2 :=
  .iteSnd hs.sayReply hs

theorem cmdReadCounters {s : State} {k : OutCmd} {p : Bytes} (hs : Keeps σ s) : Keeps σ (s.cmdReadCounters k p).2 :=
  .iteSnd hs.sayReply (.iteSnd hs.sayReply hs)

theorem cmdTimeRead {s : State} (hs : Keeps σ s) : Keeps σ s.cmdTimeRead.2 := hs.sayReply

/-! ### Contexts -/

theorem cmdCtxCreate {s : State} {h : Nat} {p : Bytes} (hs : Keeps σ s) : Keeps σ (s.cmdCtxCreate h p).2 := by
  unfold State.cmdCtxCreate
  extract_lets id cls arrays threads model q st save
  split
  · exact hs.sayReply
  · split
    · exact hs.sayReply
    · split
      · exact hs
      · split
        · exact hs
        · split
          · exact hs
          · extract_lets s2 s3
            have h2 : Keeps σ s2 := (hs.allocate ‹_›).modCtx
            have h3 : Keeps σ s3 := .ite h2.modMem h2
            exact .iteSnd hs h3.modCmd.sayReply

theorem cmdDrain {s : State} {h : Nat} {p : Bytes} {destroy : Bool} (hs : Keeps σ s) :
    Keeps σ (s.cmdDrain h p destroy).2 := .iteSnd hs.sayReply (.iteSnd hs.sayReply hs.startDrain.waits)

theorem cmdCtxSuspend {s : State} {h : Nat} {p : Bytes} (hs : Keeps σ s) : Keeps σ (s.cmdCtxSuspend h p).2 := by
  unfold State.cmdCtxSuspend
  extract_lets c s1
  have h1 : Keeps σ s1 := .ite hs.renameThreads hs
  split
  · exact hs.sayReply
  · split
    · exact hs.sayReply
    · exact hs.sayReply
    · exact hs.suspendCtx.waits
    · exact hs.modCtx.waits
    · exact h1.modCtx.sayReply

theorem cmdCtxResume {s : State} {h : Nat} {p : Bytes} (hs : Keeps σ s) : Keeps σ (s.cmdCtxResume h p).2 := by
  unfold State.cmdCtxResume
  extract_lets c x s1 s2
  have h1 : Keeps σ s1 := hs.modCtx.modCmd
  have h2 : Keeps σ s2 := h1.readmit
  split
  · exact hs.sayReply
  · split
    · exact hs.sayReply
    · split
      · exact hs.modCtx.sayReply
      · exact .iteSnd hs.sayReply (.iteSnd h2 (.pair h2.interim))

theorem cmdCtxQuery {s : State} {k : OutCmd} {p : Bytes} (hs : Keeps σ s) : Keeps σ (s.cmdCtxQuery k p).2 := by
  unfold State.cmdCtxQuery
  extract_lets c out
  split
  · exact hs.sayReply
  · exact .iteSnd hs.sayReply (.iteSnd hs.sayReply hs)

/-! ### Rings (R324, R345) -/

theorem cmdRingBind {s : State} {p : Bytes} (hs : Keeps σ s) : Keeps σ (s.cmdRingBind p).2 := by
  unfold State.cmdRingBind
  extract_lets n c
  split
  · exact hs.sayReply
  · exact .iteSnd hs.sayReply (.iteSnd hs.sayReply hs.modRing.sayReply)

theorem cmdRingUnbind {s : State} {k : OutCmd} {p : Bytes} (hs : Keeps σ s) : Keeps σ (s.cmdRingUnbind k p).2 :=
  .iteSnd hs.sayReply hs.modRing.sayReply

/-! ### Mapping (R217, R220, R221) -/

theorem mapPages {s : State} {ps : List Nat} {owner : Owner} {cls : Nat} {rw : Bool} {st : PageState}
    (hs : Keeps σ s) :
    Keeps σ (s.mapPages ps owner cls rw st) := hs.foldl (fun _ _ h => h.forgetLost.freshFrame.modMem)

theorem cmdMemMap {s : State} {k : OutCmd} {p : Bytes} (hs : Keeps σ s) : Keeps σ (s.cmdMemMap k p).2 := by
  unfold State.cmdMemMap
  extract_lets base len cls acc ps taken
  split
  · exact hs.sayReply
  · split
    · exact hs.sayReply
    · exact ((hs.ctxAllocate ‹_›).mapPages).sayReply

theorem unmapRange {s : State} {base len : Nat} (hs : Keeps σ s) : Keeps σ (s.unmapRange base len) :=
  hs.foldl (fun _ _ h => h.unmapPage)

theorem cmdMemUnmap {s : State} {h : Nat} {k : OutCmd} {p : Bytes} (hs : Keeps σ s) :
    Keeps σ (s.cmdMemUnmap h k p).2 := .iteSnd hs.sayReply (.iteSnd hs.unmapRange.sayReply hs.waits)

theorem unmapPump {s : State} (hs : Keeps σ s) : Keeps σ s.unmapPump := by
  unfold State.unmapPump
  refine hs.foldl fun _ _ h2 => ?_
  split
  · exact .ite h2.unmapRange.finishCmd h2
  · exact h2

/-! ### Pins and hints (R225, R226) -/

theorem sliceRoom [Plain σ] {s u : State} {a : Nat} (hs : Keeps σ s) (e : s.sliceRoom a = some u) : Keeps σ u := by
  have leave : ∀ v u, (if (s.freeGranule v).1 = true then some
      (s.freeGranule v).2 else none) = some u → Keeps σ u := by
    intro v u e
    split at e
    · cases e; exact hs.freeGranule
    · cases e
  unfold State.sliceRoom at e
  dsimp only at e
  split at e
  · cases e; exact hs
  · split at e
    · exact leave _ _ e
    · split at e
      · obtain ⟨v, -, ev⟩ := Option.bind_eq_some_iff.1 e
        exact leave _ _ ev
      · cases e

theorem pin {s : State} {c g a : Nat} (hs : Keeps σ s) : Keeps σ (s.pin c g a) := hs.modGranule

theorem pinGranule [Plain σ] {s u : State} {c g : Nat} {slices : List Nat} (hs : Keeps σ s)
    (e : s.pinGranule c g slices = some u) : Keeps σ u := by
  unfold State.pinGranule at e
  dsimp only at e
  split at e
  · cases e; exact hs.pin
  · split at e
    · cases e; exact hs.pin
    · obtain ⟨a, -, ea⟩ := List.exists_of_findSome?_eq_some e
      obtain ⟨v, ev, rfl⟩ := Option.map_eq_some_iff.1 ea
      exact (hs.sliceRoom ev).pin.modGranule

theorem placePins [Plain σ] {s : State} {i : Nat} (hs : Keeps σ s) : Keeps σ (s.placePins i) := by
  unfold State.placePins
  refine hs.foldl fun _ _ h2 => ?_
  extract_lets x
  split
  · exact h2
  · split
    · exact h2
    · split
      · exact h2
      · exact (h2.sliceRoom ‹_›).modGranule

theorem pinAll [Plain σ] {s u : State} {c : Nat} {gs slices : List Nat} (hs : Keeps σ s)
    (e : s.pinAll c gs slices = some u) :
    Keeps σ u := hs.foldBind (fun _ _ _ h => h.pinGranule) e

theorem cmdMemPin [Plain σ] {s : State} {k : OutCmd} {p : Bytes} (hs : Keeps σ s) : Keeps σ (s.cmdMemPin k p).2 := by
  unfold State.cmdMemPin
  extract_lets base len mask flags gs named slices fresh
  split
  · exact hs.sayReply
  · split
    · exact hs.sayReply
    · split
      · exact hs.sayReply
      · split
        · exact hs.sayReply
        · split
          · exact (hs.foldl (fun _ _ h5 => h5.modGranule)).sayReply
          · split
            · exact hs.sayReply
            · split
              · exact hs.sayReply
              · exact (hs.pinAll ‹_›).sayReply

theorem prefetch [Plain σ] {s : State} {g : Nat} (hs : Keeps σ s) : Keeps σ (s.prefetch g).2 := by
  unfold State.prefetch
  extract_lets x as a older
  split
  · exact hs
  · split
    · exact hs
    · split
      · split
        · exact .pair ((hs.sliceRoom ‹_›).modGranule)
        · exact hs
      · exact hs

theorem retryRepairs [Plain σ] {s : State} {i : Nat} (hs : Keeps σ s) : Keeps σ (s.retryRepairs i) :=
  hs.foldl (fun _ _ h => h.modMem.ofAny (startRepairAt .refl))

theorem hintPage [Plain σ] {s : State} {c hint i : Nat} (hs : Keeps σ s) : Keeps σ (s.hintPage c hint i) := by
  unfold State.hintPage
  extract_lets gs held
  split
  · exact hs.count
  · split
    · exact hs.modPage.foldl (fun _ _ h8 => .ite h8.modGranule h8)
    · dsimp only
      split
      · exact hs.foldlSnd (fun _ _ h13 => .pair h13.prefetch)
      · exact (hs.foldlSnd (fun _ _ h14 => .pair h14.prefetch)).count
    · exact .ite hs.count (hs.foldl (fun _ _ h15 => h15.modGranule))
    · exact hs.modPage
    · exact .ite hs.count hs.retryRepairs

theorem cmdMemHint [Plain σ] {s : State} {k : OutCmd} {p : Bytes} (hs : Keeps σ s) : Keeps σ (s.cmdMemHint k p).2 :=
  .iteSnd hs.sayReply ((hs.foldl (fun _ _ h => h.hintPage)).sayReply)

/-! ### Copies and fills (R338, R486) -/

theorem returnRanges {s u : State} {c : Nat} {rs : List (Nat × Nat)} (hs : Keeps σ s)
    (e : s.returnRanges c rs = some u) : Keeps σ u := hs.beginReturns e

theorem cmdMemCopy {s : State} {h : Nat} {k : OutCmd} {p : Bytes} (hs : Keeps σ s) :
    Keeps σ (s.cmdMemCopy h k p).2 := by
  unfold State.cmdMemCopy
  exact .iteSnd hs.sayReply (by dsimp only; split; exacts [hs.sayReply, (hs.returnRanges ‹_›).waits])

theorem cmdMemFill {s : State} {h : Nat} {k : OutCmd} {p : Bytes} (hs : Keeps σ s) :
    Keeps σ (s.cmdMemFill h k p).2 := by
  unfold State.cmdMemFill
  extract_lets dst len
  split
  · exact hs.sayReply
  · split
    · exact hs.sayReply
    · exact (hs.returnRanges ‹_›).waits

theorem copyGo {s : State} {h : Nat} (hs : Keeps σ s) : Keeps σ (s.copyGo h) := by
  unfold State.copyGo
  split
  · exact hs
  · extract_lets away
    split
    · exact .ite hs (.ite hs.finishCmd hs.store.finishCmd)
    · split
      · exact hs
      · split
        · exact hs.finishCmd
        · dsimp only
          split
          · exact hs.sourcesReady
          · split
            · split
              · exact hs.sourcesReady.touch.countLost.countSuppressed.finishCmd
              · exact (hs.sourcesReady.touch.countLost.foldl (fun _ _ h8 => .ite h8.busWrite h8)).finishCmd
            · exact hs.sourcesReady.touch.countLost.store.markLost.bind.finishCmd
    · exact hs

theorem copyCut {s : State} {dst len : Nat} (hs : Keeps σ s) : Keeps σ (s.copyCut dst len) := by
  unfold State.copyCut
  dsimp only
  exact hs.foldl (fun _ _ h1 => .ite h1.free.store h1.free)

theorem copyInGo {s : State} {h dst len : Nat} {data : BusData} (hs : Keeps σ s) :
    Keeps σ (s.copyInGo h dst len data) := by
  unfold State.copyInGo
  split
  · extract_lets c s1
    have h1 : Keeps σ s1 := .ite hs.copyCut hs
    exact h1.count.finishCmd
  · extract_lets c
    exact .ite hs (.ite hs.finishCmd hs.store.finishCmd)

/-! ### `POOL_QUOTA` (R227, R229) -/

theorem cmdPoolQuota {s : State} {p : Bytes} (hs : Keeps σ s) : Keeps σ (s.cmdPoolQuota p).2 := by
  unfold State.cmdPoolQuota
  extract_lets c mask new s1
  have h1 : Keeps σ s1 := hs.modCtx
  split
  · exact hs.sayReply
  · split
    · exact hs.sayReply
    · exact .iteSnd hs.sayReply (.iteSnd hs.sayReply h1.sayReply)

/-! ### `PROVENANCE_SET` (R238, R239) -/

theorem cmdProvenance {s : State} {k : OutCmd} {p : Bytes} (hs : Keeps σ s) : Keeps σ (s.cmdProvenance k p).2 := by
  unfold State.cmdProvenance
  extract_lets base len n track region srcs badSrc old new
  split
  · exact hs.sayReply
  · split
    · exact hs.sayReply
    · split
      · exact hs.sayReply
      · split
        · exact hs.sayReply
        · exact .iteSnd hs.sayReply (.iteSnd hs.sayReply hs.modMem.sayReply)

/-! ### The Strongroom's commands and the resident model -/

theorem alarm {s : State} {k : OutCmd} {cls index code : Nat} (hs : Keeps σ s) :
    Keeps σ (s.alarm k cls index code) := by
  unfold State.alarm
  dsimp only
  exact hs.cmdEntry.raise

theorem pinEntry {s : State} {k : OutCmd} {cls index : Nat} (hs : Keeps σ s) :
    Keeps σ (s.pinEntry k cls index) := by
  unfold State.pinEntry
  dsimp only
  exact hs.cmdEntry.catalogue

/-! ### Loan records (R420, R421) -/

theorem cmdLoanPresent {s : State} {h : Nat} {k : OutCmd} {p : Bytes} (hs : Keeps σ s) :
    Keeps σ (s.cmdLoanPresent h k p).2 := .iteSnd hs.sayReply (.iteSnd hs.sayReply hs.waits)

theorem loanArrives {s : State} {h len : Nat} {data : BusData} (hs : Keeps σ s) :
    Keeps σ (s.loanArrives h len data) := by
  unfold State.loanArrives
  split
  · exact hs
  · exact hs.count.count.finishCmd
  · extract_lets b id s1
    have h1 : Keeps σ s1 := hs.count
    split
    · exact hs.finishCmd
    · exact (Keeps.ite h1.alarm h1).finishCmd
    · extract_lets l s1'
      have h1' : Keeps σ s1' := hs.modSr.count
      exact h1'.pinEntry.finishCmd

/-! ### Revocation (R423, R424) -/

theorem revokeLoan {s : State} {id : Word} (hs : Keeps σ s) : Keeps σ (s.revokeLoan id) :=
  (hs.foldl (fun _ _ h => h.unmapPage)).modSr

theorem cmdLoanRevoke {s : State} {k : OutCmd} {p : Bytes} (hs : Keeps σ s) : Keeps σ (s.cmdLoanRevoke k p).2 := by
  unfold State.cmdLoanRevoke
  extract_lets id
  split
  · exact hs.sayReply
  · split
    · exact hs.sayReply
    · exact .iteSnd hs.sayReply (.iteSnd hs.sayReply hs.revokeLoan.count.pinEntry.sayReply)

theorem execLoanExpiry {loan : Word} {s : State} (hs : Keeps σ s) : Goes σ (execLoanExpiry loan s) := by
  unfold Machine.execLoanExpiry
  refine .next ?_
  split
  · exact hs
  · exact .ite hs hs.revokeLoan.count.catalogue

/-! ### Attestation (R428 to R430) -/

theorem cmdAttest {s : State} {h : Nat} {k : OutCmd} {p : Bytes} (hs : Keeps σ s) : Keeps σ (s.cmdAttest h k p).2 :=
  .iteSnd hs.sayReply (.iteSnd hs.sayReply hs.modSr.waits)

theorem signQuote {s : State} (hs : Keeps σ s) : Keeps σ s.signQuote := by
  unfold State.signQuote
  split
  · exact hs
  · extract_lets b s1 s2
    have h1 : Keeps σ s1 := hs.modSr.count
    have h2 : Keeps σ s2 := h1.finishCmd
    exact .ite h2.modSr h2

theorem execQuoteSigned {s : State} (hs : Keeps σ s) : Goes σ (execQuoteSigned s) := .next hs.signQuote

theorem cmdIdentity {s : State} {k : OutCmd} {p : Bytes} (hs : Keeps σ s) : Keeps σ (s.cmdIdentity k p).2 :=
  .iteSnd hs.sayReply hs

/-! ### The resident model (R353 to R355, R425) -/

theorem settleModel {s : State} {h : Nat} (hs : Keeps σ s) : Keeps σ (s.settleModel h) := .ite hs hs.modMem

theorem loadFail {s : State} {h dst len : Nat} {r : Reply} (hs : Keeps σ s) : Keeps σ (s.loadFail h dst len r) :=
  (((hs.foldl (fun _ _ h => h.unmapPage)).modFabric).settleModel).finishCmd

theorem loadData {s : State} {h : Nat} {model : Word} {dst len : Nat} {tight : Bool} {bs : Bytes} (hs : Keeps σ s) :
    Keeps σ (s.loadData h model dst len tight bs) := by
  unfold State.loadData
  dsimp only
  generalize (if tight = true then _ else _) = plain
  cases plain with
  | none =>
    cases s.cmd? h with
    | none => exact hs
    | some k => exact hs.count.alarm.loadFail
  | some d =>
    refine Keeps.finishCmd (Keeps.settleModel ?_)
    split
    · exact hs.store
    · exact hs.store.foldl fun _ _ h => h.modPage

theorem cmdModelLoad {s : State} {h : Nat} {p : Bytes} (hs : Keeps σ s) : Keeps σ (s.cmdModelLoad h p).2 := by
  unfold State.cmdModelLoad
  extract_lets id model kind src dst len ps loan dev tight n
  split
  · exact hs.sayReply
  · split
    · exact hs.sayReply
    · split
      · exact hs
      · split
        · exact hs
        · split
          · exact hs
          · extract_lets s2 s3 s4
            have h2 : Keeps σ s2 := ((hs.allocate ‹_›).mapPages).modMem
            have h3 : Keeps σ s3 := h2.foldl (fun _ _ h10 => h10.request)
            have h4 : Keeps σ s4 := h3.modCmd
            exact .iteSnd h2.waits (.pair (.ite h4.loadData h4))

theorem loadHostGo {s : State} {h : Nat} {model : Word} {dst len : Nat} {tight : Bool} {d : BusData}
    (hs : Keeps σ s) :
    Keeps σ (s.loadHostGo h model dst len tight d) := by
  cases d with
  | error => exact hs.count.loadFail
  | bytes bs => exact hs.loadData

theorem loadFabricGo {s : State} {h off : Nat} {bs : Bytes} (hs : Keeps σ s) :
    Keeps σ (s.loadFabricGo h off bs) := by
  unfold State.loadFabricGo
  split
  · exact hs
  · split
    · extract_lets s1
      have h1 : Keeps σ s1 := hs.modCmd
      exact .ite h1 h1.loadData
    · exact hs

theorem cmdModelEvict {s : State} {p : Bytes} (hs : Keeps σ s) : Keeps σ (s.cmdModelEvict p).2 := by
  unfold State.cmdModelEvict
  extract_lets model pool
  split
  · exact hs.sayReply
  · exact .iteSnd hs.sayReply (.iteSnd hs.sayReply (((hs.foldl (fun _ _ h1 => h1.unmapPage)).modMem).sayReply))

/-! ### The meanings of `LAUNCH` and `BATCH_SUBMIT` (R339, R340, R358, R364), `FENCE` (R343), `STEP_COMMIT` -/

theorem cmdLaunch {s : State} {h : Nat} {k : OutCmd} {p : Bytes} (hs : Keeps σ s) :
    Keeps σ (s.cmdLaunch h k p).2 := by
  unfold State.cmdLaunch
  extract_lets l id s1
  have h1 : Keeps σ s1 := hs.unwatched.modCmd
  split
  · exact hs.sayReply
  · split
    · exact hs.sayReply
    · split
      · exact hs.sayReply
      · split
        · exact hs.sayReply
        · exact .iteSnd hs.sayReply (.iteSnd hs.sayReply (.pair h1.submit))

theorem cmdFence {s : State} {h : Nat} {k : OutCmd} (hs : Keeps σ s) : Keeps σ (s.cmdFence h k).2 :=
  .iteSnd hs.sayReply hs.waits

theorem cmdStepCommit {s : State} {h : Nat} {k : OutCmd} {p : Bytes} (hs : Keeps σ s) :
    Keeps σ (s.cmdStepCommit h k p).2 := by
  unfold State.cmdStepCommit
  extract_lets step gid s1
  have h1 : Keeps σ s1 := hs.modGuard.modCmd
  split
  · exact hs.sayReply
  · exact hs.sayReply
  · split
    · exact hs
    · exact .iteSnd (.pair h1.commitStart) h1

theorem cmdStepAbandon {s : State} {k : OutCmd} {p : Bytes} (hs : Keeps σ s) :
    Keeps σ (s.cmdStepAbandon k p).2 := by
  unfold State.cmdStepAbandon
  extract_lets step
  split
  · split
    · exact hs.modGuard.count.sayReply
    · exact hs.sayReply
    · exact hs.sayReply
    · exact hs.sayReply
  · exact .iteSnd hs.makeGuard.count.sayReply hs.sayReply

/-! ### `CKPT_BEGIN` (R402) -/

theorem cmdCkptBegin {s : State} {h : Nat} {k : OutCmd} {p : Bytes} (hs : Keeps σ s) :
    Keeps σ (s.cmdCkptBegin h k p).2 := by
  unfold State.cmdCkptBegin
  extract_lets id target kind n dst rs mirror loans bytes ckpt step entry stream
  split
  · exact hs.sayReply
  · split
    · split
      · exact hs.sayReply
      · split
        · exact hs.sayReply
        · split
          · exact hs.sayReply
          · split
            · exact hs.sayReply
            · split
              · exact hs.sayReply
              · extract_lets s2 s3
                have h2 : Keeps σ s2 := (hs.beginReturns ‹_›).modTwin
                have h3 : Keeps σ s3 := h2.count.modCmd
                exact .pair h3.streamGo
    · split
      · exact hs.sayReply
      · split
        · exact hs.sayReply
        · split
          · exact hs.sayReply
          · split
            · exact hs.sayReply
            · split
              · exact hs.sayReply
              · extract_lets s2 s3
                have h2 : Keeps σ s2 := (hs.beginReturns ‹_›).modTwin
                have h3 : Keeps σ s3 := h2.count.modCmd
                exact .pair h3.streamGo

/-! ### `CKPT_DRAIN` (R405) -/

theorem cmdCkptDrain {s : State} {h : Nat} {k : OutCmd} {p : Bytes} (hs : Keeps σ s) :
    Keeps σ (s.cmdCkptDrain h k p).2 := by
  unfold State.cmdCkptDrain
  extract_lets ckpt kind dst
  split
  · exact hs.sayReply
  · split
    · exact hs.sayReply
    · split
      · exact hs.sayReply
      · split
        · exact hs.sayReply
        · split
          · exact hs.count.sayReply
          · exact .iteSnd hs.sayReply (.iteSnd hs.sayReply (.pair hs.modTwin.modCmd.jobGo))

/-! ### `CKPT_RESTORE` (R406, R407) -/

theorem restoreFetch {s : State} {h ctx : Nat} {src : Word} {off len : Nat} (hs : Keeps σ s) :
    Keeps σ (s.restoreFetch h ctx src off len) := hs.request

theorem cmdCkptRestore {s : State} {h : Nat} {k : OutCmd} {p : Bytes} (hs : Keeps σ s) :
    Keeps σ (s.cmdCkptRestore h k p).2 := by
  unfold State.cmdCkptRestore
  extract_lets ckpt kind owner src dev job s1
  have h1 : Keeps σ s1 := hs.modTwin.count.modCmd
  split
  · exact hs.sayReply
  · split
    · exact hs.sayReply
    · split
      · split
        · exact .iteSnd (.pair hs.count) hs.sayReply
        · split
          · exact hs.sayReply
          · split
            · exact .pair hs.count
            · split
              · exact hs.sayReply
              · split
                · exact hs.sayReply
                · split
                  · exact hs.sayReply
                  · extract_lets job' s2
                    have h2 : Keeps σ s2 := (((hs.returnRanges ‹_›).modTwin).count).modCmd
                    exact .pair h2.jobGo
      · exact .iteSnd hs.sayReply (.pair (.ite h1 h1.restoreFetch))

theorem restoreImage {s : State} {h : Nat} {j : MirrorJob} {image : Bytes} (hs : Keeps σ s) :
    Keeps σ (s.restoreImage h j image) := by
  unfold State.restoreImage
  extract_lets head table rs data place
  split
  · exact hs.endJob
  · split
    · split
      · exact hs.endJob
      · exact (hs.returnRanges ‹_›).modTwin
    · split
      · exact (hs.foldlFst (fun _ _ h6 => .pairFst h6.store)).endJob
      · dsimp only
        exact ((Keeps.pairFst hs.free).foldlFst (fun _ _ h8 => .pairFst h8.store)).endJob

theorem restoreData {s : State} {h : Nat} {bs : Bytes} (hs : Keeps σ s) : Keeps σ (s.restoreData h bs) := by
  unfold State.restoreData
  split
  · exact hs
  · extract_lets data head s1
    have h1 : Keeps σ s1 := hs.modTwin
    split
    · exact hs.endJob
    · split
      · exact hs.endJob
      · split
        · exact .ite (.ite h1 h1.endJob) h1.restoreFetch
        · exact h1.restoreImage

theorem jobWake {s : State} {h : Nat} (hs : Keeps σ s) : Keeps σ (s.jobWake h) := by
  unfold State.jobWake
  split
  · exact hs
  · exact .ite hs.jobGo (.ite hs.restoreImage hs)

/-! ### Pairing (R399, R400) -/

theorem tryPair {s : State} (hs : Keeps σ s) : Keeps σ s.tryPair := .ite hs.modTwin.setPair.dirSync hs

theorem offerPair {s : State} (hs : Keeps σ s) : Keeps σ s.offerPair := by
  unfold State.offerPair
  split
  · exact hs
  · exact .ite hs.twinSend hs

theorem twinUp {s : State} (hs : Keeps σ s) : Keeps σ s.twinUp := .ite hs.dirSync.offerPair.tryPair hs

theorem reserveMirror {s : State} {gib : Nat} (hs : Keeps σ s) : Keeps σ (s.reserveMirror gib) := hs.modTwin.modMem

theorem pairWith {s : State} {dev gib : Nat} (hs : Keeps σ s) : Keeps σ (s.pairWith dev gib).2 := by
  unfold State.pairWith
  extract_lets holds s1
  have h1 : Keeps σ s1 := hs.reserveMirror.modTwin
  split
  · exact hs.sayReply
  · split
    · exact hs.sayReply
    · split
      · exact .iteSnd hs.sayReply (.iteSnd hs.sayReply hs.twinSend.modTwin.settleAdoption.sayReply)
      · exact .iteSnd (.iteSnd hs.sayReply hs.reserveMirror.sayReply) h1.offerPair.tryPair.sayReply

theorem discardEntry {s : State} {ckpt : Word} (hs : Keeps σ s) : Keeps σ (s.discardEntry ckpt) := by
  unfold State.discardEntry
  extract_lets hit jobs s1 s2
  have h1 : Keeps σ s1 := .ite ((hs.foldl (fun _ _ h => h.endJob)).modTwin) hs
  have h2 : Keeps σ s2 := h1.freeHeld
  exact (Keeps.ite h2 h2.dirSync).settleAdoption

theorem cmdTwinState {s : State} {k : OutCmd} {p : Bytes} (hs : Keeps σ s) : Keeps σ (s.cmdTwinState k p).2 := by
  unfold State.cmdTwinState
  extract_lets action dev gib out
  split
  · exact hs.sayReply
  · split
    · exact hs.sayReply
    · split
      · exact hs
      · split
        · exact hs.pairWith
        · exact .iteSnd ((Keeps.ite hs.modTwin hs.twinSend.unpair).sayReply) hs.discardEntry.sayReply

theorem sendAdopt {s : State} (hs : Keeps σ s) : Keeps σ s.sendAdopt := hs.twinSend

theorem cmdTwinAdopt {s : State} {p : Bytes} (hs : Keeps σ s) : Keeps σ (s.cmdTwinAdopt p).2 := by
  unfold State.cmdTwinAdopt
  extract_lets role dev former gib w own s1 s2
  have h1 : Keeps σ s1 := hs.reserveMirror.modTwin
  have h2 : Keeps σ s2 := h1.setPair
  split
  · exact hs.sayReply
  · split
    · exact hs.sayReply
    · split
      · exact hs.sayReply
      · split
        · exact hs.sayReply
        · split
          · exact hs.sayReply
          · exact .iteSnd hs.sayReply ((Keeps.ite h2.sendAdopt h2.dirSync).sayReply)

/-! ### Changes of state -/

theorem setPort {s : State} {p : Nat} {st : PortState} (hs : Keeps σ s) : Keeps σ (s.setPort p st) := hs.modPort

theorem capsChanged {s : State} (hs : Keeps σ s) : Keeps σ s.capsChanged := .ite hs.unwatched hs

theorem startCutTimers {s : State} (hs : Keeps σ s) : Keeps σ s.startCutTimers := by
  unfold State.startCutTimers
  exact (hs.foldl (fun _ _ h => h.startTimer)).modFabric

theorem dropSnapshots {s : State} {p : Nat} (hs : Keeps σ s) : Keeps σ (s.dropSnapshots p) := .ite hs hs.modPort

theorem portFault {s : State} {p : Nat} {command : Bool} (hs : Keeps σ s) : Keeps σ (s.portFault p command) :=
  .ite hs.capsChanged.raise hs.capsChanged.raise.fault

theorem leaveActive {s : State} {p : Nat} {st : PortState} {planned command : Bool} (hs : Keeps σ s) :
    Keeps σ (s.leaveActive p st planned command) := by
  unfold State.leaveActive
  extract_lets s1 s2 s3 s4
  have h1 : Keeps σ s1 := ((hs.foldl (fun _ _ h => h.endStall)).setPort).modPort
  have h2 : Keeps σ s2 := h1.count
  have h3 : Keeps σ s3 := .ite h2 h2.dropSnapshots
  have h4 : Keeps σ s4 := .ite h3 h3.portFault
  exact h4.startCutTimers

theorem fallToTraining {s : State} {p : Nat} (hs : Keeps σ s) : Keeps σ (s.fallToTraining p) := by
  unfold State.fallToTraining
  extract_lets x s1
  have h1 : Keeps σ s1 := hs.setPort.modPort.dropSnapshots
  exact (Keeps.ite h1.portFault h1).startCutTimers

theorem portFail {s : State} {p cause : Nat} (hs : Keeps σ s) : Keeps σ (s.portFail p cause) := by
  unfold State.portFail
  extract_lets s1 s2 s3
  have h1 : Keeps σ s1 := .ite hs.leaveActive hs.setPort
  have h2 : Keeps σ s2 := h1.modPort.dropSnapshots.startCutTimers
  have h3 : Keeps σ s3 := .ite h2.raise h2
  exact h3.fault

theorem enterActive {s : State} {p : Nat} (hs : Keeps σ s) : Keeps σ (s.enterActive p) := by
  unfold State.enterActive
  extract_lets x s1 narrow s2 s3
  have h1 : Keeps σ s1 := hs.setPort.modPort
  have h2 : Keeps σ s2 := .ite h1 h1.capsChanged.raise
  have h3 : Keeps σ s3 := h2.pump
  exact .ite h3.streamResume h3

theorem tryActive {s : State} {p : Nat} (hs : Keeps σ s) : Keeps σ (s.tryActive p) := .ite hs.enterActive hs

/-! ### Keys (R265) -/

theorem startKeying {s : State} {p : Nat} (hs : Keeps σ s) : Keeps σ (s.startKeying p) := by
  unfold State.startKeying
  dsimp only
  exact hs.random.modPort

/-! ### The replay window (R255) -/

theorem takeAck {s : State} {p : Nat} {f : Flit} (hs : Keeps σ s) : Keeps σ (s.takeAck p f) :=
  .ite hs (.ite hs.modPort hs.modPort.modPort.count)

/-! ### Frames (R257, R261, R262, R264) -/

theorem traceHeader {s : State} {p type : Nat} {k : Packet} (hs : Keeps σ s) : Keeps σ (s.traceHeader p type k) :=
  hs.trace

theorem closeFrame {s : State} {p : Nat} (hs : Keeps σ s) : Keeps σ (s.closeFrame p) := by
  unfold State.closeFrame
  extract_lets x credits
  dsimp only
  exact .ite hs (hs.modPort.count.foldl (fun _ _ h1 => .ite h1.traceHeader.startTimer h1.traceHeader))

/-! ### The mailbox (R369, R370) -/

theorem takeSnapshot {s : State} {cause : Nat} (hs : Keeps σ s) : Keeps σ (s.takeSnapshot cause) := hs.modHost.count

theorem execSnapshotReq {value : BitVec 32} {s : State} (hs : Keeps σ s) : Goes σ (execSnapshotReq value s) :=
  .next (.ite hs.modHost hs)

theorem execSnapshotComplete {s : State} (hs : Keeps σ s) : Goes σ (execSnapshotComplete s) :=
  .next (.ite hs.takeSnapshot hs)

/-! ### Firmware (R442, R443) -/

theorem activateFirmware {s : State} (hs : Keeps σ s) : Keeps σ s.activateFirmware := by
  unfold State.activateFirmware
  split
  · exact hs
  · extract_lets slot k
    exact hs.modLodge

/-! ### Configuration (R445 to R447) -/

theorem applyConfig {s : State} {b : Bytes} {c : Settings} {seq : Nat} (hs : Keeps σ s) :
    Keeps σ (s.applyConfig b c seq) := hs.modLodge

/-! ### Sessions (R439) -/

theorem closeSession {s : State} {id : Nat} {tell : Bool} (hs : Keeps σ s) : Keeps σ (s.closeSession id tell) := by
  unfold State.closeSession
  exact hs.modLodge.catalogue

theorem closeUnenrolled {s : State} (hs : Keeps σ s) : Keeps σ s.closeUnenrolled :=
  hs.foldl (fun _ _ h => h.closeSession)

/-! ### Transaction records (R385, R388 to R390) -/

theorem modTxn {s : State} {id : Word} {f : Txn → Txn} (hs : Keeps σ s) : Keeps σ (s.modTxn id f) := hs.modLodge

theorem moveTxn {s : State} {e : CatEntry} {t : Txn} {st : TxnState} {failed : Nat} (hs : Keeps σ s) :
    Keeps σ (s.moveTxn e t st failed) := hs.catalogue.modLodge.count.count

theorem oweEffect {s : State} {c : StagedCmd} (hs : Keeps σ s) : Keeps σ (s.oweEffect c) := by
  unfold State.oweEffect
  split
  · exact .ite hs.activateFirmware.catalogue hs
  · split
    · split
      · exact hs
      · split
        · exact hs.applyConfig.catalogue
        · exact hs
    · exact .ite hs.modLodge (.ite hs.modLodge hs)

theorem resetTxns {s : State} {left : Txn → Nat} (hs : Keeps σ s) : Keeps σ (s.resetTxns left) := by
  unfold State.resetTxns
  refine hs.foldl fun _ _ h4 => ?_
  split
  · exact .ite ((h4.foldl (fun _ _ h6 => h6.oweEffect)).moveTxn) h4.moveTxn
  · exact h4
  · exact .ite h4.modTxn h4

/-! ### `ARRAY` (R55, R378) -/

theorem beginArrayReset {s0 : State} {a : Nat} (hs : Keeps σ s0) : Keeps σ (s0.beginArrayReset a) := by
  unfold State.beginArrayReset
  extract_lets s gone s1
  have h : Keeps σ s := hs.endMiss
  have h1 : Keeps σ s1 := h.unwatched
  refine Keeps.sequenceAll ?_
  refine h1.foldl fun _ _ h4 => ?_
  split
  · exact h4.opTrap
  · exact h4

theorem arrayPasses {s : State} {a : Nat} (hs : Keeps σ s) : Keeps σ (s.arrayPasses a) := hs.modArray.sequenceAll

theorem arrayFails {s : State} {a : Nat} (hs : Keeps σ s) : Keeps σ (s.arrayFails a) := by
  unfold State.arrayFails
  extract_lets s1 mine s2 s3 pairs
  have h1 : Keeps σ s1 := hs.modArray.capsChanged.raise.fault
  have h2 : Keeps σ s2 := h1.foldl (fun _ _ h => .ite h.trap h)
  have h3 : Keeps σ s3 := h2.foldl (fun _ _ h1 => h1.opTrap)
  exact ((Keeps.ite h3 h3.endMiss).foldl (fun _ _ h2 => h2.opTrap)).sequenceAll

/-! ### `PORT` (R250, R375) -/

theorem retrainFailed {s : State} {p : Nat} (hs : Keeps σ s) : Keeps σ (s.retrainFailed p) := hs.setPort.modPort

theorem beginPortReset {s : State} {p : Nat} {command : Bool} (hs : Keeps σ s) :
    Keeps σ (s.beginPortReset p command) := by
  unfold State.beginPortReset
  split
  · exact hs.leaveActive.modPort
  · exact .ite hs.retrainFailed hs.modPort
  · exact hs.modPort.startKeying
  · exact hs.modPort

/-! ### `CHIP` (R374, R376, R379) -/

theorem clearChip {s : State} (hs : Keeps σ s) : Keeps σ s.clearChip :=
  hs.trans ⟨rfl, rfl, fun k => ⟨nofun, Nat.zero_le _, .inl rfl, .inl rfl, k.incarnationPos, k.incarnationMax⟩,
    fun ⟨_, hb, ht⟩ => ⟨rfl, hb, ht⟩, fun hc x hx => hc x (List.mem_of_mem_filter hx), (fun _ _ hx => nomatch hx),
    fun _ => Whole.holds_of_empty (σ := σ) rfl⟩

/-- The incarnation moves on, and stays a nonzero 16-bit number (R376). -/
theorem nextIncarnation {s : State} {f : Lodge → Lodge} (hs : Keeps σ s)
    (e : (f s.lodge).incarnation = Machine.nextIncarnation s.lodge.incarnation := by rfl) : Keeps σ
        (s.modLodge f) := by
  have within : 1 ≤ Machine.nextIncarnation s.lodge.incarnation ∧ Machine.nextIncarnation s.lodge.incarnation ≤ 0xFFFF := by
    unfold Machine.nextIncarnation
    split <;> omega
  exact hs.trans ⟨rfl, rfl, fun k => ⟨k.fp64, k.level, k.lane, k.permitted, e ▸ within.1, e ▸ within.2⟩, id, id, id,
    id⟩

theorem beginChipReset {s : State} (hs : Keeps σ s) : Keeps σ s.beginChipReset := by
  unfold State.beginChipReset
  extract_lets s1 s2 s3
  have h1 : Keeps σ s1 := hs.healthEvent
  have h2 : Keeps σ s2 := .ite h1 h1.takeSnapshot
  have h3 : Keeps σ s3 := h2.resetTxns.nextIncarnation
  exact h3.clearChip

/-! ### Power and `MODULE` (R375, R390, R401, R451, R461) -/

theorem powerDown {s : State} (hs : Keeps σ s) : Keeps σ s.powerDown :=
  hs.trans ⟨rfl, rfl, fun k => ⟨nofun, Nat.zero_le _, .inl rfl, .inl rfl, k.incarnationPos, k.incarnationMax⟩,
    fun ⟨_, hb, _⟩ => ⟨rfl, hb, rfl⟩, (fun _ _ hx => nomatch hx), (fun _ _ hx => nomatch hx),
    fun _ => Whole.holds_of_empty (σ := σ) rfl⟩

theorem keepCommits {s : State} (hs : Keeps σ s) : Keeps σ s.keepCommits := hs.modLodge

theorem keepTime {s : State} (hs : Keeps σ s) : Keeps σ s.keepTime := hs.modLodge

theorem powerOff {s : State} (hs : Keeps σ s) : Keeps σ s.powerOff := hs.keepCommits.keepTime.powerDown.modLodge

theorem sensorDry {s : State} (hs : Keeps σ s) : Keeps σ s.sensorDry.2 := by
  unfold State.sensorDry
  dsimp only
  exact .iteSnd hs (.pair hs.free.modLodge)

/-- The counters that a shutdown leaves are those of before (R391). -/
theorem shutDown {s : State} (hs : Keeps σ s) : Keeps σ s.shutDown := by
  unfold State.shutDown
  extract_lets s1 off
  have h1 : Keeps σ s1 := hs.keepCommits.keepTime
  exact h1.trans ⟨rfl, rfl, fun k => ⟨nofun, Nat.zero_le _, .inl rfl, .inl rfl, k.incarnationPos, k.incarnationMax⟩,
    fun ⟨_, hb, _⟩ => ⟨rfl, hb, rfl⟩,
    fun hc x hx => hc x (List.mem_of_mem_filter hx), (fun _ _ hx => nomatch hx),
    fun _ => Whole.holds_of_empty (σ := σ) rfl⟩

theorem repairPackage {s : State} (hs : Keeps σ s) : Keeps σ s.repairPackage := by
  unfold State.repairPackage
  dsimp only
  exact hs.foldl (fun _ _ h1 => .ite h1.free.modMem h1.free)

theorem wakeUp {s : State} (hs : Keeps σ s) : Keeps σ s.wakeUp := hs.repairPackage.modLodge

theorem beginModuleReset {s : State} (hs : Keeps σ s) : Keeps σ s.beginModuleReset := by
  unfold State.beginModuleReset
  extract_lets s1
  have h1 : Keeps σ s1 := hs.resetTxns.nextIncarnation
  exact h1.keepTime.powerDown.wakeUp

/-! ### Starting and ending resets (R333, R375, R380) -/

theorem beginReset {s : State} {domain target origin : Nat} (hs : Keeps σ s) :
    Keeps σ (s.beginReset domain target origin) := by
  unfold State.beginReset
  extract_lets s1 s2
  have h1 : Keeps σ s1 := hs.modHost
  have h2 : Keeps σ s2 := h1.beginPortReset
  clear_value s2 s1
  split
  · exact h1.beginArrayReset
  · exact h1.beginChannelReset
  · exact .ite h2 h2.endReset
  · exact h1.beginChipReset
  · split
    next dry u e =>
      have hu : Keeps σ u := hs.sensorDry.snd_eq e
      exact .ite hu.beginModuleReset.modHost hu

theorem nextResets {s : State} {n : Nat} (hs : Keeps σ s) : Keeps σ (State.nextResets n s) := by
  induction n generalizing s with
  | zero => exact hs
  | succ n ih =>
    unfold State.nextResets
    split
    · exact ih (.ite hs.modHost.beginReset hs.modHost)
    · exact hs

theorem resetDone {s : State} (hs : Keeps σ s) : Keeps σ s.resetDone := hs.endReset.nextResets

theorem requestReset {s : State} {domain target origin : Nat} (hs : Keeps σ s) :
    Keeps σ (s.requestReset domain target origin) := by
  unfold State.requestReset
  extract_lets h
  split
  · exact .ite hs.beginReset hs
  · exact .ite hs.modHost.beginReset (.ite hs hs.modHost)

theorem portResetOver {s : State} {p : Nat} (hs : Keeps σ s) : Keeps σ (s.portResetOver p) := .ite hs.resetDone hs

/-! ### `RESET_REQ` (R333) -/

theorem resetReq {s : State} {key : Byte} {domain target : Nat} (hs : Keeps σ s) :
    Keeps σ (s.resetReq key domain target) := by
  unfold State.resetReq
  extract_lets fits
  split
  · exact hs
  · exact .ite hs.count ((Keeps.ite hs.healthEvent hs).beginReset)

theorem execArrayReset {key : Byte} {target : BitVec 16} {s : State} (hs : Keeps σ s) :
    Goes σ (execArrayReset key target s) := .next hs.resetReq

theorem execChannelReset {key : Byte} {target : BitVec 16} {s : State} (hs : Keeps σ s) :
    Goes σ (execChannelReset key target s) := .next hs.resetReq

theorem execPortReset {key : Byte} {target : BitVec 16} {s : State} (hs : Keeps σ s) :
    Goes σ (execPortReset key target s) := .next hs.resetReq

theorem execChipReset {key : Byte} {target : BitVec 16} {s : State} (hs : Keeps σ s) :
    Goes σ (execChipReset key target s) := .next hs.resetReq

/-! ### PCIe resets (R320, R321, R470) -/

theorem pcieReset {s : State} (hs : Keeps σ s) : Keeps σ s.pcieReset := .ite hs hs.requestReset

theorem execPerstAssert {s : State} (hs : Keeps σ s) : Goes σ (execPerstAssert s) := .next hs.modHost.pcieReset

theorem execPerstDeassert {s : State} (hs : Keeps σ s) : Goes σ (execPerstDeassert s) := .next hs.modHost

theorem execHotReset {s : State} (hs : Keeps σ s) : Goes σ (execHotReset s) := .next hs.pcieReset

theorem execFunctionLevelReset {s : State} (hs : Keeps σ s) : Goes σ (execFunctionLevelReset s) :=
  .next hs.pcieReset

theorem execLinkDisable {s : State} (hs : Keeps σ s) : Goes σ (execLinkDisable s) := .next hs.pcieReset

/-! ### Internal errors and self-checks (R367, R378) -/

theorem execArrayInternalError {array : Nat} {s : State} (hs : Keeps σ s) :
    Goes σ (execArrayInternalError array s) := .next (.ite hs.fault.requestReset hs)

theorem execArraySelfCheckDone {array : Nat} {passed : Bool} {s : State} (hs : Keeps σ s) :
    Goes σ (execArraySelfCheckDone array passed s) :=
  .next (.ite ((Keeps.ite hs.arrayPasses hs.arrayFails).resetDone) hs)

theorem execChipInternalError {s : State} (hs : Keeps σ s) : Goes σ (execChipInternalError s) :=
  .next (.ite hs.fault.requestReset hs)

theorem execChannelCopyComplete [Plain σ] {channel : Nat} {s : State} (hs : Keeps σ s) :
    Goes σ (execChannelCopyComplete channel s) := by
  unfold Machine.execChannelCopyComplete
  refine .next ?_
  split
  · exact hs
  · extract_lets mine s0 s1
    have h0 : Keeps σ s0 := hs.foldl (fun _ _ h2 => h2.scrubLine)
    have h1 : Keeps σ s1 := h0.modMem.fault
    exact .ite h1.resetDone h1

/-! ### Ports (R282, R283) -/

theorem portAction {s : State} {p action : Nat} (hs : Keeps σ s) : Keeps σ (s.portAction p action) := by
  unfold State.portAction
  extract_lets x s1
  have h1 : Keeps σ s1 := .ite hs.leaveActive (.ite hs.setPort.portFault hs.setPort)
  split
  · exact .ite hs.setPort (.ite hs.retrainFailed hs)
  · exact .ite hs.requestReset (.ite hs h1.modPort.dropSnapshots.startCutTimers.portResetOver)

theorem cmdPortState {s : State} {h : Nat} {k : OutCmd} {p : Bytes} (hs : Keeps σ s) :
    Keeps σ (s.cmdPortState h k p).2 := by
  unfold State.cmdPortState
  extract_lets port action rate width s1
  have h1 : Keeps σ s1 := hs.modPort.portAction
  split
  · exact hs.sayReply
  · split
    · exact hs.sayReply
    · exact .iteSnd hs.sayReply (.iteSnd hs.modCmd.sayReply h1.sayReply)

/-! ### Routes, broadcast sets and timeouts (R284, R285) -/

theorem reroute {s : State} {old : Map Nat} (hs : Keeps σ s) : Keeps σ (s.reroute old) := hs.modFabric

theorem cmdRouteSet {s : State} {k : OutCmd} {p : Bytes} (hs : Keeps σ s) : Keeps σ (s.cmdRouteSet k p).2 := by
  unfold State.cmdRouteSet
  extract_lets kind n c es old s1 ds
  have h1 : Keeps σ s1 := hs.modFabric
  split
  · exact hs.sayReply
  · split
    · exact .iteSnd hs.sayReply (.iteSnd hs.sayReply h1.reroute.settleFlows.pump.sayReply)
    · split
      · exact hs.sayReply
      · exact .iteSnd hs.sayReply (.iteSnd hs.sayReply hs.modCtx.sayReply)

theorem cmdTimeoutSet {s : State} {k : OutCmd} {p : Bytes} (hs : Keeps σ s) : Keeps σ (s.cmdTimeoutSet k p).2 := by
  unfold State.cmdTimeoutSet
  extract_lets c us s1
  have h1 : Keeps σ s1 := .ite hs.modFabric hs.modCtx
  split
  · exact hs.sayReply
  · exact .iteSnd hs.sayReply (.iteSnd hs.sayReply h1.modFabric.sayReply)

/-! ### Groups (R287 to R289) -/

theorem forgetColls {s : State} {c g : Nat} (hs : Keeps σ s) : Keeps σ (s.forgetColls c g) := hs.modCe

theorem cmdGroupDefine {s : State} {k : OutCmd} {p : Bytes} (hs : Keeps σ s) :
    Keeps σ (s.cmdGroupDefine k p).2 := by
  unfold State.cmdGroupDefine
  extract_lets g n count flags epoch key old rs rest
  split
  · exact hs.sayReply
  · split
    · exact .iteSnd hs.sayReply (.iteSnd hs.sayReply hs.forgetColls.modCe.sayReply)
    · split
      · exact hs.sayReply
      · split
        · exact hs.sayReply
        · split
          · exact hs.sayReply
          · exact .iteSnd hs.sayReply (.iteSnd hs.sayReply hs.forgetColls.modCe.sayReply)

/-! ### Re-sharding plans (R310, R311) -/

theorem cmdPermutePlan {s : State} {k : OutCmd} {p : Bytes} (hs : Keeps σ s) :
    Keeps σ (s.cmdPermutePlan k p).2 := by
  unfold State.cmdPermutePlan
  extract_lets id g n flags epoch key old cs append fits all
  split
  · exact hs.sayReply
  · split
    · exact .iteSnd hs.sayReply (.iteSnd hs.sayReply hs.modCe.sayReply)
    · split
      · exact hs.sayReply
      · split
        · exact hs.sayReply
        · split
          · exact hs.sayReply
          · exact .iteSnd hs.modCe.sayReply (.iteSnd hs.modCe.sayReply hs.modCe.sayReply)

/-! ### Reading BAR0 (R322, R323, R325) -/

theorem answerRead {s : State} {bs : Bytes} {poisoned unsupported : Bool} (hs : Keeps σ s) :
    Keeps σ (s.answerRead bs poisoned unsupported) := hs.modHost

theorem execDeviceTimeLowRead {s : State} (hs : Keeps σ s) : Goes σ (execDeviceTimeLowRead s) :=
  .next hs.modHost.answerRead

/-! ### Doorbells (R321, R324, R326) -/

theorem bindRing0 {s : State} {n : Nat} (hs : Keeps σ s) : Keeps σ (s.bindRing0 n) := .ite hs.modRing hs

theorem ringDoorbell {s : State} {n width : Nat} {value : Word} (hs : Keeps σ s) :
    Keeps σ (s.ringDoorbell n width value) := by
  unfold State.ringDoorbell
  split
  · exact hs.count
  · extract_lets s1 s2 r
    have h1 : Keeps σ s1 := hs.bindRing0
    have h2 : Keeps σ s2 := h1.modRing.count
    exact .ite h1.count (.ite h2.stopRing h2)

theorem execDoorbell {ring width : Nat} {value : Word} {s : State} (hs : Keeps σ s) :
    Goes σ (execDoorbell ring width value s) := .next (.ite hs.ringDoorbell hs)

theorem execRingDrainComplete {ring : Nat} {s : State} (hs : Keeps σ s) : Goes σ (execRingDrainComplete ring s) :=
  .next hs.settleRing

/-! ### Register writes (R13, R322, R325, R333) -/

theorem writeRingEntry {s : State} {n off : Nat} {bs : Bytes} (hs : Keeps σ s) :
    Keeps σ (s.writeRingEntry n off bs) := .ite hs hs.modRing

theorem writeRegister {s : State} {off width : Nat} {value : Word} (hs : Keeps σ s) :
    Keeps σ (s.writeRegister off width value) := by
  unfold State.writeRegister
  extract_lets bs v
  split
  · exact .ite hs.modHost hs
  · split
    · exact .ite hs.resetReq hs.count
    · split
      · exact hs
      · split
        · exact hs.modHost
        · split
          · exact hs.modHost
          · exact .ite hs.ringDoorbell (.ite hs.writeRingEntry hs)

theorem execRegisterWrite {offset width : Nat} {value : Word} {s : State} (hs : Keeps σ s) :
    Goes σ (execRegisterWrite offset width value s) := .next (.ite hs hs.writeRegister)

/-! ### BAR2 (R337) -/

theorem hostReturns {s u : State} {is : List Nat} (hs : Keeps σ s) (e : s.hostReturns is = some u) : Keeps σ u :=
  hs.foldBind (fun _ _ _ h => h.beginReturn) e

theorem bar2Get {s : State} {a n : Nat} (hs : Keeps σ s) : Keeps σ (s.bar2Get a n) := by
  unfold State.bar2Get
  split
  · exact hs.count.answerRead
  · split
    · exact hs.countSuppressed.count.answerRead
    · extract_lets wait s1
      have h1 : Keeps σ s1 := hs.checkRead.touch
      split
      · exact .ite h1.modHost (.ite h1.countLost.count.answerRead h1.answerRead)
      · split
        · exact (hs.hostReturns ‹_›).modHost
        · exact hs.count.answerRead

theorem execBar2Read {offset len : Nat} {s : State} (hs : Keeps σ s) : Goes σ (execBar2Read offset len s) :=
  .next (.ite hs.answerRead hs.bar2Get)

theorem bar2Put {s : State} {a : Nat} {bs : Bytes} (hs : Keeps σ s) : Keeps σ (s.bar2Put a bs) := by
  unfold State.bar2Put
  extract_lets n wait
  split
  · exact hs.modHost
  · split
    · exact hs.count
    · split
      · exact .ite hs.store hs.modHost
      · split
        · exact (hs.hostReturns ‹_›).modHost
        · exact hs

theorem execBar2Write {offset : Nat} {data : Bytes} {s : State} (hs : Keeps σ s) :
    Goes σ (execBar2Write offset data s) := .next (.ite hs.bar2Put hs)

theorem bar2Pump {s : State} (hs : Keeps σ s) : Keeps σ s.bar2Pump :=
  (hs.modHost.foldl (fun _ _ h => h.bar2Put)).foldl (fun _ _ h1 => h1.bar2Get)

theorem bar2Fail {s : State} {i : Nat} (hs : Keeps σ s) : Keeps σ (s.bar2Fail i) :=
  hs.modHost.foldl (fun _ _ h => h.count.answerRead)

/-! ### Arithmetic and compares (R125) -/

theorem writeReg {s : State} {t : ThreadId} {r : BitVec 5} {v : Word} (hs : Keeps σ s) :
    Keeps σ (s.writeReg t r v) := hs.modThread

theorem writePred {s : State} {t : ThreadId} {p : BitVec 3} {v : Bool} (hs : Keeps σ s) :
    Keeps σ (s.writePred t p v) := hs.modThread (by simp)

theorem alu {s : State} {t : ThreadId} {minor : Nat} {w : ScalarWord} {f : Word → Word → Word} (hs : Keeps σ s) :
    Keeps σ (s.alu t minor w f) := hs.issueScalar (fun _ _ h => h.writeReg)

theorem compare {s : State} {t : ThreadId} {minor : Nat} {w : ScalarWord} {f : Word → Word → Bool}
    (hs : Keeps σ s) :
    Keeps σ (s.compare t minor w f) := hs.issueScalar (fun _ _ h => h.writePred)

theorem predOp {s : State} {t : ThreadId} {minor : Nat} {w : ScalarWord} {f : Bool → Bool → Bool} (hs : Keeps σ s) :
    Keeps σ (s.predOp t minor w f) := hs.issueScalar (fun _ _ h => h.writePred)

theorem execAdd {t : ThreadId} {w : ScalarWord} {s : State} (hs : Keeps σ s) : Goes σ (execAdd t w s) :=
  .next hs.alu

theorem execSub {t : ThreadId} {w : ScalarWord} {s : State} (hs : Keeps σ s) : Goes σ (execSub t w s) :=
  .next hs.alu

theorem execMul {t : ThreadId} {w : ScalarWord} {s : State} (hs : Keeps σ s) : Goes σ (execMul t w s) :=
  .next hs.alu

theorem execMulhu {t : ThreadId} {w : ScalarWord} {s : State} (hs : Keeps σ s) : Goes σ (execMulhu t w s) :=
  .next hs.alu

theorem execAnd {t : ThreadId} {w : ScalarWord} {s : State} (hs : Keeps σ s) : Goes σ (execAnd t w s) :=
  .next hs.alu

theorem execOr {t : ThreadId} {w : ScalarWord} {s : State} (hs : Keeps σ s) : Goes σ (execOr t w s) := .next hs.alu

theorem execXor {t : ThreadId} {w : ScalarWord} {s : State} (hs : Keeps σ s) : Goes σ (execXor t w s) :=
  .next hs.alu

theorem execShl {t : ThreadId} {w : ScalarWord} {s : State} (hs : Keeps σ s) : Goes σ (execShl t w s) :=
  .next hs.alu

theorem execShr {t : ThreadId} {w : ScalarWord} {s : State} (hs : Keeps σ s) : Goes σ (execShr t w s) :=
  .next hs.alu

theorem execSra {t : ThreadId} {w : ScalarWord} {s : State} (hs : Keeps σ s) : Goes σ (execSra t w s) :=
  .next hs.alu

theorem execMin {t : ThreadId} {w : ScalarWord} {s : State} (hs : Keeps σ s) : Goes σ (execMin t w s) :=
  .next hs.alu

theorem execMax {t : ThreadId} {w : ScalarWord} {s : State} (hs : Keeps σ s) : Goes σ (execMax t w s) :=
  .next hs.alu

theorem execMov {t : ThreadId} {w : ScalarWord} {s : State} (hs : Keeps σ s) : Goes σ (execMov t w s) :=
  .next (hs.issueScalar (fun _ _ h => h.writeReg))

theorem execCmpeq {t : ThreadId} {w : ScalarWord} {s : State} (hs : Keeps σ s) : Goes σ (execCmpeq t w s) :=
  .next hs.compare

theorem execCmpne {t : ThreadId} {w : ScalarWord} {s : State} (hs : Keeps σ s) : Goes σ (execCmpne t w s) :=
  .next hs.compare

theorem execCmplt {t : ThreadId} {w : ScalarWord} {s : State} (hs : Keeps σ s) : Goes σ (execCmplt t w s) :=
  .next hs.compare

theorem execCmpltu {t : ThreadId} {w : ScalarWord} {s : State} (hs : Keeps σ s) : Goes σ (execCmpltu t w s) :=
  .next hs.compare

theorem execCmple {t : ThreadId} {w : ScalarWord} {s : State} (hs : Keeps σ s) : Goes σ (execCmple t w s) :=
  .next hs.compare

theorem execCmpleu {t : ThreadId} {w : ScalarWord} {s : State} (hs : Keeps σ s) : Goes σ (execCmpleu t w s) :=
  .next hs.compare

theorem execPand {t : ThreadId} {w : ScalarWord} {s : State} (hs : Keeps σ s) : Goes σ (execPand t w s) :=
  .next hs.predOp

theorem execPor {t : ThreadId} {w : ScalarWord} {s : State} (hs : Keeps σ s) : Goes σ (execPor t w s) :=
  .next hs.predOp

theorem execPxor {t : ThreadId} {w : ScalarWord} {s : State} (hs : Keeps σ s) : Goes σ (execPxor t w s) :=
  .next hs.predOp

theorem execPnot {t : ThreadId} {w : ScalarWord} {s : State} (hs : Keeps σ s) : Goes σ (execPnot t w s) :=
  .next (hs.issueScalar (fun _ _ h => h.writePred))

/-! ### Branches (R119, R127) -/

theorem goto {s : State} {t : ThreadId} {word : InstrWord} {target : Word} {link : Option (BitVec 5)}
    (hs : Keeps σ s) :
    Keeps σ (s.goto t word target link) := .ite hs.trap (hs.modThread (by split <;> rfl))

theorem execBr {t : ThreadId} {w : ScalarWord} {s : State} (hs : Keeps σ s) : Goes σ (execBr t w s) :=
  .next (hs.issueScalar (fun _ _ h => h.goto))

theorem execCall {t : ThreadId} {w : ScalarWord} {s : State} (hs : Keeps σ s) : Goes σ (execCall t w s) :=
  .next (hs.issueScalar (fun _ _ h => h.goto))

theorem execJmp {t : ThreadId} {w : ScalarWord} {s : State} (hs : Keeps σ s) : Goes σ (execJmp t w s) :=
  .next (hs.issueScalar (fun _ _ h => h.goto))

theorem execExit {t : ThreadId} {w : ScalarWord} {s : State} (hs : Keeps σ s) : Goes σ (execExit t w s) :=
  .next (hs.issueScalar (fun _ _ h => .ite h.exitThread h.waitFor))

/-! ### Scalar memory (R126, R243, R244) -/

theorem threadRead {s before : State} {t : ThreadId} {word : InstrWord} {a : Word} {n : Nat} {write : Bool}
    {body : State → State} (hs : Keeps σ s) (hs2 : Keeps σ before) (hb : ∀ (a : State), Keeps σ a → Keeps σ
    (body a)) :
    Keeps σ (s.threadRead before t word a n write body) := by
  unfold State.threadRead
  extract_lets x l s1
  have h1 : Keeps σ s1 := hs.checkRead
  split
  · split
    · exact hs.trap
    · split
      · exact hs2.checkRead.waitFor
      · exact .ite (hb _ h1.touch) h1.countLost.trap
  · split
    · exact hs.trap
    · split
      · exact hs2.checkRead.waitFor
      · exact .ite (hb _ h1.touch) h1.countLost.trap

theorem threadWrite {s before : State} {t : ThreadId} {word : InstrWord} {a : Word} {bs : Bytes}
    (hs : Keeps σ s) (hs2 : Keeps σ before) :
    Keeps σ (s.threadWrite before t word a bs) := by
  unfold State.threadWrite
  extract_lets x l
  split
  · exact hs.trap
  · split
    · exact hs2.waitFor
    · exact hs.store.advance

theorem afterStores {s before : State} {t : ThreadId} {word : InstrWord} {a : Word} {n : Nat} {go : State}
    (hs2 : Keeps σ before) (hs3 : Keeps σ go) :
    Keeps σ (s.afterStores before t word a n go) := .ite hs2.waitFor hs3

theorem remoteRead {s : State} {t : ThreadId} {word : InstrWord} {a : Word} {n : Nat} {w : Nat → Wait}
    (hs : Keeps σ s) :
    Keeps σ (s.remoteRead t word a n w) := by
  unfold State.remoteRead
  extract_lets x d lo
  dsimp only
  exact .ite hs.noRoute.noteCode.trap hs.request.waitFor

theorem remoteStore {s : State} {t : ThreadId} {word : InstrWord} {a : Word} {bs : Bytes} (hs : Keeps σ s) :
    Keeps σ (s.remoteStore t word a bs) := by
  unfold State.remoteStore
  extract_lets x d
  dsimp only
  exact .ite hs.noRoute.noteCode.trap hs.writeRequest.modThread.advance

theorem load {s : State} {t : ThreadId} {minor : Nat} {signed : Bool} {w : ScalarWord} (hs : Keeps σ s) :
    Keeps σ (s.load t minor signed w) := by
  unfold State.load
  extract_lets word n
  refine hs.issueScalar fun _ _ h4 => ?_
  extract_lets a
  split
  · exact h4.trap
  · split
    · exact h4.trap
    · exact .ite (hs.afterStores h4.remoteRead) (h4.threadRead hs (fun _ h7 => h7.writeReg))

theorem execLd {t : ThreadId} {w : ScalarWord} {s : State} (hs : Keeps σ s) : Goes σ (execLd t w s) := .next hs.load

theorem execLds {t : ThreadId} {w : ScalarWord} {s : State} (hs : Keeps σ s) : Goes σ (execLds t w s) :=
  .next hs.load

theorem execSt {t : ThreadId} {w : ScalarWord} {s : State} (hs : Keeps σ s) : Goes σ (execSt t w s) := by
  unfold Machine.execSt
  extract_lets word n
  refine .next ?_
  refine hs.issueScalar fun _ _ h2 => ?_
  extract_lets a bs
  split
  · exact h2.trap
  · exact .ite h2.trap (.ite h2.remoteStore (h2.threadWrite hs))

theorem atomicAt {s : State} {a op : Nat} {src cmp : Word} (hs : Keeps σ s) :
    Keeps σ (s.atomicAt a op src cmp) := by
  unfold State.atomicAt
  split
  · exact hs
  · exact hs.store

theorem execAtom {t : ThreadId} {w : ScalarWord} {s : State} (hs : Keeps σ s) : Goes σ (execAtom t w s) := by
  unfold Machine.execAtom
  extract_lets word op
  refine .next ?_
  refine hs.issue fun _ _ h4 => ?_
  extract_lets a d cmp
  split
  · exact h4.trap
  · split
    · exact h4.trap
    · split
      · dsimp only
        exact hs.afterStores (.ite h4.noRoute.noteCode.trap h4.request.waitFor)
      · exact h4.threadRead hs (fun _ h8 => h8.atomicAt.writeReg)

/-! ### Descriptor instructions (R483) and `SREAD` (R111) -/

theorem execDld {t : ThreadId} {w : ScalarWord} {s : State} (hs : Keeps σ s) : Goes σ (execDld t w s) := by
  unfold Machine.execDld
  extract_lets word
  refine .next ?_
  refine hs.issueScalar fun _ _ h4 => ?_
  extract_lets a
  split
  · exact h4.trap
  · split
    · exact h4.trap
    · exact .ite (hs.afterStores h4.remoteRead) (h4.threadRead hs (fun _ h7 => h7.modThread))

theorem execDst {t : ThreadId} {w : ScalarWord} {s : State} (hs : Keeps σ s) : Goes σ (execDst t w s) := by
  unfold Machine.execDst
  extract_lets word
  refine .next ?_
  refine hs.issueScalar fun _ _ h2 => ?_
  extract_lets a bs
  split
  · exact h2.trap
  · exact .ite h2.trap (.ite h2.remoteStore (h2.threadWrite hs))

theorem execDset {t : ThreadId} {w : ScalarWord} {s : State} (hs : Keeps σ s) : Goes σ (execDset t w s) := by
  unfold Machine.execDset
  refine .next ?_
  refine hs.issueScalar fun _ _ h2 => ?_
  split
  · exact h2.trap
  · exact h2.modThread

theorem execDget {t : ThreadId} {w : ScalarWord} {s : State} (hs : Keeps σ s) : Goes σ (execDget t w s) := by
  unfold Machine.execDget
  refine .next ?_
  refine hs.issueScalar fun _ _ h2 => ?_
  split
  · exact h2.trap
  · exact h2.writeReg

theorem execSread {t : ThreadId} {w : ScalarWord} {s : State} (hs : Keeps σ s) : Goes σ (execSread t w s) := by
  unfold Machine.execSread
  refine .next ?_
  refine hs.issueScalar fun _ _ h2 => ?_
  split
  · dsimp only
    exact h2.free.writeReg
  · split
    · exact h2.trap
    · exact h2.writeReg

/-! ### Synchronisation instructions -/

theorem issueSync {s : State} {t : ThreadId} {minor : Nat} {w : TileWord} {u : TileUse}
    {body : InstrWord → Thread → State → State} (hs : Keeps σ s) (hb : ∀ (a : InstrWord) (a_1 : Thread)
    (a_2 : State), Keeps σ a_2 → Keeps σ (body a a_1 a_2)) :
    Keeps σ (s.issueSync t minor w u body) := hs.issue (fun _ _ h => hb _ _ _ h)

theorem execFence {t : ThreadId} {w : TileWord} {s : State} (hs : Keeps σ s) : Goes σ (execFence t w s) :=
  .next (hs.issueSync (fun _ _ _ h => h.waitFor.settle))

theorem clearPred {s : State} {t : ThreadId} {pc : Word} {pred : Nat} (hs : Keeps σ s) :
    Keeps σ (s.clearPred t pc pred) := .ite (hs.modThread (by simp)) hs

theorem execSemInit {t : ThreadId} {w : TileWord} {s : State} (hs : Keeps σ s) : Goes σ (execSemInit t w s) :=
  .next (hs.issueSync (fun _ _ _ h => .ite h.trap (.ite h.trap ((h.threadWrite hs).clearPred))))

theorem execSemPost {t : ThreadId} {w : TileWord} {s : State} (hs : Keeps σ s) : Goes σ (execSemPost t w s) := by
  unfold Machine.execSemPost
  refine .next ?_
  refine hs.issueSync fun _ _ _ h2 => ?_
  extract_lets a
  split
  · exact h2.trap
  · exact .ite h2.trap (.ite h2.trap h2.waitFor.settle)

theorem semTake {s : State} {t : ThreadId} {a : Word} {n pred : Nat} (hs : Keeps σ s) :
    Keeps σ (s.semTake t a n pred) := hs.store.modThread (by simp)

theorem execSemWait {t : ThreadId} {w : TileWord} {s : State} (hs : Keeps σ s) : Goes σ (execSemWait t w s) := by
  unfold Machine.execSemWait
  refine .next ?_
  refine hs.issueSync fun _ _ _ h2 => ?_
  extract_lets a n m
  split
  · exact h2.trap
  · split
    · exact h2.trap
    · split
      · exact h2.trap
      · split
        · exact h2.trap
        · split
          · exact hs.waitFor
          · split
            · exact h2.trap
            · split
              · exact h2.modThread.failWait
              · exact .ite h2.semTake h2.waitFor

theorem execSemWaitComplete {t : ThreadId} {cycles : Nat} {s : State} (hs : Keeps σ s) :
    Goes σ (execSemWaitComplete t cycles s) := by
  unfold Machine.execSemWaitComplete
  extract_lets x
  refine .next ?_
  split
  · extract_lets m
    split
    · exact hs
    · split
      · exact hs.count.modThread.failWait
      · exact .ite hs.count.semTake hs
  · exact hs

theorem execBarrier {t : ThreadId} {w : TileWord} {s : State} (hs : Keeps σ s) : Goes σ (execBarrier t w s) :=
  .next (hs.issueSync (fun _ _ _ h => h.waitFor.settle))

theorem execSlot {t : ThreadId} {w : TileWord} {s : State} (hs : Keeps σ s) : Goes σ (execSlot t w s) :=
  .next (hs.issueSync (fun _ _ _ h => h.waitFor.slotStep))

theorem execSlotEnd {launch : Nat} {s : State} (hs : Keeps σ s) : Goes σ (execSlotEnd launch s) :=
  .next (.ite hs.endSlot hs)

theorem execSlotGateOpen {launch cycles : Nat} {s : State} (hs : Keeps σ s) :
    Goes σ (execSlotGateOpen launch cycles s) := by
  unfold Machine.execSlotGateOpen
  refine .next ?_
  split
  · exact hs
  · dsimp only
    exact .ite hs (.ite hs hs.tryGate.settleGate)

/-! ### Firmware and configuration (R441, R443, R447) -/

theorem setStaged {s : State} {kind : Nat} {g : Option Staged} (hs : Keeps σ s) : Keeps σ (s.setStaged kind g) :=
  hs.modLodge (by split <;> rfl)

theorem cmdFwStage {s : State} {k : OutCmd} {p : Bytes} (hs : Keeps σ s) : Keeps σ (s.cmdFwStage k p).2 := by
  unfold State.cmdFwStage
  extract_lets kind fl n held image
  split
  · exact hs.sayReply
  · split
    · exact hs.setStaged.sayReply
    · split
      · exact hs.setStaged.sayReply
      · exact hs.setStaged.sayReply
      · exact .iteSnd hs.sayReply hs.setStaged.alarm.sayReply

theorem cmdFwActivate {s : State} {h : Nat} (hs : Keeps σ s) : Keeps σ (s.cmdFwActivate h).2 :=
  .iteSnd hs.sayReply (.iteSnd hs.sayReply hs.modSr.waits)

theorem cmdCfgWrite {s : State} {k : OutCmd} (hs : Keeps σ s) : Keeps σ (s.cmdCfgWrite k).2 := by
  unfold State.cmdCfgWrite
  split
  · exact hs.sayReply
  · split
    · exact hs.sayReply
    · split
      · exact (Keeps.ite hs.alarm hs).sayReply
      · exact hs.sayReply
      · exact .iteSnd hs.sayReply hs.applyConfig.modLodge.pinEntry.sayReply

/-! ### Debug (R431, R464) -/

theorem debugEntry {s : State} {k : OutCmd} {cls index : Nat} (hs : Keeps σ s) :
    Keeps σ (s.debugEntry k cls index) := by
  unfold State.debugEntry
  exact hs.pinEntry.count.modSr

theorem debugTouch {s : State} {space x n : Nat} (hs : Keeps σ s) : Keeps σ (s.debugTouch space x n) := by
  unfold State.debugTouch
  refine hs.foldl fun _ _ h2 => ?_
  split
  · exact h2.checkRead.touch
  · exact h2

theorem debugBytes {s : State} {space x n : Nat} (hs : Keeps σ s) : Keeps σ (s.debugBytes space x n).2 := by
  unfold State.debugBytes
  split
  · exact hs
  · split
    · exact hs
    · split
      · exact hs
      · extract_lets s1
        have h1 : Keeps σ s1 := by
          simp only [s1]
          refine hs.foldl fun _ _ h6 => ?_
          split
          · exact h6.countLost
          · exact h6
        dsimp only
        exact h1.free

theorem debugRead {s : State} {h : Nat} {p : Bytes} (hs : Keeps σ s) : Keeps σ (s.debugRead h p).2 := by
  unfold State.debugRead
  extract_lets space n x s1
  have h1 : Keeps σ s1 := .ite hs.debugTouch hs
  dsimp only
  exact .iteSnd h1.waits (.pair h1.debugBytes)

theorem debugWrite {s : State} {h : Nat} {p : Bytes} (hs : Keeps σ s) : Keeps σ (s.debugWrite h p).2 := by
  unfold State.debugWrite
  extract_lets space n x
  split
  · exact hs.waits
  · refine Keeps.sayReply ?_
    refine hs.foldl fun _ _ h5 => ?_
    split
    · exact h5.store
    · exact h5

theorem debugReturn {s u : State} {space x n : Nat} (hs : Keeps σ s) (e : s.debugReturn space x n = some u) :
    Keeps σ u := by
  unfold State.debugReturn at e
  split at e
  · exact hs.beginReturns e
  · cases e; exact hs

theorem cmdDebugRead {s : State} {h : Nat} {k : OutCmd} {p : Bytes} (hs : Keeps σ s) :
    Keeps σ (s.cmdDebugRead h k p).2 := by
  unfold State.cmdDebugRead
  extract_lets space n x
  split
  · exact hs.sayReply
  · split
    · exact hs.sayReply
    · split
      · exact hs.sayReply
      · exact (hs.debugEntry.debugReturn ‹_›).debugRead

theorem cmdDebugWrite {s : State} {h : Nat} {k : OutCmd} {p : Bytes} (hs : Keeps σ s) :
    Keeps σ (s.cmdDebugWrite h k p).2 := by
  unfold State.cmdDebugWrite
  extract_lets space n x
  split
  · exact hs.sayReply
  · split
    · exact hs.sayReply
    · split
      · exact hs.sayReply
      · exact (hs.debugEntry.debugReturn ‹_›).debugWrite

theorem debugPump {s : State} (hs : Keeps σ s) : Keeps σ s.debugPump := by
  unfold State.debugPump
  refine hs.foldl fun _ _ h2 => ?_
  split
  · split
    · exact ((Keeps.iteSnd h2.debugWrite h2.debugRead).snd_eq ‹_›).finishCmd
    · exact (Keeps.iteSnd h2.debugWrite h2.debugRead).snd_eq ‹_›
  · exact h2

/-! ### Trace (R465) -/

theorem releaseTrace {s : State} (hs : Keeps σ s) : Keeps σ s.releaseTrace := hs.modMem.modLodge

theorem cmdTraceStart {s : State} {k : OutCmd} {p : Bytes} (hs : Keeps σ s) : Keeps σ (s.cmdTraceStart k p).2 := by
  unfold State.cmdTraceStart
  extract_lets sources ports pages
  split
  · exact hs.sayReply
  · split
    · exact hs.sayReply
    · split
      · exact hs.sayReply
      · exact (((hs.releaseTrace.allocate ‹_›).debugEntry).modLodge).sayReply

theorem cmdTraceStop {s : State} {k : OutCmd} {p : Bytes} (hs : Keeps σ s) : Keeps σ (s.cmdTraceStop k p).2 := by
  unfold State.cmdTraceStop
  extract_lets fl t s1
  have h1 : Keeps σ s1 := hs.debugEntry.modLodge
  split
  · exact hs.sayReply
  · exact .iteSnd hs.sayReply ((Keeps.ite h1.releaseTrace h1).sayReply)

/-! ### The Catalogue and counters (R391, R392, R449, R450) -/

theorem unpin {s : State} {k : OutCmd} {through : Nat} (hs : Keeps σ s) : Keeps σ (s.unpin k through) := by
  unfold State.unpin
  extract_lets s1 s2
  have h1 : Keeps σ s1 := hs.modLodge
  have h2 : Keeps σ s2 := h1.modLodge
  dsimp only
  exact h2.cmdEntry.catalogue

theorem cmdLogRead {s : State} {k : OutCmd} {p : Bytes} (hs : Keeps σ s) : Keeps σ (s.cmdLogRead k p).2 := by
  unfold State.cmdLogRead
  extract_lets first n fl through log es result held
  split
  · exact hs.sayReply
  · exact .iteSnd hs.sayReply (.pair (.ite hs.unpin hs))

theorem cmdCtrClear {s : State} {k : OutCmd} {p : Bytes} (hs : Keeps σ s) : Keeps σ (s.cmdCtrClear k p).2 := by
  unfold State.cmdCtrClear
  extract_lets unit inst first n cs old keys s1 s2
  have h1 : Keeps σ s1 := hs.setCounters fun hc x hx => hc x (List.mem_of_mem_filter hx)
  have h2 : Keeps σ s2 := h1.modLodge
  refine .iteSnd hs.sayReply ?_
  split
  next e s3 he =>
    have h3 : Keeps σ s3 := h2.cmdEntry.snd_eq he
    split
    split
    exact h3.catalogue.sayReply

theorem cmdPowerCap {s : State} {p : Bytes} (hs : Keeps σ s) : Keeps σ (s.cmdPowerCap p).2 :=
  .iteSnd hs.sayReply hs.modLodge.sayReply

theorem cmdResetModule {s : State} {h : Nat} {k : OutCmd} {p : Bytes} (hs : Keeps σ s) :
    Keeps σ (s.cmdResetModule h k p).2 :=
  .iteSnd hs.sayReply (.iteSnd hs.sayReply (.pair hs.pinEntry.finishCmd.requestReset))

/-! ### Probation (R398) -/

theorem cmdProbation {s : State} {h : Nat} (hs : Keeps σ s) : Keeps σ (s.cmdProbation h).2 :=
  .iteSnd hs.sayReply hs.modLodge.waits

theorem probationEnds {s : State} {failed : Option (Nat × Nat)} (hs : Keeps σ s) :
    Keeps σ (s.probationEnds failed).2 := by
  unfold State.probationEnds
  split
  · exact .pair hs.modLodge
  · exact .pair hs.modLodge.fault

/-! ### Transactions -/

theorem replayed {s : State} {t : Txn} (hs : Keeps σ s) : Keeps σ (s.replayed t).2 := hs.count.sayReply

theorem cmdTxnBegin {s : State} {k : OutCmd} {p : Bytes} (hs : Keeps σ s) : Keeps σ (s.cmdTxnBegin k p).2 := by
  unfold State.cmdTxnBegin
  extract_lets id kind ms t
  split
  · exact hs.sayReply
  · split
    · exact hs.sayReply
    · split
      · exact hs.replayed
      · dsimp only
        exact .iteSnd hs.sayReply hs.cmdEntry.moveTxn.sayReply

theorem cmdTxnAbort {s : State} {k : OutCmd} {p : Bytes} (hs : Keeps σ s) : Keeps σ (s.cmdTxnAbort k p).2 := by
  unfold State.cmdTxnAbort
  split
  · exact hs.sayReply
  · split
    · exact hs.sayReply
    · exact hs.replayed
    · exact hs.replayed
    · dsimp only
      exact .iteSnd hs.sayReply hs.cmdEntry.moveTxn.sayReply

theorem cmdTxnQuery {s : State} {p : Bytes} (hs : Keeps σ s) : Keeps σ (s.cmdTxnQuery p).2 := by
  unfold State.cmdTxnQuery
  split
  · exact hs.sayReply
  · exact hs.sayReply

/-! ### Joining (R386) -/

theorem joinCmd {s : State} {h : Nat} {k : OutCmd} {p : Bytes} (hs : Keeps σ s) : Keeps σ (s.joinCmd h k p).2 := by
  unfold State.joinCmd
  split
  · exact hs.sayReply
  · split
    · exact hs.sayReply
    · exact hs.replayed
    · exact hs.replayed
    · split
      · exact hs.sayReply
      · split
        · exact hs.sayReply
        · split
          · exact hs.sayReply
          · exact .iteSnd hs.sayReply hs.modTxn.modCmd.sayReply

/-! ### Committing (R387) -/

theorem stagedBody {s : State} {h : Nat} {k : OutCmd} {p : Bytes} (hs : Keeps σ s) :
    Keeps σ (s.stagedBody h k p).2 := by
  unfold State.stagedBody
  split
  · exact hs.cmdCtxCreate
  · exact hs.cmdDrain
  · exact hs.cmdDrain
  · exact hs.cmdRingBind
  · exact hs.cmdRingUnbind
  · exact hs.cmdPoolQuota
  · exact hs.cmdPortState
  · exact hs.cmdRouteSet
  · exact hs.cmdTimeoutSet
  · exact hs.cmdTwinState
  · exact hs.cmdTwinAdopt
  · exact hs.cmdFwActivate
  · exact hs.cmdCfgWrite
  · exact hs.cmdCtrClear
  · exact hs.cmdPowerCap
  · exact hs.cmdProbation
  · exact hs.sayReply

theorem startStaged {s : State} {h i : Nat} {c : StagedCmd} (hs : Keeps σ s) : Keeps σ (s.startStaged h i c).2.2 :=
  hs.modHost.stagedBody

theorem forceStaged {s : State} {g : Nat} (hs : Keeps σ s) : Keeps σ (s.forceStaged g) := by
  unfold State.forceStaged
  split
  · exact hs.endDrain
  · exact hs.activateFirmware
  · exact hs

theorem commitEnds {s : State} {h : Nat} {t : Txn} {out : Nat} (hs : Keeps σ s) :
    Keeps σ (s.commitEnds h t out) := by
  unfold State.commitEnds
  split
  · exact hs
  · dsimp only
    exact .ite hs.cmdEntry.moveTxn.finishCmd.closeUnenrolled hs.cmdEntry.moveTxn.finishCmd

theorem commitPump {s : State} {h n : Nat} (hs : Keeps σ s) : Keeps σ (commitPump h n s) := by
  induction n generalizing s with
  | zero => exact hs
  | succ n ih =>
    unfold Machine.commitPump
    split
    · exact hs
    · split
      · refine .ite hs ?_
        split
        · exact hs
        · split
          · exact hs.commitEnds
          · dsimp only
            refine ih ?_
            split
            · exact hs.modCmd.startStaged.finishCmd
            · exact hs.modCmd.startStaged
      · exact hs

theorem cmdTxnCommit {s : State} {h : Nat} {k : OutCmd} {p : Bytes} (hs : Keeps σ s) :
    Keeps σ (s.cmdTxnCommit h k p).2 := by
  unfold State.cmdTxnCommit
  extract_lets out
  split
  · exact hs.sayReply
  · split
    · exact hs.sayReply
    · exact hs.replayed
    · exact hs.replayed
    · split
      · exact hs.sayReply
      · split
        · exact hs.sayReply
        · split
          · exact hs.sayReply
          · split
            · dsimp only
              exact hs.cmdEntry.moveTxn
            · extract_lets s1
              have h1 : Keeps σ s1 := hs.modTxn.modCmd
              exact .pair h1.commitPump

theorem settleCommits {s : State} (hs : Keeps σ s) : Keeps σ s.settleCommits := by
  unfold State.settleCommits
  refine hs.foldl fun _ _ h2 => ?_
  split
  · exact h2.commitPump
  · exact h2

/-! ### Events -/

theorem execTxnTimeout {txn : Word} {s : State} (hs : Keeps σ s) : Goes σ (execTxnTimeout txn s) := by
  unfold Machine.execTxnTimeout
  refine .next ?_
  split
  · exact hs
  · exact .ite hs.moveTxn.fault hs

theorem execContextDrainComplete {ctx : Nat} {s : State} (hs : Keeps σ s) :
    Goes σ (execContextDrainComplete ctx s) := .next hs.drainComplete.settleCommits

theorem execDrainForce {ctx : Nat} {s : State} (hs : Keeps σ s) : Goes σ (execDrainForce ctx s) :=
  .next hs.drainForce.settleCommits

theorem execCommitWindowClose {s : State} (hs : Keeps σ s) : Goes σ (execCommitWindowClose s) := by
  unfold Machine.execCommitWindowClose
  refine .next ?_
  split
  · exact hs
  · dsimp only
    exact .ite hs hs.activateFirmware.modSr.cmdEntry.catalogue.finishCmd.settleCommits

theorem execProbationTestDone {failed : Option (Nat × Nat)} {s : State} (hs : Keeps σ s) :
    Goes σ (execProbationTestDone failed s) := by
  unfold Machine.execProbationTestDone
  refine .next ?_
  split
  · exact hs
  · dsimp only
    exact hs.probationEnds.finishCmd.settleCommits

/-! ### Which packets are dropped -/

theorem helloAgain {s : State} {dev : Nat} (hs : Keeps σ s) : Keeps σ (s.helloAgain dev) :=
  .ite hs hs.modFabric.hello

theorem staleDrop {s u : State} {p type : Nat} {k : Packet} (hs : Keeps σ s) (e : s.staleDrop p type k = some u) :
    Keeps σ u := by
  unfold State.staleDrop at e
  split at e
  · cases e
  · split at e
    · cases e; exact hs.count
    · split at e
      · cases e; exact hs.count.helloAgain
      · split at e
        · cases e; exact hs.count
        · cases e

/-! ### Violations (R276, R277) -/

theorem violates {s : State} {type : Nat} {k : Packet} {cause inst : Nat} (hs : Keeps σ s) :
    Keeps σ (s.violates type k cause inst) := by
  unfold State.violates
  extract_lets s1
  have h1 : Keeps σ s1 := hs.violation
  split
  · exact h1.respond
  · split
    · exact h1.respond
    · exact .ite h1.respond (.ite h1.respond h1)

theorem dropUnlistedN {s : State} {p n : Nat} (hs : Keeps σ s) : Keeps σ (State.dropUnlistedN p n s) := by
  induction n generalizing s with
  | zero => exact hs
  | succ n ih =>
    unfold State.dropUnlistedN
    split
    · exact hs
    · next r _ =>
      extract_lets s1
      have h1 : Keeps σ s1 := hs.modPort.traceHeader
      refine .ite hs (ih ?_)
      cases e : s1.staleDrop p r.1 r.2 with
      | none => exact h1.violation
      | some u => exact h1.staleDrop e

theorem dropUnlisted {s : State} {p : Nat} (hs : Keeps σ s) : Keeps σ (s.dropUnlisted p) := hs.dropUnlistedN

theorem takeFront {s u : State} {p type : Nat} {k : Packet} (hs : Keeps σ s) (e : s.takeFront p type k = some u) :
    Keeps σ u := by
  unfold State.takeFront at e
  split at e
  · cases e; exact hs.modPort.traceHeader
  · cases e

theorem receive {s : State} {p type : Nat} {k : Packet} {go : State → State} (hs : Keeps σ s) (hb : ∀
    (a : State), Keeps σ a → Keeps σ (go a)) :
    Keeps σ (s.receive p type k go) := by
  unfold State.receive
  split
  · exact hs
  · refine Keeps.dropUnlisted ?_
    split
    · exact (hs.takeFront ‹_›).staleDrop ‹_›
    · split
      · exact (hs.takeFront ‹_›).violates
      · exact .ite ((hs.takeFront ‹_›).violates) (hb _ (hs.takeFront ‹_›))

/-! ### Service -/

theorem hold {s : State} {p type : Nat} {k : Packet} (hs : Keeps σ s) : Keeps σ (s.hold p type k) := hs.modFabric

theorem whenHere {s : State} {p type : Nat} {k : Packet} {ct a n : Nat} {go : State → State} (hs : Keeps σ s)
    (hb : ∀ (a : State), Keeps σ a → Keeps σ (go a)) :
    Keeps σ (s.whenHere p type k ct a n go) := by
  unfold State.whenHere
  split
  · split
    · exact (hs.beginReturn ‹_›).hold
    · exact hs
  · extract_lets s1
    have h1 : Keeps σ s1 := .ite hs hs.checkRead
    exact .ite (hb _ h1) h1.countFree.hold

theorem refuseRead {s : State} {type : Nat} {k : Packet} {c : Code} (hs : Keeps σ s) :
    Keeps σ (s.refuseRead type k c) := hs.respond

theorem readFor {s : State} {p : Nat} {k : Packet} {ct a : Nat} {version : Word} (hs : Keeps σ s) :
    Keeps σ (s.readFor p k ct a version) := by
  unfold State.readFor
  extract_lets n
  split
  · exact hs.countSuppressed.respond
  · exact hs.whenHere (fun _ h1 => .ite h1.touch.respond h1.countLost.refuseRead)

theorem serveRead {s : State} {p : Nat} {k : Packet} {ct : Nat} (hs : Keeps σ s) :
    Keeps σ (s.serveRead p k ct) := by
  unfold State.serveRead
  extract_lets a
  split
  · exact hs.refuseRead
  · exact hs.readFor
  · split
    · exact hs.readFor
    · split
      · exact hs.countFree.hold
      · exact hs.refuseRead
      · exact hs.readFor

theorem carryOut {s : State} {p type : Nat} {k : Packet} {ct : Nat} (hs : Keeps σ s) :
    Keeps σ (s.carryOut p type k ct) := by
  unfold State.carryOut
  extract_lets a r
  split
  · exact hs.serveRead
  · split
    · exact hs.whenHere (fun _ h6 => h6.store.respond)
    · split
      · exact hs.whenHere (fun _ h9 => .ite h9.touch.atomicAt.respond h9.countLost.refuseRead)
      · exact hs.whenHere (fun _ h10 => h10.semAdd.respond)

theorem collReply {s : State} {k : Packet} {sub operand : Nat} (hs : Keeps σ s) :
    Keeps σ (s.collReply k sub operand) := hs.emit

theorem serveFww {s : State} {p : Nat} {k : Packet} (hs : Keeps σ s) : Keeps σ (s.serveFww p k) := by
  unfold State.serveFww
  extract_lets h a data n
  split
  · exact hs.violation
  · split
    · exact hs.violation
    · dsimp only
      exact hs.whenHere (fun _ h3 => .ite h3.claimSlot.collReply h3.fillSlot.collReply)

theorem serve {s : State} {p type : Nat} {k : Packet} (hs : Keeps σ s) : Keeps σ (s.serve p type k) := by
  unfold State.serve
  split
  · exact hs.serveFww
  · split
    · exact hs.violates
    · exact hs.carryOut

theorem execReadReq {port : Nat} {k : Packet} {s : State} (hs : Keeps σ s) : Goes σ (execReadReq port k s) :=
  .next (hs.receive (fun _ h => h.serve))

theorem execWriteReq {port : Nat} {k : Packet} {s : State} (hs : Keeps σ s) : Goes σ (execWriteReq port k s) :=
  .next (hs.receive (fun _ h => h.serve))

theorem execAtomicReq {port : Nat} {k : Packet} {s : State} (hs : Keeps σ s) : Goes σ (execAtomicReq port k s) :=
  .next (hs.receive (fun _ h => h.serve))

theorem execSemPostPacket {port : Nat} {k : Packet} {s : State} (hs : Keeps σ s) :
    Goes σ (execSemPostPacket port k s) := .next (hs.receive (fun _ h => h.serve))

/-! ### `REPAIR_READ` (R242) -/

theorem serveRepair {s : State} {k : Packet} (hs : Keeps σ s) : Keeps σ (s.serveRepair k) := by
  unfold State.serveRepair
  extract_lets a s1 s2
  have h1 : Keeps σ s1 := by
    simp only [s1]
    split
    · exact hs.countSuppressed
    · exact hs
  have h2 : Keeps σ s2 := .ite h1 h1.checkRead
  exact .ite h2.respond h2.touch.respond

theorem execRepairRead {port : Nat} {k : Packet} {s : State} (hs : Keeps σ s) :
    Goes σ (execRepairRead port k s) := by
  unfold Machine.execRepairRead
  refine .next ?_
  split
  · exact hs
  · refine Keeps.dropUnlisted ?_
    split
    · exact (hs.takeFront ‹_›).staleDrop ‹_›
    · split
      · exact (hs.takeFront ‹_›).violation
      · exact .ite ((hs.takeFront ‹_›).violation) ((hs.takeFront ‹_›).serveRepair)

/-! ### What waited goes on (R221, R230, R243) -/

theorem serveWaiting {s : State} (hs : Keeps σ s) : Keeps σ s.serveWaiting :=
  hs.modFabric.foldl (fun _ _ h => h.serve)

theorem versionsReady {s : State} (hs : Keeps σ s) : Keeps σ s.versionsReady := .ite hs hs.serveWaiting

theorem execTileInstructionComplete [Plain σ] {t : ThreadId} {id : Nat} {s : State} (hs : Keeps σ s) :
    Goes σ (execTileInstructionComplete t id s) := .next hs.completeInstruction.versionsReady

theorem execLaunchComplete {launch : Nat} {s : State} (hs : Keeps σ s) : Goes σ (execLaunchComplete launch s) :=
  .next hs.completeLaunch.versionsReady

theorem execCommitPointReached {ctx : Nat} {step : Word} {s : State} (hs : Keeps σ s) :
    Goes σ (execCommitPointReached ctx step s) := .next hs.commitPointReached.versionsReady

theorem reissue {s : State} {t : ThreadId} {word : InstrWord} (hs : Keeps σ s) : Keeps σ (s.reissue t word) := by
  unfold State.reissue
  split
  · exact hs.nextOr hs.execLd
  · exact hs.nextOr hs.execLds
  · exact hs.nextOr hs.execSt
  · exact hs.nextOr hs.execAtom
  · exact hs.nextOr hs.execDld
  · exact hs.nextOr hs.execDst
  · exact hs.nextOr hs.execSemWait
  · exact hs

theorem lastAccesses {s : State} (hs : Keeps σ s) : Keeps σ s.lastAccesses := by
  unfold State.lastAccesses
  refine hs.foldl fun _ _ h2 => ?_
  split
  · extract_lets t
    exact .ite h2.modThread.reissue h2
  · exact h2

theorem memoryReady {s : State} (hs : Keeps σ s) : Keeps σ s.memoryReady := by
  unfold State.memoryReady
  extract_lets s1 s2 s3
  have h1 : Keeps σ s1 := hs.settleCommits.serveWaiting
  have h2 : Keeps σ s2 := h1.streamGo.collPump.bar2Pump
  have h3 : Keeps σ s3 := (h2.foldl (fun _ _ h => h.jobWake)).debugPump
  exact h3.lastAccesses.unmapPump

/-! ### Threads (R126, R140, R149, R278) -/

theorem loadAnswered {s : State} {t : ThreadId} {tag : Nat} {r : Request} {a : Answered} (hs : Keeps σ s) :
    Keeps σ (s.loadAnswered t tag r a) := by
  unfold State.loadAnswered
  extract_lets x dev
  split
  · exact hs
  · split
    · exact hs.noteCode.trap
    · extract_lets off
      exact hs.noteCode.trap
    · exact hs.wake.writeReg
    · exact hs.wake.writeReg
    · exact hs.wake.modThread
    · exact hs

theorem storeAnswered {s : State} {t : ThreadId} {pc : Word} {word : InstrWord} {tag dev : Nat} {a : Answered}
    (hs : Keeps σ s) :
    Keeps σ (s.storeAnswered t pc word tag dev a) := by
  unfold State.storeAnswered
  split
  · exact hs
  · extract_lets s1 x s2 s2'
    have h1 : Keeps σ s1 := hs.modThread
    have h2 : Keeps σ s2 := h1.noteCode
    have h2' : Keeps σ s2' := .ite h1 (.ite h2.trap h2.count)
    exact h2'.settle

theorem postAnswered {s : State} {t : ThreadId} {tag dev : Nat} {a : Answered} (hs : Keeps σ s) :
    Keeps σ (s.postAnswered t tag dev a) := by
  unfold State.postAnswered
  dsimp only
  split
  · exact .ite hs (.ite hs.postEnd hs.modThread)
  · exact hs

/-! ### Tile instructions (R135, R194, R244, R273, R278) -/

theorem fillAnswered {s : State} {t : ThreadId} {id tag : Nat} {k : Packet} {a : Answered} (hs : Keeps σ s) :
    Keeps σ (s.fillAnswered t id tag k a) := by
  unfold State.fillAnswered
  split
  · exact hs
  · extract_lets half stop
    split
    · exact hs.modArray
    · exact hs.endMiss.modArray.stopAt.stopMatrix.count
    · exact hs.modArray.modOp
    · exact hs.modArray
    · exact hs.endMiss.modArray.stopAt.stopMatrix

theorem tileReadAnswered [Plain σ] {s : State} {t : ThreadId} {id tag : Nat} {k : Packet} {a : Answered}
    (hs : Keeps σ s) :
    Keeps σ (s.tileReadAnswered t id tag k a) := by
  unfold State.tileReadAnswered
  split
  · exact hs
  · next o e =>
    have h1 : Keeps σ (s.modOp t id fun _ => o.readAnswered tag k a) :=
      hs.modOp fun _ _ => (TileOp.readAnswered_id o tag k a).trans (State.op_id e)
    exact .ite hs.fillAnswered (.ite h1.count h1.count.opGo)

theorem tileWriteAnswered {s : State} {t : ThreadId} {id tag dev : Nat} {a : Answered} (hs : Keeps σ s) :
    Keeps σ (s.tileWriteAnswered t id tag dev a) :=
  hs.modOp fun o h => by
    dsimp only
    split
    · exact h
    · split <;> exact h

/-! ### Units of the module -/

theorem repairAnswered [Plain σ] {s : State} {l tag : Nat} {a : Answered} (hs : Keeps σ s) :
    Keeps σ (s.repairAnswered l tag a) := by
  unfold State.repairAnswered
  split
  · exact hs
  · split
    · exact hs.repairDone.memoryReady
    · exact hs.repairFailed.memoryReady

theorem loadReadAnswered {s : State} {h : Nat} {k : Packet} {a : Answered} (hs : Keeps σ s) :
    Keeps σ (s.loadReadAnswered h k a) := by
  unfold State.loadReadAnswered
  split
  · split
    · exact hs.loadFabricGo
    · exact hs.loadFail
    · exact hs.loadFail
  · exact hs

theorem transferAnswered {s : State} {h type : Nat} {k : Packet} {a : Answered} (hs : Keeps σ s) :
    Keeps σ (s.transferAnswered h type k a) := by
  unfold State.transferAnswered
  extract_lets peer
  split
  · split
    · exact hs.jobData
    · exact hs.count.endJob
    · exact hs.jobGo
  · split
    · split
      · exact .ite hs.abandonStream hs.endJob
      · exact hs.imageAck
    · split
      · exact hs.restoreData
      · exact hs.endJob
      · exact hs.endJob

theorem answerUnit [Plain σ] {s : State} {tag : Nat} {r : Request} {a : Answered} (hs : Keeps σ s) :
    Keeps σ (s.answerUnit tag r a) := by
  unfold State.answerUnit
  extract_lets k
  split
  · exact hs.loadAnswered
  · exact hs.storeAnswered
  · exact hs.postAnswered
  · exact hs.tileReadAnswered
  · exact hs.tileWriteAnswered
  · exact hs.repairAnswered
  · exact hs.loadReadAnswered
  · exact hs
  · exact .ite hs.collLost hs
  · split
    · split
      · exact .ite hs.collLost hs
      · exact hs
    · exact hs
  · exact hs.transferAnswered

theorem endRequest [Plain σ] {s : State} {tag : Nat} {a : Answered} (hs : Keeps σ s) :
    Keeps σ (s.endRequest tag a) := by
  unfold State.endRequest
  split
  · exact hs
  · extract_lets s1
    have h1 : Keeps σ s1 := hs.retire.count
    exact h1.answerUnit.settleFlow.pump

/-! ### Responses -/

theorem answer [Plain σ] {s : State} {p type : Nat} {k : Packet} (hs : Keeps σ s) : Keeps σ (s.answer p type k) := by
  unfold State.answer
  split
  · exact hs.count
  · exact .ite hs.endRequest hs.count

theorem execReadRsp [Plain σ] {port : Nat} {k : Packet} {s : State} (hs : Keeps σ s) : Goes σ (execReadRsp port k s) :=
  .next (hs.receive (fun _ h => h.answer))

theorem execWriteAck [Plain σ] {port : Nat} {k : Packet} {s : State} (hs : Keeps σ s) :
    Goes σ (execWriteAck port k s) :=
  .next (hs.receive (fun _ h => h.answer))

theorem execAtomicRsp [Plain σ] {port : Nat} {k : Packet} {s : State} (hs : Keeps σ s) :
    Goes σ (execAtomicRsp port k s) :=
  .next (hs.receive (fun _ h => h.answer))

theorem execSemAck [Plain σ] {port : Nat} {k : Packet} {s : State} (hs : Keeps σ s) : Goes σ (execSemAck port k s) :=
  .next (hs.receive (fun _ h => h.answer))

theorem execRepairRsp [Plain σ] {port : Nat} {k : Packet} {s : State} (hs : Keeps σ s) :
    Goes σ (execRepairRsp port k s) :=
  .next (hs.receive (fun _ h => h.answer))

/-! ### Timeouts and port failures (R274, R275) -/

theorem execFabricTimeout [Plain σ] {tag : Nat} {s : State} (hs : Keeps σ s) : Goes σ (execFabricTimeout tag s) :=
  .next (.ite hs.endRequest hs)

theorem flowMove [Plain σ] {s : State} {dst vc : Nat} (hs : Keeps σ s) : Keeps σ (s.flowMove dst vc) := by
  unfold State.flowMove
  split
  · exact hs
  · extract_lets old queued sent type again dead copies moved s0
    have h0 : Keeps σ s0 := .ite hs hs.endStall
    split
    · exact hs
    · extract_lets s1 s2 s3
      have h1 : Keeps σ s1 := h0.setFlow.count.modPort
      have h2 : Keeps σ s2 := h1.foldl (fun _ _ h6 => h6.enqueue)
      have h3 : Keeps σ s3 := h2.foldl (fun _ _ h7 => h7.modRequest)
      exact (h3.foldl (fun _ _ h8 => h8.endRequest)).pump

theorem execFlowMove [Plain σ] {dest vc : Nat} {s : State} (hs : Keeps σ s) : Goes σ (execFlowMove dest vc s) :=
  .next hs.flowMove

/-! ### The meanings by opcode (R334) -/

theorem bodyLow [Plain σ] {s : State} {h : Nat} {k : OutCmd} {p : Bytes} (hs : Keeps σ s) :
    Keeps σ (s.bodyLow h k p).2 := by
  unfold State.bodyLow
  split
  · exact hs.cmdNop
  · exact hs.cmdHeartbeat
  · exact hs.cmdQueryCaps
  · exact hs.cmdAckAttention
  · exact hs.cmdQueryFault
  · exact hs.cmdReadCounters
  · exact hs.cmdTimeRead
  · exact hs.cmdCtxCreate
  · exact hs.cmdDrain
  · exact hs.cmdDrain
  · exact hs.cmdCtxSuspend
  · exact hs.cmdCtxResume
  · exact hs.cmdCtxQuery
  · exact hs.cmdRingBind
  · exact hs.cmdRingUnbind
  · exact hs.cmdMemMap
  · exact hs.cmdMemUnmap
  · exact hs.cmdMemPin
  · exact hs.cmdMemHint
  · exact hs.cmdMemCopy
  · exact hs.cmdMemFill
  · exact hs.cmdPoolQuota
  · exact hs.cmdProvenance
  · exact hs.sayReply

theorem bodyMid {s : State} {h : Nat} {k : OutCmd} {p : Bytes} (hs : Keeps σ s) : Keeps σ (s.bodyMid h k p).2 := by
  unfold State.bodyMid
  split
  · exact hs.cmdModelLoad
  · exact hs.cmdModelEvict
  · exact hs.cmdLoanPresent
  · exact hs.cmdLoanRevoke
  · exact hs.cmdLaunch
  · exact hs.cmdLaunch
  · exact hs.cmdFence
  · exact hs.cmdStepCommit
  · exact hs.cmdStepAbandon
  · exact hs.cmdPortState
  · exact hs.cmdRouteSet
  · exact hs.cmdGroupDefine
  · exact hs.cmdPermutePlan
  · exact hs.cmdTimeoutSet
  · exact hs.cmdCkptBegin
  · exact hs.cmdCkptDrain
  · exact hs.cmdCkptRestore
  · exact hs.cmdTwinState
  · exact hs.cmdTwinAdopt
  · exact hs.cmdAttest
  · exact hs.cmdIdentity
  · exact hs.cmdTxnBegin
  · exact hs.cmdTxnCommit
  · exact hs.cmdTxnAbort
  · exact hs.cmdTxnQuery
  · exact hs.sayReply

theorem bodyMgmt {s : State} {h : Nat} {k : OutCmd} {p : Bytes} (hs : Keeps σ s) :
    Keeps σ (s.bodyMgmt h k p).2 := by
  unfold State.bodyMgmt
  split
  · exact hs.cmdFwStage
  · exact hs.cmdDebugRead
  · exact hs.cmdDebugWrite
  · exact hs.cmdTraceStart
  · exact hs.cmdTraceStop
  · exact hs.cmdLogRead
  · exact hs.cmdCtrClear
  · exact hs.cmdPowerCap
  · exact hs.cmdResetModule
  · exact hs.sayReply

theorem commandBody [Plain σ] {s : State} {h : Nat} {k : OutCmd} {p : Bytes} (hs : Keeps σ s) :
    Keeps σ (s.commandBody h k p).2 := .iteSnd hs.bodyLow (.iteSnd hs.bodyMid hs.bodyMgmt)

/-! ### The checks (R335) -/

theorem runCommand [Plain σ] {s : State} {h : Nat} {k : OutCmd} {p : Bytes} (hs : Keeps σ s) :
    Keeps σ (s.runCommand h k p).2 := by
  unfold State.runCommand
  split
  · exact hs.sayReply
  · split
    · exact hs.sayReply
    · split
      · exact hs.sayReply
      · split
        · exact hs.sayReply
        · exact .iteSnd hs.modCtx.sayReply (.iteSnd hs.joinCmd hs.commandBody)

/-! ### Taking -/

theorem startCommand [Plain σ] {s : State} {h : CmdHeader} {op : Nat} {p : Bytes} {mg : Nat} (hs : Keeps σ s) :
    Keeps σ (s.startCommand h op p mg) := by
  unfold State.startCommand
  extract_lets c g k s1
  have h1 : Keeps σ s1 := hs.modHost
  dsimp only
  split
  · exact h1.traceCommand.runCommand.finishCmd.versionsReady
  · exact h1.traceCommand.runCommand.versionsReady

theorem takeFromRing [Plain σ] {s : State} {h : CmdHeader} {op : Nat} {p : Bytes} (hs : Keeps σ s) :
    Keeps σ (s.takeFromRing h op p) := by
  unfold State.takeFromRing
  extract_lets n r s1
  have h1 : Keeps σ s1 := hs.modRing.count
  split
  · exact .ite hs.stopRing hs
  · exact .ite hs h1.modHost.startCommand

theorem takeFromSession [Plain σ] {s : State} {h : CmdHeader} {op : Nat} {p : Bytes} {mg : Nat} (hs : Keeps σ s) :
    Keeps σ (s.takeFromSession h op p mg) := .ite hs.modSession.startCommand hs.modSession.startCommand

theorem command [Plain σ] {s : State} {op : Nat} {h : CmdHeader} {p : Bytes} (hs : Keeps σ s) :
    Keeps σ (s.command op h p) := by
  unfold State.command
  split
  · split
    · exact hs
    · exact .ite hs.takeFromSession hs
  · exact hs.takeFromRing

theorem execCommandTake [Plain σ] {ring : Nat} {entries : BusData} {s : State} (hs : Keeps σ s) :
    Goes σ (execCommandTake ring entries s) := by
  unfold Machine.execCommandTake
  refine .next ?_
  split
  · exact .ite hs.count.stopRing hs
  · dsimp only
    exact hs.takeFromRing

theorem execDmaReadCompletion {handle : Nat} {data : BusData} {s : State} (hs : Keeps σ s) :
    Goes σ (execDmaReadCompletion handle data s) := by
  unfold Machine.execDmaReadCompletion
  refine .next ?_
  split
  · exact hs.copyInGo
  · exact hs.loadHostGo
  · exact hs.loanArrives
  · split
    · exact hs
    · split
      · exact hs.restoreData
      · exact hs.count.endJob
  · exact hs

theorem execMemCopyComplete {handle : Nat} {s : State} (hs : Keeps σ s) : Goes σ (execMemCopyComplete handle s) :=
  .next hs.copyGo

/-! ### Sessions (R438) -/

theorem sessionPump [Plain σ] {s : State} {id n : Nat} (hs : Keeps σ s) : Keeps σ (sessionPump id n s) := by
  induction n generalizing s with
  | zero => exact hs
  | succ n ih =>
    unfold Machine.sessionPump
    split
    · exact hs
    · split
      · exact hs
      · exact .ite (ih hs.modSession.takeFromSession) hs

theorem pumpSessions [Plain σ] {s : State} (hs : Keeps σ s) :
    Keeps σ s.pumpSessions := hs.foldl (fun _ _ h => h.sessionPump)

theorem execStewardBeatTick [Plain σ] {s : State} (hs : Keeps σ s) : Goes σ (execStewardBeatTick s) :=
  .next (.ite hs.modHost.pumpSessions hs)

/-! ### The host commands -/

theorem execNop [Plain σ] {h : CmdHeader} {p : Bytes} {s : State} (hs : Keeps σ s) : Goes σ (execNop h p s) :=
  .next hs.command

theorem execHeartbeat [Plain σ] {h : CmdHeader} {p : Bytes} {s : State} (hs : Keeps σ s) :
    Goes σ (execHeartbeat h p s) :=
  .next hs.command

theorem execQueryCaps [Plain σ] {h : CmdHeader} {p : Bytes} {s : State} (hs : Keeps σ s) :
    Goes σ (execQueryCaps h p s) :=
  .next hs.command

theorem execAckAttention [Plain σ] {h : CmdHeader} {p : Bytes} {s : State} (hs : Keeps σ s) :
    Goes σ (execAckAttention h p s) := .next hs.command

theorem execQueryFault [Plain σ] {h : CmdHeader} {p : Bytes} {s : State} (hs : Keeps σ s) :
    Goes σ (execQueryFault h p s) :=
  .next hs.command

theorem execReadCounters [Plain σ] {h : CmdHeader} {p : Bytes} {s : State} (hs : Keeps σ s) :
    Goes σ (execReadCounters h p s) := .next hs.command

theorem execTimeRead [Plain σ] {h : CmdHeader} {p : Bytes} {s : State} (hs : Keeps σ s) : Goes σ (execTimeRead h p s) :=
  .next hs.command

theorem execCtxCreate [Plain σ] {h : CmdHeader} {p : Bytes} {s : State} (hs : Keeps σ s) :
    Goes σ (execCtxCreate h p s) :=
  .next hs.command

theorem execCtxDestroy [Plain σ] {h : CmdHeader} {p : Bytes} {s : State} (hs : Keeps σ s) :
    Goes σ (execCtxDestroy h p s) :=
  .next hs.command

theorem execCtxReset [Plain σ] {h : CmdHeader} {p : Bytes} {s : State} (hs : Keeps σ s) : Goes σ (execCtxReset h p s) :=
  .next hs.command

theorem execCtxSuspend [Plain σ] {h : CmdHeader} {p : Bytes} {s : State} (hs : Keeps σ s) :
    Goes σ (execCtxSuspend h p s) :=
  .next hs.command

theorem execCtxResume [Plain σ] {h : CmdHeader} {p : Bytes} {s : State} (hs : Keeps σ s) :
    Goes σ (execCtxResume h p s) :=
  .next hs.command

theorem execCtxQuery [Plain σ] {h : CmdHeader} {p : Bytes} {s : State} (hs : Keeps σ s) : Goes σ (execCtxQuery h p s) :=
  .next hs.command

theorem execRingBind [Plain σ] {h : CmdHeader} {p : Bytes} {s : State} (hs : Keeps σ s) : Goes σ (execRingBind h p s) :=
  .next hs.command

theorem execRingUnbind [Plain σ] {h : CmdHeader} {p : Bytes} {s : State} (hs : Keeps σ s) :
    Goes σ (execRingUnbind h p s) :=
  .next hs.command

theorem execMemMap [Plain σ] {h : CmdHeader} {p : Bytes} {s : State} (hs : Keeps σ s) : Goes σ (execMemMap h p s) :=
  .next hs.command

theorem execMemUnmap [Plain σ] {h : CmdHeader} {p : Bytes} {s : State} (hs : Keeps σ s) : Goes σ (execMemUnmap h p s) :=
  .next hs.command

theorem execMemPin [Plain σ] {h : CmdHeader} {p : Bytes} {s : State} (hs : Keeps σ s) : Goes σ (execMemPin h p s) :=
  .next hs.command

theorem execMemHint [Plain σ] {h : CmdHeader} {p : Bytes} {s : State} (hs : Keeps σ s) : Goes σ (execMemHint h p s) :=
  .next hs.command

theorem execMemCopy [Plain σ] {h : CmdHeader} {p : Bytes} {s : State} (hs : Keeps σ s) : Goes σ (execMemCopy h p s) :=
  .next hs.command

theorem execMemFill [Plain σ] {h : CmdHeader} {p : Bytes} {s : State} (hs : Keeps σ s) : Goes σ (execMemFill h p s) :=
  .next hs.command

theorem execPoolQuota [Plain σ] {h : CmdHeader} {p : Bytes} {s : State} (hs : Keeps σ s) :
    Goes σ (execPoolQuota h p s) :=
  .next hs.command

theorem execProvenanceSet [Plain σ] {h : CmdHeader} {p : Bytes} {s : State} (hs : Keeps σ s) :
    Goes σ (execProvenanceSet h p s) := .next hs.command

theorem execModelLoad [Plain σ] {h : CmdHeader} {p : Bytes} {s : State} (hs : Keeps σ s) :
    Goes σ (execModelLoad h p s) :=
  .next hs.command

theorem execModelEvict [Plain σ] {h : CmdHeader} {p : Bytes} {s : State} (hs : Keeps σ s) :
    Goes σ (execModelEvict h p s) :=
  .next hs.command

theorem execLoanPresent [Plain σ] {h : CmdHeader} {p : Bytes} {s : State} (hs : Keeps σ s) :
    Goes σ (execLoanPresent h p s) :=
  .next hs.command

theorem execLoanRevoke [Plain σ] {h : CmdHeader} {p : Bytes} {s : State} (hs : Keeps σ s) :
    Goes σ (execLoanRevoke h p s) :=
  .next hs.command

theorem execLaunch [Plain σ] {h : CmdHeader} {p : Bytes} {s : State} (hs : Keeps σ s) : Goes σ (execLaunch h p s) :=
  .next hs.command

theorem execBatchSubmit [Plain σ] {h : CmdHeader} {p : Bytes} {s : State} (hs : Keeps σ s) :
    Goes σ (execBatchSubmit h p s) :=
  .next hs.command

theorem execFenceCommand [Plain σ] {h : CmdHeader} {p : Bytes} {s : State} (hs : Keeps σ s) :
    Goes σ (execFenceCommand h p s) := .next hs.command

theorem execStepCommit [Plain σ] {h : CmdHeader} {p : Bytes} {s : State} (hs : Keeps σ s) :
    Goes σ (execStepCommit h p s) :=
  .next hs.command

theorem execStepAbandon [Plain σ] {h : CmdHeader} {p : Bytes} {s : State} (hs : Keeps σ s) :
    Goes σ (execStepAbandon h p s) :=
  .next hs.command

theorem execPortState [Plain σ] {h : CmdHeader} {p : Bytes} {s : State} (hs : Keeps σ s) :
    Goes σ (execPortState h p s) :=
  .next hs.command

theorem execRouteSet [Plain σ] {h : CmdHeader} {p : Bytes} {s : State} (hs : Keeps σ s) : Goes σ (execRouteSet h p s) :=
  .next hs.command

theorem execGroupDefine [Plain σ] {h : CmdHeader} {p : Bytes} {s : State} (hs : Keeps σ s) :
    Goes σ (execGroupDefine h p s) :=
  .next hs.command

theorem execPermutePlan [Plain σ] {h : CmdHeader} {p : Bytes} {s : State} (hs : Keeps σ s) :
    Goes σ (execPermutePlan h p s) :=
  .next hs.command

theorem execTimeoutSet [Plain σ] {h : CmdHeader} {p : Bytes} {s : State} (hs : Keeps σ s) :
    Goes σ (execTimeoutSet h p s) :=
  .next hs.command

theorem execCkptBegin [Plain σ] {h : CmdHeader} {p : Bytes} {s : State} (hs : Keeps σ s) :
    Goes σ (execCkptBegin h p s) :=
  .next hs.command

theorem execCkptDrain [Plain σ] {h : CmdHeader} {p : Bytes} {s : State} (hs : Keeps σ s) :
    Goes σ (execCkptDrain h p s) :=
  .next hs.command

theorem execCkptRestore [Plain σ] {h : CmdHeader} {p : Bytes} {s : State} (hs : Keeps σ s) :
    Goes σ (execCkptRestore h p s) :=
  .next hs.command

theorem execTwinState [Plain σ] {h : CmdHeader} {p : Bytes} {s : State} (hs : Keeps σ s) :
    Goes σ (execTwinState h p s) :=
  .next hs.command

theorem execTwinAdopt [Plain σ] {h : CmdHeader} {p : Bytes} {s : State} (hs : Keeps σ s) :
    Goes σ (execTwinAdopt h p s) :=
  .next hs.command

theorem execAttest [Plain σ] {h : CmdHeader} {p : Bytes} {s : State} (hs : Keeps σ s) : Goes σ (execAttest h p s) :=
  .next hs.command

theorem execIdentityRead [Plain σ] {h : CmdHeader} {p : Bytes} {s : State} (hs : Keeps σ s) :
    Goes σ (execIdentityRead h p s) := .next hs.command

theorem execTxnBegin [Plain σ] {h : CmdHeader} {p : Bytes} {s : State} (hs : Keeps σ s) : Goes σ (execTxnBegin h p s) :=
  .next hs.command

theorem execTxnCommit [Plain σ] {h : CmdHeader} {p : Bytes} {s : State} (hs : Keeps σ s) :
    Goes σ (execTxnCommit h p s) :=
  .next hs.command

theorem execTxnAbort [Plain σ] {h : CmdHeader} {p : Bytes} {s : State} (hs : Keeps σ s) : Goes σ (execTxnAbort h p s) :=
  .next hs.command

theorem execTxnQuery [Plain σ] {h : CmdHeader} {p : Bytes} {s : State} (hs : Keeps σ s) : Goes σ (execTxnQuery h p s) :=
  .next hs.command

theorem execFwStage [Plain σ] {h : CmdHeader} {p : Bytes} {s : State} (hs : Keeps σ s) : Goes σ (execFwStage h p s) :=
  .next hs.command

theorem execFwActivate [Plain σ] {h : CmdHeader} {p : Bytes} {s : State} (hs : Keeps σ s) :
    Goes σ (execFwActivate h p s) :=
  .next hs.command

theorem execCfgWrite [Plain σ] {h : CmdHeader} {p : Bytes} {s : State} (hs : Keeps σ s) : Goes σ (execCfgWrite h p s) :=
  .next hs.command

theorem execDebugRead [Plain σ] {h : CmdHeader} {p : Bytes} {s : State} (hs : Keeps σ s) :
    Goes σ (execDebugRead h p s) :=
  .next hs.command

theorem execDebugWrite [Plain σ] {h : CmdHeader} {p : Bytes} {s : State} (hs : Keeps σ s) :
    Goes σ (execDebugWrite h p s) :=
  .next hs.command

theorem execTraceStart [Plain σ] {h : CmdHeader} {p : Bytes} {s : State} (hs : Keeps σ s) :
    Goes σ (execTraceStart h p s) :=
  .next hs.command

theorem execTraceStop [Plain σ] {h : CmdHeader} {p : Bytes} {s : State} (hs : Keeps σ s) :
    Goes σ (execTraceStop h p s) :=
  .next hs.command

theorem execLogRead [Plain σ] {h : CmdHeader} {p : Bytes} {s : State} (hs : Keeps σ s) : Goes σ (execLogRead h p s) :=
  .next hs.command

theorem execCtrClear [Plain σ] {h : CmdHeader} {p : Bytes} {s : State} (hs : Keeps σ s) : Goes σ (execCtrClear h p s) :=
  .next hs.command

theorem execPowerCap [Plain σ] {h : CmdHeader} {p : Bytes} {s : State} (hs : Keeps σ s) : Goes σ (execPowerCap h p s) :=
  .next hs.command

theorem execResetModule [Plain σ] {h : CmdHeader} {p : Bytes} {s : State} (hs : Keeps σ s) :
    Goes σ (execResetModule h p s) :=
  .next hs.command

theorem execProbationTest [Plain σ] {h : CmdHeader} {p : Bytes} {s : State} (hs : Keeps σ s) :
    Goes σ (execProbationTest h p s) := .next hs.command

/-! ### What the Curator does by itself -/

theorem execFrameZeroed {frames : Nat} {s : State} (hs : Keeps σ s) : Goes σ (execFrameZeroed frames s) :=
  .next hs.modMem

theorem execGranuleSwitchComplete [Plain σ] {granule : Nat} {s : State} (hs : Keeps σ s) :
    Goes σ (execGranuleSwitchComplete granule s) := by
  unfold Machine.execGranuleSwitchComplete
  extract_lets x s1 s2
  have h1 : Keeps σ s1 := hs.checkRead
  have h2 : Keeps σ s2 := .ite h1.forgetErrors h1
  refine .next ?_
  split
  · exact hs
  · exact hs.freeGranule.memoryReady
  · exact .ite h1 h2.modMemAny.count.memoryReady

/-! ### Spilling and returning (R220, R230) -/

theorem execPageSpillComplete [Plain σ] {page : Nat} {s : State} (hs : Keeps σ s) :
    Goes σ (execPageSpillComplete page s) := by
  unfold Machine.execPageSpillComplete
  refine .next ?_
  split
  · exact hs
  · exact .ite hs (.ite hs.checkRead hs.checkRead.busWrite.emptyGranules.modMem.modPage)

theorem failCommands {s : State} {page : Nat} (hs : Keeps σ s) : Keeps σ (s.failCommands page) :=
  (Keeps.ite hs.finishWhere.abandonStream hs.finishWhere).foldl (fun _ _ h => h.endJob)

theorem failAdmission {s : State} {c : Nat} (hs : Keeps σ s) : Keeps σ (s.failAdmission c) := by
  unfold State.failAdmission
  extract_lets ids s1
  have h1 : Keeps σ s1 := hs.foldl (fun _ _ h => h.dropLaunch)
  exact .ite h1.renameThreads.modCtx h1

theorem returnFailed {s : State} {page : Nat} {p : Page} (hs : Keeps σ s) : Keeps σ (s.returnFailed page p) := by
  unfold State.returnFailed
  extract_lets s1 hit s2 s3
  have h1 : Keeps σ s1 := hs.modMem.modPage.count
  have h2 : Keeps σ s2 := h1.modFabric.bar2Fail
  have h3 : Keeps σ s3 := h2.failCommands
  split
  · exact h3.failAdmission
  · exact h3

theorem execPageReturnComplete [Plain σ] {page : Nat} {ok : Bool} {s : State} (hs : Keeps σ s) :
    Goes σ (execPageReturnComplete page ok s) := by
  unfold Machine.execPageReturnComplete
  refine .next ?_
  split
  · exact hs
  · exact .ite hs (.ite hs.modPage.count.placePins.memoryReady hs.returnFailed.memoryReady)

/-! ### Repair (R241) -/

theorem execRepairHostReadDone [Plain σ] {line : Nat} {data : BusData} {s : State} (hs : Keeps σ s) :
    Goes σ (execRepairHostReadDone line data s) := by
  unfold Machine.execRepairHostReadDone
  refine .next ?_
  split
  · exact hs
  · split
    · exact hs.repairFailed.memoryReady
    · exact hs.repairDone.memoryReady

theorem execRepairBudgetExpiry [Plain σ] {line : Nat} {s : State} (hs : Keeps σ s) :
    Goes σ (execRepairBudgetExpiry line s) := by
  unfold Machine.execRepairBudgetExpiry
  refine .next ?_
  split
  · exact hs
  · exact .ite hs.count.loseLine.memoryReady hs

theorem execRowRetirementComplete [Plain σ] {row cycles : Nat} {s : State} (hs : Keeps σ s) :
    Goes σ (execRowRetirementComplete row cycles s) := by
  unfold Machine.execRowRetirementComplete
  refine .next ?_
  split
  · exact hs
  · extract_lets s1 s2 ls
    have h1 : Keeps σ s1 := hs.foldl (fun _ _ h3 => h3.scrubLine)
    have h2 : Keeps σ s2 := h1.modMem.count.count
    exact .ite h1 ((h2.foldl (fun _ _ h4 => h4.wakeLine)).memoryReady)

/-! ### Scrub and self-refresh (R235, R457) -/

theorem scrub [Plain σ] {s : State} {cellar : Bool} (hs : Keeps σ s) : Keeps σ (s.scrub cellar) := by
  unfold State.scrub
  extract_lets s1
  have h1 : Keeps σ s1 := by
    simp only [s1]
    split
    · exact (hs.foldl (fun _ _ h6 => h6.checkLine)).foldl (fun _ _ h7 => h7.checkStash)
    · exact hs.foldl (fun _ _ h8 => h8.scrubLine)
  exact h1.modMem.count

theorem execScrubPass [Plain σ] {cellar : Bool} {s : State} (hs : Keeps σ s) : Goes σ (execScrubPass cellar s) :=
  .next (.ite hs.scrub.memoryReady hs)

theorem execScrubWake {s : State} (hs : Keeps σ s) : Goes σ (execScrubWake s) := .next (.ite hs hs.modMem)

theorem execAtticSelfRefreshEntry {stack : Nat} {s : State} (hs : Keeps σ s) :
    Goes σ (execAtticSelfRefreshEntry stack s) := .next (.ite hs.modMem hs)

theorem execAtticSelfRefreshExit {stack _cycles : Nat} {s : State} (hs : Keeps σ s) :
    Goes σ (execAtticSelfRefreshExit stack _cycles s) := .next hs.modMem

/-! ### Copy on write (R403) -/

theorem execCowCopyComplete {page cycles : Nat} {s : State} (hs : Keeps σ s) :
    Goes σ (execCowCopyComplete page cycles s) := .next (.ite hs.modTwin.count hs)

/-! ### Training (R247, R250, R252) -/

theorem settlePort {s : State} {p : Nat} (hs : Keeps σ s) : Keeps σ (s.settlePort p) :=
  .ite ((Keeps.ite hs.tryActive.twinUp hs.tryActive).portResetOver) hs.tryActive

theorem execSignalDetected {port lanes : Nat} {s : State} (hs : Keeps σ s) :
    Goes σ (execSignalDetected port lanes s) := .next (.ite hs.setPort hs)

theorem execSignalLost {port : Nat} {s : State} (hs : Keeps σ s) : Goes σ (execSignalLost port s) :=
  .next (.ite hs.setPort hs)

theorem execTrainingTimeout {port : Nat} {s : State} (hs : Keeps σ s) : Goes σ (execTrainingTimeout port s) :=
  .next (.ite hs.setPort.modPort hs)

theorem execFlitLock {port : Nat} {lanes : BitVec 16} {neighbourRate : Nat} {s : State} (hs : Keeps σ s) :
    Goes σ (execFlitLock port lanes neighbourRate s) := by
  unfold Machine.execFlitLock
  extract_lets x
  refine .next ?_
  split
  · exact hs
  · extract_lets s1
    have h1 : Keeps σ s1 := hs.modPort
    exact .ite h1.setPort.startKeying (.ite h1.startKeying hs)

theorem execLossOfLock {port : Nat} {s : State} (hs : Keeps σ s) : Goes σ (execLossOfLock port s) :=
  .next (.ite hs.leaveActive hs)

theorem execReplayLimit {port : Nat} {s : State} (hs : Keeps σ s) : Goes σ (execReplayLimit port s) :=
  .next (.ite hs.leaveActive hs)

theorem execRetrainTimeout {port : Nat} {s : State} (hs : Keeps σ s) : Goes σ (execRetrainTimeout port s) :=
  .next (.ite hs.fallToTraining.portResetOver hs)

theorem execAuthFailureLimit {port : Nat} {s : State} (hs : Keeps σ s) : Goes σ (execAuthFailureLimit port s) :=
  .next (.ite hs.portFail hs)

/-! ### Keying (R265, R267) -/

theorem keyingFails {s : State} {p cause : Nat} (hs : Keeps σ s) : Keeps σ (s.keyingFails p cause) :=
  .ite hs.portFail hs

theorem execKeyConfirmation {port : Nat} {nonce : Bytes} {device incarnation neighbourPort : Nat} {tag : BitVec 128}
    {s : State} (hs : Keeps σ s) : Goes σ (execKeyConfirmation port nonce device incarnation neighbourPort tag s) :=
  .next (.ite hs (.ite hs.keyingFails (.ite hs.keyingFails (.ite hs.modPort.count.keyingFails hs.modPort.enqueue))))

/-! ### Flits (R249, R254 to R256, R261) -/

theorem flitArrives {s : State} {p : Nat} {f : Flit} (hs : Keeps σ s) : Keeps σ (s.flitArrives p f) :=
  .ite hs.count hs.count.modPort.count

theorem execDataFlitRx {port : Nat} {f : Flit} {s : State} (hs : Keeps σ s) : Goes σ (execDataFlitRx port f s) :=
  .next (.ite hs (.ite hs.flitArrives.modPort.count.takeAck hs.flitArrives))

theorem takeCredits {s : State} {p : Nat} {credits : List Nat} (hs : Keeps σ s) :
    Keeps σ (s.takeCredits p credits) := (hs.foldl (fun _ _ h => .ite h.endStall h)).modPort

theorem execControlFlitRx {port : Nat} {f : Flit} {credits : List Nat} {s : State} (hs : Keeps σ s) :
    Goes σ (execControlFlitRx port f credits s) := by
  unfold Machine.execControlFlitRx
  refine .next ?_
  split
  · exact hs
  · extract_lets s1 s2
    have h1 : Keeps σ s1 := hs.flitArrives
    have h2 : Keeps σ s2 := h1.takeAck
    exact .ite h1 (.ite h2.takeCredits h2)

theorem execAckTimer {port : Nat} {s : State} (hs : Keeps σ s) : Goes σ (execAckTimer port s) :=
  .next (.ite hs.modPort hs)

theorem execIdleFlitInsert {port : Nat} {s : State} (hs : Keeps σ s) : Goes σ (execIdleFlitInsert port s) :=
  .next (.ite hs.modPort hs)

/-! ### Frames (R264, R266) -/

theorem execFrameClose {port : Nat} {s : State} (hs : Keeps σ s) : Goes σ (execFrameClose port s) :=
  .next (.ite hs.closeFrame hs)

theorem execEncryptionFrameRx {port : Nat} {slots : Bytes} {tag : BitVec 128} {s : State} (hs : Keeps σ s) :
    Goes σ (execEncryptionFrameRx port slots tag s) :=
  .next (.ite hs (.ite hs.modPort.dropUnlisted hs.modPort.count))

/-! ### Incarnations and generations (R268, R270) -/

theorem recordIncarnation {s : State} {dev inc : Nat} (hs : Keeps σ s) : Keeps σ (s.recordIncarnation dev inc) :=
  .ite hs.modFabric.freeHeld.streamResume hs.modFabric

theorem recordNeighbour {s : State} {p : Nat} {k : Packet} (hs : Keeps σ s) : Keeps σ (s.recordNeighbour p k) :=
  .ite hs.modPort hs

theorem twinHello {s : State} {p dev : Nat} (hs : Keeps σ s) : Keeps σ (s.twinHello p dev) := .ite hs.twinUp hs

theorem execHello {port : Nat} {k : Packet} {s : State} (hs : Keeps σ s) : Goes σ (execHello port k s) := by
  unfold Machine.execHello
  refine .next ?_
  refine hs.receive fun _ h2 => ?_
  extract_lets s1 __src r s2
  have h1 : Keeps σ s1 := h2.recordIncarnation.recordNeighbour
  have h2' : Keeps σ s2 := .ite h1.emit h1.enqueue
  exact h2'.pump.twinHello

theorem sendTimeSync {s : State} {p : Nat} (hs : Keeps σ s) : Keeps σ (s.sendTimeSync p) := hs.enqueue

theorem execHelloRsp {port : Nat} {k : Packet} {s : State} (hs : Keeps σ s) : Goes σ (execHelloRsp port k s) := by
  unfold Machine.execHelloRsp
  refine .next ?_
  refine hs.receive fun _ h2 => ?_
  extract_lets s1 s3 s2
  have h1 : Keeps σ s1 := h2.recordIncarnation.recordNeighbour
  have h3 : Keeps σ s3 := h1.modPort
  have h2' : Keeps σ s2 := .ite h1.twinHello (.ite h3.sendTimeSync h3)
  exact h2'.pump.settlePort

theorem execGenRetire {port : Nat} {k : Packet} {s : State} (hs : Keeps σ s) : Goes σ (execGenRetire port k s) :=
  .next (hs.receive (fun _ h => h.modFabric))

/-! ### The servo (R451, R452, R454) -/

theorem reportSync {s : State} (hs : Keeps σ s) : Keeps σ s.reportSync :=
  hs.modLodge (by split <;> [rfl; (split <;> rfl)])

theorem stepTime {s : State} {off : Int} (hs : Keeps σ s) : Keeps σ (s.stepTime off) := hs.modLodge.catalogue

theorem steer {s : State} {off : Int} {ptp : Bool} (hs : Keeps σ s) : Keeps σ (s.steer off ptp) :=
  .ite hs.stepTime (.ite hs.modLodge (hs.modLodge (by dsimp only; split <;> rfl)))

theorem measured {s : State} {off : Int} {ptp : Bool} (hs : Keeps σ s) : Keeps σ (s.measured off ptp) :=
  (Keeps.ite hs.steer (hs.modLodge (by dsimp only; split <;> rfl))).reportSync

theorem checkParents {s : State} (hs : Keeps σ s) : Keeps σ s.checkParents := .ite hs.modLodge hs

/-! ### Time exchange (R279) -/

theorem execTimeSync {port : Nat} {k : Packet} {s : State} (hs : Keeps σ s) : Goes σ (execTimeSync port k s) :=
  .next (hs.receive (fun _ h => h.enqueue))

theorem execTimeRsp {port : Nat} {k : Packet} {s : State} (hs : Keeps σ s) : Goes σ (execTimeRsp port k s) := by
  unfold Machine.execTimeRsp
  refine .next ?_
  dsimp only
  exact hs.receive (fun _ h1 => (Keeps.ite h1.modPort.measured h1.modPort).settlePort)

theorem execTimeSyncTimer {s : State} (hs : Keeps σ s) : Goes σ (execTimeSyncTimer s) :=
  .next ((hs.foldl (fun _ _ h => h.sendTimeSync)).checkParents)

/-! ### Time (R451 to R453) -/

theorem execTimeSave {s : State} (hs : Keeps σ s) : Goes σ (execTimeSave s) := .next (.ite hs hs.modLodge)

theorem execSyncLoss {s : State} (hs : Keeps σ s) : Goes σ (execSyncLoss s) :=
  .next (.ite hs.checkParents.modLodge hs.checkParents)

theorem execPtpMessage {offset : Int} {s : State} (hs : Keeps σ s) : Goes σ (execPtpMessage offset s) :=
  .next (.ite hs hs.measured)

theorem execSourceBehindEntry {s : State} (hs : Keeps σ s) : Goes σ (execSourceBehindEntry s) :=
  .next (.ite hs.catalogue.modLodge hs)

/-! ### Packets of collectives as the Collective Engine receives them (R298, R302, R305 to R308, R316, R317) -/

theorem lateColl {s : State} (hs : Keeps σ s) : Keeps σ s.lateColl := hs.count

theorem collArrives {s : State} {p sub : Nat} {k : Packet} {go : Packet → CollHdr → State → State}
    (hs : Keeps σ s) (hb : ∀ (a : Packet) (a_1 : CollHdr) (a_2 : State), Keeps σ a_2 → Keeps σ (go a a_1 a_2)) :
    Keeps σ (s.collArrives p sub k go) := by
  unfold State.collArrives
  split
  · exact hs
  · refine hs.receive fun _ h3 => ?_
    extract_lets h
    split
    · exact h3.violation
    · split
      · exact h3.lateColl
      · exact .ite h3.violation (.ite h3.lateColl (hb _ _ _ h3))

theorem matchColl {s : State} {k : Packet} {h : CollHdr} (hs : Keeps σ s) : Keeps σ (s.matchColl k h) := by
  unfold State.matchColl
  extract_lets keeps same keep
  split
  · exact .ite hs.lateColl (.ite hs hs.modCe)
  · split
    · exact .ite hs.lateColl (.ite hs hs.modCe)
    · exact hs.collNote.collStep
    · exact hs.lateColl

theorem execCollData {port : Nat} {k : Packet} {s : State} (hs : Keeps σ s) : Goes σ (execCollData port k s) :=
  .next (hs.collArrives (fun _ _ _ h => h.matchColl))

theorem execCollResult {port : Nat} {k : Packet} {s : State} (hs : Keeps σ s) : Goes σ (execCollResult port k s) :=
  .next (hs.collArrives (fun _ _ _ h => h.matchColl))

theorem execPieceAck {port : Nat} {k : Packet} {s : State} (hs : Keeps σ s) : Goes σ (execPieceAck port k s) :=
  .next (hs.collArrives (fun _ _ _ h => h.matchColl))

theorem execReady {port : Nat} {k : Packet} {s : State} (hs : Keeps σ s) : Goes σ (execReady port k s) :=
  .next (hs.collArrives (fun _ _ _ h => h.matchColl))

theorem execArrive {port : Nat} {k : Packet} {s : State} (hs : Keeps σ s) : Goes σ (execArrive port k s) :=
  .next (hs.collArrives (fun _ _ _ h => h.matchColl))

theorem execFlag {port : Nat} {k : Packet} {s : State} (hs : Keeps σ s) : Goes σ (execFlag port k s) :=
  .next ((hs.collArrives (fun _ _ _ h => h.matchColl)).versionsReady)

/-! ### Probes (R302, R308) -/

theorem execProbe {port : Nat} {k : Packet} {s : State} (hs : Keeps σ s) : Goes σ (execProbe port k s) := by
  unfold Machine.execProbe
  refine .next ?_
  split
  · exact hs
  · refine hs.receive fun _ h3 => ?_
    extract_lets h
    split
    · exact h3.violation
    · split
      · exact h3.lateColl
      · split
        · exact h3.collReply
        · exact .ite h3.violation h3.collReply

theorem probed {s : State} {id j operand : Nat} (hs : Keeps σ s) : Keeps σ (s.probed id j operand) := by
  unfold State.probed
  split
  · exact hs
  · split
    · exact hs
    · extract_lets s1
      have h1 : Keeps σ s1 := hs.modColl
      split
      · exact hs
      · exact .ite h1.count.count.collFail (.ite h1.collLost h1)

theorem execProbeRsp [Plain σ] {port : Nat} {k : Packet} {s : State} (hs : Keeps σ s) :
    Goes σ (execProbeRsp port k s) := by
  unfold Machine.execProbeRsp
  refine .next ?_
  refine hs.collArrives fun _ _ _ h2 => ?_
  split
  · split
    · exact h2.lateColl
    · exact .ite h2.lateColl h2.endRequest.probed
  · exact h2.lateColl

theorem execProbeInterval {coll : Nat} {s : State} (hs : Keeps σ s) : Goes σ (execProbeInterval coll s) := by
  unfold Machine.execProbeInterval
  refine .next ?_
  split
  · exact hs
  · split
    · exact hs
    · exact .ite hs (hs.foldl (fun _ _ h2 => .ite h2.probe h2))

/-! ### First-writer-wins slots (R315 to R317) -/

theorem execFwwClaim {port : Nat} {k : Packet} {s : State} (hs : Keeps σ s) : Goes σ (execFwwClaim port k s) :=
  .next (hs.collArrives (fun _ _ _ h => h.serveFww))

theorem execFwwData {port : Nat} {k : Packet} {s : State} (hs : Keeps σ s) : Goes σ (execFwwData port k s) :=
  .next (hs.collArrives (fun _ _ _ h => h.serveFww))

theorem execFwwClaimRsp [Plain σ] {port : Nat} {k : Packet} {s : State} (hs : Keeps σ s) :
    Goes σ (execFwwClaimRsp port k s) := by
  unfold Machine.execFwwClaimRsp
  refine .next ?_
  refine hs.collArrives fun _ _ _ h2 => ?_
  split
  · extract_lets v
    exact h2.endRequest.claimed.collStep
  · exact h2.lateColl

theorem execFwwDataAck {port : Nat} {k : Packet} {s : State} (hs : Keeps σ s) :
    Goes σ (execFwwDataAck port k s) := by
  unfold Machine.execFwwDataAck
  refine .next ?_
  refine hs.collArrives fun _ _ _ h2 => ?_
  split
  · exact h2.lateColl
  · exact .ite h2.lateColl h2.modColl.collStep

theorem execFwwClaimExpiry {addr : Nat} {s : State} (hs : Keeps σ s) : Goes σ (execFwwClaimExpiry addr s) := by
  unfold Machine.execFwwClaimExpiry
  refine .next ?_
  split
  · exact hs
  · exact .ite hs.releaseSlot.count hs

/-! ### Packets of the Party Wall (R399 to R405, R408 to R410, R413) -/

theorem twinPacket {s : State} {p sub : Nat} {k : Packet} {go : Packet → State → State} (hs : Keeps σ s) (hb : ∀
    (a : Packet) (a_1 : State), Keeps σ a_1 → Keeps σ (go a a_1)) :
    Keeps σ (s.twinPacket p sub k go) := .ite hs (hs.receive (fun _ h => .ite (hb _ _ h) h.violation))

/-! ### Pairing (R399, R409) -/

theorem execPairOffer {port : Nat} {k : Packet} {s : State} (hs : Keeps σ s) : Goes σ (execPairOffer port k s) := by
  unfold Machine.execPairOffer
  refine .next ?_
  refine hs.twinPacket fun _ _ h2 => ?_
  split
  · exact h2.modTwin.tryPair
  · exact .ite h2.modTwin.settleAdoption h2
  · exact h2

theorem execUnpair {port : Nat} {k : Packet} {s : State} (hs : Keeps σ s) : Goes σ (execUnpair port k s) :=
  .next (hs.twinPacket (fun _ _ h => .ite h.modTwin h.unpair))

theorem execTwinGraceExpiry {s : State} (hs : Keeps σ s) : Goes σ (execTwinGraceExpiry s) :=
  .next (.ite hs.unpair hs)

/-! ### The holder's side of a stream (R401 to R404) -/

theorem openIncoming {s : State} {dev : Nat} {ckpt : Word} {off : Nat} (hs : Keeps σ s) :
    Keeps σ (s.openIncoming dev ckpt off) := .ite hs hs.freeHeld.modTwin

theorem execSnapData {port : Nat} {k : Packet} {s : State} (hs : Keeps σ s) : Goes σ
    (Machine.execSnapData port k s) := by
  refine .next (hs.twinPacket fun k s h => ?_)
  extract_lets off over_ s1 s2
  have h1 : Keeps σ s1 := h.openIncoming.setMirror (cellsWf_cellsWrite _ _ _)
  have h2 : Keeps σ s2 := h1.count
  clear_value s2
  exact .ite h (.ite h2.twinSend h2)

theorem execSnapAck {port : Nat} {k : Packet} {s : State} (hs : Keeps σ s) : Goes σ (execSnapAck port k s) :=
  .next (hs.twinPacket (fun _ _ h => h.streamAck))

theorem commitIncoming {s : State} {dev : Nat} {e : MirrorEntry} (hs : Keeps σ s) :
    Keeps σ (s.commitIncoming dev e) := hs.freeHeld.modTwin.settleAdoption

theorem execSnapCommit {port : Nat} {k : Packet} {s : State} (hs : Keeps σ s) : Goes σ (execSnapCommit port k s) :=
  .next (hs.twinPacket (fun _ _ h => .ite h.commitIncoming.twinSend (.ite h.twinSend h)))

/-! ### Reads of the mirror (R241, R401, R405, R407) -/

theorem execMirrorRead {port : Nat} {k : Packet} {s : State} (hs : Keeps σ s) :
    Goes σ (Machine.execMirrorRead port k s) := by
  refine .next (hs.twinPacket fun k s h => ?_)
  dsimp only
  refine Keeps.emit ?_
  split
  · exact h.countSuppressed
  · exact h

theorem execMirrorData [Plain σ] {port : Nat} {k : Packet} {s : State} (hs : Keeps σ s) :
    Goes σ (execMirrorData port k s) :=
  .next (hs.twinPacket (fun _ _ h => h.answer))

/-! ### Directories (R399 to R401, R408 to R411) -/

theorem syncHeld {s : State} {dev : Nat} {theirs : List MirrorEntry} {gone : Word} (hs : Keeps σ s) :
    Keeps σ (s.syncHeld dev theirs gone) := by
  unfold State.syncHeld
  exact hs.freeHeld.modTwin

theorem syncOwn {s : State} {theirs : List MirrorEntry} (hs : Keeps σ s) : Keeps σ (s.syncOwn theirs) := by
  unfold State.syncOwn
  exact hs.modTwin

theorem mirrorLost {s : State} (hs : Keeps σ s) : Keeps σ s.mirrorLost := by
  unfold State.mirrorLost
  extract_lets lost s1
  have h1 : Keeps σ s1 := .ite hs.abandonStream hs
  exact .ite h1.unpair (h1.foldl (fun _ _ h => h.count.endJob))

theorem execDirSync {port : Nat} {k : Packet} {s : State} (hs : Keeps σ s) : Goes σ (execDirSync port k s) := by
  unfold Machine.execDirSync
  refine .next ?_
  refine hs.twinPacket fun _ _ h2 => ?_
  extract_lets b all theirs ours unknown s1 s2 s3
  have h1 : Keeps σ s1 := h2.modTwin
  have h2' : Keeps σ s2 := h1.syncHeld.syncOwn.mirrorLost
  have h3 : Keeps σ s3 := .ite h2' (.ite h2'.sendAdopt.twinSend h2'.sendAdopt)
  exact (Keeps.ite h3 h3.dirSync).settleAdoption

theorem execAdopt {port : Nat} {k : Packet} {s : State} (hs : Keeps σ s) : Goes σ (execAdopt port k s) :=
  .next (hs.twinPacket (fun _ _ h => .ite h h.modTwin))

/-! ### The steps of bring-up -/

theorem execPowerGood {s : State} (hs : Keeps σ s) : Goes σ (Machine.execPowerGood s) := by
  unfold Machine.execPowerGood
  refine .next (.ite hs ?_)
  split
  next dry s1 e =>
    extract_lets s2 a s3
    have h2 : Keeps σ s2 := (hs.sensorDry.snd_eq e).wakeUp
    have ha : Keeps σ a := h2.nextIncarnation
    have h3 : Keeps σ s3 := .ite h2 ha.resetTxns.catalogue
    clear_value s3
    exact .ite h3 h3.modLodge

theorem execKeyReconstruction {ok : Bool} {s : State} (hs : Keeps σ s) : Goes σ (execKeyReconstruction ok s) :=
  .next (.ite hs (.ite hs.modLodge.modSr hs.modLodge.modSr.raise))

theorem applyStored {s : State} (hs : Keeps σ s) : Keeps σ s.applyStored := by
  unfold State.applyStored
  extract_lets id entry s1 s2
  have h1 : Keeps σ s1 := hs.catalogue
  have h2 : Keeps σ s2 := h1.moveTxn
  clear_value s2
  exact .ite hs h2.modLodge

theorem enablePorts {s : State} (hs : Keeps σ s) : Keeps σ s.enablePorts :=
  hs.foldl (fun _ _ h => (Keeps.ite h.setPort h).modPort)

theorem startSteward {s : State} (hs : Keeps σ s) : Keeps σ s.startSteward := by
  unfold State.startSteward
  extract_lets s1 s2
  have h1 : Keeps σ s1 := hs.unwatched.modHost
  have h2 : Keeps σ s2 := .ite h1 h1.modLodge
  exact h2.applyStored.enablePorts.modLodge

theorem recover {s : State} (hs : Keeps σ s) : Keeps σ s.recover := .ite hs.modLodge.resetDone hs.modLodge

theorem execFirmwareVerified {slot0 slot1 : Bool} {s : State} (hs : Keeps σ s) :
    Goes σ (execFirmwareVerified slot0 slot1 s) := by
  unfold Machine.execFirmwareVerified
  extract_lets a ok waits __src
  refine .next ?_
  split
  · exact hs
  · exact .ite hs.startSteward (.ite hs.modLodge.startSteward.raise hs.recover)

theorem checkArray {s : State} {failed : List Nat} {a : Nat} (hs : Keeps σ s) : Keeps σ (s.checkArray failed a) :=
  .ite hs (.ite hs.modArray.fault hs.modArray)

theorem recordStacks {s : State} {failed : List Nat} (hs : Keeps σ s) : Keeps σ (s.recordStacks failed) :=
  hs.foldl (fun _ _ h => h.fault)

/-- A service level that R6 names. -/
theorem setLevel {s : State} {b : Bool} {n : Nat} (hs : Keeps σ s) (hn : n ≤ 2) :
    Keeps σ { s with deviceReady := b, serviceLevel := n } :=
  hs.trans ⟨rfl, rfl, fun k => ⟨k.fp64, hn, k.lane, k.permitted, k.incarnationPos, k.incarnationMax⟩, id, id, id,
    id⟩

theorem execFoyerService {failedArrays failedStacks : List Nat} {s : State} (hs : Keeps σ s) :
    Goes σ (Machine.execFoyerService failedArrays failedStacks s) := by
  unfold Machine.execFoyerService
  refine .next (.ite hs ?_)
  extract_lets s1 good s2 s3 n s4
  have h1 : Keeps σ s1 := hs.foldl fun _ _ h => h.checkArray
  have h2 : Keeps σ s2 := by
    clear_value s1
    exact .ite h1 h1.recordStacks.modMem
  have h3 : Keeps σ s3 := by
    clear_value s2
    exact h2.modMem
  have hn : n ≤ 2 := by
    simp only [n]
    split <;> omega
  clear_value n s3
  have h4 : Keeps σ s4 := (h3.setLevel hn).modLodge
  clear_value s4
  exact .ite h4.resetDone h4

/-! ### Full service (R11, R253, R462) -/

theorem wakeStalled {s : State} (hs : Keeps σ s) : Keeps σ s.wakeStalled :=
  .ite hs (hs.foldl (fun _ _ h => h.wake.countFree))

theorem enterFull {s : State} {failedArrays failedStacks : List Nat} {fp64 : Bool} (hs : Keeps σ s) :
    Keeps σ (s.enterFull failedArrays failedStacks fp64) := by
  unfold State.enterFull
  extract_lets s1 s2 s3 s4
  have h1 : Keeps σ s1 := hs.foldl fun _ _ h => h.checkArray
  have h2 : Keeps σ s2 := h1.recordStacks.modMem
  have serving : Keeps σ { s2 with fp64Serving := fp64 && s.variant.fp64, laneRate := 128, serviceLevel := 2 } := by
    refine h2.trans ⟨rfl, rfl, fun k => ⟨fun hf => ?_, Nat.le_refl _, .inr rfl, k.permitted, k.incarnationPos,
      k.incarnationMax⟩, id, id, id, id⟩
    have : s2.variant = s.variant := h2.variant.trans hs.variant.symm
    change s2.variant = .ec6480
    rw [this]
    cases hv : s.variant <;> simp_all [Variant.fp64]
  have h4 : Keeps σ s4 := serving.modLodge.modFabric.capsChanged
  exact h4.raise.wakeStalled.dirSync

theorem execFullService {failedArrays failedStacks : List Nat} {fp64 : Bool} {s : State} (hs : Keeps σ s) :
    Goes σ (execFullService failedArrays failedStacks fp64 s) := by
  unfold Machine.execFullService
  refine .next (.ite hs ?_)
  extract_lets s1
  have h1 : Keeps σ s1 := hs.trans ⟨rfl, rfl,
    fun k => ⟨k.fp64, k.level, k.lane, .inr rfl, k.incarnationPos, k.incarnationMax⟩, id, id, id,
    id⟩
  refine .ite h1 ?_
  split
  · exact h1.leaveActive.modFabric
  · exact h1.enterFull

/-! ### The 48 V input (R458, R475, R476) -/

theorem execInputUndervoltage {s : State} (hs : Keeps σ s) : Goes σ (execInputUndervoltage s) :=
  .next (.ite hs hs.powerOff)

theorem execInputOvervoltage {s : State} (hs : Keeps σ s) : Goes σ (execInputOvervoltage s) :=
  .next (.ite hs hs.powerOff)

theorem execInputShort {s : State} (hs : Keeps σ s) : Goes σ (execInputShort s) :=
  .next ((Keeps.ite hs hs.powerOff).modLodge)

theorem withhold {s : State} (hs : Keeps σ s) : Keeps σ s.withhold := hs.modLodge.raise

theorem regulate {s : State} (hs : Keeps σ s) : Keeps σ s.regulate := by
  unfold State.regulate
  extract_lets over_
  split
  · exact .ite hs hs.modLodge.withhold
  · dsimp only
    exact .ite hs hs.free.modLodge

theorem execInputMonitorSample {deciVolts milliAmps : Nat} {s : State} (hs : Keeps σ s) :
    Goes σ (execInputMonitorSample deciVolts milliAmps s) := by
  unfold Machine.execInputMonitorSample
  refine .next ?_
  split
  · exact .ite hs.modLodge hs
  · extract_lets w s1 s2
    have h1 : Keeps σ s1 := hs.modLodge.trace
    have h2 : Keeps σ s2 := .ite h1 h1.regulate
    exact .ite h1 h2.modLodge

/-! ### Heat and leaks (R459, R478) -/

theorem execThermalThrottle {centi : Int} {s : State} (hs : Keeps σ s) : Goes σ (execThermalThrottle centi s) :=
  .next (.ite hs.modLodge.withhold.fault hs)

theorem execThermalCountdown {centi : Int} {s : State} (hs : Keeps σ s) : Goes σ (execThermalCountdown centi s) :=
  .next (.ite hs.modLodge.raise hs)

theorem execThermalShutdown {centi : Int} {s : State} (hs : Keeps σ s) : Goes σ (execThermalShutdown centi s) :=
  .next (.ite hs.shutDown hs)

theorem execThermalThrottleEnd {centi : Int} {s : State} (hs : Keeps σ s) :
    Goes σ (execThermalThrottleEnd centi s) := .next hs.modLodge

theorem execLeakDetected {s : State} (hs : Keeps σ s) : Goes σ (execLeakDetected s) :=
  .next (.ite hs (((Keeps.ite hs hs.shutDown).modLodge).raise))

/-! ### Opening (R437, R439) -/

theorem refuseOpen {s : State} {signature : Bool} (hs : Keeps σ s) : Keeps σ (s.refuseOpen signature) :=
  .ite hs.count.raise hs.count.catalogue

theorem makeRoomForSession {s : State} (hs : Keeps σ s) : Keeps σ s.makeRoomForSession := by
  unfold State.makeRoomForSession
  split
  · exact hs
  · split
    · exact hs.closeSession
    · exact hs

theorem acceptOpen {s : State} {m : OpenMessage} {secret : Bytes} (hs : Keeps σ s) :
    Keeps σ (s.acceptOpen m secret) := by
  unfold State.acceptOpen
  dsimp only
  exact hs.makeRoomForSession.random.modLodge.catalogue

theorem execOpenSession {m : OpenMessage} {s : State} (hs : Keeps σ s) : Goes σ (execOpenSession m s) := by
  unfold Machine.execOpenSession
  refine .next ?_
  split
  · exact hs
  · split
    · exact hs.refuseOpen
    · split
      · exact hs.refuseOpen
      · split
        · exact hs.refuseOpen
        · exact hs.acceptOpen

/-! ### Datagrams (R436, R438) -/

theorem holdCommand [Plain σ] {s : State} {id seq : Nat} {b : Bytes} (hs : Keeps σ s) :
    Keeps σ (s.holdCommand id seq b) :=
  hs.modSession.sessionPump

theorem replyAgain {s : State} {x : Session} {seq : Nat} (hs : Keeps σ s) : Keeps σ (s.replyAgain x seq) := by
  unfold State.replyAgain
  split
  · exact hs.sendMessage
  · exact hs

theorem execMgmtCommand [Plain σ] {d : Datagram} {s : State} (hs : Keeps σ s) : Goes σ (execMgmtCommand d s) := by
  unfold Machine.execMgmtCommand
  refine .next ?_
  split
  · exact hs
  · split
    · exact hs
    · extract_lets s1 old m
      have h1 : Keeps σ s1 := hs.modSession
      split
      · exact h1.replyAgain
      · split
        · exact h1
        · split
          · exact h1
          · split
            · exact h1.holdCommand
            · exact h1.modSession

theorem execCloseSession {session : Nat} {s : State} (hs : Keeps σ s) : Goes σ (execCloseSession session s) :=
  .next (.ite hs.closeSession hs)

theorem execFragmentTimeout {session : Nat} {s : State} (hs : Keeps σ s) : Goes σ (execFragmentTimeout session s) :=
  .next hs.modSession

theorem execSessionIdleTimeout {session : Nat} {s : State} (hs : Keeps σ s) :
    Goes σ (execSessionIdleTimeout session s) := by
  unfold Machine.execSessionIdleTimeout
  refine .next ?_
  split
  · exact .ite hs.closeSession hs
  · exact hs

/-! ### Telemetry (R460) -/

theorem execTelemetry {s : State} (hs : Keeps σ s) : Goes σ (execTelemetry s) := by
  unfold Machine.execTelemetry
  refine .next ?_
  dsimp only
  exact .ite hs ((hs.free.foldl (fun _ _ h1 => h1.sendMessage)).modLodge)

/-! ### Health (R395) -/

theorem execHealthUpdate {s : State} (hs : Keeps σ s) : Goes σ (execHealthUpdate s) := .next (.ite hs hs.modLodge)

end Sys2Proof.Machine.Keeps
end

section
/-! CLAIMS. What every command and every step keep (O2, O5, O6, O7, O8). -/

namespace Sys2Proof.Machine

/-- Every command has a next state, and it keeps the queue, the variant and the invariants. -/
theorem exec_goes (c : Instr) (s : State) : Goes ⟨s, .whole false⟩ (exec c s) := by
  have whole : Whole ⟨s, .whole false⟩ := { noLine := nofun, whole := ⟨false, rfl⟩ }
  have plain : Plain ⟨s, .whole false⟩ := ⟨rfl⟩
  cases c with
  | nop _ _ => exact Keeps.refl.execNop
  | heartbeat _ _ => exact Keeps.refl.execHeartbeat
  | queryCaps _ _ => exact Keeps.refl.execQueryCaps
  | ackAttention _ _ => exact Keeps.refl.execAckAttention
  | queryFault _ _ => exact Keeps.refl.execQueryFault
  | readCounters _ _ => exact Keeps.refl.execReadCounters
  | timeRead _ _ => exact Keeps.refl.execTimeRead
  | ctxCreate _ _ => exact Keeps.refl.execCtxCreate
  | ctxDestroy _ _ => exact Keeps.refl.execCtxDestroy
  | ctxReset _ _ => exact Keeps.refl.execCtxReset
  | ctxSuspend _ _ => exact Keeps.refl.execCtxSuspend
  | ctxResume _ _ => exact Keeps.refl.execCtxResume
  | ctxQuery _ _ => exact Keeps.refl.execCtxQuery
  | ringBind _ _ => exact Keeps.refl.execRingBind
  | ringUnbind _ _ => exact Keeps.refl.execRingUnbind
  | memMap _ _ => exact Keeps.refl.execMemMap
  | memUnmap _ _ => exact Keeps.refl.execMemUnmap
  | memPin _ _ => exact Keeps.refl.execMemPin
  | memHint _ _ => exact Keeps.refl.execMemHint
  | memCopy _ _ => exact Keeps.refl.execMemCopy
  | memFill _ _ => exact Keeps.refl.execMemFill
  | poolQuota _ _ => exact Keeps.refl.execPoolQuota
  | provenanceSet _ _ => exact Keeps.refl.execProvenanceSet
  | modelLoad _ _ => exact Keeps.refl.execModelLoad
  | modelEvict _ _ => exact Keeps.refl.execModelEvict
  | loanPresent _ _ => exact Keeps.refl.execLoanPresent
  | loanRevoke _ _ => exact Keeps.refl.execLoanRevoke
  | launch _ _ => exact Keeps.refl.execLaunch
  | batchSubmit _ _ => exact Keeps.refl.execBatchSubmit
  | fenceCommand _ _ => exact Keeps.refl.execFenceCommand
  | stepCommit _ _ => exact Keeps.refl.execStepCommit
  | stepAbandon _ _ => exact Keeps.refl.execStepAbandon
  | portState _ _ => exact Keeps.refl.execPortState
  | routeSet _ _ => exact Keeps.refl.execRouteSet
  | groupDefine _ _ => exact Keeps.refl.execGroupDefine
  | permutePlan _ _ => exact Keeps.refl.execPermutePlan
  | timeoutSet _ _ => exact Keeps.refl.execTimeoutSet
  | ckptBegin _ _ => exact Keeps.refl.execCkptBegin
  | ckptDrain _ _ => exact Keeps.refl.execCkptDrain
  | ckptRestore _ _ => exact Keeps.refl.execCkptRestore
  | twinState _ _ => exact Keeps.refl.execTwinState
  | twinAdopt _ _ => exact Keeps.refl.execTwinAdopt
  | attest _ _ => exact Keeps.refl.execAttest
  | identityRead _ _ => exact Keeps.refl.execIdentityRead
  | txnBegin _ _ => exact Keeps.refl.execTxnBegin
  | txnCommit _ _ => exact Keeps.refl.execTxnCommit
  | txnAbort _ _ => exact Keeps.refl.execTxnAbort
  | txnQuery _ _ => exact Keeps.refl.execTxnQuery
  | fwStage _ _ => exact Keeps.refl.execFwStage
  | fwActivate _ _ => exact Keeps.refl.execFwActivate
  | cfgWrite _ _ => exact Keeps.refl.execCfgWrite
  | debugRead _ _ => exact Keeps.refl.execDebugRead
  | debugWrite _ _ => exact Keeps.refl.execDebugWrite
  | traceStart _ _ => exact Keeps.refl.execTraceStart
  | traceStop _ _ => exact Keeps.refl.execTraceStop
  | logRead _ _ => exact Keeps.refl.execLogRead
  | ctrClear _ _ => exact Keeps.refl.execCtrClear
  | powerCap _ _ => exact Keeps.refl.execPowerCap
  | resetModule _ _ => exact Keeps.refl.execResetModule
  | probationTest _ _ => exact Keeps.refl.execProbationTest
  | doorbell _ _ _ => exact Keeps.refl.execDoorbell
  | snapshotReq _ => exact Keeps.refl.execSnapshotReq
  | snapshotComplete => exact Keeps.refl.execSnapshotComplete
  | arrayReset _ _ => exact Keeps.refl.execArrayReset
  | channelReset _ _ => exact Keeps.refl.execChannelReset
  | portReset _ _ => exact Keeps.refl.execPortReset
  | chipReset _ _ => exact Keeps.refl.execChipReset
  | registerWrite _ _ _ => exact Keeps.refl.execRegisterWrite
  | deviceTimeLowRead => exact Keeps.refl.execDeviceTimeLowRead
  | bar2Read _ _ => exact Keeps.refl.execBar2Read
  | bar2Write _ _ => exact Keeps.refl.execBar2Write
  | perstAssert => exact Keeps.refl.execPerstAssert
  | hotReset => exact Keeps.refl.execHotReset
  | functionLevelReset => exact Keeps.refl.execFunctionLevelReset
  | linkDisable => exact Keeps.refl.execLinkDisable
  | commandTake _ _ => exact Keeps.refl.execCommandTake
  | ringDrainComplete _ => exact Keeps.refl.execRingDrainComplete
  | dmaReadCompletion _ _ => exact Keeps.refl.execDmaReadCompletion
  | stewardBeatTick => exact Keeps.refl.execStewardBeatTick
  | add _ _ => exact Keeps.refl.execAdd
  | sub _ _ => exact Keeps.refl.execSub
  | mul _ _ => exact Keeps.refl.execMul
  | mulhu _ _ => exact Keeps.refl.execMulhu
  | and _ _ => exact Keeps.refl.execAnd
  | or _ _ => exact Keeps.refl.execOr
  | xor _ _ => exact Keeps.refl.execXor
  | shl _ _ => exact Keeps.refl.execShl
  | shr _ _ => exact Keeps.refl.execShr
  | sra _ _ => exact Keeps.refl.execSra
  | min _ _ => exact Keeps.refl.execMin
  | max _ _ => exact Keeps.refl.execMax
  | mov _ _ => exact Keeps.refl.execMov
  | cmpeq _ _ => exact Keeps.refl.execCmpeq
  | cmpne _ _ => exact Keeps.refl.execCmpne
  | cmplt _ _ => exact Keeps.refl.execCmplt
  | cmpltu _ _ => exact Keeps.refl.execCmpltu
  | cmple _ _ => exact Keeps.refl.execCmple
  | cmpleu _ _ => exact Keeps.refl.execCmpleu
  | pand _ _ => exact Keeps.refl.execPand
  | por _ _ => exact Keeps.refl.execPor
  | pxor _ _ => exact Keeps.refl.execPxor
  | pnot _ _ => exact Keeps.refl.execPnot
  | ld _ _ => exact Keeps.refl.execLd
  | lds _ _ => exact Keeps.refl.execLds
  | st _ _ => exact Keeps.refl.execSt
  | atom _ _ => exact Keeps.refl.execAtom
  | br _ _ => exact Keeps.refl.execBr
  | call _ _ => exact Keeps.refl.execCall
  | jmp _ _ => exact Keeps.refl.execJmp
  | exit _ _ => exact Keeps.refl.execExit
  | dld _ _ => exact Keeps.refl.execDld
  | dst _ _ => exact Keeps.refl.execDst
  | dset _ _ => exact Keeps.refl.execDset
  | dget _ _ => exact Keeps.refl.execDget
  | sread _ _ => exact Keeps.refl.execSread
  | tld _ _ => exact Keeps.refl.execTld
  | tst _ _ => exact Keeps.refl.execTst
  | tcp _ _ => exact Keeps.refl.execTcp
  | mma _ _ => exact Keeps.refl.execMma
  | mmab _ _ => exact Keeps.refl.execMmab
  | vopAdd _ _ => exact Keeps.refl.execVopAdd
  | vopSub _ _ => exact Keeps.refl.execVopSub
  | vopMul _ _ => exact Keeps.refl.execVopMul
  | vopMax _ _ => exact Keeps.refl.execVopMax
  | vopMin _ _ => exact Keeps.refl.execVopMin
  | vopScale _ _ => exact Keeps.refl.execVopScale
  | vopAbs _ _ => exact Keeps.refl.execVopAbs
  | vopNeg _ _ => exact Keeps.refl.execVopNeg
  | vopFma _ _ => exact Keeps.refl.execVopFma
  | actRelu _ _ => exact Keeps.refl.execActRelu
  | actGelu _ _ => exact Keeps.refl.execActGelu
  | actSilu _ _ => exact Keeps.refl.execActSilu
  | actExp _ _ => exact Keeps.refl.execActExp
  | actTanh _ _ => exact Keeps.refl.execActTanh
  | actSigmoid _ _ => exact Keeps.refl.execActSigmoid
  | actRecip _ _ => exact Keeps.refl.execActRecip
  | actRsqrt _ _ => exact Keeps.refl.execActRsqrt
  | cvt _ _ => exact Keeps.refl.execCvt
  | stagOpen _ _ => exact Keeps.refl.execStagOpen
  | stagClose _ _ => exact Keeps.refl.execStagClose
  | stash _ _ => exact Keeps.refl.execStash
  | unstash _ _ => exact Keeps.refl.execUnstash
  | recomp _ _ => exact Keeps.refl.execRecomp
  | update _ _ => exact Keeps.refl.execUpdate
  | bktAdd _ _ => exact Keeps.refl.execBktAdd
  | verRead _ _ => exact Keeps.refl.execVerRead
  | semWait _ _ => exact Keeps.refl.execSemWait
  | semPost _ _ => exact Keeps.refl.execSemPost
  | semInit _ _ => exact Keeps.refl.execSemInit
  | fence _ _ => exact Keeps.refl.execFence
  | barrier _ _ => exact Keeps.refl.execBarrier
  | slot _ _ => exact Keeps.refl.execSlot
  | allReduce _ _ => exact Keeps.refl.execAllReduce
  | reduceScatter _ _ => exact Keeps.refl.execReduceScatter
  | allGather _ _ => exact Keeps.refl.execAllGather
  | reduce _ _ => exact Keeps.refl.execReduce
  | broadcast _ _ => exact Keeps.refl.execBroadcast
  | allToAll _ _ => exact Keeps.refl.execAllToAll
  | permute _ _ => exact Keeps.refl.execPermute
  | fwwPut _ _ => exact Keeps.refl.execFwwPut
  | groupBarrier _ _ => exact Keeps.refl.execGroupBarrier
  | tileInstructionComplete _ _ => exact Keeps.refl.execTileInstructionComplete
  | landingFillComplete _ => exact Keeps.refl.execLandingFillComplete
  | frontEntry _ _ => exact Keeps.refl.execFrontEntry
  | passStart _ _ => exact Keeps.refl.execPassStart
  | passDrain _ => exact Keeps.refl.execPassDrain
  | arrayPowerGate _ => exact Keeps.refl.execArrayPowerGate
  | arrayWake _ _ => exact Keeps.refl.execArrayWake
  | arrayInternalError _ => exact Keeps.refl.execArrayInternalError
  | arraySelfCheckDone _ _ => exact Keeps.refl.execArraySelfCheckDone
  | chipInternalError => exact Keeps.refl.execChipInternalError
  | tagUnitBind _ _ _ _ => exact Keeps.refl.execTagUnitBind
  | tagRecordWrite _ _ _ => exact Keeps.refl.execTagRecordWrite
  | stashFillComplete _ _ _ => exact Keeps.refl.execStashFillComplete
  | pantrySpillComplete _ _ => exact Keeps.refl.execPantrySpillComplete
  | bktAddStart _ _ _ => exact Keeps.refl.execBktAddStart
  | bucketFoldComplete _ _ => exact Keeps.refl.execBucketFoldComplete
  | bucketReductionEnd _ _ => exact Keeps.refl.execBucketReductionEnd
  | versionedReadBind _ _ _ => exact Keeps.refl.execVersionedReadBind
  | updateStart _ _ _ _ => exact Keeps.refl.execUpdateStart
  | commitPointReached _ _ => exact Keeps.refl.execCommitPointReached
  | semWaitComplete _ _ => exact Keeps.refl.execSemWaitComplete
  | slotEnd _ => exact Keeps.refl.execSlotEnd
  | slotGateOpen _ _ => exact Keeps.refl.execSlotGateOpen
  | launchComplete _ => exact Keeps.refl.execLaunchComplete
  | admission => exact Keeps.refl.execAdmission
  | contextReadmission _ => exact Keeps.refl.execContextReadmission
  | suspendSaveComplete _ => exact Keeps.refl.execSuspendSaveComplete
  | contextRestoreComplete _ => exact Keeps.refl.execContextRestoreComplete
  | contextDrainComplete _ => exact Keeps.refl.execContextDrainComplete
  | drainForce _ => exact Keeps.refl.execDrainForce
  | frameZeroed _ => exact Keeps.refl.execFrameZeroed
  | granuleSwitchComplete _ => exact Keeps.refl.execGranuleSwitchComplete
  | pageSpillComplete _ => exact Keeps.refl.execPageSpillComplete
  | pageReturnComplete _ _ => exact Keeps.refl.execPageReturnComplete
  | repairHostReadDone _ _ => exact Keeps.refl.execRepairHostReadDone
  | repairBudgetExpiry _ => exact Keeps.refl.execRepairBudgetExpiry
  | rowRetirementComplete _ _ => exact Keeps.refl.execRowRetirementComplete
  | channelCopyComplete _ => exact Keeps.refl.execChannelCopyComplete
  | scrubPass _ => exact Keeps.refl.execScrubPass
  | scrubWake => exact Keeps.refl.execScrubWake
  | atticSelfRefreshEntry _ => exact Keeps.refl.execAtticSelfRefreshEntry
  | atticSelfRefreshExit _ n => exact Keeps.refl.execAtticSelfRefreshExit (_cycles := n)
  | signalDetected _ _ => exact Keeps.refl.execSignalDetected
  | signalLost _ => exact Keeps.refl.execSignalLost
  | trainingTimeout _ => exact Keeps.refl.execTrainingTimeout
  | flitLock _ _ _ => exact Keeps.refl.execFlitLock
  | keyConfirmation _ _ _ _ _ _ => exact Keeps.refl.execKeyConfirmation
  | lossOfLock _ => exact Keeps.refl.execLossOfLock
  | replayLimit _ => exact Keeps.refl.execReplayLimit
  | retrainTimeout _ => exact Keeps.refl.execRetrainTimeout
  | authFailureLimit _ => exact Keeps.refl.execAuthFailureLimit
  | dataFlitRx _ _ => exact Keeps.refl.execDataFlitRx
  | controlFlitRx _ _ _ => exact Keeps.refl.execControlFlitRx
  | ackTimer _ => exact Keeps.refl.execAckTimer
  | encryptionFrameRx _ _ _ => exact Keeps.refl.execEncryptionFrameRx
  | frameClose _ => exact Keeps.refl.execFrameClose
  | idleFlitInsert _ => exact Keeps.refl.execIdleFlitInsert
  | readReq _ _ => exact Keeps.refl.execReadReq
  | readRsp _ _ => exact Keeps.refl.execReadRsp
  | writeReq _ _ => exact Keeps.refl.execWriteReq
  | writeAck _ _ => exact Keeps.refl.execWriteAck
  | atomicReq _ _ => exact Keeps.refl.execAtomicReq
  | atomicRsp _ _ => exact Keeps.refl.execAtomicRsp
  | semPostPacket _ _ => exact Keeps.refl.execSemPostPacket
  | semAck _ _ => exact Keeps.refl.execSemAck
  | repairRead _ _ => exact Keeps.refl.execRepairRead
  | repairRsp _ _ => exact Keeps.refl.execRepairRsp
  | hello _ _ => exact Keeps.refl.execHello
  | helloRsp _ _ => exact Keeps.refl.execHelloRsp
  | genRetire _ _ => exact Keeps.refl.execGenRetire
  | timeSync _ _ => exact Keeps.refl.execTimeSync
  | timeRsp _ _ => exact Keeps.refl.execTimeRsp
  | timeSyncTimer => exact Keeps.refl.execTimeSyncTimer
  | fabricTimeout _ => exact Keeps.refl.execFabricTimeout
  | flowMove _ _ => exact Keeps.refl.execFlowMove
  | collData _ _ => exact Keeps.refl.execCollData
  | collResult _ _ => exact Keeps.refl.execCollResult
  | pieceAck _ _ => exact Keeps.refl.execPieceAck
  | ready _ _ => exact Keeps.refl.execReady
  | arrive _ _ => exact Keeps.refl.execArrive
  | flag _ _ => exact Keeps.refl.execFlag
  | probe _ _ => exact Keeps.refl.execProbe
  | probeRsp _ _ => exact Keeps.refl.execProbeRsp
  | probeInterval _ => exact Keeps.refl.execProbeInterval
  | fwwClaim _ _ => exact Keeps.refl.execFwwClaim
  | fwwClaimRsp _ _ => exact Keeps.refl.execFwwClaimRsp
  | fwwData _ _ => exact Keeps.refl.execFwwData
  | fwwDataAck _ _ => exact Keeps.refl.execFwwDataAck
  | fwwClaimExpiry _ => exact Keeps.refl.execFwwClaimExpiry
  | pairOffer _ _ => exact Keeps.refl.execPairOffer
  | unpair _ _ => exact Keeps.refl.execUnpair
  | snapData _ _ => exact Keeps.refl.execSnapData
  | snapAck _ _ => exact Keeps.refl.execSnapAck
  | snapCommit _ _ => exact Keeps.refl.execSnapCommit
  | mirrorRead _ _ => exact Keeps.refl.execMirrorRead
  | mirrorData _ _ => exact Keeps.refl.execMirrorData
  | dirSync _ _ => exact Keeps.refl.execDirSync
  | adopt _ _ => exact Keeps.refl.execAdopt
  | cowCopyComplete _ _ => exact Keeps.refl.execCowCopyComplete
  | twinGraceExpiry => exact Keeps.refl.execTwinGraceExpiry
  | powerGood => exact Keeps.refl.execPowerGood
  | keyReconstruction _ => exact Keeps.refl.execKeyReconstruction
  | firmwareVerified _ _ => exact Keeps.refl.execFirmwareVerified
  | foyerService _ _ => exact Keeps.refl.execFoyerService
  | fullService _ _ _ => exact Keeps.refl.execFullService
  | inputUndervoltage => exact Keeps.refl.execInputUndervoltage
  | inputOvervoltage => exact Keeps.refl.execInputOvervoltage
  | inputShort => exact Keeps.refl.execInputShort
  | thermalThrottle _ => exact Keeps.refl.execThermalThrottle
  | thermalCountdown _ => exact Keeps.refl.execThermalCountdown
  | thermalShutdown _ => exact Keeps.refl.execThermalShutdown
  | leakDetected => exact Keeps.refl.execLeakDetected
  | timeSave => exact Keeps.refl.execTimeSave
  | syncLoss => exact Keeps.refl.execSyncLoss
  | ptpMessage _ => exact Keeps.refl.execPtpMessage
  | openSession _ => exact Keeps.refl.execOpenSession
  | mgmtCommand _ => exact Keeps.refl.execMgmtCommand
  | closeSession _ => exact Keeps.refl.execCloseSession
  | fragmentTimeout _ => exact Keeps.refl.execFragmentTimeout
  | sessionIdleTimeout _ => exact Keeps.refl.execSessionIdleTimeout
  | telemetry => exact Keeps.refl.execTelemetry
  | healthUpdate => exact Keeps.refl.execHealthUpdate
  | txnTimeout _ => exact Keeps.refl.execTxnTimeout
  | loanExpiry _ => exact Keeps.refl.execLoanExpiry
  | inputMonitorSample _ _ => exact Keeps.refl.execInputMonitorSample
  | thermalThrottleEnd _ => exact Keeps.refl.execThermalThrottleEnd
  | perstDeassert => exact Keeps.refl.execPerstDeassert
  | quoteSigned => exact Keeps.refl.execQuoteSigned
  | commitWindowClose => exact Keeps.refl.execCommitWindowClose
  | probationTestDone _ => exact Keeps.refl.execProbationTestDone
  | memCopyComplete _ => exact Keeps.refl.execMemCopyComplete
  | sourceBehindEntry => exact Keeps.refl.execSourceBehindEntry

theorem tick_keeps {s u : State} (h : tick s = .next u) : Keeps ⟨s, .whole false⟩ u := by
  unfold tick at h
  split at h
  · cases h; exact .refl
  · dsimp only at h
    split at h
    · cases h; exact Keeps.refl.unwatched
    · cases h

/-- A step keeps the invariants, whatever is in the queue. -/
theorem step_keeps {s u : State} (h : step s = .next u) :
    (ServiceOk s → ServiceOk u) ∧ (StorageOk s → StorageOk u) ∧ (CountersOk s → CountersOk u) ∧
      (NumbersOk s → NumbersOk u) := by
  unfold step at h
  split at h
  · obtain ⟨-, -, service, storage, counters, numbers, -⟩ := tick_keeps h
    exact ⟨service, storage, counters, numbers⟩
  · next c rest _ =>
    obtain ⟨v, hv, -, -, service, storage, counters, numbers, -⟩ := exec_goes c { s with pending := rest }
    obtain rfl := Host.Outcome.next.inj (hv.symm.trans h)
    exact ⟨fun k => service ⟨k.fp64, k.level, k.lane, k.permitted, k.incarnationPos, k.incarnationMax⟩, storage,
      counters, numbers⟩

/-- Settles O2: each command's outcome is a next state. -/
theorem everyCommandAnswersANextState : Obligations.EveryCommandAnswersANextState := by
  intro c s
  obtain ⟨u, hu, -⟩ := exec_goes c s
  exact ⟨u, hu⟩

/-- Settles O8: the queue and the variant are kept by each operation that a command calls. -/
theorem commandsKeepTheQueueAndTheVariant : Obligations.CommandsKeepTheQueueAndTheVariant := by
  intro c s u h
  obtain ⟨v, hv, k⟩ := exec_goes c s
  obtain rfl := Host.Outcome.next.inj (hv.symm.trans h)
  exact ⟨k.pending, k.variant⟩

/-- Settles O5: each operation that a command calls keeps what the module reports of itself. -/
theorem everyStepKeepsServiceOk : Obligations.EveryStepKeepsServiceOk := fun _ _ hs h => (step_keeps h).1 hs

/-- Settles O6: every write to a byte list is a cell write or a zeroing, and every count saturates. -/
theorem everyStepKeepsStorageAndCounters : Obligations.EveryStepKeepsStorageAndCounters := by
  intro s u hs hc h
  obtain ⟨-, storage, counters, -⟩ := step_keeps h
  exact ⟨storage hs, counters hc⟩

/-- Settles O7: an instruction enters a queue under the next number, and no other operation gives a number. -/
theorem everyStepNumbersTileInstructionsAfresh : Obligations.EveryStepNumbersTileInstructionsAfresh := by
  intro s u hn h
  obtain ⟨-, -, -, numbers⟩ := step_keeps h
  exact numbers hn

end Sys2Proof.Machine
end

section
/-! CLAIMS. What a step does with the queue, an idle step, and what reset leaves (O1, O3, O4). -/

namespace Sys2Proof.Machine

/-- Settles O1: by the step's match on the queue. -/
theorem stepRunsTheFrontCommand : Obligations.StepRunsTheFrontCommand := by
  intro c rest s h
  simp only [step, h]

theorem step_of_idle {s : State} (h : s.pending = []) : step s = tick s := by
  simp only [step, h]

/-- Settles O3: an idle step is one cycle of the oscillator. -/
theorem idleStepAdvancesDeviceTime : Obligations.IdleStepAdvancesDeviceTime := by
  intro s h
  rw [step_of_idle h]
  refine ⟨fun hp => ?_, fun hp ht => ?_, fun hp ht => ?_⟩
  · exact if_pos hp
  · exact (if_neg hp).trans (if_pos ht)
  · exact (if_neg hp).trans (if_neg (Nat.not_lt.2 ht))

/-- Before power-good every port is as it is fitted. -/
theorem reset_port (p : Nat) : State.reset.port p = {} := by
  change (List.replicate 6 ({} : Port)).getD p {} = {}
  rw [List.getD_eq_getElem?_getD, List.getElem?_replicate]
  split <;> rfl

/-- Settles O4: reset is the state of a module without power. -/
theorem resetLeavesNothingServing : Obligations.ResetLeavesNothingServing := by
  refine ⟨rfl, rfl, rfl, rfl, rfl, rfl, rfl, rfl, rfl, rfl, rfl, rfl, rfl, rfl, fun p => ?_, ?_, ?_, ⟨rfl, rfl, rfl⟩, ?_⟩
  · rw [reset_port]
    exact .inl rfl
  · exact ⟨nofun, Nat.zero_le _, .inl rfl, .inl rfl, Nat.le_refl _, by decide⟩
  · exact fun _ h => nomatch h
  · exact fun _ h => nomatch h

end Sys2Proof.Machine
end

section
/-! CLAIMS. The decoder undoes the encoder (O9). -/

namespace Sys2Proof

/-! ### A field of a word that is a sum of fields -/

theorem flagNum_lt (b : Bool) : flagNum b < 2 := by cases b <;> decide

theorem decide_flagNum (b : Bool) : decide (flagNum b = 1) = b := by cases b <;> rfl

/-- A field of n bits holds every number of n bits. -/
theorem ofNat_of_eq_toNat {n k : Nat} {v : BitVec n} (h : k = v.toNat) : BitVec.ofNat n k = v := by
  rw [h, BitVec.ofNat_toNat, BitVec.setWidth_eq]

theorem decide_of_eq_flagNum {k : Nat} {b : Bool} (h : k = flagNum b) : decide (k = 1) = b := by
  rw [h, decide_flagNum]

theorem wordMajor_encodeScalar (w : ScalarWord) {major minor : Nat} (hM : major < 256) (hm : minor < 256) :
    wordMajor (encodeScalar w major minor) = major := by
  obtain ⟨pred, pneg, rsvdHi, immb, var, sd, sa, sb, pd, rsvdLo, imm⟩ := w
  have h1 := flagNum_lt pneg
  have h2 := flagNum_lt immb
  simp only [wordMajor, wordField, encodeScalar, BitVec.toNat_ofNat]
  omega

theorem wordMinor_encodeScalar (w : ScalarWord) (major : Nat) {minor : Nat} (hm : minor < 256) :
    wordMinor (encodeScalar w major minor) = minor := by
  obtain ⟨pred, pneg, rsvdHi, immb, var, sd, sa, sb, pd, rsvdLo, imm⟩ := w
  have h1 := flagNum_lt pneg
  have h2 := flagNum_lt immb
  simp only [wordMinor, wordField, encodeScalar, BitVec.toNat_ofNat]
  omega

/-- Each field of a scalar-group word is read where it was written (R121, R123). -/
theorem parseScalar_encodeScalar (w : ScalarWord) (major minor : Nat) : parseScalar (encodeScalar w major minor) = w := by
  obtain ⟨pred, pneg, rsvdHi, immb, var, sd, sa, sb, pd, rsvdLo, imm⟩ := w
  have h1 := flagNum_lt pneg
  have h2 := flagNum_lt immb
  simp only [parseScalar, wordFlag, wordField, encodeScalar, BitVec.toNat_ofNat, ScalarWord.mk.injEq]
  refine ⟨ofNat_of_eq_toNat ?_, decide_of_eq_flagNum ?_, ofNat_of_eq_toNat ?_, decide_of_eq_flagNum ?_,
    ofNat_of_eq_toNat ?_, ofNat_of_eq_toNat ?_, ofNat_of_eq_toNat ?_, ofNat_of_eq_toNat ?_, ofNat_of_eq_toNat ?_,
    ofNat_of_eq_toNat ?_, ofNat_of_eq_toNat ?_⟩ <;> omega

theorem wordMajor_encodeTile (w : TileWord) {major minor : Nat} (hM : major < 256) (hm : minor < 256) :
    wordMajor (encodeTile w major minor) = major := by
  obtain ⟨pred, pneg, cg, rmode, ovf, recBit, noTrap, var, d, a, b, c, s1, s2, s3, rsvd, imm⟩ := w
  have h1 := flagNum_lt pneg
  have h2 := flagNum_lt ovf
  have h3 := flagNum_lt recBit
  have h4 := flagNum_lt noTrap
  simp only [wordMajor, wordField, encodeTile, BitVec.toNat_ofNat]
  omega

theorem wordMinor_encodeTile (w : TileWord) (major : Nat) {minor : Nat} (hm : minor < 256) :
    wordMinor (encodeTile w major minor) = minor := by
  obtain ⟨pred, pneg, cg, rmode, ovf, recBit, noTrap, var, d, a, b, c, s1, s2, s3, rsvd, imm⟩ := w
  have h1 := flagNum_lt pneg
  have h2 := flagNum_lt ovf
  have h3 := flagNum_lt recBit
  have h4 := flagNum_lt noTrap
  simp only [wordMinor, wordField, encodeTile, BitVec.toNat_ofNat]
  omega

/-- Each field of a tile-group word is read where it was written (R121, R122). -/
theorem parseTile_encodeTile (w : TileWord) (major minor : Nat) : parseTile (encodeTile w major minor) = w := by
  obtain ⟨pred, pneg, cg, rmode, ovf, recBit, noTrap, var, d, a, b, c, s1, s2, s3, rsvd, imm⟩ := w
  have h1 := flagNum_lt pneg
  have h2 := flagNum_lt ovf
  have h3 := flagNum_lt recBit
  have h4 := flagNum_lt noTrap
  simp only [parseTile, wordFlag, wordField, encodeTile, BitVec.toNat_ofNat, TileWord.mk.injEq]
  refine ⟨ofNat_of_eq_toNat ?_, decide_of_eq_flagNum ?_, ofNat_of_eq_toNat ?_, ofNat_of_eq_toNat ?_,
    decide_of_eq_flagNum ?_, decide_of_eq_flagNum ?_, decide_of_eq_flagNum ?_, ofNat_of_eq_toNat ?_,
    ofNat_of_eq_toNat ?_, ofNat_of_eq_toNat ?_, ofNat_of_eq_toNat ?_, ofNat_of_eq_toNat ?_, ofNat_of_eq_toNat ?_,
    ofNat_of_eq_toNat ?_, ofNat_of_eq_toNat ?_, ofNat_of_eq_toNat ?_, ofNat_of_eq_toNat ?_⟩ <;> omega

/-! ### The listed opcodes -/

/-- Whether R124 lists an opcode rests on the opcode alone. -/
theorem scalarInstr_isSome (t t' : ThreadId) (w w' : ScalarWord) (major minor : Nat) :
    (scalarInstr t w major minor).isSome = (scalarInstr t' w' major minor).isSome := by
  fun_cases scalarInstr t w major minor <;> simp_all [scalarInstr]

theorem tileInstr_isSome (t t' : ThreadId) (w w' : TileWord) (major minor : Nat) :
    (tileInstr t w major minor).isSome = (tileInstr t' w' major minor).isSome := by
  fun_cases tileInstr t w major minor <;> simp_all [tileInstr]

/-- The scalar group has majors below 0x05. -/
theorem scalarInstr_of_le (t : ThreadId) (w : ScalarWord) {major : Nat} (minor : Nat) (h : 0x05 ≤ major) :
    scalarInstr t w major minor = none := by
  fun_cases scalarInstr t w major minor <;> simp_all

/-- The tile group has majors from 0x10 to 0x60, besides `COLL`'s. -/
theorem tileInstr_of_lt (t : ThreadId) (w : TileWord) {major : Nat} (minor : Nat) (h : major < 0x10 ∨ 0x60 < major) :
    tileInstr t w major minor = none := by
  fun_cases tileInstr t w major minor <;> simp_all

theorem scalarInstr_of_tileInstr {t t' : ThreadId} {w : ScalarWord} {w' : TileWord} {major minor : Nat}
    (h : (tileInstr t' w' major minor).isSome = true) : scalarInstr t w major minor = none := by
  apply scalarInstr_of_le
  by_contra hM
  rw [tileInstr_of_lt t' w' minor (by omega)] at h
  cases h

end Sys2Proof

namespace Sys2Proof.Machine

/-- The scalar part of O9. -/
theorem decode_encodeScalar (t : ThreadId) (w : ScalarWord) {major minor : Nat} (hM : major < 256) (hm : minor < 256)
    (h : (scalarInstr t w major minor).isSome = true) : wordListed (encodeScalar w major minor) = true ∧
      decodeInstr t (encodeScalar w major minor) = scalarInstr t w major minor := by
  have hs : (scalarInstr { array := 0, index := 0 } {} major minor).isSome = true :=
    (scalarInstr_isSome _ t _ w major minor).trans h
  obtain ⟨i, hi⟩ := Option.isSome_iff_exists.1 h
  constructor
  · simp only [wordListed, wordMajor_encodeScalar w hM hm, wordMinor_encodeScalar w major hm, hs, Bool.true_or]
  · simp only [decodeInstr, wordMajor_encodeScalar w hM hm, wordMinor_encodeScalar w major hm,
      parseScalar_encodeScalar, hi, Option.some_or]

/-- The tile part of O9. -/
theorem decode_encodeTile (t : ThreadId) (w : TileWord) {major minor : Nat} (hM : major < 256) (hm : minor < 256)
    (h : (tileInstr t w major minor).isSome = true) : wordListed (encodeTile w major minor) = true ∧
      decodeInstr t (encodeTile w major minor) = tileInstr t w major minor := by
  have hs : (tileInstr { array := 0, index := 0 } {} major minor).isSome = true :=
    (tileInstr_isSome _ t _ w major minor).trans h
  obtain ⟨i, hi⟩ := Option.isSome_iff_exists.1 h
  constructor
  · simp only [wordListed, wordMajor_encodeTile w hM hm, wordMinor_encodeTile w major hm, hs, Bool.or_true, Bool.true_or]
  · simp only [decodeInstr, wordMajor_encodeTile w hM hm, wordMinor_encodeTile w major hm, parseTile_encodeTile,
      scalarInstr_of_tileInstr h, hi, Option.none_or, Option.some_or]

/-- `COLL`'s opcode is in neither table: its operation code is in `IMM` (R291). -/
theorem decode_encodeColl (t : ThreadId) (w : TileWord) :
    wordListed (encodeTile w 0x70 0x00) = true ∧ decodeInstr t (encodeTile w 0x70 0x00) = collInstr t w := by
  have hM : wordMajor (encodeTile w 0x70 0x00) = 0x70 := wordMajor_encodeTile w (by decide) (by decide)
  have hm : wordMinor (encodeTile w 0x70 0x00) = 0x00 := wordMinor_encodeTile w _ (by decide)
  have hw : parseTile (encodeTile w 0x70 0x00) = w := parseTile_encodeTile w _ _
  generalize encodeTile w 0x70 0x00 = x at hM hm hw
  constructor
  · rw [wordListed, hM, hm]
    exact Bool.or_true _
  · rw [decodeInstr, hM, hm, hw, scalarInstr_of_le t _ _ (by decide), tileInstr_of_lt t _ _ (by decide), Option.none_or,
      Option.none_or]
    exact if_pos rfl

/-- A word that R124 does not list is no instruction. -/
theorem decode_of_unlisted (t : ThreadId) {w : InstrWord} (h : wordListed w = false) : decodeInstr t w = none := by
  simp only [wordListed, Bool.or_eq_false_iff] at h
  obtain ⟨⟨hs, ht⟩, hc⟩ := h
  rw [scalarInstr_isSome _ t _ (parseScalar w)] at hs
  rw [tileInstr_isSome _ t _ (parseTile w)] at ht
  simp_all [decodeInstr]

/-- Settles O9: each field of a word is the number that stands between its bounds, and the two groups of opcodes are
apart. -/
theorem instructionWordsDecodeToTheirInstruction : Obligations.InstructionWordsDecodeToTheirInstruction :=
  ⟨fun t w _ _ hM hm h => decode_encodeScalar t w hM hm h, fun t w _ _ hM hm h => decode_encodeTile t w hM hm h,
    decode_encodeColl, fun t _ h => decode_of_unlisted t h⟩

end Sys2Proof.Machine
end

section
/-! CLAIMS. Arithmetic and compares (O10, O11), and what register instructions leave as it was (O13). -/

namespace Sys2Proof.Machine

/-- Where an arithmetic instruction issues, it writes its result to SD (R125). -/
theorem State.alu_of_issues {s : State} {t : ThreadId} {minor : Nat} {w : ScalarWord} {f : Word → Word → Word}
    (h : Issues s t w.pred w.pneg) (hl : scalarLegal w useAlu = true) :
    s.alu t minor w f = (s.issued t).setThread t
      { (s.thread t).setReg w.sd (f ((s.thread t).reg w.sa) (second w (s.thread t))) with
        pc := (s.thread t).pc + 16 } := by
  rw [State.alu, State.issueScalar_of_issues h hl, State.writeReg, State.modThread_eq, State.issued_thread]
  rfl

/-- Where a compare issues, it writes whether its relation holds to PD (R125). -/
theorem State.compare_of_issues {s : State} {t : ThreadId} {minor : Nat} {w : ScalarWord} {f : Word → Word → Bool}
    (h : Issues s t w.pred w.pneg) (hl : scalarLegal w useCmp = true) :
    s.compare t minor w f = (s.issued t).setThread t
      { (s.thread t).setPred w.pd (f ((s.thread t).reg w.sa) (second w (s.thread t))) with
        pc := (s.thread t).pc + 16 } := by
  rw [State.compare, State.issueScalar_of_issues h hl, State.writePred, State.modThread_eq, State.issued_thread]
  rfl

/-- A word with only the fields of an arithmetic instruction is legal for it (R123, R124). -/
theorem scalarLegal_useAlu {w : ScalarWord} (hz : ScalarZero w) (hv : w.var = 0) (hpd : w.pd = 0) (hc : SecondChosen w) :
    scalarLegal w useAlu = true := by
  obtain ⟨hi, lo⟩ := hz
  unfold SecondChosen at hc
  cases himm : w.immb <;> simp_all [scalarLegal, useAlu]

theorem scalarLegal_useCmp {w : ScalarWord} (hz : ScalarZero w) (hv : w.var = 0) (hsd : w.sd = 0) (hc : SecondChosen w) :
    scalarLegal w useCmp = true := by
  obtain ⟨hi, lo⟩ := hz
  unfold SecondChosen at hc
  cases himm : w.immb <;> simp_all [scalarLegal, useCmp]

/-! ### Signed comparisons -/

theorem minSigned_eq (a b : Word) : minSigned a b = if a.toInt ≤ b.toInt then a else b := by
  simp only [minSigned, BitVec.slt_iff_toInt_lt]
  rcases Int.lt_trichotomy a.toInt b.toInt with h | h | h
  · rw [if_pos h, if_pos (Int.le_of_lt h)]
  · rw [BitVec.eq_of_toInt_eq h, ite_self, ite_self]
  · rw [if_neg (Int.not_lt.2 (Int.le_of_lt h)), if_neg (Int.not_le.2 h)]

theorem maxSigned_eq (a b : Word) : maxSigned a b = if a.toInt ≤ b.toInt then b else a := by
  simp only [maxSigned, BitVec.slt_iff_toInt_lt]
  rcases Int.lt_trichotomy a.toInt b.toInt with h | h | h
  · rw [if_pos h, if_pos (Int.le_of_lt h)]
  · rw [BitVec.eq_of_toInt_eq h, ite_self, ite_self]
  · rw [if_neg (Int.not_lt.2 (Int.le_of_lt h)), if_neg (Int.not_le.2 h)]

/-- Settles O10: each instruction is the one effect of arithmetic with its own function. -/
theorem scalarArithmeticWritesItsResult : Obligations.ScalarArithmeticWritesItsResult := by
  unfold Obligations.ScalarArithmeticWritesItsResult
  intro s t w h hz hv hpd hc
  have run : ∀ (minor : Nat) (f g : Word → Word → Word), (∀ a b, f a b = g a b) →
      s.alu t minor w f = (s.issued t).setThread t
        { s.thread t with
          regs := (s.thread t).regs.set w.sd.toNat (g ((s.thread t).reg w.sa) (second w (s.thread t))) w.sd.isLt
          pc := (s.thread t).pc + 16 } := by
    intro minor f g e
    rw [State.alu_of_issues h (scalarLegal_useAlu hz hv hpd hc), e]
    rfl
  have same : ∀ (f : Word → Word → Word) a b, f a b = f a b := fun _ _ _ => rfl
  simp only [List.forall_mem_cons]
  exact ⟨congrArg _ (run _ _ _ (same _)), congrArg _ (run _ _ _ (same _)), congrArg _ (run _ _ _ (same _)),
    congrArg _ (run _ _ _ (same mulHigh)), congrArg _ (run _ _ _ (same _)), congrArg _ (run _ _ _ (same _)),
    congrArg _ (run _ _ _ (same _)), congrArg _ (run _ _ _ (same _)), congrArg _ (run _ _ _ (same _)),
    congrArg _ (run _ _ _ (same _)), congrArg _ (run _ _ _ minSigned_eq), congrArg _ (run _ _ _ maxSigned_eq), by simp⟩

/-- Settles O11: each instruction is the one effect of compares with its own relation. -/
theorem comparesWriteTheirPredicate : Obligations.ComparesWriteTheirPredicate := by
  unfold Obligations.ComparesWriteTheirPredicate
  intro s t w h hz hv hsd hc
  have run : ∀ (minor : Nat) (f g : Word → Word → Bool), (∀ a b, f a b = g a b) →
      s.compare t minor w f = (s.issued t).setThread t
        { s.thread t with
          preds := if w.pd = 0 then (s.thread t).preds
            else (s.thread t).preds.set w.pd.toNat (g ((s.thread t).reg w.sa) (second w (s.thread t))) w.pd.isLt
          pc := (s.thread t).pc + 16 } := by
    intro minor f g e
    rw [State.compare_of_issues h (scalarLegal_useCmp hz hv hsd hc), e]
    unfold Thread.setPred
    split <;> rfl
  simp only [List.forall_mem_cons]
  exact ⟨congrArg _ (run _ _ _ fun a b => rfl), congrArg _ (run _ _ _ fun a b => decide_not.symm),
    congrArg _ (run _ _ _ fun a b => rfl), congrArg _ (run _ _ _ fun a b => rfl), congrArg _ (run _ _ _ fun a b => rfl),
    congrArg _ (run _ _ _ fun a b => rfl), by simp⟩

end Sys2Proof.Machine
end

section
/-! CLAIMS. What register instructions leave as it was (O13). -/

namespace Sys2Proof.Machine

/-- Every unit is as it was where only records and a thread have changed. -/
theorem unitsKept_of_kept {s u : State} {t : ThreadId} {y : Thread} (h : u.kept = s.kept) :
    UnitsKept s (u.setThread t y) := by
  obtain ⟨-, ctxs, launches, arrays, tags, -, stashes, trains, guards, host, fabric, coll, twin, strongroom, -, -⟩ :=
    State.kept_fields h
  exact ⟨ctxs, launches, arrays, tags, stashes, trains, guards, host, fabric, coll, twin, strongroom⟩

@[simp] theorem State.issued_kept (s : State) (t : ThreadId) : (s.issued t).kept = s.kept := s.count_kept ..

/-- Only the thread that issues is another in the state that its instruction leaves. -/
theorem State.otherThreads_issued (s : State) {t : ThreadId} (y : Thread) (ht : t.array < 64) :
    OtherThreads s ((s.issued t).setThread t y) t := by
  intro v hv hne
  rw [State.setThread_other _ _ ht hv hne, State.issued_thread]

/-- Where a thread fetches an instruction whose unused fields are zero, the instruction acts, or is passed over where its
predicate test fails. -/
theorem State.issue_of_fetches {s : State} {t : ThreadId} {word : InstrWord} {p : BitVec 3} {neg legal : Bool}
    {body : Thread → State → State} (h : Fetches s t) (hl : legal = true) :
    s.issue t word p neg legal body =
      if (s.thread t).passes p neg then body (s.thread t) (s.issued t) else (s.issued t).advance t := by
  have hp : ∀ b : Bool, (if (!b) = true then (s.issued t).advance t else body (s.thread t) (s.issued t)) =
      if b = true then body (s.thread t) (s.issued t) else (s.issued t).advance t := by
    rintro (- | -) <;> rfl
  rw [← hp]
  simp [State.issue, State.fetchTrap_of_reads h.toReadsAtPc, h.running, h.active, h.listed, hl, State.issued]

/-- The outcome is the state in which the issue is counted, with the thread at the next instruction and its descriptors
as they were. -/
def RegisterOnly (s u : State) (t : ThreadId) : Prop :=
  ∃ y : Thread, u = (s.issued t).setThread t y ∧ y.descs = (s.thread t).descs ∧ y.state = (s.thread t).state ∧
    y.pc = (s.thread t).pc + 16

/-- A change of the issuing thread that leaves its descriptors and state and goes on. -/
theorem registerOnly_modThread (s : State) (t : ThreadId) {f : Thread → Thread}
    (hf : ∀ x : Thread, (f x).descs = x.descs ∧ (f x).state = x.state ∧ (f x).pc = x.pc + 16) :
    RegisterOnly s ((s.issued t).modThread t f) t := by
  refine ⟨f (s.thread t), ?_, hf _⟩
  rw [State.modThread_eq, State.issued_thread]

theorem registerOnly_writeReg (s : State) (t : ThreadId) (r : BitVec 5) (v : Word) :
    RegisterOnly s ((s.issued t).writeReg t r v) t := registerOnly_modThread s t fun _ => ⟨rfl, rfl, rfl⟩

theorem registerOnly_writePred (s : State) (t : ThreadId) (p : BitVec 3) (v : Bool) :
    RegisterOnly s ((s.issued t).writePred t p v) t := by
  refine registerOnly_modThread s t fun x => ⟨?_, ?_, rfl⟩ <;> unfold Thread.setPred <;> dsimp only <;> split <;> rfl

/-- An instruction whose effect is on registers has that effect or, where its predicate test fails, none. -/
theorem registerOnly_issue {s : State} {t : ThreadId} {word : InstrWord} {p : BitVec 3} {neg legal : Bool}
    {body : Thread → State → State} (h : Fetches s t) (hl : legal = true)
    (hb : RegisterOnly s (body (s.thread t) (s.issued t)) t) : RegisterOnly s (s.issue t word p neg legal body) t := by
  rw [State.issue_of_fetches h hl]
  split
  · exact hb
  · exact registerOnly_modThread s t fun _ => ⟨rfl, rfl, rfl⟩

/-- What an instruction whose effect is on registers leaves as it was. -/
theorem registerOnly_keeps {s u v : State} {t : ThreadId} (ht : t.array < 64) (h : (s.thread t).state = .running)
    (hr : RegisterOnly s v t) (e : (Host.Outcome.next v : Host.Outcome State Fault Refusal) = .next u) :
    OtherThreads s u t ∧ UnitsKept s u ∧ u.memory = s.memory ∧ (u.thread t).descs = (s.thread t).descs ∧
      (u.thread t).state = .running ∧ (u.thread t).pc = (s.thread t).pc + 16 := by
  obtain ⟨y, rfl, hd, hs, hp⟩ := hr
  cases e
  refine ⟨s.otherThreads_issued y ht, unitsKept_of_kept (s.issued_kept t), s.issued_memory t, ?_, ?_, ?_⟩ <;>
    rw [State.setThread_thread]
  exacts [hd, hs.trans h, hp]

/-- Settles O13: each instruction writes one register or predicate of its thread and goes on. -/
theorem registerInstructionsTouchNothingElse : Obligations.RegisterInstructionsTouchNothingElse := by
  unfold Obligations.RegisterInstructionsTouchNothingElse
  intro s u t w ht h
  have reg : ∀ minor v (f : Thread → Word), scalarLegal w v = true →
      RegisterOnly s (s.issueScalar t 0x01 minor w v fun x s => s.writeReg t w.sd (f x)) t := by
    intro minor v f hl
    exact registerOnly_issue h hl (registerOnly_writeReg ..)
  have pred : ∀ minor v (f : Thread → Bool), scalarLegal w v = true →
      RegisterOnly s (s.issueScalar t 0x01 minor w v fun x s => s.writePred t w.pd (f x)) t := by
    intro minor v f hl
    exact registerOnly_issue h hl (registerOnly_writePred ..)
  have keeps : ∀ v, RegisterOnly s v t → _ → _ := fun v hr => registerOnly_keeps (u := u) ht h.running hr
  simp only [List.forall_mem_cons]
  exact ⟨fun hl => keeps _ (reg _ _ _ hl), fun hl => keeps _ (reg _ _ _ hl), fun hl => keeps _ (reg _ _ _ hl),
    fun hl => keeps _ (reg _ _ _ hl), fun hl => keeps _ (reg _ _ _ hl), fun hl => keeps _ (reg _ _ _ hl),
    fun hl => keeps _ (reg _ _ _ hl), fun hl => keeps _ (reg _ _ _ hl), fun hl => keeps _ (reg _ _ _ hl),
    fun hl => keeps _ (reg _ _ _ hl), fun hl => keeps _ (reg _ _ _ hl), fun hl => keeps _ (reg _ _ _ hl),
    fun hl => keeps _ (reg _ _ _ hl), fun hl => keeps _ (pred _ _ _ hl), fun hl => keeps _ (pred _ _ _ hl),
    fun hl => keeps _ (pred _ _ _ hl), fun hl => keeps _ (pred _ _ _ hl), fun hl => keeps _ (pred _ _ _ hl),
    fun hl => keeps _ (pred _ _ _ hl), fun hl => keeps _ (pred _ _ _ hl), fun hl => keeps _ (pred _ _ _ hl),
    fun hl => keeps _ (pred _ _ _ hl), fun hl => keeps _ (pred _ _ _ hl), by simp⟩

end Sys2Proof.Machine
end

section
/-! CLAIMS. Instructions with a nonzero unused field (O22), descriptor fields (O20) and special values (O21). -/

namespace Sys2Proof.Machine

/-- Bytes at the PC that are no listed instruction trap, and are what the trap names (R124). -/
theorem State.issue_of_unlisted {s : State} {t : ThreadId} {word : InstrWord} {p : BitVec 3} {neg legal : Bool}
    {body : Thread → State → State} (h : ReadsAtPc s t) (hw : wordListed (s.wordAt (s.thread t)) = false) :
    s.issue t word p neg legal body =
      (s.issued t).trap t (s.thread t).pc (BitVec.ofNat 128 (leNat (s.bytesAt (locOf (s.thread t).pc) 16)))
        { kind := 1, code := .badPacket } := by
  rw [State.wordAt] at hw
  simp [State.issue, State.fetchTrap_of_reads h, h.running, h.active, hw, State.issued, State.wordAt, trIllegal]

/-- An instruction with a nonzero unused field traps, whatever its predicate test gives (R124). -/
theorem State.issue_of_illegal {s : State} {t : ThreadId} {word : InstrWord} {p : BitVec 3} {neg legal : Bool}
    {body : Thread → State → State} (h : Fetches s t) (hl : legal = false) :
    s.issue t word p neg legal body =
      (s.issued t).trap t (s.thread t).pc word { kind := 1, code := .badPacket } := by
  simp [State.issue, State.fetchTrap_of_reads h.toReadsAtPc, h.running, h.active, h.listed, hl, State.issued, trIllegal]

/-- A scalar instruction is carried out by the one issue, under its word, with whether its unused fields are zero. -/
def IssuedAs (s : State) (c : Instr) (t : ThreadId) (w : ScalarWord) (word : InstrWord) (legal : Bool) : Prop :=
  ∃ body, exec c s = .next (s.issue t word w.pred w.pneg legal body)

theorem exec_of_unlisted {s : State} {c : Instr} {t : ThreadId} {w : ScalarWord} {word : InstrWord} {legal : Bool}
    (hc : IssuedAs s c t w word legal) (h : ReadsAtPc s t) (hw : wordListed (s.wordAt (s.thread t)) = false) :
    exec c s = .next ((s.issued t).trap t (s.thread t).pc
      (BitVec.ofNat 128 (leNat (s.bytesAt (locOf (s.thread t).pc) 16))) { kind := 1, code := .badPacket }) := by
  obtain ⟨body, e⟩ := hc
  rw [e, State.issue_of_unlisted h hw]

theorem exec_of_illegal {s : State} {c : Instr} {t : ThreadId} {w : ScalarWord} {word : InstrWord} {legal : Bool}
    (hc : IssuedAs s c t w word legal) (h : Fetches s t) (hl : legal = false) :
    exec c s = .next ((s.issued t).trap t (s.thread t).pc word { kind := 1, code := .badPacket }) := by
  obtain ⟨body, e⟩ := hc
  rw [e, State.issue_of_illegal h hl]

/-- The shared effects go through the issue. -/
theorem issuedAs_alu {s : State} {c : Instr} {t : ThreadId} {w : ScalarWord} {m : Nat} {f : Word → Word → Word}
    (e : exec c s = .next (s.alu t m w f)) : IssuedAs s c t w (scalarBits w 0x01 m) (scalarLegal w useAlu) := by
  rw [State.alu, State.issueScalar] at e
  exact ⟨_, e⟩

theorem issuedAs_compare {s : State} {c : Instr} {t : ThreadId} {w : ScalarWord} {m : Nat} {f : Word → Word → Bool}
    (e : exec c s = .next (s.compare t m w f)) : IssuedAs s c t w (scalarBits w 0x01 m) (scalarLegal w useCmp) := by
  rw [State.compare, State.issueScalar] at e
  exact ⟨_, e⟩

theorem issuedAs_predOp {s : State} {c : Instr} {t : ThreadId} {w : ScalarWord} {m : Nat} {f : Bool → Bool → Bool}
    (e : exec c s = .next (s.predOp t m w f)) : IssuedAs s c t w (scalarBits w 0x01 m) (scalarLegal w usePred) := by
  rw [State.predOp, State.issueScalar] at e
  exact ⟨_, e⟩

theorem issuedAs_load {s : State} {c : Instr} {t : ThreadId} {w : ScalarWord} {m : Nat} {sg : Bool}
    (e : exec c s = .next (s.load t m sg w)) :
    IssuedAs s c t w (scalarBits w 0x02 m) (scalarLegal w { sd := 31, sa := 31, imm := immAll, var := 3 }) := by
  rw [State.load, State.issueScalar] at e
  exact ⟨_, e⟩

theorem issuedAs_scalar {s : State} {c : Instr} {t : ThreadId} {w : ScalarWord} {M m : Nat} {u : ScalarUse}
    {body : Thread → State → State} (e : exec c s = .next (s.issueScalar t M m w u body)) :
    IssuedAs s c t w (scalarBits w M m) (scalarLegal w u) := by
  rw [State.issueScalar] at e
  exact ⟨_, e⟩

/-- Settles O22: every scalar instruction goes through the one issue, which looks at the word and its fields before
anything else. -/
theorem unusedFieldsTrapIllegal : Obligations.UnusedFieldsTrapIllegal := by
  unfold Obligations.UnusedFieldsTrapIllegal
  constructor
  · intro s t w h hw
    have traps : ∀ c word legal, IssuedAs s c t w word legal → _ = _ := fun c word legal hc => exec_of_unlisted hc h hw
    simp only [List.forall_mem_cons]
    exact ⟨traps _ _ _ (issuedAs_alu rfl), traps _ _ _ (issuedAs_scalar rfl), traps _ _ _ (issuedAs_load rfl),
      traps _ _ _ (issuedAs_scalar rfl), traps _ _ _ (issuedAs_scalar rfl), traps _ _ _ (issuedAs_scalar rfl),
      traps _ _ _ (issuedAs_scalar rfl), traps _ _ _ (issuedAs_scalar rfl), by simp⟩
  · intro s t w h
    have traps : ∀ c {word u}, IssuedAs s c t w word (scalarLegal w u) → scalarLegal w u = false → _ = _ :=
      fun c _ _ hc hl => exec_of_illegal hc h hl
    have atom : ∀ c {word u}, IssuedAs s c t w word (scalarLegal w u && w.var != 7) → scalarLegal w u = false → _ = _ :=
      fun c _ _ hc hl => exec_of_illegal hc h (by rw [hl, Bool.false_and])
    simp only [List.forall_mem_cons]
    exact ⟨traps _ (issuedAs_alu rfl), traps _ (issuedAs_alu rfl), traps _ (issuedAs_alu rfl),
      traps _ (issuedAs_alu rfl),
      traps _ (issuedAs_alu rfl), traps _ (issuedAs_alu rfl), traps _ (issuedAs_alu rfl), traps _ (issuedAs_alu rfl),
      traps _ (issuedAs_alu rfl), traps _ (issuedAs_alu rfl), traps _ (issuedAs_alu rfl), traps _ (issuedAs_alu rfl),
      traps _ (issuedAs_scalar rfl), traps _ (issuedAs_compare rfl), traps _ (issuedAs_compare rfl),
      traps _ (issuedAs_compare rfl),
      traps _ (issuedAs_compare rfl), traps _ (issuedAs_compare rfl), traps _ (issuedAs_compare rfl),
      traps _ (issuedAs_predOp rfl),
      traps _ (issuedAs_predOp rfl), traps _ (issuedAs_predOp rfl), traps _ (issuedAs_scalar rfl),
      traps _ (issuedAs_load rfl),
      traps _ (issuedAs_load rfl), traps _ (issuedAs_scalar rfl), atom _ ⟨_, rfl⟩, traps _ (issuedAs_scalar rfl),
      traps _ (issuedAs_scalar rfl), traps _ (issuedAs_scalar rfl), traps _ (issuedAs_scalar rfl),
      traps _ (issuedAs_scalar rfl),
      traps _ (issuedAs_scalar rfl), traps _ (issuedAs_scalar rfl), traps _ (issuedAs_scalar rfl),
      traps _ (issuedAs_scalar rfl), by simp⟩

/-! ### Descriptor fields (R483) -/

/-- A number with n bits from bit lo on replaced has the new bits there, and its own bits below and above. -/
theorem replaceBits (d v lo n : Nat) (hv : v < 2 ^ n) :
    ∃ r, r = d - d / 2 ^ lo % 2 ^ n * 2 ^ lo + v * 2 ^ lo ∧ r / 2 ^ lo % 2 ^ n = v ∧ r % 2 ^ lo = d % 2 ^ lo ∧
      r / 2 ^ (lo + n) = d / 2 ^ (lo + n) := by
  have hd : d = 2 ^ lo * (2 ^ n * (d / 2 ^ lo / 2 ^ n) + d / 2 ^ lo % 2 ^ n) + d % 2 ^ lo := by
    rw [Nat.div_add_mod, Nat.div_add_mod]
  refine ⟨2 ^ lo * (2 ^ n * (d / 2 ^ lo / 2 ^ n) + v) + d % 2 ^ lo, ?_, ?_, ?_, ?_⟩
  · generalize d / 2 ^ lo % 2 ^ n = f at hd ⊢
    generalize 2 ^ n * (d / 2 ^ lo / 2 ^ n) = h at hd ⊢
    rw [Nat.mul_add] at hd ⊢
    rw [Nat.mul_comm f, Nat.mul_comm v]
    omega
  · rw [Nat.mul_add_div (Nat.two_pow_pos lo), Nat.div_eq_of_lt (Nat.mod_lt d (Nat.two_pow_pos lo)), Nat.add_zero,
      Nat.mul_add_mod, Nat.mod_eq_of_lt hv]
  · rw [Nat.mul_add_mod, Nat.mod_mod]
  · rw [Nat.pow_add, ← Nat.div_div_eq_div_mul, Nat.mul_add_div (Nat.two_pow_pos lo),
      Nat.div_eq_of_lt (Nat.mod_lt d (Nat.two_pow_pos lo)), Nat.add_zero, Nat.mul_add_div (Nat.two_pow_pos n),
      Nat.div_eq_of_lt hv, Nat.add_zero, Nat.div_div_eq_div_mul]

/-- A number whose high bits are those of a number below 2^k is below 2^k. -/
theorem lt_of_div_eq {r d m k : Nat} (hm : m ≤ k) (h : r / 2 ^ m = d / 2 ^ m) (hd : d < 2 ^ k) : r < 2 ^ k := by
  have e : 2 ^ k = 2 ^ (k - m) * 2 ^ m := by rw [← Nat.pow_add, Nat.sub_add_cancel hm]
  rw [e] at hd ⊢
  rw [← Nat.div_lt_iff_lt_mul (Nat.two_pow_pos m)] at hd ⊢
  exact h ▸ hd

/-- The replacement of a field of a descriptor gives the field the value's low bits and leaves every other bit. -/
theorem setDescField_bits (d : Descr) {lo n : Nat} (v : Word) (hn : 0 < n) (h : lo + n ≤ 256) :
    (setDescField d lo n v).toNat / 2 ^ lo % 2 ^ n = v.toNat % 2 ^ n ∧
      (setDescField d lo n v).toNat % 2 ^ lo = d.toNat % 2 ^ lo ∧
      (setDescField d lo n v).toNat / 2 ^ (lo + n) = d.toNat / 2 ^ (lo + n) := by
  obtain ⟨r, hr, hfield, hlow, hhigh⟩ := replaceBits d.toNat (v.toNat % 2 ^ n) lo n (Nat.mod_lt _ (Nat.two_pow_pos n))
  have e : (setDescField d lo n v).toNat = r := by
    have hw : lo + n - 1 + 1 - lo = n := by omega
    rw [setDescField, bits, hw, ← hr, BitVec.toNat_ofNat, Nat.mod_eq_of_lt (lt_of_div_eq h hhigh d.isLt)]
  rw [e]
  exact ⟨hfield, hlow, hhigh⟩

/-- Where `DGET` issues, it writes the field of its descriptor to SD. -/
theorem exec_dget {s : State} {t : ThreadId} {w : ScalarWord} {lo n : Nat} (h : Issues s t w.pred w.pneg)
    (hl : scalarLegal w { sd := 31, sa := 15, var := 15 } = true) (hf : descField w.var.toNat = some (lo, n)) :
    exec (.dget t w) s = .next ((s.issued t).setThread t
      { (s.thread t).setReg w.sd (BitVec.ofNat 64 (bits ((s.thread t).descr (w.sa.setWidth 4)) (lo + n - 1) lo)) with
        pc := (s.thread t).pc + 16 }) := by
  have e : exec (.dget t w) s = execDget t w s := rfl
  rw [e, execDget, State.issueScalar_of_issues h hl]
  simp only [hf]
  rw [State.writeReg, State.modThread_eq, State.issued_thread]

/-- Where `DSET` issues, it replaces the field of its descriptor. -/
theorem exec_dset {s : State} {t : ThreadId} {w : ScalarWord} {lo n : Nat} (h : Issues s t w.pred w.pneg)
    (hl : scalarLegal w { sd := 15, sb := 31, imm := immAll, var := 15, choice := true } = true)
    (hf : descField w.var.toNat = some (lo, n)) :
    exec (.dset t w) s = .next ((s.issued t).setThread t
      { (s.thread t).setDescr (w.sd.setWidth 4)
          (setDescField ((s.thread t).descr (w.sd.setWidth 4)) lo n (secondOperand w (s.thread t))) with
        pc := (s.thread t).pc + 16 }) := by
  have e : exec (.dset t w) s = execDset t w s := rfl
  rw [e, execDset, State.issueScalar_of_issues h hl]
  simp only [hf]
  rw [State.modThread_eq, State.issued_thread]

theorem scalarLegal_dget {w : ScalarWord} (hz : ScalarZero w) (hpd : w.pd = 0) (hv : w.var.toNat < 16)
    (hsa : w.sa.toNat < 16) (hsb : w.sb = 0) (hb : w.immb = false) (hi : w.imm = 0) :
    scalarLegal w { sd := 31, sa := 15, var := 15 } = true := by
  obtain ⟨hhi, hlo⟩ := hz
  have ha : within w.sa.toNat 15 = true := within_lowMask (k := 4) hsa
  have hvar : within w.var.toNat 15 = true := within_lowMask (k := 4) hv
  simp [scalarLegal, hhi, hlo, hpd, hsb, hb, hi, ha, hvar]

theorem scalarLegal_dset {w : ScalarWord} (hz : ScalarZero w) (hpd : w.pd = 0) (hv : w.var.toNat < 16)
    (hsd : w.sd.toNat < 16) (hsa : w.sa = 0) (hc : SecondChosen w) :
    scalarLegal w { sd := 15, sb := 31, imm := immAll, var := 15, choice := true } = true := by
  obtain ⟨hhi, hlo⟩ := hz
  unfold SecondChosen at hc
  have hd : within w.sd.toNat 15 = true := within_lowMask (k := 4) hsd
  have hvar : within w.var.toNat 15 = true := within_lowMask (k := 4) hv
  cases himm : w.immb <;> simp_all [scalarLegal]

/-- The fields that R483 lists lie within the descriptor. -/
theorem descField_listed : ∀ p ∈ ([(0, 0, 64), (1, 64, 12), (2, 76, 12), (3, 88, 32), (4, 120, 8), (5, 128, 6),
    (6, 136, 48), (7, 184, 16), (8, 200, 8)] : List (Nat × Nat × Nat)),
    descField p.1 = some p.2 ∧ 0 < p.2.2 ∧ p.2.1 + p.2.2 ≤ 256 ∧ p.1 < 16 := by
  decide

/-- Settles O20: `DGET` and `DSET` act on the field that the table gives, whose replacement leaves the other bits. -/
theorem descriptorFieldsAreReadAndReplaced : Obligations.DescriptorFieldsAreReadAndReplaced := by
  unfold Obligations.DescriptorFieldsAreReadAndReplaced
  intro s t w h hz hpd x p hp hvar
  obtain ⟨hf, hn, hle, hv⟩ := descField_listed p hp
  obtain ⟨var, lo, n⟩ := p
  dsimp only at hvar hf hn hle hv ⊢
  subst hvar
  refine ⟨fun hsa hsb hb hi => ?_, fun hsd hsa hc => ?_⟩
  · have hw : lo + n - 1 + 1 - lo = n := by omega
    rw [exec_dget h (scalarLegal_dget hz hpd hv hsa hsb hb hi) hf, bits, hw]
    rfl
  · exact ⟨_, exec_dset h (scalarLegal_dset hz hpd hv hsd hsa hc) hf, setDescField_bits _ _ hn hle⟩

/-! ### Special values (R111) -/

theorem scalarLegal_sread {w : ScalarWord} (hz : ScalarZero w) (hsa : w.sa = 0) (hsb : w.sb = 0) (hpd : w.pd = 0)
    (hb : w.immb = false) (hv : w.var = 0) (hi : w.imm.toNat < 256) :
    scalarLegal w { sd := 31, imm := 0xFF } = true := by
  obtain ⟨hhi, hlo⟩ := hz
  have himm : within w.imm.toNat 0xFF = true := within_lowMask (k := 8) hi
  simp [scalarLegal, hhi, hlo, hpd, hsa, hsb, hb, hv, himm]

/-- The special values are of units that the records of events leave. -/
theorem State.special_kept (s : State) (t : ThreadId) (x : Thread) (n : Nat) :
    s.kept.special t x n = s.special t x n := rfl

theorem State.special_issued (s : State) (t v : ThreadId) (x : Thread) (n : Nat) :
    (s.issued t).special v x n = s.special v x n := by
  rw [← State.special_kept, State.issued_kept, State.special_kept]

theorem State.argBlock_issued (s : State) (t : ThreadId) (x : Thread) : (s.issued t).argBlock x = s.argBlock x := by
  have e : ∀ u : State, u.kept.argBlock x = u.argBlock x := fun _ => rfl
  rw [← e, State.issued_kept, e]

section
variable {s : State} {t : ThreadId} {w : ScalarWord} (h : Issues s t w.pred w.pneg)
  (hl : scalarLegal w { sd := 31, imm := 0xFF } = true)
include h hl

/-- Where `SREAD` issues, it writes the special value that its selector names. -/
theorem exec_sread {v : Nat} (hi : w.imm.toNat ≠ 8 ∨ s.argBlock (s.thread t) ≠ 0)
    (hv : s.special t (s.thread t) w.imm.toNat = some v) :
    exec (.sread t w) s = .next ((s.issued t).setThread t
      { (s.thread t).setReg w.sd (BitVec.ofNat 64 v) with pc := (s.thread t).pc + 16 }) := by
  have e : exec (.sread t w) s = execSread t w s := rfl
  have hn : ¬ (w.imm.toNat = 8 ∧ s.argBlock (s.thread t) = 0) := by tauto
  rw [e, execSread, State.issueScalar_of_issues h hl]
  simp only [State.argBlock_issued, State.special_issued, hv, Bool.and_eq_true, decide_eq_true_eq, hn, if_false]
  rw [State.writeReg, State.modThread_eq, State.issued_thread]

/-- The argument block of a launch that has none is a free value (notes/assumptions/1.md). -/
theorem exec_sread_free (hi : w.imm.toNat = 8) (ha : s.argBlock (s.thread t) = 0) :
    exec (.sread t w) s = .next (({ s.issued t with freeIndex := (s.issued t).freeIndex + 1 } : State).setThread t
      { (s.thread t).setReg w.sd (Config.freeValue (s.issued t).freeIndex) with pc := (s.thread t).pc + 16 }) := by
  have e : exec (.sread t w) s = execSread t w s := rfl
  rw [e, execSread, State.issueScalar_of_issues h hl]
  simp only [State.argBlock_issued, hi, ha, decide_true, Bool.and_self, if_true, State.free]
  have hx : ({ s.issued t with freeIndex := (s.issued t).freeIndex + 1 } : State).thread t = s.thread t := s.issued_thread t t
  rw [State.writeReg, State.modThread_eq, hx]

/-- A selector that R111 does not list traps. -/
theorem exec_sread_unlisted (hi : w.imm.toNat ≠ 8) (hv : s.special t (s.thread t) w.imm.toNat = none) :
    exec (.sread t w) s = .next ((s.issued t).trap t (s.thread t).pc (scalarBits w 0x04 0x04)
      { kind := 2, code := .badPacket, detail := 5 + 256 * 11 }) := by
  have e : exec (.sread t w) s = execSread t w s := rfl
  rw [e, execSread, State.issueScalar_of_issues h hl]
  simp only [State.special_issued, hv, hi, decide_false, Bool.false_and, Bool.false_eq_true, if_false]
  rfl
end

/-- No selector above the last that R111 lists names a value. -/
theorem State.special_unlisted (s : State) (t : ThreadId) (x : Thread) {n : Nat} (h : 0x11 < n) : s.special t x n = none := by
  match n, h with
  | _ + 18, _ => rfl

/-- Settles O21: each selector names its value, the argument block the only one that may be free. -/
theorem specialValuesAreRead : Obligations.SpecialValuesAreRead := by
  unfold Obligations.SpecialValuesAreRead
  intro s t w h hz hsa hsb hpd hb hv hi x of partner writes
  have hl := scalarLegal_sread hz hsa hsb hpd hb hv hi
  have run : ∀ n v, n ≠ 8 → s.special t x n = some v → w.imm.toNat = n → writes (s.issued t) (BitVec.ofNat 64 v) :=
    fun n v hn hs e => exec_sread h hl (.inl (e ▸ hn)) (e ▸ hs)
  have hpartner : s.partnerState t.array = if t.array % 2 = 1 then 3
      else if s.variant.arrays ≤ t.array + 1 ∨ partner.service = .gone then 2
      else if partner.service = .serving ∧ partner.asleep = false then 0 else 1 := by
    simp [State.partnerState, partner]
  refine ⟨?_, fun e ha => ?_, fun e ha => exec_sread_free h hl e ha, fun e => ?_⟩
  · simp only [List.forall_mem_cons]
    refine ⟨run _ _ (by decide) rfl, run _ _ (by decide) rfl, run _ _ (by decide) rfl, run _ _ (by decide) rfl,
      run _ _ (by decide) rfl, run _ _ (by decide) rfl, run _ _ (by decide) rfl, run _ _ (by decide) rfl,
      run _ _ (by decide) rfl, run _ _ (by decide) rfl, run _ _ (by decide) rfl, run _ _ (by decide) rfl,
      run _ _ (by decide) rfl, run _ _ (by decide) rfl, run _ _ (by decide) rfl, run _ _ (by decide) rfl,
      run _ _ (by decide) (congrArg some hpartner), by simp⟩
  · have hs : s.special t x w.imm.toNat = some (globalAddr s.lodge.deviceId (s.argBlock x)).toNat := by rw [e]; rfl
    have r := exec_sread h hl (.inr ha) hs
    rw [BitVec.ofNat_toNat, BitVec.setWidth_eq] at r
    exact r
  · exact exec_sread_unlisted h hl (by omega) (s.special_unlisted t x e)

end Sys2Proof.Machine
end

section
/-! SUPPORT. What sending leaves as it was: a packet that enters a port's queue, a flow that moves, and a `HELLO`
change ports, flows and records alone, and a request that is sent keeps what it asks (R258, R259, R268, R275). -/

namespace Sys2Proof.Machine

/-- A state with its ports, its flows, the devices that have had `HELLO`, and records taken out. -/
def State.offPorts (s : State) : State :=
  { s.kept with fabric := { s.fabric with ports := [], flows := [], helloed := [] } }

/-- A state with everything that sending may change taken out. -/
def State.offSends (s : State) : State :=
  { s.kept with fabric := { s.fabric with ports := [], flows := [], helloed := [], requests := [], unsent := []
                                          nextTag := 0 } }

theorem State.offPorts_of_kept {s u : State} (h : u.kept = s.kept) : u.offPorts = s.offPorts := by
  have hf : u.fabric = s.fabric := (congrArg State.fabric h :)
  simp only [State.offPorts, h, hf]

theorem State.offSends_of_ports {s u : State} (h : u.offPorts = s.offPorts) : u.offSends = s.offSends := by
  have hs : ∀ v : State, v.offSends = { v.offPorts with fabric := { v.offPorts.fabric with requests := [], unsent := []
                                                                                           nextTag := 0 } } := fun _ => rfl
  rw [hs, h, ← hs]

@[simp] theorem State.modPort_offPorts (s : State) (p : Nat) (f : Port → Port) : (s.modPort p f).offPorts = s.offPorts := rfl
@[simp] theorem State.setFlow_offPorts (s : State) (d vc p : Nat) : (s.setFlow d vc p).offPorts = s.offPorts := rfl
@[simp] theorem State.enqueue_offPorts (s : State) (p : Nat) (o : OutPacket) : (s.enqueue p o).offPorts = s.offPorts := rfl

@[simp] theorem State.count_offPorts (s : State) (c : CtrId) (i n : Nat) : (s.count c i n).offPorts = s.offPorts :=
  State.offPorts_of_kept (s.count_kept c i n)

@[simp] theorem State.endStall_offPorts (s : State) (p vc : Nat) : (s.endStall p vc).offPorts = s.offPorts := by
  unfold State.endStall
  split
  · exact State.offPorts_of_kept (s.countFree_kept _ _)
  · rfl

@[simp] theorem State.settleFlow_offPorts (s : State) (d vc : Nat) : (s.settleFlow d vc).offPorts = s.offPorts := by
  unfold State.settleFlow
  split
  · rfl
  · split
    · rfl
    · split
      · rfl
      · extract_lets p mine moved s0 s1
        have h0 : s0.offPorts = s.offPorts := by
          unfold s0
          split
          · rfl
          · exact State.endStall_offPorts ..
        refine (foldl_keeps State.offPorts _ (fun _ _ => State.modPort_offPorts ..) _ _).trans ?_
        rw [State.modPort_offPorts, State.count_offPorts, State.setFlow_offPorts, h0]

/-- The port of a flow, with the state in which the flow has it. -/
theorem State.flowPort_offPorts {s u : State} {d vc p : Nat} (h : s.flowPort d vc = some (p, u)) :
    u.offPorts = s.offPorts := by
  unfold State.flowPort at h
  dsimp only at h
  split at h
  · split at h
    · cases h
      exact State.settleFlow_offPorts ..
    · cases h
  · simp only [Option.map_eq_some_iff, Prod.mk.injEq] at h
    obtain ⟨q, -, -, rfl⟩ := h
    rw [State.setFlow_offPorts, State.settleFlow_offPorts]

theorem State.portFor_offPorts {s u : State} {type d vc p : Nat} (h : s.portFor type d vc = some (p, u)) :
    u.offPorts = s.offPorts := by
  unfold State.portFor at h
  split at h
  · split at h
    · cases h
      rfl
    · cases h
  · exact State.flowPort_offPorts h

@[simp] theorem State.hello_offPorts (s : State) (d : Nat) : (s.hello d).offPorts = s.offPorts := by
  unfold State.hello
  split
  · rfl
  · rename_i p u h
    exact State.flowPort_offPorts (u := u) h

@[simp] theorem State.helloFirst_offPorts (s : State) (d : Nat) : (s.helloFirst d).offPorts = s.offPorts := by
  unfold State.helloFirst
  split
  · rfl
  · exact s.hello_offPorts d

/-! ### Requests -/

theorem State.requests_of_offPorts {s u : State} (h : u.offPorts = s.offPorts) : u.fabric.requests = s.fabric.requests :=
  (congrArg (fun x : State => x.fabric.requests) h :)

/-- The same request waits under its tag: its timer or its port may have been set. -/
def SameRequest (s u : State) (tag : Nat) : Prop :=
  ∀ r, Map.get? s.fabric.requests tag = some r →
    ∃ r', Map.get? u.fabric.requests tag = some r' ∧ r'.out = r.out ∧ r'.unit = r.unit

theorem SameRequest.of_eq {s u : State} (h : u.fabric.requests = s.fabric.requests) (tag : Nat) : SameRequest s u tag :=
  fun r hr => ⟨r, h ▸ hr, rfl, rfl⟩

theorem SameRequest.trans {s u v : State} {tag : Nat} (h : SameRequest s u tag) (h' : SameRequest u v tag) :
    SameRequest s v tag := by
  intro r hr
  obtain ⟨r1, h1, ho1, hu1⟩ := h r hr
  obtain ⟨r2, h2, ho2, hu2⟩ := h' r1 h1
  exact ⟨r2, h2, ho2.trans ho1, hu2.trans hu1⟩

/-- A change of a request's timer or port. -/
theorem State.modRequest_same (s : State) (k tag : Nat) (f : Request → Request)
    (hf : ∀ r, (f r).out = r.out ∧ (f r).unit = r.unit) : SameRequest s (s.modRequest k f) tag := by
  intro r hr
  have e : (s.modRequest k f).fabric.requests = Map.modify s.fabric.requests k f := rfl
  rw [e, Map.modify]
  split
  · exact ⟨r, hr, rfl, rfl⟩
  · rename_i v hv
    rw [Map.get?_put]
    split
    · rename_i h
      subst h
      rw [hv] at hr
      cases hr
      exact ⟨_, rfl, hf _⟩
    · exact ⟨r, hr, rfl, rfl⟩

theorem State.modRequest_offSends (s : State) (k : Nat) (f : Request → Request) :
    (s.modRequest k f).offSends = s.offSends := rfl

/-- A request that is sent, or waits, changes ports, flows, requests and records alone. -/
@[simp] theorem State.sendRequest_offSends (s : State) (tag : Nat) : (s.sendRequest tag).offSends = s.offSends := by
  unfold State.sendRequest
  split
  · rfl
  · dsimp only
    split
    · rfl
    · split
      · exact (State.modRequest_offSends ..).trans (State.offSends_of_ports (s.helloFirst_offPorts _))
      · split
        · split <;> rfl
        · rename_i p u h
          have hu := State.offSends_of_ports (State.portFor_offPorts h)
          split
          · exact hu
          · exact hu

/-- Every request keeps what it asks when one is sent. -/
theorem State.sendRequest_same (s : State) (k tag : Nat) : SameRequest s (s.sendRequest k) tag := by
  unfold State.sendRequest
  split
  · exact .of_eq rfl tag
  · dsimp only
    split
    · exact .of_eq rfl tag
    · split
      · exact (SameRequest.of_eq (State.requests_of_offPorts (s.helloFirst_offPorts _)) tag).trans
          (State.modRequest_same _ _ _ _ fun _ => ⟨rfl, rfl⟩)
      · split
        · split
          · exact State.modRequest_same _ _ _ _ fun _ => ⟨rfl, rfl⟩
          · exact .of_eq rfl tag
        · rename_i p u h
          have hu := SameRequest.of_eq (State.requests_of_offPorts (State.portFor_offPorts h)) tag
          split
          · exact hu
          · exact hu.trans ((SameRequest.of_eq rfl tag).trans
              (State.modRequest_same (State.enqueue _ _ _) _ _ _ fun _ => ⟨rfl, rfl⟩))

/-- A unit's request changes ports, flows, requests and records alone. -/
theorem State.request_offSends (s : State) (type dst ctx : Nat) (addr : Word) (len : Nat) (unit : ReqUnit) (operand : Word)
    (payload : Bytes) (operation : Nat) (select byTag : Bool) (thread : Option ThreadId) (owner : Option Nat)
    (span : Option (Nat × Nat)) :
    (s.request type dst ctx addr len unit operand payload operation select byTag thread owner span).2.offSends =
      s.offSends := by
  unfold State.request
  exact State.sendRequest_offSends ..

/-- A unit's request waits under its tag with what it asks. -/
theorem State.request_asks (s : State) (type dst ctx : Nat) (addr : Word) (len : Nat) (unit : ReqUnit) (operand : Word)
    (payload : Bytes) (operation : Nat) (select byTag : Bool) (thread : Option ThreadId) (owner : Option Nat)
    (span : Option (Nat × Nat)) :
    let q := s.request type dst ctx addr len unit operand payload operation select byTag thread owner span
    ∃ r, Map.get? q.2.fabric.requests q.1 = some r ∧ r.unit = unit ∧ r.out.type = type ∧
      r.out.packet = { s.packet type dst ctx addr len q.1 operand payload operation with
        select := select, byTag := byTag, span := span } := by
  unfold State.request
  extract_lets tag base k r s1 q base2
  obtain ⟨r', h, ho, hu⟩ := s1.sendRequest_same tag tag r (by
    show Map.get? (Map.put s.fabric.requests tag r) tag = some r
    rw [Map.get?_put, if_pos rfl])
  exact ⟨r', h, hu, congrArg OutPacket.type ho, congrArg OutPacket.packet ho⟩

end Sys2Proof.Machine
end

section
/-! SUPPORT. Scalar accesses to memory: bytes as numbers (R12), a read and a write of this module, and a request to
another (R118, R120, R126, R139). -/

namespace Sys2Proof.Machine

/-! ### Bytes as numbers (R12) -/

theorem leNat_lt (bs : Bytes) : leNat bs < 2 ^ (8 * bs.length) := by
  induction bs with
  | nil => exact Nat.one_pos
  | cons b bs ih =>
    rw [leNat, List.length_cons, Nat.mul_add, Nat.pow_add, Nat.mul_comm (2 ^ (8 * bs.length))]
    have hb := b.isLt
    omega

/-- Bytes read as a number and written back are the same bytes. -/
theorem le_leNat (bs : Bytes) : le bs.length (leNat bs) = bs := by
  induction bs with
  | nil => rfl
  | cons b bs ih =>
    have hb := b.isLt
    have hd : (b.toNat + 256 * leNat bs) / 256 = leNat bs := by omega
    rw [leNat, List.length_cons, le, hd, ih]
    congr 1
    apply BitVec.eq_of_toNat_eq
    rw [BitVec.toNat_ofNat]
    omega

@[simp] theorem State.length_bytesAt (s : State) (a n : Nat) : (s.bytesAt a n).length = n := by
  simp [State.bytesAt, cellsRead]

/-- A number of n bytes is the signed value of its bytes (R126). -/
theorem sext_of_lt {n v : Nat} (h : v < 2 ^ n) : sext n v = if v < 2 ^ (n - 1) then (v : Int) else (v : Int) - 2 ^ n := by
  have e : (v : Int) % 2 ^ n = v := by
    rw [Int.emod_eq_of_lt (by omega)]
    exact_mod_cast h
  rw [sext, Nat.mod_eq_of_lt h, e]

/-- Loaded bytes extended with their sign. -/
theorem loaded_signed (bs : Bytes) :
    loaded true bs = if leNat bs < 2 ^ (8 * bs.length - 1) then BitVec.ofNat 64 (leNat bs)
      else BitVec.ofInt 64 ((leNat bs : Int) - 2 ^ (8 * bs.length)) := by
  simp only [loaded, if_true, sext_of_lt (leNat_lt bs)]
  split
  · exact BitVec.ofInt_natCast ..
  · rfl

/-! ### Addresses (R118) -/

theorem globalAddr_devOf_locOf (a : Word) : globalAddr (devOf a) (locOf a) = a := by
  apply BitVec.eq_of_toNat_eq
  have ha := a.isLt
  rw [globalAddr, BitVec.toNat_ofNat, devOf, locOf, Nat.mod_mod]
  omega

/-- An alignment that divides 2^48 is one of the local part. -/
theorem locOf_mod (a : Word) {n : Nat} (h : n ∣ 2 ^ 48) : locOf a % n = a.toNat % n := Nat.mod_mod_of_dvd _ h

/-! ### Memory reached by a thread that issues -/

theorem State.canRead_congr {s u : State} (h : u.memory = s.memory) (c a n : Nat) : u.canRead c a n = s.canRead c a n := by
  simp only [State.canRead, State.mayRead, State.page?, h]

@[simp] theorem State.issued_fabric (s : State) (t : ThreadId) : (s.issued t).fabric = s.fabric :=
  (congrArg State.fabric (s.issued_kept t) :)

@[simp] theorem State.issued_storeMeets (s : State) (t : ThreadId) (x : Thread) (a : Word) (n : Nat) :
    (s.issued t).storeMeets x a n = s.storeMeets x a n := by
  simp only [State.storeMeets, State.issued_fabric]

@[simp] theorem State.issued_hasRoute (s : State) (t : ThreadId) (d : Nat) : (s.issued t).hasRoute d = s.hasRoute d := by
  simp only [State.hasRoute, State.issued_fabric]

@[simp] theorem State.issued_bytesAt (s : State) (t : ThreadId) (a n : Nat) : (s.issued t).bytesAt a n = s.bytesAt a n := by
  simp only [State.bytesAt, State.issued_memory]

/-- The state of memory in which a thread reads it without more ado. -/
theorem memoryClean_issued {s : State} (h : MemoryClean s) (t : ThreadId) : MemoryClean (s.issued t) := by
  have hm := s.issued_memory t
  exact ⟨hm ▸ h.ecc, hm ▸ h.cellar, hm ▸ h.repairing, hm ▸ h.retiring, hm ▸ h.lost, hm ▸ h.lostPages⟩

theorem State.lostIn_nil {s : State} (h : MemoryClean s) (a n : Nat) : s.lostIn a n = [] := by
  simp [State.lostIn, h.lost, h.lostPages]

/-- A thread's read of clean memory that it may reach touches the range and acts on it (R126, R222). -/
theorem State.threadRead_local {s : State} {t : ThreadId} {word : InstrWord} {a : Word} {n : Nat} {write : Bool}
    {body : State → State} (h : LocalAccess s t a n write) :
    (s.issued t).threadRead s t word a n write body = body ((s.issued t).touch (locOf a) n) := by
  have hm := h.mapped
  have hc := memoryClean_issued h.clean t
  simp [State.threadRead, State.canRead_congr (s.issued_memory t), State.canWrite_congr (s.issued_memory t), hm,
    State.checkRead_clean _ _ _ hc.ecc hc.cellar, State.repairingIn_nil hc.repairing hc.retiring, State.lostIn_nil hc]

/-- A thread's write to clean memory that it may write stores its bytes, and the thread goes on (R126). -/
theorem State.threadWrite_local {s : State} {t : ThreadId} {word : InstrWord} {a : Word} {bs : Bytes}
    (h : LocalAccess s t a bs.length true) :
    (s.issued t).threadWrite s t word a bs =
      ((s.issued t).store (locOf a) bs).setThread t { s.thread t with pc := (s.thread t).pc + 16 } := by
  have hm : (s.issued t).canWrite ((s.issued t).thread t).ctx (locOf a) bs.length = true := by
    rw [State.canWrite_congr (s.issued_memory t), State.issued_thread]
    exact h.mapped
  have hc := memoryClean_issued h.clean t
  rw [State.threadWrite_stores (hm := hm) (hr := State.repairingIn_nil hc.repairing hc.retiring _ _), State.advance,
    State.modThread_eq, State.store_thread, State.issued_thread]

/-! ### Where an access goes (R118, R120, R126) -/

/-- An access of this module takes its last way. -/
theorem access_local {s : State} {t : ThreadId} {a : Word} {n : Nat} {write : Bool} (h : LocalAccess s t a n write)
    (misaligned everywhere away here : State) :
    (if a.toNat % n ≠ 0 then misaligned else if devOf a = 0xFFFF then everywhere
      else if devOf a ≠ (s.issued t).lodge.deviceId then away else here) = here := by
  rw [if_neg (not_not.2 h.aligned), if_neg h.known, if_neg (not_not.2 (h.here.trans (s.issued_deviceId t).symm))]

/-- An aligned access of another module takes the third. -/
theorem access_away {s : State} {a : Word} {n : Nat} (ha : a.toNat % n = 0) (hk : devOf a ≠ 0xFFFF)
    (hd : devOf a ≠ s.lodge.deviceId) (t : ThreadId) (misaligned everywhere away here : State) :
    (if a.toNat % n ≠ 0 then misaligned else if devOf a = 0xFFFF then everywhere
      else if devOf a ≠ (s.issued t).lodge.deviceId then away else here) = away := by
  rw [if_neg (not_not.2 ha), if_neg hk, if_pos (s.issued_deviceId t ▸ hd)]

/-! ### Requests to another module -/

theorem State.offSends_fields {s u : State} (h : u.offSends = s.offSends) :
    u.threads = s.threads ∧ u.memory = s.memory ∧ u.ctxs = s.ctxs ∧ u.launches = s.launches ∧
      u.lodge.deviceId = s.lodge.deviceId :=
  ⟨(congrArg State.threads h :), (congrArg State.memory h :), (congrArg State.ctxs h :), (congrArg State.launches h :),
    (congrArg (fun x : State => x.lodge.deviceId) h :)⟩

theorem State.thread_of_offSends {s u : State} (h : u.offSends = s.offSends) (t : ThreadId) : u.thread t = s.thread t := by
  obtain ⟨hthreads, -⟩ := State.offSends_fields h
  simp only [State.thread, hthreads]

@[simp] theorem State.issued_offSends (s : State) (t : ThreadId) : (s.issued t).offSends = s.offSends :=
  State.offSends_of_ports (State.offPorts_of_kept (s.issued_kept t))

/-- A thread that waits, once what it asked for is on its way, has its PC and registers, and memory its bytes. -/
theorem waits_waitFor {s u : State} (h : u.offSends = s.offSends) (t : ThreadId) (word : InstrWord) (w : Wait) :
    Waits s (u.waitFor t word w) t w := by
  obtain ⟨-, hm, -⟩ := State.offSends_fields h
  rw [State.waitFor, State.modThread_eq, State.thread_of_offSends h]
  refine ⟨?_, ?_, ?_, ?_, ?_, ?_, congrArg Memory.bytes hm⟩ <;> rw [State.setThread_thread]

/-- A request asks what it was made with. -/
theorem asked_request (s : State) (type dst ctx : Nat) (addr : Word) (len : Nat) (unit : ReqUnit) (operand : Word)
    (payload : Bytes) (operation : Nat) (select byTag : Bool) (thread : Option ThreadId) (owner : Option Nat)
    (span : Option (Nat × Nat)) :
    let q := s.request type dst ctx addr len unit operand payload operation select byTag thread owner span
    Asked q.2 q.1 type fun k => k.dstDevice = dst ∧ k.address = addr ∧ k.length = len ∧ k.operand = operand ∧
      k.payload = payload ∧ k.operation = operation := by
  obtain ⟨r, hr, -, ht, hp⟩ :=
    s.request_asks type dst ctx addr len unit operand payload operation select byTag thread owner span
  refine ⟨r, hr, ht, ?_⟩
  rw [hp]
  exact ⟨rfl, rfl, rfl, rfl, rfl, rfl⟩

/-- A thread's read of another module asks for its units and waits (R126, R259). -/
theorem State.remoteRead_asks {s : State} {t : ThreadId} (word : InstrWord) {a : Word} (n : Nat) (w : Nat → Wait)
    (hr : s.hasRoute (devOf a) = true) :
    ∃ tag, Waits s ((s.issued t).remoteRead t word a n w) t (w tag) ∧
      Asked ((s.issued t).remoteRead t word a n w) tag tReadReq fun k =>
        k.dstDevice = devOf a ∧ k.address = globalAddr (devOf a) (locOf a - locOf a % 16) ∧ k.length = max 16 n := by
  have e : (s.issued t).hasRoute (devOf a) = true := by rw [State.issued_hasRoute, hr]
  unfold State.remoteRead
  simp only [e, Bool.not_true, Bool.false_eq_true, if_false]
  refine ⟨_, waits_waitFor ((State.request_offSends ..).trans (s.issued_offSends t)) t word _, ?_⟩
  obtain ⟨r, h, ht, hd, ha, hl, -⟩ := asked_request (s.issued t) tReadReq (devOf a) _ _ (max 16 n) (.load t) 0 [] 0 false
    false (some t) none none
  exact ⟨r, h, ht, hd, ha, hl⟩

/-- A device with no route ends the read at once (R275). -/
theorem State.remoteRead_noRoute {s : State} {t : ThreadId} (word : InstrWord) {a : Word} (n : Nat) (w : Nat → Wait)
    (hr : s.hasRoute (devOf a) = false) :
    (s.issued t).remoteRead t word a n w =
      ((s.issued t).noRoute.noteCode (s.thread t).launch .peerTimeout).trap t (s.thread t).pc word
        { kind := 6, code := .peerTimeout, detail := devOf a } := by
  have e : (s.issued t).hasRoute (devOf a) = false := by rw [State.issued_hasRoute, hr]
  unfold State.remoteRead
  simp only [e, Bool.not_false, if_true, State.issued_thread]
  rfl

/-- Whole units of bytes that lie in one unit of 16: the unit's address and bytes (R259). -/
theorem wholeUnits_one {a : Nat} {bs : Bytes} (hn : 0 < bs.length) (h : a % 16 + bs.length ≤ 16) :
    ∃ p span, wholeUnits a bs = (a - a % 16, p, span) ∧ p.length = 16 ∧ (p.drop (a % 16)).take bs.length = bs := by
  have hc : ceilDiv (a % 16 + bs.length) 16 = 1 := by
    unfold ceilDiv
    omega
  refine ⟨_, _, rfl, ?_, ?_⟩
  · simp only [List.length_append, length_zeros, hc]
    omega
  · rw [List.append_assoc, List.drop_left' (length_zeros _), List.take_left' rfl]

/-- Whole units of bytes that start and end at units are the bytes. -/
theorem wholeUnits_aligned {a : Nat} {bs : Bytes} (ha : a % 16 = 0) (hn : bs.length % 16 = 0) :
    ∃ span, wholeUnits a bs = (a, bs, span) := by
  have hc : 16 * ceilDiv bs.length 16 = bs.length := by
    unfold ceilDiv
    omega
  have hz : zeros 0 = [] := rfl
  have haddr : (wholeUnits a bs).1 = a := by simp [wholeUnits, ha]
  have hbytes : (wholeUnits a bs).2.1 = bs := by simp [wholeUnits, ha, hc, hz]
  exact ⟨_, Prod.ext haddr (Prod.ext hbytes rfl)⟩

/-- A thread's store to another module is sent, and the thread goes on (R126, R149, R259). -/
theorem State.remoteStore_asks {s : State} {t : ThreadId} (word : InstrWord) {a : Word} (bs : Bytes)
    (hr : s.hasRoute (devOf a) = true) :
    ∃ tag u, (s.issued t).remoteStore t word a bs = u.setThread t
        { s.thread t with pc := (s.thread t).pc + 16, storesOut := (s.thread t).storesOut ++ [tag] } ∧
      u.offSends = s.offSends ∧
      Asked u tag tWriteReq fun k => k.dstDevice = devOf a ∧
        k.address = globalAddr (devOf a) (wholeUnits (locOf a) bs).1 ∧
        k.length = (wholeUnits (locOf a) bs).2.1.length ∧ k.payload = (wholeUnits (locOf a) bs).2.1 := by
  have e : (s.issued t).hasRoute (devOf a) = true := by rw [State.issued_hasRoute, hr]
  unfold State.remoteStore
  simp only [e, Bool.not_true, Bool.false_eq_true, if_false]
  generalize hq : (s.issued t).writeRequest (devOf a) ((s.issued t).thread t).ctx (locOf a) bs
      (.store t ((s.issued t).thread t).pc word) (some t) = q
  have hk : q.2.offSends = s.offSends := by
    rw [← hq]
    exact (State.request_offSends ..).trans (s.issued_offSends t)
  refine ⟨q.1, q.2, ?_, hk, ?_⟩
  · rw [State.advance, State.modThread_eq, State.modThread_eq, State.setThread_thread, State.setThread_setThread,
      State.thread_of_offSends hk]
  · rw [← hq]
    obtain ⟨r, h, ht, hd, ha, hl, -, hp, -⟩ := asked_request (s.issued t) tWriteReq (devOf a) _ _ _
      (.store t ((s.issued t).thread t).pc word) 0 _ 0 false false (some t) none _
    exact ⟨r, h, ht, hd, ha, hl, hp⟩

end Sys2Proof.Machine
end

section
/-! CLAIMS. Loads (O16), stores (O17), atomics (O18) and descriptors in memory (O19). -/

namespace Sys2Proof.Machine

/-! ### Loads -/

theorem scalarLegal_load {w : ScalarWord} (hz : ScalarZero w) (hsb : w.sb = 0) (hpd : w.pd = 0) (hb : w.immb = false)
    (hv : w.var.toNat < 4) : scalarLegal w { sd := 31, sa := 31, imm := immAll, var := 3 } = true := by
  obtain ⟨hhi, hlo⟩ := hz
  have hvar : within w.var.toNat 3 = true := within_lowMask (k := 2) hv
  simp [scalarLegal, hhi, hlo, hpd, hsb, hb, hvar]

section
variable {s : State} {t : ThreadId} {w : ScalarWord} {minor : Nat} {sg : Bool} (h : Issues s t w.pred w.pneg)
  (hl : scalarLegal w { sd := 31, sa := 31, imm := immAll, var := 3 } = true)
include h hl

/-- A load from this module writes the bytes read to SD (R126). -/
theorem State.load_local (ha : LocalAccess s t ((s.thread t).reg w.sa + w.imm) (2 ^ w.var.toNat) false) :
    s.load t minor sg w =
      ((s.issued t).touch (locOf ((s.thread t).reg w.sa + w.imm)) (2 ^ w.var.toNat)).setThread t
        { (s.thread t).setReg w.sd
            (loaded sg (s.bytesAt (locOf ((s.thread t).reg w.sa + w.imm)) (2 ^ w.var.toNat))) with
          pc := (s.thread t).pc + 16 } := by
  rw [State.load, State.issueScalar_of_issues h hl]
  refine ((access_local ha _ _ _ _).trans (State.threadRead_local ha)).trans ?_
  rw [State.writeReg, State.modThread_eq, State.touch_thread, State.issued_thread,
    State.touch_bytesAt, State.issued_bytesAt]
  rfl

/-- A load from another module looks first at the thread's own stores to the same bytes (R139). -/
theorem State.load_away (ha : ((s.thread t).reg w.sa + w.imm).toNat % 2 ^ w.var.toNat = 0)
    (hd : devOf ((s.thread t).reg w.sa + w.imm) ≠ s.lodge.deviceId)
    (hk : devOf ((s.thread t).reg w.sa + w.imm) ≠ 0xFFFF) :
    s.load t minor sg w =
      (s.issued t).afterStores s t (scalarBits w 0x02 minor) ((s.thread t).reg w.sa + w.imm) (2 ^ w.var.toNat)
        ((s.issued t).remoteRead t (scalarBits w 0x02 minor) ((s.thread t).reg w.sa + w.imm) (2 ^ w.var.toNat)
          fun tag => .load w.sd.toNat (2 ^ w.var.toNat) (locOf ((s.thread t).reg w.sa + w.imm) % 16) sg tag) := by
  rw [State.load, State.issueScalar_of_issues h hl]
  exact access_away ha hk hd t _ _ _ _
end

/-- A thread's access to another module that its earlier stores do not meet goes on at once. -/
theorem State.afterStores_clear {s : State} {t : ThreadId} {a : Word} {n : Nat} (h : s.storeMeets (s.thread t) a n = false)
    (word : InstrWord) (go : State) : (s.issued t).afterStores s t word a n go = go := by
  simp [State.afterStores, h]

/-- One that they meet waits for them (R139). -/
theorem State.afterStores_waits {s : State} {t : ThreadId} {a : Word} {n : Nat} (h : s.storeMeets (s.thread t) a n = true)
    (word : InstrWord) (go : State) :
    (s.issued t).afterStores s t word a n go =
      s.setThread t { s.thread t with state := .waiting, wait := some .stores, word := word } := by
  simp [State.afterStores, h, State.waitFor, State.modThread_eq]

/-- The answer to a load writes SD, and the thread goes on (R126). -/
theorem State.loadAnswered_load {s : State} {t : ThreadId} {tag sd n off : Nat} {sg : Bool} (r : Request) (v : Word)
    (bs : Bytes) (hs : (s.thread t).state = .waiting) (hw : (s.thread t).wait = some (.load sd n off sg tag)) :
    s.loadAnswered t tag r (.ok v bs) = s.setThread t
      { (s.thread t).setReg (BitVec.ofNat 5 sd) (loaded sg ((bs.drop off).take n)) with
        state := .running, wait := none, pc := (s.thread t).pc + 16 } := by
  have ha : (s.thread t).awaits tag = true := by simp [Thread.awaits, hs, hw]
  simp only [State.loadAnswered, ha, Bool.not_true, Bool.false_eq_true, if_false, hw, State.wake, State.writeReg,
    State.modThread_eq, State.setThread_thread, State.setThread_setThread]
  rfl

/-- Settles O16: a load is one read of this module or one request to another, and its answer ends it. -/
theorem loadsWriteTheBytesRead : Obligations.LoadsWriteTheBytesRead := by
  unfold Obligations.LoadsWriteTheBytesRead
  refine ⟨fun s t w h hz hsb hpd hb hv => ?issue, fun s t tag sd n off sg r v bs _ hs hw =>
    State.loadAnswered_load r v bs hs hw⟩
  intro x n at_ a v
  have hl := scalarLegal_load hz hsb hpd hb hv
  refine ⟨fun ha => ⟨congrArg _ (State.load_local h hl ha), ?signed⟩, ?away⟩
  case signed =>
    have e := State.load_local (minor := 0x01) (sg := true) h hl ha
    rw [loaded_signed, State.length_bytesAt] at e
    exact congrArg _ e
  case away =>
    have hn : max 16 n = 16 := by
      have h3 : n ≤ 2 ^ 3 := Nat.pow_le_pow_right (by decide) (by omega)
      omega
    have hlo : locOf at_ - locOf at_ % 16 = a - a % 16 := rfl
    have run : ∀ (c : Instr) (minor : Nat) (sg : Bool), exec c s = .next (s.load t minor sg w) →
        (AwayAccess s t at_ n → s.hasRoute (devOf at_) = true →
          Completes c s fun u => ∃ tag, Waits s u t (.load w.sd.toNat n (a % 16) sg tag) ∧
            Asked u tag tReadReq fun k => k.dstDevice = devOf at_ ∧ k.address = globalAddr (devOf at_) (a - a % 16) ∧
              k.length = 16) ∧
        (AwayAccess s t at_ n → s.hasRoute (devOf at_) = false →
          exec c s = .next (((s.issued t).noRoute.noteCode x.launch .peerTimeout).trap t x.pc
            (scalarBits w 0x02 minor) { kind := 6, code := .peerTimeout, detail := devOf at_ })) ∧
        (devOf at_ ≠ s.lodge.deviceId → devOf at_ ≠ 0xFFFF → at_.toNat % n = 0 → s.storeMeets x at_ n = true →
          exec c s = .next (s.setThread t
            { x with state := .waiting, wait := some .stores, word := scalarBits w 0x02 minor })) := by
      intro c minor sg e
      refine ⟨fun ha hr => ?_, fun ha hr => ?_, fun hd hk hal hm => ?_⟩
      · rw [State.load_away h hl ha.aligned ha.away ha.known, State.afterStores_clear ha.clear] at e
        obtain ⟨tag, hw, hq⟩ := State.remoteRead_asks (scalarBits w 0x02 minor) n
          (fun tag => .load w.sd.toNat n (a % 16) sg tag) hr
        rw [hn] at hq
        exact ⟨_, e, tag, hw, hq⟩
      · rw [e, State.load_away h hl ha.aligned ha.away ha.known, State.afterStores_clear ha.clear,
          State.remoteRead_noRoute _ _ _ hr]
      · rw [e, State.load_away h hl hal hd hk, State.afterStores_waits hm]
    simp only [List.forall_mem_cons]
    exact ⟨run _ _ _ rfl, run _ _ _ rfl, by simp⟩

/-! ### Stores -/

/-- What a local store leaves as it was, whatever bytes it writes and whatever the thread becomes. -/
theorem store_effect {s v : State} {t : ThreadId} (ht : t.array < 64) {a : Nat} (bs : Bytes) (y : Thread)
    (hv : v.unplaced = s.unplaced) (hc : s.memory.repairing = []) :
    let u := (v.store a bs).setThread t y
    u.bytesAt a bs.length = bs ∧ BytesOutside s u a bs.length ∧ u.thread t = y ∧ OtherThreads s u t ∧ u.ctxs = s.ctxs ∧
      u.launches = s.launches ∧ u.fabric = s.fabric ∧ u.host = s.host := by
  have hb : v.memory.bytes = s.memory.bytes := (congrArg (fun x : State => x.memory.bytes) hv :)
  have hr : v.memory.repairing = [] := (congrArg (fun x : State => x.memory.repairing) hv :).trans hc
  have hth : v.threads = s.threads := (congrArg State.threads hv :)
  obtain ⟨-, ctxs, launches, host, fabric, -⟩ := v.store_fields a bs
  refine ⟨v.store_bytesAt a bs hr, fun b hb' => ?_, State.setThread_thread .., fun w hw hne => ?_,
    ctxs.trans (congrArg State.ctxs hv :), launches.trans (congrArg State.launches hv :),
    fabric.trans (congrArg State.fabric hv :), host.trans (congrArg State.host hv :)⟩
  · exact (v.store_outside a bs b hb').trans (congrArg (cellRead · b) hb)
  · rw [State.setThread_other _ _ ht hw hne, State.store_thread, State.thread, hth, State.thread]

theorem State.issued_unplaced (s : State) (t : ThreadId) : (s.issued t).unplaced = s.unplaced := by
  have hm := s.issued_memory t
  simp only [State.unplaced, s.issued_kept t, hm]

/-- Where a store of bytes to this module issues, they are stored and the thread goes on (R126). -/
theorem completes_localStore {s : State} {t : ThreadId} {w : ScalarWord} {c : Instr} {M m : Nat} {use : ScalarUse}
    {n : Nat} (bs : Bytes) (hn : bs.length = n) {body : Thread → State → State} (ht : t.array < 64)
    (h : Issues s t w.pred w.pneg) (hl : scalarLegal w use = true) {a : Word} (ha : LocalAccess s t a n true)
    (e : exec c s = .next (s.issueScalar t M m w use body)) {word : InstrWord} {x y z : State}
    (hb : body (s.thread t) (s.issued t) = if a.toNat % n ≠ 0 then x else if devOf a = 0xFFFF then y
      else if devOf a ≠ (s.issued t).lodge.deviceId then z else (s.issued t).threadWrite s t word a bs) :
    Completes c s fun u => u.bytesAt (locOf a) n = bs ∧ BytesOutside s u (locOf a) n ∧
      u.thread t = { s.thread t with pc := (s.thread t).pc + 16 } ∧ OtherThreads s u t ∧ u.ctxs = s.ctxs ∧
      u.launches = s.launches ∧ u.fabric = s.fabric ∧ u.host = s.host := by
  subst hn
  rw [State.issueScalar_of_issues h hl, hb, access_local ha, State.threadWrite_local ha] at e
  exact ⟨_, e, store_effect ht bs _ (s.issued_unplaced t) ha.clean.repairing⟩

/-- Where a store of bytes to another module issues, it is sent and the thread goes on (R126, R149). -/
theorem completes_remoteStore {s : State} {t : ThreadId} {w : ScalarWord} {c : Instr} {M m : Nat} {use : ScalarUse}
    {n : Nat} (bs : Bytes) {body : Thread → State → State} (ht : t.array < 64)
    (h : Issues s t w.pred w.pneg) (hl : scalarLegal w use = true) {a : Word} (ha : a.toNat % n = 0)
    (hk : devOf a ≠ 0xFFFF) (hd : devOf a ≠ s.lodge.deviceId) (hr : s.hasRoute (devOf a) = true)
    (e : exec c s = .next (s.issueScalar t M m w use body)) {word : InstrWord} {x y z : State}
    (hb : body (s.thread t) (s.issued t) = if a.toNat % n ≠ 0 then x else if devOf a = 0xFFFF then y
      else if devOf a ≠ (s.issued t).lodge.deviceId then (s.issued t).remoteStore t word a bs else z) :
    Completes c s fun u => ∃ tag,
      u.thread t = { s.thread t with
        pc := (s.thread t).pc + 16, storesOut := (s.thread t).storesOut ++ [tag] } ∧ OtherThreads s u t ∧
      u.memory = s.memory ∧ Asked u tag tWriteReq fun k => k.dstDevice = devOf a ∧
        k.address = globalAddr (devOf a) (wholeUnits (locOf a) bs).1 ∧
        k.length = (wholeUnits (locOf a) bs).2.1.length ∧ k.payload = (wholeUnits (locOf a) bs).2.1 := by
  rw [State.issueScalar_of_issues h hl, hb, access_away ha hk hd] at e
  obtain ⟨tag, u, hu, hk, hq⟩ := State.remoteStore_asks word bs hr
  obtain ⟨-, hm, -⟩ := State.offSends_fields hk
  rw [hu] at e
  refine ⟨_, e, tag, State.setThread_thread .., fun v hv hne => ?_, hm, hq⟩
  rw [State.setThread_other _ _ ht hv hne, State.thread_of_offSends hk]

theorem scalarLegal_store {w : ScalarWord} (hz : ScalarZero w) (hsd : w.sd = 0) (hpd : w.pd = 0) (hb : w.immb = false)
    (hv : w.var.toNat < 4) : scalarLegal w { sa := 31, sb := 31, imm := immAll, var := 3 } = true := by
  obtain ⟨hhi, hlo⟩ := hz
  have hvar : within w.var.toNat 3 = true := within_lowMask (k := 2) hv
  simp [scalarLegal, hhi, hlo, hpd, hsd, hb, hvar]

/-- An aligned access of 1, 2, 4 or 8 bytes lies in one unit of 16 (R122, R126). -/
theorem access_in_unit {a : Word} {v : Nat} (hv : v < 4) (ha : a.toNat % 2 ^ v = 0) : locOf a % 16 + 2 ^ v ≤ 16 := by
  have h := locOf_mod a (n := 2 ^ v) (pow_dvd_pow 2 (by omega))
  rw [ha] at h
  interval_cases v <;> omega

/-- Settles O17: a store is one write of this module or one packet to another. -/
theorem storesChangeTheirBytesAlone : Obligations.StoresChangeTheirBytesAlone := by
  unfold Obligations.StoresChangeTheirBytesAlone
  intro s t w ht h hz hsd hpd hb hv x n at_ a
  have hl := scalarLegal_store hz hsd hpd hb hv
  refine ⟨fun ha => ?_, fun hd hk hal hr => ?_⟩
  · exact completes_localStore _ (length_le n _) ht h hl ha rfl rfl
  · obtain ⟨u, e, tag, hx, ho, hm, r, hq, hty, hdst, haddr, hlen, hpay⟩ :=
      completes_remoteStore (c := .st t w) (le n (x.reg w.sb).toNat) ht h hl hal hk hd hr rfl rfl
    have hn : (le n (x.reg w.sb).toNat).length = n := length_le ..
    obtain ⟨p, span, hp, hplen, hpart⟩ := wholeUnits_one (a := a) (bs := le n (x.reg w.sb).toNat)
      (by rw [hn]; exact Nat.two_pow_pos _) (by rw [hn]; exact access_in_unit hv hal)
    rw [hp] at haddr hlen hpay
    rw [hn] at hpart
    exact ⟨u, e, tag, hx, ho, hm, r, hq, hty, hdst, haddr, hlen.trans hplen,
      (congrArg (fun q => (q.drop (a % 16)).take n) hpay).trans hpart⟩

/-! ### Atomics -/

/-- An atomic operation leaves the value that it makes of the old word, and the old word where it stores nothing (R126). -/
theorem atomicAt_effect {s v : State} {t : ThreadId} (ht : t.array < 64) {a op : Nat} {old src cmp new : Word}
    (y : Thread) (hv : v.unplaced = s.unplaced) (hc : s.memory.repairing = [])
    (ho : old = BitVec.ofNat 64 (leNat (s.bytesAt a 8))) (hn : (atomicNew op old src cmp).getD old = new) :
    let u := (v.atomicAt a op src cmp).setThread t y
    u.bytesAt a 8 = le 8 new.toNat ∧ BytesOutside s u a 8 ∧ u.thread t = y ∧ OtherThreads s u t := by
  have hb : v.memory.bytes = s.memory.bytes := (congrArg (fun x : State => x.memory.bytes) hv :)
  have hth : v.threads = s.threads := (congrArg State.threads hv :)
  have hbytes : v.bytesAt a 8 = s.bytesAt a 8 := by simp only [State.bytesAt, hb]
  intro u
  cases hk : atomicNew op old src cmp with
  | none =>
    have e : v.atomicAt a op src cmp = v := by rw [State.atomicAt, hbytes, ← ho, hk]
    have hlt := leNat_lt (s.bytesAt a 8)
    have hback := le_leNat (s.bytesAt a 8)
    rw [State.length_bytesAt] at hlt hback
    rw [hk, Option.getD_none] at hn
    subst u
    rw [e]
    refine ⟨?_, fun b _ => congrArg (cellRead · b) hb, State.setThread_thread .., fun w hw hne => ?_⟩
    · rw [← hn, ho, BitVec.toNat_ofNat, Nat.mod_eq_of_lt hlt, hback]
      exact hbytes
    · rw [State.setThread_other _ _ ht hw hne, State.thread, hth, State.thread]
  | some z =>
    have e : v.atomicAt a op src cmp = v.store a (le 8 z.toNat) := by rw [State.atomicAt, hbytes, ← ho, hk]
    rw [hk, Option.getD_some] at hn
    subst u
    rw [e, ← hn]
    obtain ⟨hbs, hout, hth', hot, -⟩ := store_effect (a := a) ht (le 8 z.toNat) y hv hc
    rw [length_le] at hbs hout
    exact ⟨hbs, hout, hth', hot⟩

theorem State.atomicAt_thread (s : State) (a op : Nat) (src cmp : Word) (t : ThreadId) :
    (s.atomicAt a op src cmp).thread t = s.thread t := by
  unfold State.atomicAt
  split
  · rfl
  · exact s.store_thread _ _ t

theorem scalarLegal_atom {w : ScalarWord} (hz : ScalarZero w) (hpd : w.pd = 0) (hb : w.immb = false)
    (hv : w.var.toNat < 7) :
    (scalarLegal w { sd := 31, sa := 31, sb := 31, imm := immAll, var := 7 } && w.var != 7) = true := by
  obtain ⟨hhi, hlo⟩ := hz
  have hvar : within w.var.toNat 7 = true := within_lowMask (k := 3) (by omega)
  have h7 : ¬ w.var = 7#4 := fun e => absurd hv (by rw [e]; decide)
  simp [scalarLegal, hhi, hlo, hpd, hb, hvar, h7]

section
variable {s : State} {t : ThreadId} {w : ScalarWord} (h : Issues s t w.pred w.pneg)
  (hl : (scalarLegal w { sd := 31, sa := 31, sb := 31, imm := immAll, var := 7 } && w.var != 7) = true)
include h hl

/-- An atomic on this module (R126). -/
theorem exec_atom_local (ha : LocalAccess s t ((s.thread t).reg w.sa + w.imm) 8 true) :
    exec (.atom t w) s = .next
      ((((s.issued t).touch (locOf ((s.thread t).reg w.sa + w.imm)) 8).atomicAt
          (locOf ((s.thread t).reg w.sa + w.imm)) w.var.toNat ((s.thread t).reg w.sb) ((s.thread t).reg w.sd)).setThread t
        { (s.thread t).setReg w.sd (BitVec.ofNat 64 (leNat (s.bytesAt (locOf ((s.thread t).reg w.sa + w.imm)) 8))) with
          pc := (s.thread t).pc + 16 }) := by
  have e : exec (.atom t w) s = execAtom t w s := rfl
  rw [e, execAtom, State.issue_of_issues h hl]
  refine congrArg _ (((access_local ha _ _ _ _).trans (State.threadRead_local ha)).trans ?_)
  rw [State.writeReg, State.modThread_eq, State.atomicAt_thread, State.touch_thread, State.issued_thread,
    State.touch_bytesAt, State.issued_bytesAt]
  rfl

/-- An atomic on another module asks for the operation and waits (R126, R259). -/
theorem completes_atom_away (ha : AwayAccess s t ((s.thread t).reg w.sa + w.imm) 8)
    (hr : s.hasRoute (devOf ((s.thread t).reg w.sa + w.imm)) = true) :
    Completes (.atom t w) s fun u => ∃ tag, Waits s u t (.atom w.sd.toNat tag) ∧
      Asked u tag tAtomicReq fun k => k.dstDevice = devOf ((s.thread t).reg w.sa + w.imm) ∧
        k.address = (s.thread t).reg w.sa + w.imm ∧ k.operation = w.var.toNat ∧ k.operand = (s.thread t).reg w.sb ∧
        k.payload = le 16 (if w.var.toNat = 2 then ((s.thread t).reg w.sd).toNat else 0) := by
  have e : exec (.atom t w) s = execAtom t w s := rfl
  rw [execAtom, State.issue_of_issues h hl] at e
  replace e := e.trans (congrArg _ ((access_away ha.aligned ha.known ha.away t _ _ _ _).trans
    (State.afterStores_clear ha.clear _ _)))
  have hr' : (s.issued t).hasRoute (devOf (accessAddr w (s.thread t))) = true := by rw [State.issued_hasRoute]; exact hr
  simp only [hr', Bool.not_true, Bool.false_eq_true, if_false] at e
  refine ⟨_, e, _, waits_waitFor ((State.request_offSends ..).trans (s.issued_offSends t)) t _ _, ?_⟩
  obtain ⟨r, hq, hty, hdst, haddr, -, hop, hpay, hopn⟩ := asked_request (s.issued t) tAtomicReq
    (devOf (accessAddr w (s.thread t))) (s.thread t).ctx (accessAddr w (s.thread t)) 16 (.load t) ((s.thread t).reg w.sb)
    (le 16 (if w.var.toNat = 2 then ((s.thread t).reg w.sd).toNat else 0)) w.var.toNat false false (some t) none none
  exact ⟨r, hq, hty, hdst, haddr, hopn, hop, hpay⟩
end

/-- Settles O18: an atomic is one operation on the word at its address, here or at another module. -/
theorem atomicsExchangeTheirWord : Obligations.AtomicsExchangeTheirWord := by
  unfold Obligations.AtomicsExchangeTheirWord
  intro s t w ht h hz hpd hb hv x at_ a old
  have hl := scalarLegal_atom hz hpd hb hv
  refine ⟨fun ha => ?_, completes_atom_away h hl⟩
  have run : ∀ (op : Nat) (f : Word → Word → Word → Word),
      (∀ o b d, (atomicNew op o b d).getD o = f o b d) → w.var.toNat = op →
      Completes (.atom t w) s fun u =>
        u.bytesAt a 8 = le 8 (f old (x.reg w.sb) (x.reg w.sd)).toNat ∧ BytesOutside s u a 8 ∧
          u.thread t = { x with regs := x.regs.set w.sd.toNat old w.sd.isLt, pc := x.pc + 16 } ∧ OtherThreads s u t := by
    rintro op f hf rfl
    have hp : ((s.issued t).touch a 8).unplaced = s.unplaced := (State.touch_unplaced ..).trans (s.issued_unplaced t)
    exact ⟨_, exec_atom_local h hl ha, atomicAt_effect ht _ hp ha.clean.repairing rfl (hf ..)⟩
  simp only [List.forall_mem_cons]
  refine ⟨run 0 (fun o b _ => o + b) fun _ _ _ => rfl, run 1 (fun _ b _ => b) fun _ _ _ => rfl,
    run 2 (fun o b d => if o = d then b else o) fun o b d => ?_,
    run 3 (fun o b _ => if o.toInt ≤ b.toInt then b else o) fun o b _ => maxSigned_eq o b,
    run 4 (fun o b _ => if o.toInt ≤ b.toInt then o else b) fun o b _ => minSigned_eq o b,
    run 5 (fun o b _ => o &&& b) fun _ _ _ => rfl, run 6 (fun o b _ => o ||| b) fun _ _ _ => rfl, by simp⟩
  simp only [atomicNew]
  split <;> rfl

/-! ### Descriptors in memory -/

theorem scalarLegal_descMove {w : ScalarWord} (hz : ScalarZero w) (hsd : w.sd.toNat < 16) (hsb : w.sb = 0) (hpd : w.pd = 0)
    (hb : w.immb = false) (hv : w.var = 0) : scalarLegal w { sd := 15, sa := 31, imm := immAll } = true := by
  obtain ⟨hhi, hlo⟩ := hz
  have hd : within w.sd.toNat 15 = true := within_lowMask (k := 4) hsd
  simp [scalarLegal, hhi, hlo, hpd, hsb, hb, hv, hd]

section
variable {s : State} {t : ThreadId} {w : ScalarWord} (h : Issues s t w.pred w.pneg)
  (hl : scalarLegal w { sd := 15, sa := 31, imm := immAll } = true)
include h hl

/-- A descriptor's load from this module (R483). -/
theorem exec_dld_local (ha : LocalAccess s t ((s.thread t).reg w.sa + w.imm) 32 false) :
    exec (.dld t w) s = .next
      (((s.issued t).touch (locOf ((s.thread t).reg w.sa + w.imm)) 32).setThread t
        { (s.thread t).setDescr (w.sd.setWidth 4)
            (BitVec.ofNat 256 (leNat (s.bytesAt (locOf ((s.thread t).reg w.sa + w.imm)) 32))) with
          pc := (s.thread t).pc + 16 }) := by
  have e : exec (.dld t w) s = execDld t w s := rfl
  rw [e, execDld, State.issueScalar_of_issues h hl]
  refine congrArg _ (((access_local ha _ _ _ _).trans (State.threadRead_local ha)).trans ?_)
  rw [State.modThread_eq, State.touch_thread, State.issued_thread, State.touch_bytesAt, State.issued_bytesAt]
  rfl

/-- A descriptor's load from another module asks for its 32 bytes and waits (R259). -/
theorem completes_dld_away (ha : AwayAccess s t ((s.thread t).reg w.sa + w.imm) 32)
    (hr : s.hasRoute (devOf ((s.thread t).reg w.sa + w.imm)) = true) :
    Completes (.dld t w) s fun u => ∃ tag, Waits s u t (.descLoad w.sd.toNat tag) ∧
      Asked u tag tReadReq fun k => k.dstDevice = devOf ((s.thread t).reg w.sa + w.imm) ∧
        k.address = (s.thread t).reg w.sa + w.imm ∧ k.length = 32 := by
  have e : exec (.dld t w) s = execDld t w s := rfl
  rw [execDld, State.issueScalar_of_issues h hl] at e
  replace e := e.trans (congrArg _ ((access_away ha.aligned ha.known ha.away t _ _ _ _).trans
    (State.afterStores_clear ha.clear _ _)))
  obtain ⟨tag, hw, r, hq, hty, hdst, haddr, hlen⟩ := State.remoteRead_asks (scalarBits w 0x04 0x00) 32
    (fun tag => .descLoad w.sd.toNat tag) hr
  refine ⟨_, e, tag, hw, r, hq, hty, hdst, ?_, hlen⟩
  have h16 : locOf ((s.thread t).reg w.sa + w.imm) % 16 = 0 := by
    have := ha.aligned
    rw [locOf_mod _ (by decide)]
    omega
  rw [haddr, h16, Nat.sub_zero, globalAddr_devOf_locOf]
end

/-- Settles O19: the descriptor's bytes move by the same reads and stores as those of registers. -/
theorem descriptorsMoveToAndFromMemory : Obligations.DescriptorsMoveToAndFromMemory := by
  unfold Obligations.DescriptorsMoveToAndFromMemory
  intro s t w ht h hz hsd hsb hpd hb hv x at_ a
  have hl := scalarLegal_descMove hz hsd hsb hpd hb hv
  refine ⟨exec_dld_local h hl, fun ha => ?_, fun ha hr => ⟨completes_dld_away h hl ha hr, ?_⟩⟩
  · obtain ⟨u, e, hbytes, hout, hx, ho, -⟩ :=
      completes_localStore (c := .dst t w) (le 32 (x.descr (w.sd.setWidth 4)).toNat) (length_le 32 _) ht h hl ha rfl rfl
    exact ⟨u, e, hbytes, hout, hx, ho⟩
  · obtain ⟨u, e, tag, hx, ho, hm, r, hq, hty, hdst, haddr, hlen, hpay⟩ :=
      completes_remoteStore (c := .dst t w) (le 32 (x.descr (w.sd.setWidth 4)).toNat) ht h hl ha.aligned ha.known ha.away
        hr rfl rfl
    have h16 : a % 16 = 0 := by
      have := ha.aligned
      rw [show a % 16 = at_.toNat % 16 from locOf_mod _ (by decide)]
      omega
    obtain ⟨span, hp⟩ := wholeUnits_aligned (bs := le 32 (x.descr (w.sd.setWidth 4)).toNat) h16 (by rw [length_le])
    rw [hp] at haddr hlen hpay
    exact ⟨u, e, tag, hx, hm, r, hq, hty, hdst, haddr.trans (globalAddr_devOf_locOf at_), hlen.trans (length_le ..), hpay⟩

end Sys2Proof.Machine
end

section
/-! CLAIMS. Traps (O23) and the addresses that trap (O24). -/

namespace Sys2Proof.Machine

/-! ### What a trap of one thread does (R152) -/

theorem Map.get?_modify {α : Type} (m : Map α) (k j : Nat) (f : α → α) :
    Map.get? (Map.modify m k f) j = if j = k then (Map.get? m k).map f else Map.get? m j := by
  unfold Map.modify
  split
  · rename_i h
    split
    · rename_i e
      rw [e, h, Option.map_none]
    · rfl
  · rename_i v h
    rw [Map.get?_put, h, Option.map_some]

theorem State.modLaunch_launch? (s : State) (l j : Nat) (f : Launch → Launch) :
    (s.modLaunch l f).launch? j = if j = l then (s.launch? l).map f else s.launch? j := Map.get?_modify ..

@[simp] theorem State.countWait_kept (s : State) (t : ThreadId) : (s.countWait t).kept = s.kept := by
  unfold State.countWait
  split
  case h_7 => rfl
  all_goals exact State.countFree_kept ..

/-- A store that meets no line under repair writes its bytes (R126, R243). -/
theorem State.store_bytesAt_clear (s : State) (a : Nat) (bs : Bytes) (h : s.repairingIn a bs.length = []) :
    (s.store a bs).bytesAt a bs.length = bs := by
  have e : s.store a bs = s.storeNow a bs := by
    unfold State.store
    rw [if_pos (by simp [h])]
  simp only [State.bytesAt, e, State.storeNow_bytes, cellsRead_cellsWrite]

/-- The bytes of a trap record are 64 (R152). -/
theorem length_trapBytes (s : State) (t : ThreadId) (x : Thread) (pc : Word) (word : InstrWord) (r : Trap) :
    (trapBytes s t x pc word r).length = 64 := by
  simp [trapBytes]

/-- What a launch records of a trap, its count and its first trap aside. -/
def Trapped (l l' : Launch) : Prop := l'.traps = l.traps + 1 ∧ l'.policyContinue = l.policyContinue

/-- What a launch becomes by a trap: its count, its first trap, and what goes with them (R147, R152, R154, R199). -/
def State.launchTrapped (s : State) (t : ThreadId) (r : Trap) (l : Launch) : Launch :=
  let first := match l.firstTrap with
    | none => true
    | some f => r.kind ≠ 8 && trapBefore (s.now, t.array, t.index % 64) (f.1, f.2.1, f.2.2.1)
  { l with traps := l.traps + 1
           firstTrap := if first then some (s.now, t.array, t.index % 64, r) else l.firstTrap
           slotInterrupted := l.slotInterrupted || l.slot.isSome
           dirty := true }

/-- The parts of a trap of one thread. -/
theorem State.trapOne_eq {s : State} {t : ThreadId} {pc : Word} {word : InstrWord} {r : Trap} {l : Launch}
    (hl : s.launch? (s.thread t).launch = some l) (hs : (s.thread t).state = .running ∨ (s.thread t).state = .waiting) :
    s.trapOne t pc word r =
      (((((s.countWait t).store (l.trapArea + 64 * (64 * t.array + t.index % 64))
        (trapBytes s t (s.thread t) pc word r)).modThread t fun x =>
          { x with state := .trapped, wait := none }).withdrawArrivals t (s.thread t).ctx).modLaunch (s.thread t).launch
            (s.launchTrapped t r)).count cTraps t.array := by
  have hguard : ((s.thread t).state == .running || (s.thread t).state == .waiting) = true := by
    rcases hs with h | h <;> simp [h]
  unfold State.trapOne
  simp only [hguard, if_true, hl]
  rfl

/-- A thread that runs or waits takes its trap: the record is written, the thread stops, and its launch counts it. -/
theorem State.trapOne_effect {s : State} {t : ThreadId} {pc : Word} {word : InstrWord} {r : Trap} {l : Launch}
    (ht : t.array < 64) (hl : s.launch? (s.thread t).launch = some l)
    (hs : (s.thread t).state = .running ∨ (s.thread t).state = .waiting) :
    let u := s.trapOne t pc word r
    let a := l.trapArea + 64 * (64 * t.array + t.index % 64)
    (∃ v : State, v.kept = s.kept ∧ u.memory = (v.store a (trapBytes s t (s.thread t) pc word r)).memory) ∧
      u.thread t = { s.thread t with state := .trapped, wait := none } ∧ OtherThreads s u t ∧
      (∃ l', u.launch? (s.thread t).launch = some l' ∧ Trapped l l') ∧
      ∀ j, (u.launch? j).isSome = (s.launch? j).isSome := by
  intro u a
  have hu : u = _ := State.trapOne_eq hl hs
  clear_value u
  have hk := s.countWait_kept t
  generalize s.countWait t = v at hk hu
  obtain ⟨threads, -, launches, -⟩ := v.store_fields a (trapBytes s t (s.thread t) pc word r)
  have hm : ∃ q : State, q.memory = (v.store a (trapBytes s t (s.thread t) pc word r)).memory ∧ q.threads = s.threads ∧
      q.launches = s.launches ∧ v.store a (trapBytes s t (s.thread t) pc word r) = q :=
    ⟨_, rfl, threads.trans (congrArg State.threads hk :), launches.trans (congrArg State.launches hk :), rfl⟩
  obtain ⟨q, hqm, hqt, hql, hq⟩ := hm
  rw [hq] at hu
  have hkept : u.kept = _ := (congrArg State.kept hu).trans (State.count_kept ..)
  have hx : ∀ p : ThreadId, q.thread p = s.thread p := fun p => by rw [State.thread, hqt, State.thread]
  have hut : u.threads = (q.modThread t fun x => { x with state := .trapped, wait := none }).threads :=
    (congrArg State.threads hkept :)
  have hul : u.launches = Map.modify q.launches (s.thread t).launch (s.launchTrapped t r) :=
    (congrArg State.launches hkept :)
  have hum : u.memory = q.memory := (congrArg State.memory hkept :)
  rw [State.modThread_eq, hx] at hut
  refine ⟨⟨v, hk, hum.trans hqm⟩, ?_, fun p hp hne => ?_, ⟨s.launchTrapped t r l, ?_, rfl, rfl⟩,
    fun j => ?_⟩
  · rw [State.thread, hut]
    exact State.setThread_thread ..
  · rw [State.thread, hut]
    exact (State.setThread_other _ _ ht hp hne).trans (hx p)
  · rw [State.launch?, hul, hql, Map.get?_modify, if_pos rfl]
    exact congrArg (Option.map (s.launchTrapped t r)) hl
  · rw [State.launch?, hul, hql, Map.get?_modify]
    split
    · rename_i e
      rw [Option.isSome_map, e]
      rfl
    · rfl

/-- Only a thread that runs or waits takes a trap (R112). -/
theorem State.trapOne_still {s : State} {t : ThreadId} (pc : Word) (word : InstrWord) (r : Trap)
    (h : ¬ ((s.thread t).state = .running ∨ (s.thread t).state = .waiting)) : s.trapOne t pc word r = s := by
  have hguard : ((s.thread t).state == .running || (s.thread t).state == .waiting) = false := by
    simpa using h
  unfold State.trapOne
  simp only [hguard, Bool.false_eq_true, if_false]

/-- A thread without a launch takes none. -/
theorem State.trapOne_unlaunched {s : State} {t : ThreadId} (pc : Word) (word : InstrWord) (r : Trap)
    (h : s.launch? (s.thread t).launch = none) : s.trapOne t pc word r = s := by
  unfold State.trapOne
  simp only [h, ite_self]

/-! ### The launch's other threads (R153) -/

/-- What stops a thread of a stopped launch, where it runs or waits. -/
def State.stopThread (code : Code) (s : State) (u : ThreadId) : State :=
  let y := s.thread u
  if y.state == .running || y.state == .waiting then s.trapOne u y.pc y.word { kind := 8, code := code } else s

/-- A thread of a launch that has not ended: it stands where a stop of the launch traps it, or is trapped. -/
structure Stoppable (s : State) (id : Nat) (v : ThreadId) : Prop where
  launch : (s.thread v).launch = id
  known : (s.launch? id).isSome = true
  state : (s.thread v).state = .running ∨ (s.thread v).state = .waiting ∨ (s.thread v).state = .trapped

/-- A stop of a thread of the launch traps it. -/
theorem State.stopThread_self {s : State} {id : Nat} {v : ThreadId} (code : Code) (hv : v.array < 64)
    (h : Stoppable s id v) : ((s.stopThread code v).thread v).state = .trapped := by
  unfold State.stopThread
  dsimp only
  split
  · rename_i hs
    obtain ⟨l, hl⟩ := Option.isSome_iff_exists.1 h.known
    obtain ⟨-, hx, -⟩ := State.trapOne_effect (pc := (s.thread v).pc) (word := (s.thread v).word)
      (r := { kind := 8, code := code }) hv (h.launch ▸ hl) (by simpa using hs)
    rw [hx]
  · rename_i hs
    obtain h' | h' | h' := h.state <;> simp_all

/-- A stop of another thread leaves a thread as it was, and every launch known. -/
theorem State.stopThread_other (s : State) {v u : ThreadId} (code : Code) (hu : u.array < 64) (hv : v.array < 64)
    (hne : v ≠ u) : (s.stopThread code u).thread v = s.thread v ∧
      ∀ j, ((s.stopThread code u).launch? j).isSome = (s.launch? j).isSome := by
  unfold State.stopThread
  dsimp only
  split
  · rename_i hs
    cases hl : s.launch? (s.thread u).launch with
    | none => rw [State.trapOne_unlaunched _ _ _ hl]; exact ⟨rfl, fun _ => rfl⟩
    | some l =>
      obtain ⟨-, -, ho, -, hk⟩ := State.trapOne_effect (pc := (s.thread u).pc) (word := (s.thread u).word)
        (r := { kind := 8, code := code }) hu hl (by simpa using hs)
      exact ⟨ho v hv hne, hk⟩
  · exact ⟨rfl, fun _ => rfl⟩

/-- A thread that has trapped takes no other trap. -/
theorem State.stopThread_trapped {s : State} {v : ThreadId} (code : Code) (h : (s.thread v).state = .trapped) :
    s.stopThread code v = s := by
  unfold State.stopThread
  simp [h]

/-- Once trapped, a thread stays so through the stops of others. -/
theorem State.stopThreads_trapped (code : Code) (us : List ThreadId) (hus : ∀ u ∈ us, u.array < 64) {v : ThreadId}
    (hv : v.array < 64) : ∀ {s : State}, (s.thread v).state = .trapped →
      ((us.foldl (State.stopThread code) s).thread v).state = .trapped := by
  induction us with
  | nil => exact fun h => h
  | cons u us ih =>
    intro s h
    refine ih (fun u hu => hus u (.tail _ hu)) ?_
    by_cases e : v = u
    · subst e
      rw [State.stopThread_trapped code h]
      exact h
    · rw [(s.stopThread_other code (hus u (.head _)) hv e).1]
      exact h

/-- Every thread of the launch that can stop is trapped once all of them have been stopped. -/
theorem State.stopThreads_all (code : Code) (us : List ThreadId) (hus : ∀ u ∈ us, u.array < 64) {v : ThreadId}
    (hv : v.array < 64) {id : Nat} : ∀ {s : State}, v ∈ us → Stoppable s id v →
      ((us.foldl (State.stopThread code) s).thread v).state = .trapped := by
  induction us with
  | nil => exact fun h => nomatch h
  | cons u us ih =>
    intro s hmem h
    have hus' : ∀ u ∈ us, u.array < 64 := fun u hu => hus u (.tail _ hu)
    by_cases e : v = u
    · subst e
      exact State.stopThreads_trapped code us hus' hv (State.stopThread_self code hv h)
    · obtain ⟨hx, hk⟩ := s.stopThread_other code (hus u (.head _)) hv e
      refine ih hus' ((List.mem_cons.1 hmem).resolve_left e) ⟨?_, ?_, ?_⟩
      · rw [hx]
        exact h.launch
      · rw [hk]
        exact h.known
      · rw [hx]
        exact h.state

/-- A thread that is not `IDLE` is among those of its launch. -/
theorem State.mem_launchThreads {s : State} {v : ThreadId} {id : Nat} (hv : v.array < 64)
    (hl : (s.thread v).launch = id) (hs : (s.thread v).state ≠ .idle) : v ∈ s.launchThreads id := by
  have hk : keyThread (threadKey v) = v := by
    obtain ⟨a, i⟩ := v
    simp only [keyThread, threadKey, ThreadId.mk.injEq]
    dsimp only at hv
    omega
  cases hg : Map.get? s.threads (threadKey v) with
  | none =>
    refine absurd ?_ hs
    rw [State.thread, Map.getD, hg]
    rfl
  | some x =>
    have hx : s.thread v = x := by
      rw [State.thread, Map.getD, hg]
      rfl
    refine List.mem_map.2 ⟨(threadKey v, x), List.mem_filter.2 ⟨Map.mem_of_get? hg, ?_⟩, hk⟩
    rw [← hx]
    simp [hl, hs]

theorem State.launchThreads_array {s : State} {id : Nat} {v : ThreadId} (h : v ∈ s.launchThreads id) : v.array < 64 := by
  obtain ⟨e, -, rfl⟩ := List.mem_map.1 h
  exact Nat.mod_lt _ (by decide)

/-! ### The trap (R112, R152, R153) -/

/-- A trap of a thread that runs or waits, under `CONTINUE` (R153). -/
theorem State.trap_continue {s : State} {t : ThreadId} {pc : Word} {word : InstrWord} {r : Trap} {l : Launch}
    (ht : t.array < 64) (hl : s.launch? (s.thread t).launch = some l)
    (hs : (s.thread t).state = .running ∨ (s.thread t).state = .waiting) (hp : l.policyContinue = true) :
    s.trap t pc word r = s.trapOne t pc word r := by
  obtain ⟨-, -, -, ⟨l', hl', -, hp'⟩, -⟩ := State.trapOne_effect (pc := pc) (word := word) (r := r) ht hl hs
  have hn : ((s.thread t).state == .suspended) = false := by
    rcases hs with h | h <;> rw [h] <;> rfl
  unfold State.trap
  simp only [hl', hn, Bool.false_eq_true, if_false, hp'.trans hp, Bool.true_or, if_true]

/-- A trap under `STOP` stops the launch's threads one after another (R153). -/
theorem State.trap_stop {s : State} {t : ThreadId} {pc : Word} {word : InstrWord} {r : Trap} {l : Launch}
    (ht : t.array < 64) (hl : s.launch? (s.thread t).launch = some l)
    (hs : (s.thread t).state = .running ∨ (s.thread t).state = .waiting) (hp : l.policyContinue = false) :
    ∃ code, s.trap t pc word r =
      ((s.trapOne t pc word r).launchThreads (s.thread t).launch).foldl (State.stopThread code)
        (s.trapOne t pc word r) := by
  obtain ⟨-, -, -, ⟨l', hl', -, hp'⟩, -⟩ := State.trapOne_effect (pc := pc) (word := word) (r := r) ht hl hs
  have hn : ((s.thread t).state == .suspended) = false := by
    rcases hs with h | h <;> rw [h] <;> rfl
  have hq : ((s.thread t).state != .running && (s.thread t).state != .waiting) = false := by
    rcases hs with h | h <;> rw [h] <;> rfl
  refine ⟨(l'.firstTrap.map fun f => f.2.2.2.code).getD r.code, ?_⟩
  unfold State.trap
  simp only [hl', hn, Bool.false_eq_true, if_false, hp'.trans hp, hq, Bool.or_self]
  rfl

/-- A thread that neither runs nor waits takes no trap, but that a `SUSPENDED` one keeps it due (R112). -/
theorem State.trap_still {s : State} {t : ThreadId} {pc : Word} {word : InstrWord} {r : Trap} {l : Launch}
    (hl : s.launch? (s.thread t).launch = some l)
    (hs : ¬ ((s.thread t).state = .running ∨ (s.thread t).state = .waiting)) :
    s.trap t pc word r = if (s.thread t).state = .suspended then
      s.setThread t { s.thread t with due := some ((s.thread t).due.getD (pc, word, r)) } else s := by
  have hq : ((s.thread t).state != .running && (s.thread t).state != .waiting) = true := by simpa using hs
  unfold State.trap
  simp only [State.trapOne_still pc word r hs, hl, hq, Bool.or_true, if_true, beq_iff_eq]
  rfl

/-- Settles O23: the trap of one thread, and under `STOP` the stops of its launch's other threads. -/
theorem trapsWriteTheirRecordAndStopTheThread : Obligations.TrapsWriteTheirRecordAndStopTheThread := by
  unfold Obligations.TrapsWriteTheirRecordAndStopTheThread
  intro s t pc word r l ht hl u a x
  refine ⟨fun hs hp hr => ?taken, fun hs hp v hv hvl hvs => ?stopped, fun hs => ?still, fun hs => ?suspended⟩
  case taken =>
    obtain ⟨⟨v, hk, hm⟩, hx, ho, ⟨l', hl', hn, -⟩, -⟩ :=
      State.trapOne_effect (pc := pc) (word := word) (r := r) ht hl hs
    rw [← State.trap_continue ht hl hs hp] at hm hx ho hl'
    have hmem : v.memory = s.memory := (congrArg State.memory hk :)
    have hrep : v.repairingIn a (trapBytes s t x pc word r).length = [] := by
      rw [length_trapBytes, ← hr]
      exact (congrArg (fun q : State => q.repairingIn a 64) hk :)
    have hb := v.store_bytesAt_clear a _ hrep
    rw [length_trapBytes] at hb
    refine ⟨?_, fun b hb' => ?_, hx, ho, ?_⟩
    · exact (congrArg (fun q : Memory => cellsRead q.bytes a 64) hm).trans hb
    · have hout := v.store_outside a (trapBytes s t x pc word r) b (by rw [length_trapBytes]; exact hb')
      rw [hm, hout, hmem]
    · exact (congrArg (Option.map Launch.traps) hl').trans (congrArg some hn)
  case stopped =>
    obtain ⟨code, e⟩ := State.trap_stop (pc := pc) (word := word) (r := r) ht hl hs hp
    obtain ⟨-, hx, ho, ⟨l', hl', -⟩, -⟩ := State.trapOne_effect (pc := pc) (word := word) (r := r) ht hl hs
    have hst : Stoppable (s.trapOne t pc word r) x.launch v := by
      refine ⟨?_, hl' ▸ rfl, ?_⟩
      · by_cases hvt : v = t
        · rw [hvt, hx]
        · rw [ho v hv hvt, hvl]
      · by_cases hvt : v = t
        · rw [hvt, hx]
          exact .inr (.inr rfl)
        · rw [ho v hv hvt]
          exact hvs.imp id .inl
    have hne : ((s.trapOne t pc word r).thread v).state ≠ .idle := by
      obtain h | h | h := hst.state <;> rw [h] <;> decide
    show ((s.trap t pc word r).thread v).state = .trapped
    rw [e]
    exact State.stopThreads_all code _ (fun _ => State.launchThreads_array) hv
      (State.mem_launchThreads hv hst.launch hne) hst
  case still =>
    have hn : (s.thread t).state ≠ .suspended := by
      obtain h | h | h := hs <;> rw [show (s.thread t).state = _ from h] <;> decide
    have hq : ¬ ((s.thread t).state = .running ∨ (s.thread t).state = .waiting) := by
      obtain h | h | h := hs <;> rw [show (s.thread t).state = _ from h] <;> decide
    exact (State.trap_still hl hq).trans (if_neg hn)
  case suspended =>
    have hq : ¬ ((s.thread t).state = .running ∨ (s.thread t).state = .waiting) := by
      rw [show (s.thread t).state = _ from hs]
      decide
    exact (State.trap_still hl hq).trans (if_pos hs)

/-! ### Addresses that trap (R118, R120, R126) -/

/-- A read outside the context's mappings traps before anything is read (R120). -/
theorem State.threadRead_unmapped {s : State} {t : ThreadId} (word : InstrWord) {a : Word} {n : Nat} {write : Bool}
    (body : State → State)
    (h : (if write then s.canWrite (s.thread t).ctx (locOf a) n else s.canRead (s.thread t).ctx (locOf a) n) = false) :
    (s.issued t).threadRead s t word a n write body =
      (s.issued t).trap t (s.thread t).pc word { kind := 4, code := .notPermitted, address := a } := by
  unfold State.threadRead
  simp only [State.issued_thread, State.canWrite_congr (s.issued_memory t), State.canRead_congr (s.issued_memory t), h,
    Bool.not_false, if_true]
  rfl

/-- So does a write. -/
theorem State.threadWrite_unmapped {s : State} {t : ThreadId} (word : InstrWord) {a : Word} {bs : Bytes}
    (h : s.canWrite (s.thread t).ctx (locOf a) bs.length = false) :
    (s.issued t).threadWrite s t word a bs =
      (s.issued t).trap t (s.thread t).pc word { kind := 4, code := .notPermitted, address := a } := by
  unfold State.threadWrite
  simp only [State.issued_thread, State.canWrite_congr (s.issued_memory t), h, Bool.not_false, if_true]
  rfl

/-- The traps of an access whose address is wrong, in the order in which it is checked. -/
def AddressTraps (s : State) (t : ThreadId) (c : Instr) (word : InstrWord) (a : Word) (n : Nat) (write : Bool) : Prop :=
  let traps := fun (r : Trap) => exec c s = .next ((s.issued t).trap t (s.thread t).pc word r)
  (a.toNat % n ≠ 0 → traps { kind := 3, code := .badPacket, address := a }) ∧
    (a.toNat % n = 0 → devOf a = 0xFFFF → traps { kind := 2, code := .badPacket, detail := 5 + 256 * 10 }) ∧
    (a.toNat % n = 0 → devOf a ≠ 0xFFFF → devOf a = s.lodge.deviceId →
      (if write then s.canWrite (s.thread t).ctx (locOf a) n else s.canRead (s.thread t).ctx (locOf a) n) = false →
      traps { kind := 4, code := .notPermitted, address := a })

/-- An instruction that checks its address in that order, and whose access of this module traps outside the mappings. -/
theorem addressTraps_of_exec {s : State} {t : ThreadId} {c : Instr} {word : InstrWord} {a : Word} {n : Nat} {write : Bool}
    {away here : State}
    (e : exec c s = .next (if a.toNat % n ≠ 0 then (s.issued t).trap t (s.thread t).pc word (trMisaligned a)
      else if devOf a = 0xFFFF then (s.issued t).trap t (s.thread t).pc word (trOperand 5 10)
      else if devOf a ≠ (s.issued t).lodge.deviceId then away else here))
    (hh : (if write then s.canWrite (s.thread t).ctx (locOf a) n else s.canRead (s.thread t).ctx (locOf a) n) = false →
      here = (s.issued t).trap t (s.thread t).pc word { kind := 4, code := .notPermitted, address := a }) :
    AddressTraps s t c word a n write := by
  refine ⟨fun ha => ?_, fun ha hd => ?_, fun ha hk hd hm => ?_⟩
  · rw [e, if_pos ha]
    rfl
  · rw [e, if_neg (not_not.2 ha), if_pos hd]
    rfl
  · rw [e, if_neg (not_not.2 ha), if_neg hk, if_neg (not_not.2 (hd.trans (s.issued_deviceId t).symm)), hh hm]

/-- Settles O24: the scalar accesses check their address in one order, and a local access its mappings first. -/
theorem badAddressesTrap : Obligations.BadAddressesTrap := by
  unfold Obligations.BadAddressesTrap
  intro s t w h hz hpd hb x a
  have load : ∀ (c : Instr) (m : Nat) (sg : Bool), exec c s = .next (s.load t m sg w) → w.sb = 0 ∧ w.var.toNat < 4 →
      AddressTraps s t c (scalarBits w 0x02 m) a (2 ^ w.var.toNat) false := by
    rintro c m sg e ⟨hsb, hv⟩
    rw [State.load, State.issueScalar_of_issues h (scalarLegal_load hz hsb hpd hb hv)] at e
    exact addressTraps_of_exec e (State.threadRead_unmapped _ _)
  simp only [List.forall_mem_cons]
  refine ⟨load _ 0x00 false rfl, load _ 0x01 true rfl, fun ⟨hsd, hv⟩ => ?st, fun hv => ?atom, fun ⟨hsb, hsd, hv⟩ => ?dld,
    fun ⟨hsb, hsd, hv⟩ => ?dst, by simp⟩
  case st =>
    have e : exec (.st t w) s = execSt t w s := rfl
    rw [execSt, State.issueScalar_of_issues h (scalarLegal_store hz hsd hpd hb hv)] at e
    exact addressTraps_of_exec (write := true) e fun hm => State.threadWrite_unmapped _ (by rw [length_le]; exact hm)
  case atom =>
    have e : exec (.atom t w) s = execAtom t w s := rfl
    rw [execAtom, State.issue_of_issues h (scalarLegal_atom hz hpd hb hv)] at e
    exact addressTraps_of_exec e (State.threadRead_unmapped _ _)
  case dld =>
    have e : exec (.dld t w) s = execDld t w s := rfl
    rw [execDld, State.issueScalar_of_issues h (scalarLegal_descMove hz hsd hsb hpd hb hv)] at e
    exact addressTraps_of_exec e (State.threadRead_unmapped _ _)
  case dst =>
    have e : exec (.dst t w) s = execDst t w s := rfl
    rw [execDst, State.issueScalar_of_issues h (scalarLegal_descMove hz hsd hsb hpd hb hv)] at e
    exact addressTraps_of_exec (write := true) e fun hm => State.threadWrite_unmapped _ (by rw [length_le]; exact hm)

end Sys2Proof.Machine
end

section
/-! CLAIMS. Semaphore waits (O26), posts (O27, O28), fences (O29) and barriers (O30). -/

namespace Sys2Proof.Machine

/-! ### Shared steps -/

/-- What reads only what records leave is read alike. -/
theorem State.congr_kept {β : Type} {g : State → β} (hg : ∀ v : State, g v.kept = g v) {s u : State} (h : u.kept = s.kept) :
    g u = g s := by
  rw [← hg, h, hg]

/-- Only one thread has changed. -/
theorem otherThreads_setThread {s v : State} {t : ThreadId} (ht : t.array < 64) (h : v.threads = s.threads) (y : Thread) :
    OtherThreads s (v.setThread t y) t := by
  intro q hq hne
  rw [State.setThread_other _ _ ht hq hne, State.thread, h, State.thread]

theorem State.threads_of_kept {s u : State} (h : u.kept = s.kept) : u.threads = s.threads := (congrArg State.threads h :)
theorem State.memory_of_kept {s u : State} (h : u.kept = s.kept) : u.memory = s.memory := (congrArg State.memory h :)
theorem State.thread_of_kept {s u : State} (h : u.kept = s.kept) (t : ThreadId) : u.thread t = s.thread t :=
  State.congr_kept (g := fun v => v.thread t) (fun _ => rfl) h

theorem State.setThread_kept (s : State) (t : ThreadId) (y : Thread) : (s.setThread t y).kept = s.kept.setThread t y := rfl

/-- The predicate of a thread that goes on, as written. -/
theorem Thread.pred_of_setPred {x y : Thread} {k : Nat} {v : Bool} (hy : y.preds = (x.setPred (BitVec.ofNat 3 k) v).preds)
    (hk : k < 8) (p : BitVec 3) (hp : p.toNat = k) (hz : p ≠ 0) : y.pred p = v := by
  have e : BitVec.ofNat 3 k = p := by
    apply BitVec.eq_of_toNat_eq
    rw [BitVec.toNat_ofNat, hp, Nat.mod_eq_of_lt hk]
  rw [e] at hy
  rw [← Thread.pred_setPred_self x v hz]
  simp only [Thread.pred, hy]

@[simp] theorem Thread.setPred_regs (x : Thread) (p : BitVec 3) (v : Bool) : (x.setPred p v).regs = x.regs := by
  unfold Thread.setPred
  split <;> rfl
@[simp] theorem Thread.setPred_descs (x : Thread) (p : BitVec 3) (v : Bool) : (x.setPred p v).descs = x.descs := by
  unfold Thread.setPred
  split <;> rfl
@[simp] theorem Thread.setPred_pc (x : Thread) (p : BitVec 3) (v : Bool) : (x.setPred p v).pc = x.pc := by
  unfold Thread.setPred
  split <;> rfl

/-- Fewer bytes meet no more lines. -/
theorem State.repairingIn_shorter {s : State} {a n m : Nat} (hn : 0 < n) (h : n ≤ m) (hr : s.repairingIn a m = []) :
    s.repairingIn a n = [] := by
  simp only [State.repairingIn, List.append_eq_nil_iff, List.filter_eq_nil_iff, Bool.and_eq_true, decide_eq_true_eq] at hr ⊢
  obtain ⟨hlines, hrows⟩ := hr
  refine ⟨fun l hl ⟨h1, h2⟩ => hlines l hl ⟨h1, by omega⟩, ?_⟩
  unfold State.relocatingIn at hrows ⊢
  by_cases hre : s.memory.retiringRows.isEmpty
  · rw [if_pos hre]
  · rw [if_neg hre, List.filter_eq_nil_iff] at hrows ⊢
    intro l hl
    refine hrows l ?_
    have hle : (a + n - 1) / lineBytes ≤ (a + m - 1) / lineBytes := Nat.div_le_div_right (by omega)
    simp only [unitsOf, hn.ne', (Nat.lt_of_lt_of_le hn h).ne', if_false, countUp, List.mem_map, List.mem_range] at hl ⊢
    obtain ⟨i, hi, e⟩ := hl
    exact ⟨i, by omega, e⟩

/-! ### `SEM_WAIT` (R143) -/

/-- A wait that the count satisfies subtracts n at the semaphore, and the thread goes on (R140, R143). -/
theorem State.semTake_effect {s v : State} {t : ThreadId} {a : Word} {n p : Nat} (ht : t.array < 64)
    (hk : v.kept = s.kept) (hr : s.repairingIn (locOf a) 4 = []) :
    let u := v.semTake t a n p
    u.bytesAt (locOf a) 4 = le 4 ((s.sem (locOf a)).count - n) ∧ BytesOutside s u (locOf a) 4 ∧ OtherThreads s u t ∧
      GoesOn s u t ∧ (u.thread t).wait = none ∧
      (p < 8 → ∀ q : BitVec 3, q.toNat = p → q ≠ 0 → (u.thread t).pred q = false) := by
  intro u
  have hsem : v.sem (locOf a) = s.sem (locOf a) := State.congr_kept (g := fun v => v.sem (locOf a)) (fun _ => rfl) hk
  have hrep : v.repairingIn (locOf a) (le 4 ((s.sem (locOf a)).count - n)).length = [] := by
    rw [length_le, ← hr]
    exact State.congr_kept (g := fun v => v.repairingIn (locOf a) 4) (fun _ => rfl) hk
  have hu : u = (v.store (locOf a) (le 4 ((s.sem (locOf a)).count - n))).setThread t
      { (s.thread t).setPred (BitVec.ofNat 3 p) false with
        state := .running, wait := none, pc := (s.thread t).pc + 16 } := by
    show State.semTake .. = _
    rw [State.semTake, State.modThread_eq, State.store_thread, State.thread_of_kept hk, hsem]
  clear_value u
  subst hu
  obtain ⟨threads, -⟩ := v.store_fields (locOf a) (le 4 ((s.sem (locOf a)).count - n))
  have hb := v.store_bytesAt_clear (locOf a) (le 4 ((s.sem (locOf a)).count - n)) hrep
  rw [length_le] at hb
  refine ⟨hb, fun b hb' => ?_, otherThreads_setThread ht (threads.trans (State.threads_of_kept hk)) _, ?_, ?_, ?_⟩
  · have ho := v.store_outside (locOf a) (le 4 ((s.sem (locOf a)).count - n)) b (by rw [length_le]; exact hb')
    rw [State.memory_of_kept hk] at ho
    exact ho
  · refine ⟨?_, ?_, ?_, ?_⟩ <;> rw [State.setThread_thread] <;> simp
  · rw [State.setThread_thread]
  · rw [State.setThread_thread]
    exact Thread.pred_of_setPred rfl

/-- A wait that fails sets its predicate, gives the code, and the thread goes on (R140, R143). -/
theorem State.failWait_effect {s v : State} {t : ThreadId} {p : Nat} {c : Code} (ht : t.array < 64)
    (hm : v.memory = s.memory) (hth : ∀ q : ThreadId, q.array < 64 → q ≠ t → v.thread q = s.thread q)
    (hx : (v.thread t).pc = (s.thread t).pc ∧ (v.thread t).regs = (s.thread t).regs ∧
      (v.thread t).descs = (s.thread t).descs) (hp : p < 8) :
    let u := v.failWait t p true c
    u.memory = s.memory ∧ OtherThreads s u t ∧ GoesOn s u t ∧ (u.thread t).condCode = c.num ∧
      ∀ q : BitVec 3, q.toNat = p → (u.thread t).pred q = true := by
  intro u
  have hu : ∃ q : State, q.threads = v.threads ∧ q.memory = v.memory ∧ u = q.setThread t
      { (v.thread t).setPred (BitVec.ofNat 3 p) true with
        condCode := c.num, state := .running, wait := none, pc := (v.thread t).pc + 16 } := by
    have hn : (v.noteCode (v.thread t).launch c).threads = v.threads ∧
        (v.noteCode (v.thread t).launch c).memory = v.memory := by
      unfold State.noteCode
      split <;> exact ⟨rfl, rfl⟩
    generalize hw : v.noteCode (v.thread t).launch c = w at hn
    obtain ⟨hn1, hn2⟩ := hn
    have hk : ((w.count cOwnerSuspendedFails t.array (b2n (c == .ownerSuspended || c == .noSuchContext))).countWait t).kept =
        w.kept := (State.countWait_kept ..).trans (State.count_kept ..)
    refine ⟨_, (State.threads_of_kept hk).trans hn1, (State.memory_of_kept hk).trans hn2, ?_⟩
    have hxt : w.thread t = v.thread t := by rw [State.thread, hn1, State.thread]
    show State.failWait .. = _
    rw [State.failWait]
    simp only [if_true, hw, State.advance, State.modThread_eq, State.setThread_thread, State.setThread_setThread,
      State.thread_of_kept hk, hxt, Thread.setPred_pc]
  clear_value u
  obtain ⟨q, hq1, hq2, rfl⟩ := hu
  obtain ⟨hpc, hregs, hdescs⟩ := hx
  refine ⟨hq2.trans hm, fun r hr hne => ?_, ⟨?_, ?_, ?_, ?_⟩, ?_, fun r hr => ?_⟩
  · rw [State.setThread_other _ _ ht hr hne, State.thread, hq1, ← State.thread, hth r hr hne]
  · rw [State.setThread_thread]
  · rw [State.setThread_thread]
    exact congrArg (· + 16) hpc
  · rw [State.setThread_thread]
    exact (Thread.setPred_regs ..).trans hregs
  · rw [State.setThread_thread]
    exact (Thread.setPred_descs ..).trans hdescs
  · rw [State.setThread_thread]
  · rw [State.setThread_thread]
    by_cases hz : r = 0
    · rw [hz]
      rfl
    · exact Thread.pred_of_setPred rfl hp r hr hz

/-- What a `SEM_WAIT` that its checks let through does (R142, R143). -/
def State.semWaitOutcome (s : State) (t : ThreadId) (word : InstrWord) (a : Word) (n p : Nat) (noTrap : Bool) : State :=
  match s.semFails (s.thread t).ctx (s.sem (locOf a)) with
  | some c => ((s.issued t).modThread t fun x => { x with word := word }).failWait t p noTrap c
  | none => if n ≤ (s.sem (locOf a)).count then (s.issued t).semTake t a n p
    else (s.issued t).waitFor t word (.semWait a n p noTrap)

section
variable {s : State} {t : ThreadId} {word : InstrWord} {a : Word} {n p : Nat} {noTrap : Bool}

theorem State.semWaitOutcome_takes (hf : s.semFails (s.thread t).ctx (s.sem (locOf a)) = none)
    (hle : n ≤ (s.sem (locOf a)).count) : s.semWaitOutcome t word a n p noTrap = (s.issued t).semTake t a n p := by
  rw [State.semWaitOutcome, hf]
  exact if_pos hle

theorem State.semWaitOutcome_waits (hf : s.semFails (s.thread t).ctx (s.sem (locOf a)) = none)
    (hlt : (s.sem (locOf a)).count < n) :
    s.semWaitOutcome t word a n p noTrap = (s.issued t).waitFor t word (.semWait a n p noTrap) := by
  rw [State.semWaitOutcome, hf]
  exact if_neg (Nat.not_le.2 hlt)

theorem State.semWaitOutcome_fails {c : Code} (hf : s.semFails (s.thread t).ctx (s.sem (locOf a)) = some c) :
    s.semWaitOutcome t word a n p noTrap =
      ((s.issued t).modThread t fun x => { x with word := word }).failWait t p noTrap c := by
  rw [State.semWaitOutcome, hf]
end

/-- The checks of `SEM_WAIT` (R142, R143). -/
theorem exec_semWait {s : State} {t : ThreadId} {w : TileWord} {a : Word} (h : Issues s t w.pred w.pneg)
    (hl : tileLegal w { s1 := true, group := false, var := 7, imm := 0xFFFFFFFF } = true) (ha : (s.thread t).reg w.s1 = a)
    (hd : devOf a = s.lodge.deviceId) (hal : a.toNat % 16 = 0) (hrep : s.repairingIn (locOf a) 16 = []) (hn : semN w ≠ 0)
    (href : s.semRefused (s.thread t).ctx (locOf a) = none) (hown : (s.sem (locOf a)).owner ≠ 0) :
    exec (.semWait t w) s =
      .next (s.semWaitOutcome t (tileBits w 0x60 0x00) a (semN w) (predOf w) w.noTrap) := by
  have hk := s.issued_kept t
  have hsem : (s.issued t).sem (locOf a) = s.sem (locOf a) :=
    State.congr_kept (g := fun v => v.sem (locOf a)) (fun _ => rfl) hk
  have hfails : (s.issued t).semFails (s.thread t).ctx (s.sem (locOf a)) =
      s.semFails (s.thread t).ctx (s.sem (locOf a)) :=
    State.congr_kept (g := fun v => v.semFails (s.thread t).ctx (s.sem (locOf a))) (fun _ => rfl) hk
  have href' : (s.issued t).semRefused (s.thread t).ctx (locOf a) = none :=
    (State.congr_kept (g := fun v => v.semRefused (s.thread t).ctx (locOf a)) (fun _ => rfl) hk).trans href
  have hrep' : (s.issued t).repairingIn (locOf a) 16 = [] :=
    (State.congr_kept (g := fun v => v.repairingIn (locOf a) 16) (fun _ => rfl) hk).trans hrep
  have e : exec (.semWait t w) s = execSemWait t w s := rfl
  rw [e, execSemWait, State.issueSync, State.issue_of_issues h hl, State.semWaitOutcome]
  simp only [ha, hsem, hrep', hfails]
  rw [if_neg (not_not.2 hal), if_neg hn, if_neg (not_not.2 (hd.trans (s.issued_deviceId t).symm)),
    if_neg (by rw [href']; decide)]
  refine congrArg Host.Outcome.next ((if_neg hown).trans ?_)
  cases s.semFails (s.thread t).ctx (s.sem (locOf a)) <;> rfl

/-- Settles O26: the checks of `SEM_WAIT` passed, its outcome is that of the semaphore. -/
theorem semWaitTakesItsCountOrWaits : Obligations.SemWaitTakesItsCountOrWaits := by
  unfold Obligations.SemWaitTakesItsCountOrWaits
  intro s t w ht h hl x a n hd hal hrep hn href hown
  have hk := s.issued_kept t
  have hN : semN w = n := semN_eq w
  have hp : w.var.toNat % 8 < 8 := Nat.mod_lt _ (by decide)
  clear_value n
  have run := exec_semWait h hl rfl hd hal hrep (by rw [hN]; exact hn.ne') href hown
  rw [predOf_eq, hN] at run
  refine ⟨fun hf hle => ?_, fun hf hlt => ?_, fun c hf hnt => ?_⟩
  · obtain ⟨hb, hout, hoth, hgo, -, hpred⟩ := State.semTake_effect (n := n) ht hk
      (State.repairingIn_shorter (by decide) (by decide) hrep)
    exact ⟨_, run.trans (congrArg _ (State.semWaitOutcome_takes hf hle)), hb, hout, hoth, hgo, hpred hp⟩
  · refine ⟨_, run.trans (congrArg _ (State.semWaitOutcome_waits hf hlt)), s.issued_memory t, ?_,
      waits_waitFor (s.issued_offSends t) t _ _⟩
    rw [State.waitFor, State.modThread_eq]
    exact otherThreads_setThread ht (State.threads_of_kept hk) _
  · have e := run.trans (congrArg _ (State.semWaitOutcome_fails hf))
    rw [hnt] at e
    refine ⟨_, e, State.failWait_effect ht (s.issued_memory t) (fun q hq hne => ?_) ?_ hp⟩
    · rw [State.modThread_eq, State.setThread_other _ _ ht hq hne, State.issued_thread]
    · rw [State.modThread_eq, State.setThread_thread, State.issued_thread]
      exact ⟨rfl, rfl, rfl⟩

/-! ### Posts (R142 to R144, R243) -/

/-- A post to a semaphore whose owner stands adds n and saturates, and leaves what a write leaves (R144). -/
theorem State.semAddNow_effect {s : State} {array a n : Nat} (hown : (s.sem a).owner ≠ 0)
    (hst : s.ownerStands (s.sem a) = true) :
    (s.semAddNow array a n).unwritten = s.unwritten ∧
      (s.semAddNow array a n).memory.bytes = cellsWrite s.memory.bytes a (le 4 (min 0xFFFFFFFF ((s.sem a).count + n))) := by
  unfold State.semAddNow
  simp only [hown, hst, decide_false, Bool.not_true, Bool.or_self, Bool.false_eq_true, if_false]
  split
  · rename_i h
    rw [Nat.min_eq_right h]
    exact ⟨s.storeNow_unwritten .., s.storeNow_bytes ..⟩
  · rename_i h
    rw [Nat.min_eq_left (Nat.le_of_not_le h)]
    exact ⟨(State.unwritten_of_kept (State.count_kept ..)).trans (s.storeNow_unwritten ..),
      (congrArg Memory.bytes (State.count_memory ..)).trans (s.storeNow_bytes ..)⟩

/-- A write of four bytes reads back, and leaves the others. -/
theorem bytes_of_write {s u : State} {a v : Nat} (h : u.memory.bytes = cellsWrite s.memory.bytes a (le 4 v)) :
    u.bytesAt a 4 = le 4 v ∧ BytesOutside s u a 4 := by
  have hb := cellsRead_cellsWrite (le 4 v) s.memory.bytes a
  rw [length_le] at hb
  refine ⟨?_, fun b hb' => ?_⟩
  · rw [State.bytesAt, h, hb]
  · rw [h]
    exact cellRead_cellsWrite_outside _ _ _ _ (by rw [length_le]; exact hb')

/-- Settles O27: the end of a held wait by the wait's own step, and posts by their line and their owner. -/
theorem postsAddAndEndWaits : Obligations.PostsAddAndEndWaits := by
  unfold Obligations.PostsAddAndEndWaits
  refine ⟨fun s t cycles n pred a nt ht hs hw hown hf hn hr => ?ends, fun s array a n hr => ⟨fun hown hst => ?adds,
    fun h => ?discarded⟩, fun s array a n hr => ?kept⟩
  case ends =>
    have e : exec (.semWaitComplete t cycles) s = execSemWaitComplete t cycles s := rfl
    simp only [execSemWaitComplete, hs, hw, hown, if_false, hf, hn, if_true] at e
    obtain ⟨hb, hout, hoth, hgo, hwait, -⟩ := State.semTake_effect (n := n) (p := pred) ht
      (s.count_kept cSemWait t.array cycles) hr
    exact ⟨_, e, hb, hout, hoth, hgo, hwait⟩
  case adds =>
    have e : s.semAdd array a n = s.semAddNow array a n := if_neg (by rw [lineBytes, hr]; decide)
    rw [e]
    exact bytes_of_write (State.semAddNow_effect hown hst).2
  case discarded =>
    have e : s.semAdd array a n = s.semAddNow array a n := if_neg (by rw [lineBytes, hr]; decide)
    have h' : (decide ((s.sem a).owner = 0) || !s.ownerStands (s.sem a)) = true := by
      rcases h with h | h <;> simp [h]
    rw [e, State.semAddNow]
    exact if_pos h'
  case kept => exact if_pos hr

/-! ### `SEM_POST` (R140, R142, R278) -/

theorem State.waitFor_eq (s : State) (t : ThreadId) (word : InstrWord) (w : Wait) :
    s.waitFor t word w = s.setThread t { s.thread t with state := .waiting, wait := some w, word := word } := rfl

/-- A thread that has issued, and waits in the instruction. -/
theorem State.issued_waitFor (s : State) (t : ThreadId) (word : InstrWord) (w : Wait) :
    (s.issued t).waitFor t word w =
      (s.issued t).setThread t { s.thread t with state := .waiting, wait := some w, word := word } := by
  rw [State.waitFor_eq, State.issued_thread]

/-- The checks of `SEM_POST` (R140, R142, R278). -/
theorem exec_semPost {s : State} {t : ThreadId} {w : TileWord} {a : Word} (h : Issues s t w.pred w.pneg)
    (hl : tileLegal w { s1 := true, group := false, var := 7, imm := 0xFFFFFFFFFF } = true)
    (ha : (s.thread t).reg w.s1 = a) (hal : a.toNat % 16 = 0) (hn : semN w ≠ 0) (hd : devOf a ≠ 0xFFFF) :
    exec (.semPost t w) s = .next (((s.issued t).waitFor t (tileBits w 0x60 0x01)
      (.semPost a (semN w) (groupMask w) (predOf w) w.noTrap false [] 0xFFFF)).settle t) := by
  have e : exec (.semPost t w) s = execSemPost t w s := rfl
  rw [e, execSemPost, State.issueSync, State.issue_of_issues h hl]
  simp only [ha]
  rw [if_neg (not_not.2 hal), if_neg hn, if_neg (by simp [hd])]

/-- A `SEM_POST` whose groups are not complete waits on; one whose groups are complete posts (R140). -/
theorem State.settle_semPost {s : State} {t : ThreadId} {a : Word} {n m p bad : Nat} {nt : Bool} {tags : List Nat}
    (hs : (s.thread t).state = .waiting) (hw : (s.thread t).wait = some (.semPost a n m p nt false tags bad)) :
    s.settle t = if (s.thread t).maskDone m then s.postStart t a n p nt else s := by
  simp [State.settle, hs, hw]

theorem State.targets_one (s : State) (c : Nat) {a : Word} (h : devOf a ≠ 0xFFFF) : s.targets c a = [devOf a] := if_neg h

/-- A post to one device of this module (R142). -/
theorem State.postStart_here {s : State} {t : ThreadId} {a : Word} {n p : Nat} {nt : Bool} (hk : devOf a ≠ 0xFFFF)
    (hd : devOf a = s.lodge.deviceId) (hp : (s.postLocal t (s.thread t).ctx (locOf a) n false).2 = none) :
    s.postStart t a n p nt = (s.postLocal t (s.thread t).ctx (locOf a) n false).1.postEnd t p nt 0xFFFF := by
  have hb : (devOf a == 0xFFFF) = false := by simpa using hk
  unfold State.postStart
  simp only [State.targets_one _ _ hk, List.foldl_cons, List.foldl_nil, if_pos hd, hb, hp]
  rfl

/-- A post to another module is sent, and the thread waits for its acknowledgement (R144). -/
theorem State.postStart_away {s : State} {t : ThreadId} {a : Word} {n p : Nat} {nt : Bool} (hk : devOf a ≠ 0xFFFF)
    (hd : devOf a ≠ s.lodge.deviceId) (hr : s.hasRoute (devOf a) = true) :
    let q := s.request tSemPost (devOf a) (s.thread t).ctx (globalAddr (devOf a) (locOf a)) 0 (.post t)
      (BitVec.ofNat 64 n) (thread := some t)
    s.postStart t a n p nt = q.2.modThread t fun y => { y with wait := some (.semPost a n 0 p nt true [q.1] 0xFFFF) } := by
  intro q
  unfold State.postStart
  simp only [State.targets_one _ _ hk, List.foldl_cons, List.foldl_nil, if_neg hd, hr, Bool.not_true, Bool.false_eq_true,
    if_false]
  rfl

/-- The end of a post without a failure: the predicate is cleared, and the thread goes on (R140). -/
theorem State.postEnd_ok {s : State} {t : ThreadId} (p : Nat) (nt : Bool)
    (ha : (s.ctx (s.thread t).ctx).state = .active) :
    s.postEnd t p nt 0xFFFF = s.setThread t { (s.thread t).setPred (BitVec.ofNat 3 p) false with
      state := .running, wait := none, pc := (s.thread t).pc + 16 } := by
  have hg : s.goesOn (s.thread t).ctx = .running := by simp [State.goesOn, ha]
  unfold State.postEnd
  simp only [if_true, hg]
  rfl

/-- What a post by a thread that waits in it leaves: the thread's place, and what the post itself does. -/
theorem semPost_ends {s v : State} {t : ThreadId} {x : Thread} (ht : t.array < 64) (hth : v.threads = (s.setThread t x).threads)
    (hpc : x.pc = (s.thread t).pc) (hregs : x.regs = (s.thread t).regs) (hdescs : x.descs = (s.thread t).descs)
    (ha : (v.ctx x.ctx).state = .active) {p : Nat} (hp : p < 8) (nt : Bool) :
    let u := v.postEnd t p nt 0xFFFF
    u.memory = v.memory ∧ OtherThreads s u t ∧ GoesOn s u t ∧
      ∀ q : BitVec 3, q.toNat = p → q ≠ 0 → (u.thread t).pred q = false := by
  intro u
  have hx : v.thread t = x := by
    rw [State.thread, hth]
    exact State.setThread_thread ..
  have hu : u = _ := State.postEnd_ok p nt (by rw [hx]; exact ha)
  rw [hx] at hu
  clear_value u
  subst hu
  refine ⟨rfl, fun q hq hne => ?_, ⟨?_, ?_, ?_, ?_⟩, ?_⟩
  · rw [State.setThread_other _ _ ht hq hne, State.thread, hth]
    exact State.setThread_other _ _ ht hq hne
  · rw [State.setThread_thread]
  · rw [State.setThread_thread]
    exact congrArg (· + 16) hpc
  · rw [State.setThread_thread]
    exact (Thread.setPred_regs ..).trans hregs
  · rw [State.setThread_thread]
    exact (Thread.setPred_descs ..).trans hdescs
  · rw [State.setThread_thread]
    exact Thread.pred_of_setPred rfl hp

/-- Settles O28: `SEM_POST` waits for its groups, and then posts here or asks another module to. -/
theorem semPostAddsAtItsTarget : Obligations.SemPostAddsAtItsTarget := by
  unfold Obligations.SemPostAddsAtItsTarget
  intro s t w ht h hl x a dev n m hal hn hdev
  have hN : semN w = n := semN_eq w
  have hM : groupMask w = m := by simp [groupMask, bits, m]
  have hp : w.var.toNat % 8 < 8 := Nat.mod_lt _ (by decide)
  clear_value n m
  have run := exec_semPost h hl rfl hal (by rw [hN]; exact hn.ne') hdev
  rw [predOf_eq, hN, hM, State.issued_waitFor] at run
  obtain ⟨y, hy⟩ : ∃ y : Thread, y = { s.thread t with
    state := .waiting, wait := some (.semPost (x.reg w.s1) n m (w.var.toNat % 8) w.noTrap false [] 0xFFFF)
    word := tileBits w 0x60 0x01 } := ⟨_, rfl⟩
  obtain ⟨v, hv⟩ : ∃ v, v = (s.issued t).setThread t y := ⟨_, rfl⟩
  rw [← hy, ← hv] at run
  have hvt : v.thread t = y := by rw [hv, State.setThread_thread]
  have hvk : v.kept = (s.setThread t y).kept := by
    rw [hv, State.setThread_kept, State.issued_kept, State.setThread_kept]
  have hvm : v.memory = s.memory := State.memory_of_kept (s := s.setThread t y) hvk
  have hvd : v.lodge.deviceId = s.lodge.deviceId := (congrArg (fun q : State => q.lodge.deviceId) hvk :)
  have hvr : v.hasRoute dev = s.hasRoute dev := State.congr_kept (s := s.setThread t y) (g := fun q => q.hasRoute dev) (fun _ => rfl) hvk
  have href : v.semRefused x.ctx a = s.semRefused x.ctx a :=
    State.congr_kept (s := s.setThread t y) (g := fun q => q.semRefused x.ctx a) (fun _ => rfl) hvk
  have hyx : y.ctx = x.ctx ∧ y.pc = x.pc ∧ y.regs = x.regs ∧ y.descs = x.descs ∧ y.maskDone m = x.maskDone m := by
    rw [hy]
    exact ⟨rfl, rfl, rfl, rfl, rfl⟩
  obtain ⟨hyc, hypc, hyregs, hydescs, hydone⟩ := hyx
  have hsettle : v.settle t = if x.maskDone m then v.postStart t (x.reg w.s1) n (w.var.toNat % 8) w.noTrap else v := by
    rw [← hydone, ← hvt]
    exact State.settle_semPost (by rw [hvt, hy]) (by rw [hvt, hy])
  rw [hsettle] at run
  refine ⟨fun hdone => ?waits, fun hdone hd hr hrep hown hst => ?posts, fun hdone hd c hc hne => ?refused,
    fun hdone hd hr => ?away⟩
  case waits =>
    rw [hdone] at run
    refine ⟨v, run, hv ▸ otherThreads_setThread ht (State.threads_of_kept (s.issued_kept t)) _, ?_⟩
    rw [hv, hy, ← State.issued_waitFor]
    exact waits_waitFor (s.issued_offSends t) t _ _
  case posts =>
    have hlocal : v.postLocal t (v.thread t).ctx a n false = (v.semAddNow t.array a n, none) := by
      have hadd : v.semAdd t.array a n = v.semAddNow t.array a n := if_neg (by rw [hvm, lineBytes, hrep]; decide)
      rw [State.postLocal, hvt, hyc, href, hr]
      exact congrArg (·, none) hadd
    rw [hdone, if_pos rfl, State.postStart_here hdev (hd.trans hvd.symm) (by rw [hlocal]), hlocal] at run
    have hsem : v.sem a = s.sem a := State.congr_kept (s := s.setThread t y) (g := fun q => q.sem a) (fun _ => rfl) hvk
    have hst' : v.ownerStands (s.sem a) = true :=
      (State.congr_kept (s := s.setThread t y) (g := fun q => q.ownerStands (s.sem a)) (fun _ => rfl) hvk).trans hst
    obtain ⟨hkeep, hbytes⟩ := State.semAddNow_effect (s := v) (array := t.array) (n := n) (hsem ▸ hown) (hsem ▸ hst')
    rw [hsem, hvm] at hbytes
    have hth : (v.semAddNow t.array a n).threads = (s.setThread t y).threads :=
      (congrArg State.threads hkeep :).trans (congrArg State.threads hvk :)
    have hctx : ((v.semAddNow t.array a n).ctx y.ctx).state = .active := by
      have hc : (v.semAddNow t.array a n).ctxs = s.ctxs := (congrArg State.ctxs hkeep :).trans (congrArg State.ctxs hvk :)
      rw [State.ctx, hc, hyc]
      exact h.active
    obtain ⟨hm, ho, hgo, hpred⟩ := semPost_ends ht hth hypc hyregs hydescs hctx hp w.noTrap
    obtain ⟨hb, hout⟩ := bytes_of_write hbytes
    exact ⟨_, run, by rw [State.bytesAt, hm]; exact hb, fun b hb' => by rw [hm]; exact hout b hb', ho, hgo, hpred⟩
  case refused =>
    have hlocal : v.postLocal t (v.thread t).ctx a n false = (v.violation c.1 c.2, none) := by
      rw [State.postLocal, hvt, hyc, href, hc]
      simp [State.localViolation, hne]
    rw [hdone, if_pos rfl, State.postStart_here hdev (hd.trans hvd.symm) (by rw [hlocal]), hlocal] at run
    have hk : (v.violation c.1 c.2).kept = (s.setThread t y).kept := (State.count_kept ..).trans hvk
    have hctx : ((v.violation c.1 c.2).ctx y.ctx).state = .active := by
      have hc : (v.violation c.1 c.2).ctxs = s.ctxs := (congrArg State.ctxs hk :)
      rw [State.ctx, hc, hyc]
      exact h.active
    obtain ⟨hm, ho, hgo, -⟩ := semPost_ends ht (State.threads_of_kept hk) hypc hyregs hydescs hctx hp w.noTrap
    exact ⟨_, run, hm.trans (State.memory_of_kept (s := s.setThread t y) hk), ho, hgo⟩
  case away =>
    rw [hdone, if_pos rfl, State.postStart_away hdev (fun e => hd (e.trans hvd)) (hvr.trans hr)] at run
    have hoff : ∀ q : Nat × State, q.2.offSends = v.offSends → q.2.threads = v.threads ∧ q.2.memory = s.memory := by
      intro q hq
      obtain ⟨hth, hm, -⟩ := State.offSends_fields hq
      exact ⟨hth, hm.trans hvm⟩
    obtain ⟨r, hq, hty, hdst, haddr, -, hop, -⟩ := asked_request v tSemPost dev (v.thread t).ctx (globalAddr dev a) 0
      (.post t) (BitVec.ofNat 64 n) [] 0 false false (some t) none none
    obtain ⟨hth, hm⟩ := hoff _ (State.request_offSends v tSemPost dev (v.thread t).ctx (globalAddr dev a) 0
      (.post t) (BitVec.ofNat 64 n) [] 0 false false (some t) none none)
    refine ⟨_, run, _, ?_, ?_, r, hq, hty, hdst, haddr.trans (globalAddr_devOf_locOf _), hop⟩
    · intro q hq' hne
      rw [State.modThread_eq, State.setThread_other _ _ ht hq' hne, State.thread, hth, hv]
      exact (State.setThread_other _ _ ht hq' hne).trans (s.issued_thread t q)
    · have hthread : ∀ q : State, q.threads = v.threads → q.thread t = y := fun q e => by
        rw [State.thread, e, ← State.thread, hvt]
      have hq := hthread _ hth
      rw [State.modThread_eq]
      refine ⟨?_, ?_, ?_, ?_, ?_, ?_, congrArg Memory.bytes hm⟩ <;> rw [State.setThread_thread]
      exacts [(congrArg Thread.state hq).trans (by rw [hy]), (congrArg Thread.pc hq).trans hypc,
        (congrArg Thread.regs hq).trans hyregs, (congrArg Thread.preds hq).trans (by rw [hy]),
        (congrArg Thread.descs hq).trans hydescs]

/-! ### `FENCE` (R137, R140, R196) -/

/-- Registers written one after another depend on the registers before, and nothing else of the thread changes. -/
theorem foldl_setReg {α : Type} (r : α → BitVec 5) (v : α → Word) (l : List α) (x : Thread) :
    l.foldl (fun (y : Thread) a => y.setReg (r a) (v a)) x =
      { x with regs := l.foldl (fun (q : Vector Word 32) a => q.set (r a).toNat (v a) (r a).isLt) x.regs } := by
  induction l generalizing x with
  | nil => rfl
  | cons a l ih => rw [List.foldl_cons, ih]; rfl

/-- What a thread's `FENCE` leaves (R137, R140, R196). -/
theorem Thread.fenced_fields (x : Thread) (m p : Nat) (hp : p < 8) :
    (x.fenced m p).state = .running ∧ (x.fenced m p).pc = x.pc + 16 ∧
      (x.fenced m p).regs = ((x.pendRegs.filter fun r => bitOf m r.1).foldl
        (fun (y : Thread) r => y.setReg (BitVec.ofNat 5 r.2.1) r.2.2) x).regs ∧
      (x.fenced m p).pendRegs = x.pendRegs.filter (fun r => !bitOf m r.1) ∧
      (x.fenced m p).condCode = ((x.firstCond m).map fun c => c.1.num).getD x.condCode ∧
      (∀ g : Fin 8, bitOf m g = true → ((x.fenced m p).groups[g]).cond = none) ∧
      (∀ g : Fin 8, bitOf m g = false → (x.fenced m p).groups[g] = x.groups[g]) ∧
      ∀ q : BitVec 3, q.toNat = p → q ≠ 0 → (x.fenced m p).pred q = (x.firstCond m).isSome := by
  unfold Thread.fenced
  simp only [foldl_setReg, Thread.setPred_regs]
  refine ⟨trivial, trivial, trivial, trivial, trivial, fun g hg => ?_, fun g hg => ?_, Thread.pred_of_setPred rfl hp⟩ <;>
    simp [hg]

/-- Settles O29: a `FENCE` ends at once where its groups and stores are complete, and waits where they are not. -/
theorem fenceReportsTheFirstCondition : Obligations.FenceReportsTheFirstCondition := by
  unfold Obligations.FenceReportsTheFirstCondition
  intro s t w h hl x m
  have hM : bits w.imm 7 0 = m := by simp [bits, m]
  have hV : bitOf w.var.toNat 3 = decide (8 ≤ w.var.toNat) := by
    have hlt := w.var.isLt
    simp only [bitOf, decide_eq_decide]
    omega
  have hp : w.var.toNat % 8 < 8 := Nat.mod_lt _ (by decide)
  clear_value m
  have run : exec (.fence t w) s = .next (((s.issued t).waitFor t (tileBits w 0x60 0x03)
      (.fence m (w.var.toNat % 8) (8 ≤ w.var.toNat))).settle t) := by
    have e : exec (.fence t w) s = execFence t w s := rfl
    rw [e, execFence, State.issueSync, State.issue_of_issues h hl, hM, hV, predOf_eq]
  have hw := waits_waitFor (s.issued_offSends t) t (tileBits w 0x60 0x03)
    (.fence m (w.var.toNat % 8) (8 ≤ w.var.toNat))
  rw [State.issued_waitFor] at run hw
  obtain ⟨y, hy⟩ : ∃ y : Thread, y = { s.thread t with
    state := .waiting, wait := some (.fence m (w.var.toNat % 8) (8 ≤ w.var.toNat))
    word := tileBits w 0x60 0x03 } := ⟨_, rfl⟩
  rw [← hy] at run hw
  have hdone : y.maskDone m = x.maskDone m := by rw [hy]; rfl
  have hsettle : ((s.issued t).setThread t y).settle t =
      if x.maskDone m then (s.issued t).setThread t (y.fenced m (w.var.toNat % 8)) else (s.issued t).setThread t y := by
    rw [← hdone]
    simp only [State.settle, State.setThread_thread]
    rw [hy]
    simp only [ne_eq, not_true_eq_false, if_false, State.modThread_eq, State.setThread_thread, State.setThread_setThread]
  rw [hsettle] at run
  refine ⟨fun hd => ?_, fun hd => ?_⟩
  · rw [hd, if_pos rfl] at run
    obtain ⟨hs, hpc, hregs, hpend, hcode, hclear, hother, hpred⟩ := Thread.fenced_fields y m (w.var.toNat % 8) hp
    refine ⟨_, run, s.issued_memory t, ?_⟩
    rw [State.setThread_thread]
    rw [foldl_setReg, hy] at hregs
    rw [foldl_setReg]
    subst hy
    exact ⟨hs, hpc, hregs, hpend, hcode, hclear, hother, hpred⟩
  · rw [hd, if_neg (by decide)] at run
    exact ⟨_, run, s.issued_memory t, hw⟩

/-! ### `BARRIER` (R140, R145) -/

/-- Thread 0 of array 0 runs a `BARRIER` of context 1, whose record of barrier 15 stands twice. No run of the model leads
here: its maps have one entry of a key. -/
def twiceListed : State :=
  { State.reset with
    ctxs := [(1, { state := .active, generation := 1
                   barriers := [(15, { participants := 1, arrivals := [] }), (15, { participants := 1, arrivals := [] })] })]
    threads := [(0, { state := .running, ctx := 1 })]
    memory := { State.reset.memory with bytes := [(14, 0x04), (15, 0x60)], pages := [(0, { owner := .ctx 1 })] }
    lodge := { State.reset.lodge with deviceId := 0 } }

/-- The release of a thread at a barrier; p is the predicate that it clears where its wait names none (R145). -/
def State.release (p : Nat) (s : State) (u : ThreadId) : State :=
  let q := match (s.thread u).wait with
    | some (.barrier _ _ _ q _) => q
    | _ => p
  (s.countWait u).modThread u fun y =>
    { y.setPred (BitVec.ofNat 3 q) false with state := .running, wait := none, pc := y.pc + 16 }

/-- A release changes no context. -/
theorem State.release_ctxs (p : Nat) (s : State) (u : ThreadId) : (s.release p u).ctxs = s.ctxs :=
  (congrArg State.ctxs (s.countWait_kept u) :)

/-- The last arrival at a barrier releases all of them, and the barrier's entry is taken away (R145). -/
theorem State.arrive_last {s : State} {t : ThreadId} {i n p : Nat} {b : Barrier}
    (hb : Map.getD (s.ctx (s.thread t).ctx).barriers i { participants := n, arrivals := [] } = b) (hn : 1 ≤ n)
    (hmax : n ≤ 4096) (hp : b.participants = n) (hl : ¬ (b.arrivals ++ [t]).length < n) :
    s.arrive t i n p = (b.arrivals ++ [t]).foldl (State.release p)
      (s.modCtx (s.thread t).ctx fun c => { c with barriers := Map.erase c.barriers i }) := by
  have hok : (decide (n < 1) || decide (4096 < n) || decide (b.participants ≠ n)) = false := by
    simp [hp, Nat.not_lt.2 hmax, Nat.not_lt.2 hn]
  unfold State.arrive
  simp only [hb, hok, Bool.false_eq_true, if_false, hl]
  rfl

/-- A `BARRIER` waits for its groups, and then arrives (R140, R145). -/
theorem exec_barrier {s : State} {t : ThreadId} {w : TileWord} (h : Issues s t w.pred w.pneg)
    (hl : tileLegal w { noTrap := false, group := false, var := 7, imm := 0xFFFFFF000F } = true) :
    exec (.barrier t w) s = .next (((s.issued t).waitFor t (tileBits w 0x60 0x04)
      (.barrier (bits w.imm 3 0) (bits w.imm 31 16) (groupMask w) (predOf w) false)).settle t) := by
  have e : exec (.barrier t w) s = execBarrier t w s := rfl
  rw [e, execBarrier, State.issueSync, State.issue_of_issues h hl]

theorem State.settle_barrier {s : State} {t : ThreadId} {i n m p : Nat} (hs : (s.thread t).state = .waiting)
    (hw : (s.thread t).wait = some (.barrier i n m p false)) :
    s.settle t = if (s.thread t).maskDone m then s.arrive t i n p else s := by
  simp [State.settle, hs, hw]

/-- The last arrival of a barrier takes one entry of it away from its context's map (R145). -/
theorem exec_barrier_last {s : State} {t : ThreadId} {w : TileWord} {b : Barrier} (h : Issues s t w.pred w.pneg)
    (hl : tileLegal w { noTrap := false, group := false, var := 7, imm := 0xFFFFFF000F } = true)
    (hdone : (s.thread t).maskDone (groupMask w) = true)
    (hb : Map.getD (s.ctx (s.thread t).ctx).barriers (bits w.imm 3 0)
      { participants := bits w.imm 31 16, arrivals := [] } = b)
    (hn : 1 ≤ bits w.imm 31 16) (hmax : bits w.imm 31 16 ≤ 4096) (hp : b.participants = bits w.imm 31 16)
    (hlast : ¬ (b.arrivals ++ [t]).length < bits w.imm 31 16) :
    ∃ u, exec (.barrier t w) s = .next u ∧
      (u.ctx (s.thread t).ctx).barriers = Map.erase (s.ctx (s.thread t).ctx).barriers (bits w.imm 3 0) := by
  refine ⟨_, exec_barrier h hl, ?_⟩
  rw [State.issued_waitFor]
  generalize hy : ({ s.thread t with
    state := .waiting
    wait := some (.barrier (bits w.imm 3 0) (bits w.imm 31 16) (groupMask w) (predOf w) false)
    word := tileBits w 0x60 0x04 } : Thread) = y
  have hctxs : ((s.issued t).setThread t y).ctxs = s.ctxs := (congrArg State.ctxs (s.issued_kept t) :)
  have hx : ((s.issued t).setThread t y).thread t = y := State.setThread_thread ..
  have hyc : y.ctx = (s.thread t).ctx ∧ y.maskDone (groupMask w) = true := by
    rw [← hy]
    exact ⟨rfl, hdone⟩
  generalize (s.issued t).setThread t y = v at hctxs hx
  have hb' : Map.getD (v.ctx (v.thread t).ctx).barriers (bits w.imm 3 0)
      { participants := bits w.imm 31 16, arrivals := [] } = b := by
    rw [State.ctx, hctxs, hx, hyc.1]
    exact hb
  rw [State.settle_barrier (i := bits w.imm 3 0) (n := bits w.imm 31 16) (m := groupMask w) (p := predOf w)
    (by rw [hx, ← hy]) (by rw [hx, ← hy]), hx, if_pos hyc.2, State.arrive_last hb' hn hmax hp hlast]
  have hc : (s.thread t).ctx = (v.thread t).ctx := by rw [hx, hyc.1]
  have hr := foldl_keeps State.ctxs (State.release (predOf w)) (State.release_ctxs _) (b.arrivals ++ [t])
    (v.modCtx (v.thread t).ctx fun c => { c with barriers := Map.erase c.barriers (bits w.imm 3 0) })
  rw [State.ctx, hr, ← State.ctx, hc, State.modCtx_ctx]
  rw [State.ctx, hctxs, ← State.ctx]

/-- Refutes O30: of a barrier that the context's map lists twice, which the statement's states allow, the release takes
one entry away, and the other is left. -/
theorem not_barrierHoldsItsArrivals : ¬ Obligations.BarrierHoldsItsArrivals := by
  unfold Obligations.BarrierHoldsItsArrivals
  intro h
  have issues : Issues twiceListed { array := 0, index := 0 } 0 false :=
    ⟨⟨⟨by decide +kernel, by decide +kernel, by decide +kernel, by decide +kernel, by decide +kernel⟩, by decide +kernel⟩,
      by decide +kernel⟩
  obtain ⟨-, -, last, -⟩ := h twiceListed { array := 0, index := 0 } { imm := 0x1000F } (by decide) issues (by decide +kernel)
  obtain ⟨u, e, idle, -⟩ := last (by decide +kernel) (by decide) (by decide) (by decide +kernel) (by decide +kernel)
    (by decide +kernel) (by decide +kernel)
  obtain ⟨u', e', left⟩ := exec_barrier_last (s := twiceListed) (t := { array := 0, index := 0 })
    (w := { imm := 0x1000F }) (b := { participants := 1, arrivals := [] }) issues (by decide +kernel) (by decide +kernel)
    (by decide +kernel) (by decide +kernel) (by decide +kernel) (by decide +kernel) (by decide +kernel)
  obtain rfl : u' = u := Host.Outcome.next.inj (e'.symm.trans e)
  have idle' : Map.get? (u'.ctx (twiceListed.thread { array := 0, index := 0 }).ctx).barriers 15 = none := idle
  rw [left] at idle'
  exact absurd idle' (by decide +kernel)

end Sys2Proof.Machine
end

section
/-! CLAIMS. Tile instructions: their unused fields and their full queue (O32). -/

namespace Sys2Proof.Machine

/-! ### A trap leaves every thread's tile instructions -/

/-- A change of one thread that leaves its tile instructions leaves every thread's. -/
theorem State.modThread_ops (s : State) (u v : ThreadId) {f : Thread → Thread} (hf : ∀ x, (f x).ops = x.ops) :
    ((s.modThread u f).thread v).ops = (s.thread v).ops := by
  have e : (s.modThread u f).thread v = if threadKey v = threadKey u then f (s.thread u) else s.thread v := by
    simp only [State.thread, State.modThread_threads, Map.getD, Map.get?_put]
    split <;> rfl
  rw [e]
  split
  · rename_i h
    rw [hf, State.thread, State.thread, h]
  · rfl

theorem State.trapOne_ops (s : State) (u : ThreadId) (pc : Word) (word : InstrWord) (r : Trap) (v : ThreadId) :
    ((s.trapOne u pc word r).thread v).ops = (s.thread v).ops := by
  by_cases hs : (s.thread u).state = .running ∨ (s.thread u).state = .waiting
  · cases hl : s.launch? (s.thread u).launch with
    | none => rw [State.trapOne_unlaunched _ _ _ hl]
    | some l =>
      rw [State.trapOne_eq hl hs, State.count_thread]
      refine (State.modThread_ops _ u v (f := fun x => { x with state := .trapped, wait := none }) fun _ => rfl).trans ?_
      rw [State.store_thread, State.thread_of_kept (s.countWait_kept u)]
  · rw [State.trapOne_still _ _ _ hs]

theorem State.stopThread_ops (code : Code) (s : State) (u v : ThreadId) :
    ((s.stopThread code u).thread v).ops = (s.thread v).ops := by
  unfold State.stopThread
  dsimp only
  split
  · exact s.trapOne_ops ..
  · rfl

theorem State.trap_ops (s : State) (t : ThreadId) (pc : Word) (word : InstrWord) (r : Trap) (v : ThreadId) :
    ((s.trap t pc word r).thread v).ops = (s.thread v).ops := by
  unfold State.trap
  dsimp only
  split
  · exact s.trapOne_ops ..
  · split
    · exact s.modThread_ops t v fun _ => rfl
    · split
      · exact s.trapOne_ops ..
      · exact (foldl_keeps (fun s : State => (s.thread v).ops) (State.stopThread _)
          (fun s u => State.stopThread_ops _ s u v) _ _).trans (s.trapOne_ops ..)

/-! ### The issue of tile instructions (R113, R114) -/

/-- A tile instruction goes through the one issue; with eight outstanding it waits for its queue; and where none has
entered the queue, nothing more happens. -/
def TileIssued (s : State) (c : Instr) (t : ThreadId) (w : TileWord) (word : InstrWord) (use : TileUse) : Prop :=
  ∃ body : Thread → State → State,
    ((s.issue t word w.pred w.pneg (tileLegal w use) body).op? t s.nextOp = none →
      exec c s = .next (s.issue t word w.pred w.pneg (tileLegal w use) body)) ∧
    (8 ≤ (s.thread t).ops.length → body (s.thread t) (s.issued t) = s.waitFor t word .tileQueue)

/-- No tile instruction of a thread has the next number where those it has have lower ones. -/
theorem State.op?_fresh {s u : State} {t : ThreadId} (h : FreshNumber s t) (hu : (u.thread t).ops = (s.thread t).ops) :
    u.op? t s.nextOp = none := by
  rw [State.op?, hu, List.find?_eq_none]
  intro o ho
  have hlt := h o ho
  simp only [beq_iff_eq]
  omega

/-- What a tile instruction that does not enter the queue does. -/
theorem tileIssued_outcomes {s : State} {c : Instr} {t : ThreadId} {w : TileWord} {word : InstrWord} {use : TileUse}
    (h : TileIssued s c t w word use) (hf : Fetches s t) (hfresh : FreshNumber s t) :
    (8 ≤ (s.thread t).ops.length → tileLegal w use = true → ((s.thread t).pred w.pred != w.pneg) = true →
      exec c s = .next (s.setThread t { s.thread t with state := .waiting, wait := some .tileQueue, word := word })) ∧
    (tileLegal w use = false →
      exec c s = .next ((s.issued t).trap t (s.thread t).pc word { kind := 1, code := .badPacket })) := by
  obtain ⟨body, e, hb⟩ := h
  refine ⟨fun hn hl hp => ?_, fun hl => ?_⟩
  · have hi := (State.issue_of_issues (word := word) (body := body) ⟨hf, hp⟩ hl).trans (hb hn)
    rw [hi] at e
    exact e (State.op?_fresh hfresh (s.modThread_ops t t fun _ => rfl))
  · have hi := State.issue_of_illegal (word := word) (p := w.pred) (neg := w.pneg) (body := body) hf hl
    rw [hi] at e
    exact e (State.op?_fresh hfresh (by rw [State.trap_ops, State.issued_thread]))

section
variable {s : State} {c : Instr} {t : ThreadId} {w : TileWord}

/-- An instruction that does nothing where none of its thread has the next number. -/
theorem tileIssued_of_issueTile {M m : Nat} {use : TileUse} {kind : TileKind}
    {check : Thread → TileOp → State → Except Trap (TileOp × State)} {stall : TileOp → Bool}
    (e : (s.issueTile t M m w use kind check stall).op? t s.nextOp = none →
      exec c s = .next (s.issueTile t M m w use kind check stall)) :
    TileIssued s c t w (tileBits w M m) use := by
  rw [State.issueTile] at e
  exact ⟨_, e, fun hn => if_pos hn⟩

theorem tileIssued_elem {m : Nat} {use : TileUse} {kind : TileKind} (e : exec c s = .next (s.issueElem t m w use kind)) :
    TileIssued s c t w (tileBits w 0x30 m) { use with d := true, a := true, conv := true } := by
  rw [State.issueElem] at e
  exact tileIssued_of_issueTile fun _ => e

theorem tileIssued_move {m : Nat} {kind : TileKind} {a d b : Bool} (e : exec c s = .next (s.issueMove t m w kind a d b)) :
    TileIssued s c t w (tileBits w 0x10 m) { d := true, a := true } := by
  unfold State.issueMove at e
  extract_lets s1 at e
  have e' : s1.op? t s.nextOp = none → exec c s = .next s1 := fun h => by rw [e, h]
  exact tileIssued_of_issueTile e'

theorem tileIssued_coll {op : Nat} (e : exec c s = .next (s.issueColl t op w)) :
    TileIssued s c t w (tileBits w 0x70 0x00) { d := true, a := true, s1 := true, conv := true, imm := 0xFFFFFF } := by
  unfold State.issueColl at e
  extract_lets s1 at e
  have e' : s1.op? t s.nextOp = none → exec c s = .next s1 := fun h => by simp only [e, h]
  exact tileIssued_of_issueTile e'
end

theorem tileIssued_mma (s : State) (t : ThreadId) (w : TileWord) :
    TileIssued s (.mma t w) t w (tileBits w 0x20 0x00) { d := true, a := true, b := true, conv := true } := by
  have e : exec (.mma t w) s = execMma t w s := rfl
  unfold execMma at e
  extract_lets s1 at e
  have e' : s1.op? t s.nextOp = none → exec (.mma t w) s = .next s1 := fun h => by simp only [e, h, State.takeUp]
  exact tileIssued_of_issueTile e'

theorem tileIssued_mmab (s : State) (t : ThreadId) (w : TileWord) :
    TileIssued s (.mmab t w) t w (tileBits w 0x20 0x01)
      { d := true, a := true, b := true, c := true, conv := true, imm := 15 } := by
  have e : exec (.mmab t w) s = execMmab t w s := rfl
  unfold execMmab at e
  extract_lets s1 at e
  have e' : s1.op? t s.nextOp = none → exec (.mmab t w) s = .next s1 := fun h => by simp only [e, h, State.takeUp]
  exact tileIssued_of_issueTile e'

theorem tileIssued_stagOpen (s : State) (t : ThreadId) (w : TileWord) :
    TileIssued s (.stagOpen t w) t w (tileBits w 0x40 0x00) { imm := 2 ^ 64 - 1 } := by
  have e : exec (.stagOpen t w) s = execStagOpen t w s := rfl
  unfold execStagOpen at e
  extract_lets s1 at e
  have e' : s1.op? t s.nextOp = none → exec (.stagOpen t w) s = .next s1 := fun h => by simp only [e, h]
  exact tileIssued_of_issueTile e'

theorem tileIssued_stash (s : State) (t : ThreadId) (w : TileWord) :
    TileIssued s (.stash t w) t w (tileBits w 0x50 0x00) { a := true, imm := 2 ^ 64 - 1 } := by
  have e : exec (.stash t w) s = execStash t w s := rfl
  unfold execStash at e
  extract_lets s1 at e
  have e' : s1.op? t s.nextOp = none → exec (.stash t w) s = .next s1 := fun h => by simp only [e, h]
  exact tileIssued_of_issueTile e'

theorem tileIssued_unstash (s : State) (t : ThreadId) (w : TileWord) :
    TileIssued s (.unstash t w) t w (tileBits w 0x50 0x01) { d := true, imm := 2 ^ 64 - 1 } := by
  have e : exec (.unstash t w) s = execUnstash t w s := rfl
  unfold execUnstash at e
  extract_lets s1 at e
  have e' : s1.op? t s.nextOp = none → exec (.unstash t w) s = .next s1 := fun h => by simp only [e, h]
  exact tileIssued_of_issueTile e'

theorem tileIssued_bktAdd (s : State) (t : ThreadId) (w : TileWord) :
    TileIssued s (.bktAdd t w) t w (tileBits w 0x50 0x04) { a := true, imm := 2 ^ 64 - 1 } := by
  have e : exec (.bktAdd t w) s = execBktAdd t w s := rfl
  unfold execBktAdd at e
  extract_lets s1 at e
  have e' : s1.op? t s.nextOp = none → exec (.bktAdd t w) s = .next s1 := fun h => by simp only [e, h]
  exact tileIssued_of_issueTile e'

/-- `RECOMP` does not enter the queue, and waits for a place in it all the same (R114, R183). -/
theorem tileIssued_recomp (s : State) (t : ThreadId) (w : TileWord) :
    TileIssued s (.recomp t w) t w (tileBits w 0x50 0x02) { s1 := true, imm := 2 ^ 64 - 1 } :=
  ⟨_, fun _ => (rfl : _ = execRecomp t w s), fun hn => if_pos hn⟩

/-- An instruction that is its issue alone. -/
theorem tileIssued_alone {s : State} {c : Instr} {t : ThreadId} {w : TileWord} {M m : Nat} {use : TileUse} {kind : TileKind}
    {check : Thread → TileOp → State → Except Trap (TileOp × State)}
    (e : exec c s = .next (s.issueTile t M m w use kind check)) : TileIssued s c t w (tileBits w M m) use :=
  tileIssued_of_issueTile fun _ => e

/-- Settles O32: every tile instruction goes through the one issue. -/
theorem tileInstructionsTrapOrWaitForTheQueue : Obligations.TileInstructionsTrapOrWaitForTheQueue := by
  unfold Obligations.TileInstructionsTrapOrWaitForTheQueue
  intro s t w hf hfresh
  have out := fun {c : Instr} {word : InstrWord} {use : TileUse} (h : TileIssued s c t w word use) =>
    tileIssued_outcomes h hf hfresh
  simp only [List.forall_mem_cons]
  exact ⟨out (tileIssued_mma s t w), out (tileIssued_mmab s t w), out (tileIssued_move rfl), out (tileIssued_move rfl),
    out (tileIssued_move rfl),
    out (tileIssued_elem (use := { b := true }) rfl), out (tileIssued_elem (use := { b := true }) rfl), out (tileIssued_elem (use := { b := true }) rfl),
    out (tileIssued_elem (use := { b := true }) rfl), out (tileIssued_elem (use := { b := true }) rfl), out (tileIssued_elem (use := { s1 := true }) rfl),
    out (tileIssued_elem (use := {}) rfl), out (tileIssued_elem (use := {}) rfl), out (tileIssued_elem (use := { b := true, c := true }) rfl),
    out (tileIssued_elem (use := {}) rfl), out (tileIssued_elem (use := {}) rfl), out (tileIssued_elem (use := {}) rfl),
    out (tileIssued_elem (use := {}) rfl), out (tileIssued_elem (use := {}) rfl), out (tileIssued_elem (use := {}) rfl),
    out (tileIssued_elem (use := {}) rfl), out (tileIssued_elem (use := {}) rfl), out (tileIssued_elem (use := {}) rfl),
    out (tileIssued_stagOpen s t w), out (tileIssued_alone (rfl : _ = execStagClose t w s)),
    out (tileIssued_stash s t w), out (tileIssued_unstash s t w), out (tileIssued_recomp s t w),
    out (tileIssued_alone (rfl : _ = execUpdate t w s)), out (tileIssued_bktAdd s t w),
    out (tileIssued_alone (rfl : _ = execVerRead t w s)),
    out (tileIssued_coll rfl), out (tileIssued_coll rfl), out (tileIssued_coll rfl),
    out (tileIssued_coll rfl), out (tileIssued_coll rfl), out (tileIssued_coll rfl),
    out (tileIssued_coll rfl), out (tileIssued_coll rfl), out (tileIssued_coll rfl), by simp⟩

end Sys2Proof.Machine
end

section
/-! CLAIMS. Errors of units (O43), waiting reads and updates (O39), and the ends of buckets and steps (O40). -/

namespace Sys2Proof.Machine

/-- Settles O43: an event of a unit asks for its reset, or ends it, exactly where its condition holds. -/
theorem unitErrorsAskForResets : Obligations.UnitErrorsAskForResets := by
  unfold Obligations.UnitErrorsAskForResets
  intro s a
  have error : exec (.arrayInternalError a) s = execArrayInternalError a s := rfl
  have chip : exec .chipInternalError s = execChipInternalError s := rfl
  have check : ∀ b, exec (.arraySelfCheckDone a b) s = execArraySelfCheckDone a b s := fun _ => rfl
  refine ⟨fun h => ?_, fun h => ?_, fun hb hd ht hs => ⟨?_, ?_⟩, fun h => ?_, fun h => ?_⟩
  · simp [error, execArrayInternalError, h]
  · simp [error, execArrayInternalError, h]
  · simp [check, execArraySelfCheckDone, hb, hd, ht, hs]
  · simp [check, execArraySelfCheckDone, hb, hd, ht, hs]
  · simp [chip, execChipInternalError, h]
  · simp [chip, execChipInternalError, h]

/-- Settles O39: the conditions of a waiting read's binding and of an update's guard are looked at one after the other. -/
theorem waitingReadsBindAndUpdatesStart : Obligations.WaitingReadsBindAndUpdatesStart := by
  unfold Obligations.WaitingReadsBindAndUpdatesStart
  constructor
  · intro s t id cycles o ho hu ha
    have e : exec (.versionedReadBind t id cycles) s = execVersionedReadBind t id cycles s := rfl
    constructor <;> intro hb <;> simp [e, execVersionedReadBind, ho, hu, ha, hb]
  · intro s t id gc rc o g ho hk hp hl hc ha hg
    have e : exec (.updateStart t id gc rc) s = execUpdateStart t id gc rc s := rfl
    refine ⟨fun h => ?_, fun h => ?_, fun h => ?_⟩
    · rcases h with h | h <;> simp [e, execUpdateStart, ho, hk, hp, hl, hc, ha, hg, h]
    · simp [e, execUpdateStart, ho, hk, hp, hl, hc, ha, hg, h]
    · simp [e, execUpdateStart, ho, hk, hp, hl, hc, ha, hg, h]

/-! ### Buckets -/

/-- A store leaves the records of the buckets. -/
@[simp] theorem State.store_trains (s : State) (a : Nat) (bs : Bytes) : (s.store a bs).trains = s.trains :=
  (congrArg State.trains (s.store_unwritten a bs) :)

@[simp] theorem State.writeBucket_trains (s : State) (c b : Nat) : (s.writeBucket c b).trains = s.trains := by
  unfold State.writeBucket
  split
  · simp
  · rfl

/-- A bucket that is changed is the changed one. -/
theorem State.bucket?_modBucket (s : State) (c b : Nat) (f : Bucket → Bucket) :
    (s.modBucket c b f).bucket? c b = (s.bucket? c b).map f := by
  unfold State.bucket? State.modBucket
  rw [Map.get?_modify, if_pos rfl]
  cases Map.get? s.trains c with
  | none => rfl
  | some tr => simp [modAt]

theorem State.bucket?_congr {s u : State} (h : u.trains = s.trains) (c b : Nat) : u.bucket? c b = s.bucket? c b := by
  rw [State.bucket?, State.bucket?, h]

/-- A bucket that is given a state has it. -/
theorem State.bucket?_setBucket (s : State) (c b : Nat) (st : BucketState) :
    (s.setBucket c b st).bucket? c b = (s.bucket? c b).map fun k => { k with state := st } := by
  rw [State.setBucket, State.bucket?_congr (State.writeBucket_trains ..), State.bucket?_modBucket]

/-- A bucket without a semaphore that is closed has its last state (R192). -/
theorem State.bucket?_closeBucket {s : State} {c b : Nat} {tr : Train} {k : Bucket} (fail : Option Code) (nf : BitVec 3)
    (ht : Map.get? s.trains c = some tr) (hk : s.bucket? c b = some k) (hs : k.doneSem = 0) :
    ((s.closeBucket c b fail nf).bucket? c b).map Bucket.state = some (if fail.isSome then .failed else .done) := by
  have e : (s.closeBucket c b fail nf).trains = ((s.modBucket c b fun k =>
      { k with failCode := fail, reductionNf := nf }).setBucket c b (if fail.isSome then .failed else .done)).trains := by
    simp only [State.closeBucket, ht, hk, hs, if_true]
    cases tr.launch <;> exact (congrArg State.trains (State.count_kept ..) :)
  rw [State.bucket?_congr e, State.bucket?_setBucket, State.bucket?_modBucket, hk]
  rfl

/-- Settles O40: a bucket's end closes it, and a commit point starts the exchange of its step. -/
theorem bucketsCloseAndStepsReachTheirCommitPoint : Obligations.BucketsCloseAndStepsReachTheirCommitPoint := by
  unfold Obligations.BucketsCloseAndStepsReachTheirCommitPoint
  constructor
  · intro s ctx b tr k ht hk
    have fold : exec (.bucketFoldComplete ctx b) s = execBucketFoldComplete ctx b s := rfl
    have reduced : exec (.bucketReductionEnd ctx b) s = execBucketReductionEnd ctx b s := rfl
    refine ⟨fun h => ?_, fun h hc => ⟨s.closeBucket ctx b none 0, ?_, rfl, fun hs => ?_⟩, fun h c hc hst => ?_⟩
    · simp [fold, execBucketFoldComplete, ht, hk, h]
    · simp [fold, execBucketFoldComplete, ht, hk, h, hc]
    · exact State.bucket?_closeBucket none 0 ht hk hs
    · simp [reduced, execBucketReductionEnd, hk, hc, h, Nat.not_lt.2 hst]
  · intro s ctx step
    have e : exec (.commitPointReached ctx step) s = execCommitPointReached ctx step s := rfl
    constructor
    · intro hp hc
      simp [e, execCommitPointReached, State.commitPointReached, hp, hc]
    · intro hp
      simp [e, execCommitPointReached, State.commitPointReached, hp]

end Sys2Proof.Machine
end

section
/-! CLAIMS. The queue of tile instructions (O33). -/

namespace Sys2Proof.Machine

/-- A 16 by 16 tile of binary16 at an address, with no statistics tag. -/
def smallTile (base : Nat) : Descr := BitVec.ofNat 256 (base + 32 * 2 ^ 88 + 3 * 2 ^ 120 + 0xFF * 2 ^ 200)

/-- A state whose thread has an `MMA` in its queue that reads from module 9, which has no route and has not been asked
yet; the instruction at its PC is another `MMA`. -/
def unaskedMma : State :=
  { State.reset with
    ctxs := [(1, { state := .active, generation := 1 })]
    threads := [(0, { state := .running, ctx := 1, descs := Vector.replicate 16 (smallTile 0x1000)
                      ops := [{ id := 0, kind := .mma, pc := 0, word := 0, cg := 0
                                d := smallTile 0x1000, a := smallTile 0x1000, b := smallTile (9 * 2 ^ 48 + 0x1000) }] })]
    nextOp := 1
    arrays := [{ service := .serving }]
    memory := { State.reset.memory with bytes := [(15, 0x20)], pages := [(0, { owner := .ctx 1 })] }
    lodge := { State.reset.lodge with deviceId := 0 } }

/-- The place at which the first tile instruction of a thread's queue stops (R54). -/
def State.firstStop (s : State) (t : ThreadId) : Option Nat :=
  ((s.thread t).ops.head?.bind TileOp.stop).map (·.1)

/-- The issue of the second `MMA` lets the array go on, which finds that the first one's module has no route. -/
theorem firstStop_unaskedMma :
    (match exec (.mma { array := 0, index := 0 } {}) unaskedMma with
      | .next u => u.firstStop { array := 0, index := 0 }
      | _ => none) = some 0 := by
  decide +kernel

/-- Refutes O33: a matrix instruction that enters the queue lets its array go on (`State.takeUp`), and this changes an
earlier entry of the queue, which the statement says is as before. -/
theorem not_legalTileInstructionsEnterTheQueue : ¬ Obligations.LegalTileInstructionsEnterTheQueue := by
  unfold Obligations.LegalTileInstructionsEnterTheQueue
  intro h
  have issues : Issues unaskedMma { array := 0, index := 0 } 0 false :=
    ⟨⟨⟨by decide +kernel, by decide +kernel, by decide +kernel, by decide +kernel, by decide +kernel⟩, by decide +kernel⟩,
      by decide +kernel⟩
  have fresh : FreshNumber unaskedMma { array := 0, index := 0 } := by
    unfold FreshNumber
    decide +kernel
  obtain ⟨-, -, mma, -⟩ := h unaskedMma { array := 0, index := 0 } {} issues (by decide +kernel) fresh
  obtain ⟨queued, -⟩ := mma (by decide) (by decide +kernel)
  obtain ⟨u, e, ⟨-, -, ⟨o, hops, -⟩, -, -⟩, -⟩ := queued (Or.inl (by decide +kernel))
  have stop := firstStop_unaskedMma
  rw [e] at stop
  have stop' : u.firstStop { array := 0, index := 0 } = some 0 := stop
  have first : (u.thread { array := 0, index := 0 }).ops.head? =
      (unaskedMma.thread { array := 0, index := 0 }).ops.head? := by
    rw [hops]
    rfl
  rw [State.firstStop, first] at stop'
  exact absurd stop' (by decide +kernel)

end Sys2Proof.Machine
end

section
/-! CLAIMS. What enters a thread's queue of tile instructions, and statistics tags (O35). -/

namespace Sys2Proof.Machine

/-! ### Entering the queue (R113 to R115) -/

/-- An entry holds an instruction's word and the values that it names. -/
structure Names (x : Thread) (w : TileWord) (kind : TileKind) (word : InstrWord) (o : TileOp) : Prop where
  kind : o.kind = kind
  word : o.word = word
  pc : o.pc = x.pc
  cg : o.cg = w.cg.toNat
  d : o.d = x.descr w.d
  a : o.a = x.descr w.a
  b : o.b = x.descr w.b
  c : o.c = x.descr w.c
  s1 : o.s1 = x.reg w.s1
  imm : o.imm = w.imm
  noTrap : o.noTrap = w.noTrap

theorem names_opOf (x : Thread) (w : TileWord) (kind : TileKind) (word : InstrWord) :
    Names x w kind word (x.opOf w kind word) :=
  ⟨rfl, rfl, rfl, rfl, rfl, rfl, rfl, rfl, rfl, rfl, rfl⟩

/-- The thread whose queue an entry has entered (R113). -/
def Thread.enqueued (x : Thread) (o : TileOp) : Thread :=
  { x with ops := x.ops ++ [o]
           groups := x.groups.mapIdx fun g q => if g = o.cg then { q with count := q.count + 1 } else q
           pc := x.pc + 16 }

/-- An entry leaves everything but the number and its thread. -/
theorem State.enqueueOp_kept (s : State) (t : ThreadId) (o : TileOp) :
    (s.enqueueOp t o).kept = (({ s with nextOp := s.nextOp + 1 } : State).setThread t
      ((s.thread t).enqueued { o with id := s.nextOp, issuedAt := s.now })).kept := by
  unfold State.enqueueOp
  rw [State.trace_kept, State.count_kept]
  rfl

theorem State.enqueueOp_thread (s : State) (t : ThreadId) (o : TileOp) :
    (s.enqueueOp t o).thread t = (s.thread t).enqueued { o with id := s.nextOp, issuedAt := s.now } :=
  (State.thread_of_kept (s.enqueueOp_kept t o) t).trans (State.setThread_thread ..)

theorem State.enqueueOp_nextOp (s : State) (t : ThreadId) (o : TileOp) : (s.enqueueOp t o).nextOp = s.nextOp + 1 :=
  (congrArg State.nextOp (s.enqueueOp_kept t o) :)

theorem freshNumber_congr {s v : State} {t : ThreadId} (h : FreshNumber s t) (hv : v.thread t = s.thread t)
    (hn : v.nextOp = s.nextOp) : FreshNumber v t := by
  rw [FreshNumber, hv, hn]
  exact h

/-- An instruction that converts nothing keeps no record (R124). -/
theorem opOf_recAddr {x : Thread} {w : TileWord} {use : TileUse} {kind : TileKind} {word : InstrWord}
    (h : tileLegal w use = true) (hc : use.conv = false) : (x.opOf w kind word).recAddr = none := by
  have hrec : w.recBit = false := by
    simp only [tileLegal, hc, Bool.false_or, Bool.and_eq_true, Bool.not_eq_true'] at h
    tauto
  simp [Thread.opOf, hrec]

theorem State.enqueueOp_tags (s : State) (t : ThreadId) (o : TileOp) : (s.enqueueOp t o).tags = s.tags :=
  (congrArg State.tags (s.enqueueOp_kept t o) :)

/-- The entry of the number that is given is the one that has just entered. -/
theorem State.enqueueOp_op? {s : State} {t : ThreadId} (o : TileOp) (h : FreshNumber s t) :
    (s.enqueueOp t o).op? t s.nextOp = some { o with id := s.nextOp, issuedAt := s.now } := by
  have none : (s.thread t).ops.find? (fun p => p.id == s.nextOp) = none := State.op?_fresh h rfl
  rw [State.op?, State.enqueueOp_thread, Thread.enqueued, List.find?_append, none]
  simp

/-- An entry that holds what its instruction names has entered the queue. -/
theorem entered_of_enqueued {s u : State} {t : ThreadId} {w : TileWord} {kind : TileKind} {word : InstrWord}
    {q : TileOp → Prop} {o : TileOp} (hrun : (s.thread t).state = .running)
    (hu : u.thread t = (s.thread t).enqueued o) (hn : u.nextOp = s.nextOp + 1) (hid : o.id = s.nextOp)
    (ho : Names (s.thread t) w kind word o) (hq : q o) : Entered s u t w kind word q := by
  refine ⟨⟨?_, ?_, ?_, ?_⟩, ?_, ⟨o, ?_, hid, ho.kind, ho.word, ho.pc, ho.cg, ho.d, ho.a, ho.b, ho.c, ho.s1, ho.imm,
    ho.noTrap, hq⟩, fun g => ?_, hn⟩
  · rw [hu]
    exact hrun
  · rw [hu]
    rfl
  · rw [hu]
    rfl
  · rw [hu]
    rfl
  · rw [hu]
    rfl
  · rw [hu]
    rfl
  · refine (congrArg (fun y : Thread => (y.groups[g]).count) hu).trans ?_
    simp only [Thread.enqueued, Fin.getElem_fin, Vector.getElem_mapIdx, ho.cg]
    split <;> rfl

theorem entered_enqueueOp {s v : State} {t : ThreadId} {w : TileWord} {kind : TileKind} {word : InstrWord}
    {q : TileOp → Prop} {o : TileOp} (hrun : (s.thread t).state = .running) (hv : v.thread t = s.thread t)
    (hn : v.nextOp = s.nextOp) (ho : Names (s.thread t) w kind word o) (hq : q { o with id := v.nextOp, issuedAt := v.now }) :
    Entered s (v.enqueueOp t o) t w kind word q := by
  refine entered_of_enqueued hrun ((v.enqueueOp_thread t o).trans (by rw [hv])) ?_ hn ?_ hq
  · rw [State.enqueueOp_nextOp, hn]
  · obtain ⟨hkind, hword, hpc, hcg, hd, ha, hb, hc, hs1, himm, hnt⟩ := ho
    exact ⟨hkind, hword, hpc, hcg, hd, ha, hb, hc, hs1, himm, hnt⟩

/-- An entry that waits for its unit is queued. -/
theorem queued_enqueueOp {s v : State} {t : ThreadId} {w : TileWord} {kind : TileKind} {word : InstrWord}
    {o : TileOp} (hrun : (s.thread t).state = .running) (hv : v.thread t = s.thread t) (hn : v.nextOp = s.nextOp)
    (hb : v.memory.bytes = s.memory.bytes) (ho : Names (s.thread t) w kind word o) (hq : o.phase = .queued) :
    Queued s (v.enqueueOp t o) t w kind word := by
  refine ⟨entered_enqueueOp hrun hv hn ho hq, ?_⟩
  exact (congrArg (fun x : State => x.memory.bytes) (v.enqueueOp_kept t o) :).trans hb

/-- An instruction whose check lets it pass, and that its unit does not stall, enters the queue (R113). -/
theorem State.issueTile_enters {s : State} {t : ThreadId} {M m : Nat} {w : TileWord} {use : TileUse} {kind : TileKind}
    {check : Thread → TileOp → State → Except Trap (TileOp × State)} {stall : TileOp → Bool} {o : TileOp} {v : State}
    (h : Issues s t w.pred w.pneg) (hlen : (s.thread t).ops.length < 8) (hl : tileLegal w use = true)
    (hc : check (s.thread t) ((s.thread t).opOf w kind (tileBits w M m)) (s.issued t) = .ok (o, v)) (hs : stall o = false) :
    s.issueTile t M m w use kind check stall = v.enqueueOp t o := by
  rw [State.issueTile, State.issue_of_issues h hl, if_neg (Nat.not_le.2 hlen)]
  simp only [hc, hs, Bool.false_eq_true, if_false]

/-- An instruction that its check traps does not enter the queue. -/
theorem State.issueTile_traps {s : State} {t : ThreadId} {M m : Nat} {w : TileWord} {use : TileUse} {kind : TileKind}
    {check : Thread → TileOp → State → Except Trap (TileOp × State)} {stall : TileOp → Bool} {r : Trap}
    (h : Issues s t w.pred w.pneg) (hlen : (s.thread t).ops.length < 8) (hl : tileLegal w use = true)
    (hc : check (s.thread t) ((s.thread t).opOf w kind (tileBits w M m)) (s.issued t) = .error r) :
    s.issueTile t M m w use kind check stall = (s.issued t).trap t (s.thread t).pc (tileBits w M m) r := by
  rw [State.issueTile, State.issue_of_issues h hl, if_neg (Nat.not_le.2 hlen)]
  simp only [hc]

/-! ### Leaving the queue -/

/-- The entries of a queue other than the one of a fresh number. -/
theorem ops_without_fresh {s : State} {t : ThreadId} {o : TileOp} (h : FreshNumber s t) (hid : o.id = s.nextOp) :
    ((s.thread t).ops ++ [o]).filter (fun p => p.id != s.nextOp) = (s.thread t).ops := by
  rw [List.filter_append, List.filter_eq_self.2, List.filter_cons_of_neg, List.filter_nil, List.append_nil]
  · simp [hid]
  · intro p hp
    have := h p hp
    simp only [bne_iff_ne]
    omega

/-- The thread whose queue an instruction has left (R136). -/
def Thread.dequeued (x : Thread) (o : TileOp) : Thread :=
  { x with ops := x.ops.filter fun p => p.id != o.id
           groups := x.groups.mapIdx fun g q => if g = o.cg then { q with count := q.count - 1 } else q
           nfSticky := x.nfSticky ||| o.records.foldl (fun f r => f ||| r.flags) (0 : BitVec 3) }

/-- The state in which an instruction has left its thread's queue, and its flags are in its launch (R102, R136). -/
def State.left (s : State) (t : ThreadId) (o : TileOp) : State :=
  (s.setThread t ((s.thread t).dequeued o)).modLaunch (s.thread t).launch fun l =>
    { l with nf := l.nf ||| o.records.foldl (fun f r => f ||| r.flags) (0 : BitVec 3) }

@[simp] theorem State.left_thread (s : State) (t : ThreadId) (o : TileOp) :
    (s.left t o).thread t = (s.thread t).dequeued o := State.setThread_thread ..

/-- An instruction that ends without a condition, a reader or records leaves the queue of a thread that runs (R136). -/
theorem State.opEnd_quiet {s : State} {t : ThreadId} {o : TileOp} (hrun : (s.thread t).state = .running)
    (hc : o.cond = none) (hl : o.late = none) (hr : o.reader = false) (hrec : o.recAddr = none) :
    s.opEnd t o = s.left t o := by
  have hd : s.dropReader t o = s := by simp [State.dropReader, hr]
  unfold State.opEnd State.leave
  simp only [hc, hl, hrec, hd]
  rw [State.settle, if_pos]
  · rfl
  · exact fun h => absurd ((congrArg Thread.state (State.setThread_thread ..)).symm.trans h) (by simp [hrun])

/-- What an instruction that enters the queue and ends at once leaves: its thread goes on, and its queue is as before. -/
structure EndsAtOnce (v u : State) (t : ThreadId) : Prop where
  goes : GoesOn v u t
  preds : (u.thread t).preds = (v.thread t).preds
  ops : (u.thread t).ops = (v.thread t).ops
  tags : u.tags = v.tags
  stashes : u.stashes = v.stashes
  trains : u.trains = v.trains
  ctxs : u.ctxs = v.ctxs
  memory : u.memory = v.memory

theorem State.enqueueOp_ends {v : State} {t : ThreadId} {o : TileOp} (hrun : (v.thread t).state = .running)
    (hf : FreshNumber v t) (hc : o.cond = none) (hl : o.late = none) (hr : o.reader = false) (hrec : o.recAddr = none) :
    EndsAtOnce v ((v.enqueueOp t o).opEnd t { o with id := v.nextOp, issuedAt := v.now }) t := by
  have hk := v.enqueueOp_kept t o
  have hx := v.enqueueOp_thread t o
  rw [State.opEnd_quiet (o := { o with id := v.nextOp, issuedAt := v.now }) (by rw [hx]; exact hrun) hc hl hr hrec]
  generalize v.enqueueOp t o = e at hk hx
  have hu : (e.left t { o with id := v.nextOp, issuedAt := v.now }).thread t =
      ((v.thread t).enqueued { o with id := v.nextOp, issuedAt := v.now }).dequeued
        { o with id := v.nextOp, issuedAt := v.now } := by rw [State.left_thread, hx]
  refine ⟨⟨?_, ?_, ?_, ?_⟩, ?_, ?_, (congrArg State.tags hk :), (congrArg State.stashes hk :), (congrArg State.trains hk :),
    (congrArg State.ctxs hk :), (congrArg State.memory hk :)⟩
  · rw [hu]
    exact hrun
  · rw [hu]
    rfl
  · rw [hu]
    rfl
  · rw [hu]
    rfl
  · rw [hu]
    rfl
  · rw [hu]
    exact ops_without_fresh hf rfl

/-! ### Statistics tags -/

theorem State.issued_tags (s : State) (t : ThreadId) : (s.issued t).tags = s.tags :=
  (congrArg State.tags (s.issued_kept t) :)

theorem State.issued_nextOp (s : State) (t : ThreadId) : (s.issued t).nextOp = s.nextOp :=
  (congrArg State.nextOp (s.issued_kept t) :)

theorem State.issued_now (s : State) (t : ThreadId) : (s.issued t).now = s.now :=
  (congrArg State.now (s.issued_kept t) :)

theorem State.issued_tag? (s : State) (t : ThreadId) (a c n : Nat) : (s.issued t).tag? a c n = s.tag? a c n := by
  rw [State.tag?, State.tag?, State.issued_tags]

/-- A tag that is opened in a slot (R158). -/
def State.withTag (s : State) (t : ThreadId) (c slot : Nat) : State :=
  { s with tags := s.tags ++ [{ array := t.array, ctx := c, slot := slot, bound := decide (s.unitsBound t.array < 16)
                                openTime := s.now }] }

theorem State.withTag_issued (s : State) (t : ThreadId) (c slot : Nat) :
    ((s.issued t).withTag t c slot).tags = (s.withTag t c slot).tags :=
  State.congr_kept (g := fun v => (v.withTag t c slot).tags) (fun _ => rfl) (s.issued_kept t)

/-- `STAG_OPEN` of a slot that is `FREE` opens a tag and leaves the queue (R158). -/
theorem stagOpen_opens {s : State} {t : ThreadId} {w : TileWord} (h : Issues s t w.pred w.pneg)
    (hlen : (s.thread t).ops.length < 8) (hl : tileLegal w { imm := 2 ^ 64 - 1 } = true) (hs : w.imm.toNat < 16)
    (hf : FreshNumber s t) (ht : s.tag? t.array (s.thread t).ctx w.imm.toNat = none) :
    Completes (.stagOpen t w) s fun u =>
      (u.thread t).pc = (s.thread t).pc + 16 ∧ (u.thread t).ops = (s.thread t).ops ∧
        u.tags = s.tags ++ [{ array := t.array, ctx := (s.thread t).ctx, slot := w.imm.toNat
                              bound := decide (s.unitsBound t.array < 16), openTime := s.now }] := by
  have e : exec (.stagOpen t w) s = execStagOpen t w s := rfl
  unfold execStagOpen at e
  extract_lets s1 at e
  have hs1 : s1 = ((s.issued t).withTag t (s.thread t).ctx w.imm.toNat).enqueueOp t
      ((s.thread t).opOf w .stagOpen (tileBits w 0x40 0x00)) := by
    refine State.issueTile_enters h hlen hl ?_ rfl
    exact if_neg (by simp [Thread.opOf, State.issued_tag?, ht, Nat.not_lt.2 (Nat.le_of_lt_succ hs)])
  have hrec : ((s.thread t).opOf w .stagOpen (tileBits w 0x40 0x00)).recAddr = none := opOf_recAddr hl rfl
  have hv : ((s.issued t).withTag t (s.thread t).ctx w.imm.toNat).thread t = s.thread t := s.issued_thread t t
  have hn : ((s.issued t).withTag t (s.thread t).ctx w.imm.toNat).nextOp = s.nextOp := s.issued_nextOp t
  have htags := s.withTag_issued t (s.thread t).ctx w.imm.toNat
  generalize (s.issued t).withTag t (s.thread t).ctx w.imm.toNat = v at hs1 hv hn htags
  have hfv : FreshNumber v t := freshNumber_congr hf hv hn
  have hop := State.enqueueOp_op? ((s.thread t).opOf w .stagOpen (tileBits w 0x40 0x00)) hfv
  rw [← hs1, hn] at hop
  have ends := State.enqueueOp_ends (o := (s.thread t).opOf w .stagOpen (tileBits w 0x40 0x00)) (by rw [hv]; exact h.running)
    hfv rfl rfl rfl hrec
  rw [hop] at e
  refine ⟨_, e, ?_⟩
  obtain ⟨⟨-, hpc, -⟩, -, hops, ht', -⟩ := ends
  rw [hv] at hpc hops
  rw [hn, ← hs1] at hpc hops ht'
  exact ⟨hpc, hops, ht'.trans htags⟩

theorem State.count_tags (s : State) (c : CtrId) (i n : Nat) : (s.count c i n).tags = s.tags :=
  (congrArg State.tags (s.count_kept c i n) :)

theorem State.store_tags (s : State) (a : Nat) (bs : Bytes) : (s.store a bs).tags = s.tags :=
  (congrArg State.tags (s.store_unwritten a bs) :)

theorem State.tag?_congr {s u : State} (h : u.tags = s.tags) (a c n : Nat) : u.tag? a c n = s.tag? a c n := by
  rw [State.tag?, State.tag?, h]

/-- Of a list in which the entries that a test picks are changed, and still pass it, the first that passes is the
changed first one. -/
theorem find?_map_where {α : Type} (p : α → Bool) (f : α → α) (hf : ∀ x, p (f x) = p x) (l : List α) :
    (l.map fun x => if p x then f x else x).find? p = (l.find? p).map f := by
  have same : p ∘ (fun x => if p x then f x else x) = p := by
    funext x
    by_cases h : p x = true
    · simp [h, hf]
    · simp [h]
  rw [List.find?_map, same]
  cases h : l.find? p with
  | none => rfl
  | some y => rw [Option.map_some, Option.map_some, if_pos (List.find?_some h)]

/-- A tag that is changed is the changed one. -/
theorem State.tag?_modTag (s : State) (a c n : Nat) (f : Tag → Tag) (hf : ∀ x, (f x).is a c n = x.is a c n) :
    (s.modTag a c n f).tag? a c n = (s.tag? a c n).map f :=
  find?_map_where (fun x : Tag => x.is a c n) f hf s.tags

/-- The tag that a `STAG_CLOSE` closes, and what number it has (R159). -/
def Tag.closedBy (t : ThreadId) (id now : Nat) (g : Tag) : Tag :=
  { g with state := .closing, closer := some (t, id), closeTime := if g.issued = 0 then now else g.closeTime }

/-- `STAG_CLOSE` of an open slot enters the queue, and its tag is `CLOSING` (R138, R159). -/
theorem stagClose_closes {s : State} {t : ThreadId} {w : TileWord} (h : Issues s t w.pred w.pneg)
    (hlen : (s.thread t).ops.length < 8) (hl : tileLegal w { s3 := true, imm := 2 ^ 64 - 1 } = true)
    (hs : w.imm.toNat < 16) (ho : s.tagOpen t.array (s.thread t).ctx w.imm.toNat = true)
    (hd : devOf ((s.thread t).reg w.s3) = s.lodge.deviceId) (ha : ((s.thread t).reg w.s3).toNat % 64 = 0)
    (hw : s.canWrite (s.thread t).ctx (locOf ((s.thread t).reg w.s3)) tagRecordBytes = true) :
    Completes (.stagClose t w) s fun u =>
      Queued s u t w .stagClose (tileBits w 0x40 0x01) ∧
        (u.tag? t.array (s.thread t).ctx w.imm.toNat).map Tag.state = some .closing := by
  have e : exec (.stagClose t w) s = execStagClose t w s := rfl
  have hopen : (s.issued t).tagOpen t.array (s.thread t).ctx w.imm.toNat = true := by
    rw [State.tagOpen, State.issued_tag?]
    exact ho
  have hwrite : (s.issued t).canWrite (s.thread t).ctx (locOf ((s.thread t).reg w.s3)) tagRecordBytes = true :=
    (State.congr_kept (g := fun v => v.canWrite _ _ _) (fun _ => rfl) (s.issued_kept t)).trans hw
  rw [execStagClose, State.issueTile_enters (v := (s.issued t).modTag t.array (s.thread t).ctx w.imm.toNat
    (Tag.closedBy t (s.issued t).nextOp (s.issued t).now)) (o := (s.thread t).opOf w .stagClose (tileBits w 0x40 0x01))
    h hlen hl ?_ rfl] at e
  · refine ⟨_, e, queued_enqueueOp h.running (s.issued_thread t t) (s.issued_nextOp t) ?_ (names_opOf ..) rfl, ?_⟩
    · exact congrArg Memory.bytes (s.issued_memory t)
    · rw [State.tag?_congr (State.enqueueOp_tags ..), State.tag?_modTag _ _ _ _ (Tag.closedBy _ _ _) fun _ => rfl, State.issued_tag?]
      rw [State.tagOpen, Bool.and_eq_true, Option.any_eq_true] at ho
      obtain ⟨-, g, hg, -⟩ := ho
      rw [hg]
      rfl
  · have hslot : ¬ 15 < w.imm.toNat := by omega
    simp [Thread.opOf, hslot, hopen, hd, ha, hwrite, State.issued_deviceId]
    rfl

/-- The tag that is bound to a unit, and whether its context is active (R160). -/
def Tag.rebound (active : Bool) (now : Nat) (g : Tag) : Tag :=
  let y := { g with bound := true }
  if g.state != .saved then y else if active then y.reopen now else { y with state := .opened }

theorem Tag.rebound_is (active : Bool) (now : Nat) (g : Tag) (a c n : Nat) :
    (g.rebound active now).is a c n = g.is a c n := by
  unfold Tag.rebound Tag.reopen
  dsimp only
  split
  · rfl
  · split
    · cases g.closer <;> rfl
    · rfl

/-- `TAG_UNIT_BIND` binds a tag where one of the array's 16 units is free (R160). -/
theorem tagUnitBind_binds {s : State} {array ctx slot cycles : Nat} {g : Tag} {st : TagState}
    (hg : s.tag? array ctx slot = some g) (hb : g.bound = false) (hn : s.unitsBound array < 16)
    (hs : (g.state == .saved && !((s.ctx ctx).state == .active || ((s.ctx ctx).restoring && (s.ctx ctx).state == .suspended)))
      = false)
    (hst : ((g.rebound ((s.ctx ctx).state == .active) s.now).bound, (g.rebound ((s.ctx ctx).state == .active) s.now).state) =
      (true, st)) :
    Completes (.tagUnitBind array ctx slot cycles) s fun u => ∃ v : State,
      (v.tag? array ctx slot).map (fun x => (x.bound, x.state)) = some (true, st) ∧
        u = ((if (s.ctx ctx).state = .active then v.resumeThreads ctx else v).sequence array).collPump := by
  have e : exec (.tagUnitBind array ctx slot cycles) s = execTagUnitBind array ctx slot cycles s := rfl
  rw [execTagUnitBind, hg] at e
  simp only [hb, hs, Nat.not_le.2 hn, Bool.or_false, decide_false, Bool.false_eq_true, if_false] at e
  refine ⟨_, e, (s.modTag array ctx slot (Tag.rebound ((s.ctx ctx).state == .active) s.now)).count cTagUnitWait array cycles,
    ?_, ?_⟩
  · rw [State.tag?_congr (State.count_tags ..), State.tag?_modTag _ _ _ _ (Tag.rebound _ _) fun g => g.rebound_is .., hg]
    exact congrArg some hst
  · refine congrArg (fun x : State => (x.sequence array).collPump) ?_
    by_cases ha : (s.ctx ctx).state = .active
    · rw [if_pos (beq_iff_eq.2 ha), if_pos ha]
      rfl
    · rw [if_neg (mt beq_iff_eq.1 ha), if_neg ha]
      rfl

/-- Settles O35: a tag is opened by the issue, closed by the issue, and bound and written by its events. -/
theorem statisticsTagsOpenBindAndClose : Obligations.StatisticsTagsOpenBindAndClose := by
  unfold Obligations.StatisticsTagsOpenBindAndClose
  refine ⟨fun s t w h hlen hl hs hf ht => stagOpen_opens h hlen hl hs hf ht,
    fun s t w h hlen hl hs ho hd ha hw => stagClose_closes h hlen hl hs ho hd ha hw, ?_, ?_⟩
  · intro s array ctx slot cycles g hg hb hn binds
    refine ⟨fun h => ?_, fun h ha => ?_, fun h ha hr => ?_⟩
    · exact tagUnitBind_binds hg hb hn (by simp [h]) (by simp [Tag.rebound, h])
    · refine tagUnitBind_binds hg hb hn (by simp [ha]) ?_
      cases hc : g.closer <;> simp [Tag.rebound, Tag.reopen, h, ha, hc]
    · exact tagUnitBind_binds hg hb hn (by simp [ha, hr]) (by simp [Tag.rebound, h, ha])
  · intro s array ctx slot g t id o hg hc ho hst hi hw
    have e : exec (.tagRecordWrite array ctx slot) s = execTagRecordWrite array ctx slot s := rfl
    refine ⟨_, ?_, rfl⟩
    rw [e, execTagRecordWrite, hg]
    simp only [hc, ho]
    rw [if_neg (by simp [hst, Nat.not_lt.2 hi, hw]), State.count_tags, State.store_tags]

end Sys2Proof.Machine
end

section
/-! SUPPORT. What traps, and instructions that end with one, leave as it was. -/

namespace Sys2Proof.Machine

/-! ### What traps leave as it was (R152, R153) -/

/-- What no trap changes: the Pantry's entries, the training state and the statistics tags. -/
structure TrapLeaves (s u : State) : Prop where
  stashes : u.stashes = s.stashes
  trains : u.trains = s.trains
  tags : u.tags = s.tags

theorem TrapLeaves.of_kept {s u : State} (h : u.kept = s.kept) : TrapLeaves s u :=
  ⟨(congrArg State.stashes h :), (congrArg State.trains h :), (congrArg State.tags h :)⟩

theorem TrapLeaves.trans {s u v : State} (h : TrapLeaves s u) (h' : TrapLeaves u v) : TrapLeaves s v :=
  ⟨h'.stashes.trans h.stashes, h'.trains.trans h.trains, h'.tags.trans h.tags⟩

theorem State.store_leaves (s : State) (a : Nat) (bs : Bytes) : TrapLeaves s (s.store a bs) :=
  ⟨(congrArg State.stashes (s.store_unwritten a bs) :), s.store_trains a bs, (congrArg State.tags (s.store_unwritten a bs) :)⟩

/-- A trap of one thread leaves them, and its thread does not come to wait. -/
theorem State.trapOne_leaves (s : State) (u : ThreadId) (pc : Word) (word : InstrWord) (r : Trap) :
    TrapLeaves s (s.trapOne u pc word r) := by
  by_cases hs : (s.thread u).state = .running ∨ (s.thread u).state = .waiting
  · cases hl : s.launch? (s.thread u).launch with
    | none =>
      rw [State.trapOne_unlaunched _ _ _ hl]
      exact ⟨rfl, rfl, rfl⟩
    | some l =>
      rw [State.trapOne_eq hl hs]
      have stored := (TrapLeaves.of_kept (s.countWait_kept u)).trans (State.store_leaves (s.countWait u)
        (l.trapArea + 64 * (64 * u.array + u.index % 64)) (trapBytes s u (s.thread u) pc word r))
      generalize (s.countWait u).store (l.trapArea + 64 * (64 * u.array + u.index % 64))
        (trapBytes s u (s.thread u) pc word r) = v at stored
      refine stored.trans (.trans ?_ (.of_kept (State.count_kept ..)))
      exact ⟨rfl, rfl, rfl⟩
  · rw [State.trapOne_still _ _ _ hs]
    exact ⟨rfl, rfl, rfl⟩

theorem State.modThread_read (s : State) (u v : ThreadId) (f : Thread → Thread) :
    (s.modThread u f).thread v = if threadKey v = threadKey u then f (s.thread u) else s.thread v := by
  simp only [State.thread, State.modThread_threads, Map.getD, Map.get?_put]
  split <;> rfl

theorem State.trapOne_awake {s : State} {v : ThreadId} (u : ThreadId) (pc : Word) (word : InstrWord) (r : Trap)
    (h : (s.thread v).state ≠ .waiting) : ((s.trapOne u pc word r).thread v).state ≠ .waiting := by
  by_cases hs : (s.thread u).state = .running ∨ (s.thread u).state = .waiting
  · cases hl : s.launch? (s.thread u).launch with
    | none =>
      rw [State.trapOne_unlaunched _ _ _ hl]
      exact h
    | some l =>
      rw [State.trapOne_eq hl hs, State.count_thread]
      have read := State.modThread_read ((s.countWait u).store (l.trapArea + 64 * (64 * u.array + u.index % 64))
        (trapBytes s u (s.thread u) pc word r)) u v fun x => { x with state := .trapped, wait := none }
      rw [State.store_thread, State.store_thread, State.thread_of_kept (s.countWait_kept u),
        State.thread_of_kept (s.countWait_kept u)] at read
      refine fun e => ?_
      have e' := (congrArg Thread.state read).symm.trans e
      split at e'
      · exact ThreadState.noConfusion e'
      · exact h e'
  · rw [State.trapOne_still _ _ _ hs]
    exact h

/-- What every trap of one thread keeps, and the note of a trap that is due, every trap keeps. -/
theorem State.trap_inv (P : State → Prop) (s : State) (t : ThreadId) (pc : Word) (word : InstrWord) (r : Trap)
    (one : ∀ s u pc word r, P s → P (s.trapOne u pc word r))
    (due : P s → P (s.modThread t fun x => { x with due := some (x.due.getD (pc, word, r)) })) (h : P s) :
    P (s.trap t pc word r) := by
  unfold State.trap
  dsimp only
  split
  · exact one _ _ _ _ _ h
  · split
    · exact due h
    · split
      · exact one _ _ _ _ _ h
      · refine foldl_inv P _ (fun s u hs => ?_) _ _ (one _ _ _ _ _ h)
        split
        · exact one _ _ _ _ _ hs
        · exact hs

theorem State.trap_leaves (s : State) (t : ThreadId) (pc : Word) (word : InstrWord) (r : Trap) :
    TrapLeaves s (s.trap t pc word r) :=
  State.trap_inv (TrapLeaves s) s t pc word r (fun _ _ _ _ _ h => h.trans (State.trapOne_leaves ..))
    (fun _ => ⟨rfl, rfl, rfl⟩) ⟨rfl, rfl, rfl⟩

theorem State.trap_awake {s : State} {t : ThreadId} (pc : Word) (word : InstrWord) (r : Trap)
    (h : (s.thread t).state ≠ .waiting) : ((s.trap t pc word r).thread t).state ≠ .waiting := by
  refine State.trap_inv (fun u => (u.thread t).state ≠ .waiting) s t pc word r
    (fun _ _ _ _ _ h => State.trapOne_awake _ _ _ _ h) (fun h => ?_) h
  rw [State.modThread_read, if_pos rfl]
  exact h

/-- An instruction that ends with a trap leaves the queue of a thread that runs, and then the trap is taken (R136). -/
theorem State.opEnd_late {e : State} {t : ThreadId} {o : TileOp} {r : Trap} (hrun : (e.thread t).state = .running)
    (hc : o.cond = none) (hl : o.late = some r) (hr : o.reader = false) (hrec : o.recAddr = none) :
    e.opEnd t o = ((e.left t o).trap t o.pc o.word r).settle t := by
  have hd : e.dropReader t o = e := by simp [State.dropReader, hr]
  have ht : ((e.modThread t fun x => x.dequeued o).thread t).state = .running :=
    (congrArg Thread.state (State.setThread_thread ..)).trans hrun
  unfold State.opEnd State.leave
  simp only [hc, hl, hrec, hd]
  rw [if_neg]
  · rfl
  · simp only [beq_iff_eq]
    exact fun h => absurd (ht.symm.trans h) (by decide)

/-- An instruction in the queue of a thread that runs, and that ends with a trap, leaves the queue, and what no trap
changes is as before (R136, R152). -/
theorem State.opTrap_leaves {e : State} {t : ThreadId} {o : TileOp} {r : Trap} (hrun : (e.thread t).state = .running)
    (hr : o.reader = false) (hrec : o.recAddr = none) (hcs : o.contribs = []) :
    TrapLeaves e (e.opTrap t o r) ∧
      ((e.opTrap t o r).thread t).ops = (e.thread t).ops.filter fun p => p.id != o.id := by
  have hdrop : e.dropContribs t o = e := by simp [State.dropContribs, hcs]
  rw [State.opTrap, hdrop, State.opEnd_late (o := { o with late := some r, cond := none, records := [] }) hrun rfl rfl hr hrec]
  have hx := e.left_thread t { o with late := some r, cond := none, records := [] }
  have leaves : TrapLeaves e (e.left t { o with late := some r, cond := none, records := [] }) := ⟨rfl, rfl, rfl⟩
  generalize e.left t { o with late := some r, cond := none, records := [] } = v at hx leaves
  have awake : ((v.trap t o.pc o.word r).thread t).state ≠ .waiting := State.trap_awake _ _ _ (by
    rw [hx]
    exact fun h => absurd (hrun.symm.trans h) (by decide))
  rw [State.settle, if_pos awake]
  refine ⟨leaves.trans (State.trap_leaves ..), (State.trap_ops ..).trans ?_⟩
  rw [hx]
  rfl

end Sys2Proof.Machine
end

section
/-! SUPPORT. What the finding of frames leaves as it was. -/

namespace Sys2Proof.Machine

/-- A state with its memory, its contexts and its records taken out: what the finding of frames leaves (R229, R230). -/
def State.unpaged (s : State) : State := { s.kept with memory := {}, ctxs := [] }

theorem State.unpaged_of_kept {s u : State} (h : u.kept = s.kept) : u.unpaged = s.unpaged :=
  congrArg (fun v : State => ({ v with memory := {}, ctxs := [] } : State)) h

@[simp] theorem State.modMem_unpaged (s : State) (f : Memory → Memory) : (s.modMem f).unpaged = s.unpaged := rfl
@[simp] theorem State.modCtx_unpaged (s : State) (c : Nat) (f : Ctx → Ctx) : (s.modCtx c f).unpaged = s.unpaged := rfl
@[simp] theorem State.modPage_unpaged (s : State) (i : Nat) (f : Page → Page) : (s.modPage i f).unpaged = s.unpaged := rfl
@[simp] theorem State.forgetLost_unpaged (s : State) (i : Nat) : (s.forgetLost i).unpaged = s.unpaged := rfl
@[simp] theorem State.cleanCellar_unpaged (s : State) (l : Nat) : (s.cleanCellar l).unpaged = s.unpaged := rfl
@[simp] theorem State.cleanAttic_unpaged (s : State) (l : Nat) : (s.cleanAttic l).unpaged = s.unpaged := rfl

@[simp] theorem State.count_unpaged (s : State) (c : CtrId) (i n : Nat) : (s.count c i n).unpaged = s.unpaged :=
  State.unpaged_of_kept (s.count_kept c i n)

@[simp] theorem State.forgetErrors_unpaged (s : State) (g : Nat) (dirty : Bool) :
    (s.forgetErrors g dirty).unpaged = s.unpaged := by
  unfold State.forgetErrors
  split
  · rfl
  · refine foldl_keeps State.unpaged _ (fun v l => ?_) _ _
    cases dirty <;> simp

@[simp] theorem State.emptyGranules_unpaged (s : State) (i : Nat) : (s.emptyGranules i).unpaged = s.unpaged := by
  unfold State.emptyGranules
  rw [State.modMem_unpaged]
  exact foldl_keeps State.unpaged _ (fun v e => State.forgetErrors_unpaged ..) _ _

@[simp] theorem State.evictPage_unpaged (s : State) (i : Nat) : (s.evictPage i).unpaged = s.unpaged := by
  unfold State.evictPage
  split
  · rfl
  · rename_i p _
    cases p.owner with
    | pool => rfl
    | ctx c => dsimp only; split <;> simp

theorem State.makeRoom_unpaged {s u : State} {cls n fuel : Nat} (h : s.makeRoom cls n fuel = some u) :
    u.unpaged = s.unpaged := by
  induction fuel generalizing s with
  | zero =>
    unfold State.makeRoom at h
    split at h
    · rw [← Option.some.inj h]
    · cases h
  | succ fuel ih =>
    unfold State.makeRoom at h
    split at h
    · rw [← Option.some.inj h]
    · split at h
      · cases h
      · rw [ih h, State.evictPage_unpaged]

theorem State.allocate_unpaged {s u : State} {cls n : Nat} (h : s.allocate cls n = some u) : u.unpaged = s.unpaged := by
  obtain ⟨v, hv, rfl⟩ := Option.map_eq_some_iff.1 h
  rw [State.modMem_unpaged, State.makeRoom_unpaged hv]

theorem State.ctxAllocate_unpaged {s u : State} {c n : Nat} (h : s.ctxAllocate c n = some u) : u.unpaged = s.unpaged := by
  unfold State.ctxAllocate at h
  split at h
  · rw [← Option.some.inj h]
  · split at h
    · cases h
    · exact State.allocate_unpaged h

end Sys2Proof.Machine
end

section
/-! SUPPORT. The entries of the Pantry, and instructions that have just entered the queue. -/

namespace Sys2Proof.Machine

/-! ### The Pantry's entries -/

theorem State.stash?_congr {s u : State} (h : u.stashes = s.stashes) (c : Nat) (key : Word) :
    u.stash? c key = s.stash? c key := by rw [State.stash?, State.stash?, h]

/-- A new entry is the one that its key names, where no other has the key. -/
theorem stash?_append {es : List Stash} {f : Stash} {c : Nat} {key : Word}
    (h : es.find? (fun e => e.ctx == c && e.key == key) = none) (hc : f.ctx = c) (hk : f.key = key) :
    (es ++ [f]).find? (fun e => e.ctx == c && e.key == key) = some f := by
  rw [List.find?_append, h]
  simp [hc, hk]

/-- An entry that is changed is the changed one. -/
theorem State.stash?_modStash (s : State) (c : Nat) (key : Word) (f : Stash → Stash)
    (hf : ∀ e, (f e).ctx = e.ctx ∧ (f e).key = e.key) : (s.modStash c key f).stash? c key = (s.stash? c key).map f := by
  refine find?_map_where (fun e : Stash => e.ctx == c && e.key == key) f (fun e => ?_) s.stashes
  obtain ⟨hc, hk⟩ := hf e
  rw [hc, hk]

/-- The entry whose tile instruction runs (R181). -/
def Thread.runs (x : Thread) (id : Nat) : Thread :=
  { x with ops := x.ops.map fun o => if o.id == id then { o with phase := .running } else o }

/-- What a `STASH` of a key leaves: an entry of its shape, which fills while its instruction runs, or which is downgraded
once the instruction has left the queue (R181, R182). `busy` says that the Pantry has no room by itself. -/
def Stashed (e u : State) (t : ThreadId) (o : TileOp) (busy : Prop) : Prop :=
  ∃ f : Stash, u.stash? (e.thread t).ctx o.imm = some f ∧ f.shape = o.a ∧
    ((f.state = .filling ∧ f.charge = ceilDiv (Desc.parse o.a).bytes 4096 * 4096 ∧ f.owner = some (t, o.id) ∧ ¬ busy ∧
        u.thread t = (e.thread t).runs o.id) ∨
      (f.state = .downgraded ∧ u.thread t = (e.thread t).dequeued o))

/-- A `STASH` that ends with its entry downgraded (R181). -/
theorem stashed_of_downgraded {e v : State} {t : ThreadId} {o : TileOp} {f : Stash} {busy : Prop}
    (hthreads : v.threads = e.threads) (hstashes : v.stashes = e.stashes ++ [f])
    (hnone : e.stash? (e.thread t).ctx o.imm = none) (hctx : f.ctx = (e.thread t).ctx) (hkey : f.key = o.imm)
    (hshape : f.shape = o.a) (hstate : f.state = .downgraded) (hrun : (e.thread t).state = .running)
    (hc : o.cond = none) (hl : o.late = none) (hr : o.reader = false) (hrec : o.recAddr = none) :
    Stashed e (v.opEnd t o) t o busy := by
  have hx : v.thread t = e.thread t := by rw [State.thread, State.thread, hthreads]
  rw [State.opEnd_quiet (by rw [hx]; exact hrun) hc hl hr hrec]
  refine ⟨f, ?_, hshape, Or.inr ⟨hstate, by rw [State.left_thread, hx]⟩⟩
  rw [State.stash?_congr (u := v.left t o) (s := v) rfl, State.stash?, hstashes]
  exact stash?_append hnone hctx hkey

/-- A `STASH` whose entry fills, and whose displaced entries spill (R181, R184). -/
theorem stashed_of_filling {e v : State} {t : ThreadId} {o : TileOp} {f : Stash} {busy : Prop} {spills : Stash → Bool}
    (hthreads : v.threads = e.threads)
    (hstashes : v.stashes = (e.stashes.map fun g => if spills g then { g with state := .spilling } else g) ++ [f])
    (hnone : e.stash? (e.thread t).ctx o.imm = none) (hctx : f.ctx = (e.thread t).ctx) (hkey : f.key = o.imm)
    (hshape : f.shape = o.a) (hstate : f.state = .filling)
    (hcharge : f.charge = ceilDiv (Desc.parse o.a).bytes 4096 * 4096) (howner : f.owner = some (t, o.id)) (hb : ¬ busy) :
    Stashed e (v.modOp t o.id fun o => { o with phase := .running }) t o busy := by
  have hx : v.thread t = e.thread t := by rw [State.thread, State.thread, hthreads]
  refine ⟨f, ?_, hshape, Or.inl ⟨hstate, hcharge, howner, hb, ?_⟩⟩
  · change v.stash? (e.thread t).ctx o.imm = some f
    rw [State.stash?, hstashes]
    refine stash?_append ?_ hctx hkey
    rw [List.find?_map, Option.map_eq_none_iff]
    refine Eq.trans (congrArg (fun p => List.find? p e.stashes) ?_) hnone
    funext g
    simp only [Function.comp]
    split <;> rfl
  · exact (State.setThread_thread v t ((v.thread t).runs o.id)).trans (by rw [hx])

/-- `STASH` of a new key makes an entry that fills or is downgraded (R181, R182). -/
theorem State.startStash_effect {e : State} {t : ThreadId} {o : TileOp} (hrun : (e.thread t).state = .running)
    (hnone : e.stash? (e.thread t).ctx o.imm = none)
    (hc : o.cond = none) (hl : o.late = none) (hr : o.reader = false) (hrec : o.recAddr = none) :
    Stashed e (e.startStash t o) t o (65536 ≤ (e.stashesOf (e.thread t).ctx).length ∨
      (e.ctx (e.thread t).ctx).quota.pantryLimit <
        chargeOf (e.stashesOf (e.thread t).ctx) + ceilDiv (Desc.parse o.a).bytes 4096 * 4096) := by
  have hk := e.count_kept cStashes 0 1
  unfold State.startStash
  extract_lets c s1 q mine charge inCellar held stays spills more frames f roomFor
  have hs1 : s1.kept = e.kept := hk
  have hno : s1.stash? c o.imm = none := (State.stash?_congr (congrArg State.stashes hs1 :) c o.imm).trans hnone
  simp only [hno, Option.isSome_none, Bool.false_eq_true, if_false]
  have hroom : ∀ s2, roomFor = some s2 → ¬ (65536 ≤ mine.length ∨ q.pantryLimit < chargeOf mine + charge) ∧
      s2.unpaged = e.unpaged := by
    intro s2 h
    have h' : (if 65536 ≤ mine.length || q.pantryLimit < chargeOf mine + charge then none else s1.ctxAllocate c frames) =
        some s2 := h
    split at h'
    · cases h'
    · rename_i hn
      exact ⟨by simpa using hn, (State.ctxAllocate_unpaged h').trans (State.unpaged_of_kept hs1)⟩
  have threads : s1.threads = e.threads := (congrArg State.threads hs1 :)
  have stashes : s1.stashes = e.stashes := (congrArg State.stashes hs1 :)
  have hq : q = (e.ctx (e.thread t).ctx).quota := (congrArg (fun v : State => (v.ctx (e.thread t).ctx).quota) hs1 :)
  have hm : mine = e.stashesOf (e.thread t).ctx := (congrArg (fun v : State => v.stashesOf (e.thread t).ctx) hs1 :)
  clear_value roomFor
  cases roomFor with
  | none =>
    refine stashed_of_downgraded (f := { f with state := .downgraded, charge := 0, inCellar := false }) ?_ ?_ hnone rfl rfl rfl
      rfl hrun hc hl hr hrec
    · exact (congrArg State.threads (State.count_kept ..) :).trans threads
    · exact (congrArg State.stashes (State.count_kept ..) :).trans (congrArg (· ++ [_]) stashes)
  | some s2 =>
    obtain ⟨hfits, hs2⟩ := hroom s2 rfl
    rw [← hq, ← hm]
    refine stashed_of_filling (f := f) (spills := fun f => spills.any fun v => v.ctx == f.ctx && v.key == f.key) ?_ ?_ hnone
      rfl rfl rfl rfl rfl rfl hfits
    · exact (congrArg State.threads hs2 :)
    · exact congrArg (fun l => List.map _ l ++ [f]) (congrArg State.stashes hs2 :)

/-! ### The instructions of the Pantry, just entered -/

/-- The state in which an instruction that is issued has just entered its thread's queue, and the entry. -/
def State.entered (s : State) (t : ThreadId) (o : TileOp) : State := (s.issued t).enqueueOp t o

def State.entry (s : State) (o : TileOp) : TileOp := { o with id := s.nextOp, issuedAt := s.now }

theorem State.entered_thread (s : State) (t : ThreadId) (o : TileOp) :
    (s.entered t o).thread t = (s.thread t).enqueued (s.entry o) := by
  rw [State.entered, State.enqueueOp_thread, State.issued_thread, State.issued_nextOp, State.issued_now, State.entry]

theorem State.entered_nextOp (s : State) (t : ThreadId) (o : TileOp) : (s.entered t o).nextOp = s.nextOp + 1 := by
  rw [State.entered, State.enqueueOp_nextOp, State.issued_nextOp]

theorem State.entered_op? {s : State} {t : ThreadId} (o : TileOp) (h : FreshNumber s t) :
    (s.entered t o).op? t s.nextOp = some (s.entry o) := by
  have e := State.enqueueOp_op? o (freshNumber_congr h (s.issued_thread t t) (s.issued_nextOp t))
  rw [State.issued_nextOp, State.issued_now] at e
  exact e

/-- An entry changes its thread and the next number alone. -/
theorem State.entered_kept (s : State) (t : ThreadId) (o : TileOp) :
    ({ s.entered t o with threads := s.threads, nextOp := s.nextOp } : State).kept = s.kept := by
  have h := congrArg (fun v : State => ({ v with threads := s.threads, nextOp := s.nextOp } : State))
    ((s.issued t).enqueueOp_kept t o)
  have h' := congrArg (fun v : State => ({ v with threads := s.threads, nextOp := s.nextOp } : State)) (s.issued_kept t)
  exact h.trans h'

/-- An instruction that acts once it is in the queue does so in the state it has just entered. -/
theorem acts_of_issueTile {s : State} {t : ThreadId} {M m : Nat} {w : TileWord} {use : TileUse} {kind : TileKind}
    {check : Thread → TileOp → State → Except Trap (TileOp × State)} {act : TileOp → State → State}
    (h : Issues s t w.pred w.pneg) (hlen : (s.thread t).ops.length < 8) (hl : tileLegal w use = true) (hf : FreshNumber s t)
    (hc : check (s.thread t) ((s.thread t).opOf w kind (tileBits w M m)) (s.issued t) =
      .ok ((s.thread t).opOf w kind (tileBits w M m), s.issued t)) :
    (match (s.issueTile t M m w use kind check).op? t s.nextOp with
      | some o => act o (s.issueTile t M m w use kind check)
      | none => s.issueTile t M m w use kind check) =
    act (s.entry ((s.thread t).opOf w kind (tileBits w M m))) (s.entered t ((s.thread t).opOf w kind (tileBits w M m))) := by
  have e : s.issueTile t M m w use kind check = s.entered t ((s.thread t).opOf w kind (tileBits w M m)) :=
    State.issueTile_enters h hlen hl hc rfl
  rw [e, State.entered_op? _ hf]

end Sys2Proof.Machine
end

section
/-! CLAIMS. The Pantry's instructions (O36). -/

namespace Sys2Proof.Machine

theorem exec_stash {s : State} {t : ThreadId} {w : TileWord} (h : Issues s t w.pred w.pneg)
    (hlen : (s.thread t).ops.length < 8) (hf : FreshNumber s t) (hl : tileLegal w { a := true, imm := 2 ^ 64 - 1 } = true)
    (hc : firstTrap [(s.issued t).checkDesc t (s.thread t) (Desc.parse ((s.thread t).descr w.a)) { num := 1, ok := legalFormat },
      (s.issued t).checkRead? (s.thread t) (Desc.parse ((s.thread t).descr w.a))] = none) :
    exec (.stash t w) s = .next ((s.entered t ((s.thread t).opOf w .stash (tileBits w 0x50 0x00))).startStash t
      (s.entry ((s.thread t).opOf w .stash (tileBits w 0x50 0x00)))) := by
  have e : exec (.stash t w) s = execStash t w s := rfl
  rw [e]
  refine congrArg Host.Outcome.next (acts_of_issueTile (act := fun o s => s.startStash t o) h hlen hl hf ?_)
  dsimp only [Thread.opOf]
  rw [hc]

theorem exec_unstash {s : State} {t : ThreadId} {w : TileWord} (h : Issues s t w.pred w.pneg)
    (hlen : (s.thread t).ops.length < 8) (hf : FreshNumber s t) (hl : tileLegal w { d := true, imm := 2 ^ 64 - 1 } = true)
    (hc : firstTrap [(s.issued t).checkDesc t (s.thread t) (Desc.parse ((s.thread t).descr w.d))
      { num := 0, dest := true, ok := legalFormat },
        (s.issued t).checkWrite? (s.thread t) (Desc.parse ((s.thread t).descr w.d))] = none) :
    exec (.unstash t w) s = .next ((s.entered t ((s.thread t).opOf w .unstash (tileBits w 0x50 0x01))).startUnstash t
      (s.entry ((s.thread t).opOf w .unstash (tileBits w 0x50 0x01)))) := by
  have e : exec (.unstash t w) s = execUnstash t w s := rfl
  rw [e]
  refine congrArg Host.Outcome.next (acts_of_issueTile (act := fun o s => s.startUnstash t o) h hlen hl hf ?_)
  dsimp only [Thread.opOf]
  rw [hc]

/-- A state with a thread that runs, whose queue has just got an entry that converts nothing and has met nothing. -/
structure Fresh (s e : State) (t : ThreadId) (o : TileOp) : Prop where
  thread : e.thread t = (s.thread t).enqueued o
  running : (s.thread t).state = .running
  fresh : FreshNumber s t
  id : o.id = s.nextOp
  cond : o.cond = none
  late : o.late = none
  reader : o.reader = false
  record : o.recAddr = none
  contribs : o.contribs = []
  unrecorded : ({ e with threads := s.threads, nextOp := s.nextOp } : State).kept = s.kept

theorem fresh_entered {s : State} {t : ThreadId} {w : TileWord} {use : TileUse} {kind : TileKind} {word : InstrWord}
    {p : BitVec 3} {neg : Bool} (h : Issues s t p neg) (hl : tileLegal w use = true) (hc : use.conv = false)
    (hf : FreshNumber s t) :
    Fresh s (s.entered t ((s.thread t).opOf w kind word)) t (s.entry ((s.thread t).opOf w kind word)) :=
  ⟨s.entered_thread t _, h.running, hf, rfl, rfl, rfl, rfl, opOf_recAddr (kind := kind) (word := word) hl hc, rfl,
    s.entered_kept t _⟩

section
variable {s e : State} {t : ThreadId} {o : TileOp} (h : Fresh s e t o)
include h

theorem Fresh.stashes : e.stashes = s.stashes := (congrArg State.stashes h.unrecorded :)

theorem Fresh.ctx : (e.thread t).ctx = (s.thread t).ctx := by rw [h.thread]; rfl

theorem Fresh.stash? (c : Nat) (key : Word) : e.stash? c key = s.stash? c key := State.stash?_congr h.stashes c key

theorem Fresh.run : (e.thread t).state = .running := by rw [h.thread]; exact h.running

theorem Fresh.counted (c : CtrId) (i n : Nat) : Fresh s (e.count c i n) t o :=
  { h with
    thread := (State.count_thread ..).trans h.thread
    unrecorded := (congrArg (fun v : State => ({ v with threads := s.threads, nextOp := s.nextOp } : State))
      (e.count_kept c i n)).trans h.unrecorded }

/-- An instruction that traps in the queue is not in it, and its thread's queue is as before. -/
theorem Fresh.traps (r : Trap) : (e.opTrap t o r).stashes = s.stashes ∧ ((e.opTrap t o r).thread t).ops = (s.thread t).ops := by
  obtain ⟨leaves, hops⟩ := State.opTrap_leaves (r := r) h.run h.reader h.record h.contribs
  refine ⟨leaves.stashes.trans h.stashes, hops.trans ?_⟩
  rw [h.thread, h.id]
  exact ops_without_fresh h.fresh h.id

/-- An instruction that leaves the queue at once lets its thread go on. -/
theorem Fresh.goesOn_of_dequeued {u : State} (hu : u.thread t = (e.thread t).dequeued o) :
    GoesOn s u t ∧ (u.thread t).ops = (s.thread t).ops := by
  rw [GoesOn, hu, h.thread]
  refine ⟨⟨h.running, rfl, rfl, rfl⟩, ?_⟩
  change List.filter (fun p => p.id != o.id) ((s.thread t).ops ++ [o]) = _
  rw [h.id]
  exact ops_without_fresh h.fresh h.id

/-- An instruction that runs has let its thread go on. -/
theorem Fresh.goesOn_of_runs {u : State} (hu : u.thread t = (e.thread t).runs o.id) :
    GoesOn s u t ∧ ∃ p ∈ (u.thread t).ops, p.id = s.nextOp ∧ p.kind = o.kind ∧ p.phase = .running := by
  rw [GoesOn, hu, h.thread]
  refine ⟨⟨h.running, rfl, rfl, rfl⟩, { o with phase := .running }, ?_, h.id, rfl, rfl⟩
  refine List.mem_map.2 ⟨o, List.mem_append_right _ (List.mem_singleton.2 rfl), ?_⟩
  rw [if_pos (beq_self_eq_true o.id)]
end

/-- `STASH` of a new key (R181, R182). -/
theorem stash_fills {s : State} {t : ThreadId} {w : TileWord} (h : Issues s t w.pred w.pneg)
    (hlen : (s.thread t).ops.length < 8) (hf : FreshNumber s t) (hl : tileLegal w { a := true, imm := 2 ^ 64 - 1 } = true)
    (hc : firstTrap [(s.issued t).checkDesc t (s.thread t) (Desc.parse ((s.thread t).descr w.a)) { num := 1, ok := legalFormat },
      (s.issued t).checkRead? (s.thread t) (Desc.parse ((s.thread t).descr w.a))] = none)
    (hn : s.stash? (s.thread t).ctx w.imm = none) :
    Completes (.stash t w) s fun u => GoesOn s u t ∧ ∃ e, u.stash? (s.thread t).ctx w.imm = some e ∧
      (e.state = .filling ∨ e.state = .downgraded) ∧ e.shape = (s.thread t).descr w.a ∧
      (e.state = .filling → e.charge = ceilDiv (Desc.parse ((s.thread t).descr w.a)).bytes 4096 * 4096 ∧
        e.owner = some (t, s.nextOp) ∧ ∃ o ∈ (u.thread t).ops, o.id = s.nextOp ∧ o.kind = .stash ∧ o.phase = .running) ∧
      (e.state = .downgraded → (u.thread t).ops = (s.thread t).ops) ∧
      ((65536 ≤ (s.stashesOf (s.thread t).ctx).length ∨ (s.ctx (s.thread t).ctx).quota.pantryLimit <
        chargeOf (s.stashesOf (s.thread t).ctx) + ceilDiv (Desc.parse ((s.thread t).descr w.a)).bytes 4096 * 4096) →
          e.state = .downgraded) := by
  refine ⟨_, exec_stash h hlen hf hl hc, ?_⟩
  have fresh := fresh_entered (kind := .stash) (word := tileBits w 0x50 0x00) h hl rfl hf
  have hctx := fresh.ctx
  have hstashes := fresh.stashes
  have hctxs : (s.entered t ((s.thread t).opOf w .stash (tileBits w 0x50 0x00))).ctxs = s.ctxs :=
    (congrArg State.ctxs fresh.unrecorded :)
  have out := State.startStash_effect (o := s.entry ((s.thread t).opOf w .stash (tileBits w 0x50 0x00))) fresh.run
    ((fresh.stash? ..).trans (by rw [hctx]; exact hn)) rfl rfl rfl fresh.record
  generalize s.entered t ((s.thread t).opOf w .stash (tileBits w 0x50 0x00)) = e at *
  obtain ⟨f, hfind, hshape, hcase⟩ := out
  rw [hctx] at hfind
  have hmine : e.stashesOf (s.thread t).ctx = s.stashesOf (s.thread t).ctx := by
    rw [State.stashesOf, State.stashesOf, hstashes]
  have hquota : e.ctx (s.thread t).ctx = s.ctx (s.thread t).ctx := by rw [State.ctx, State.ctx, hctxs]
  rcases hcase with ⟨hst, hch, ho, hb, hx⟩ | ⟨hst, hx⟩
  · rw [hctx, hmine, hquota] at hb
    obtain ⟨goes, p, hp, hid, hkind, hphase⟩ := fresh.goesOn_of_runs hx
    exact ⟨goes, f, hfind, Or.inl hst, hshape, fun _ => ⟨hch, ho, p, hp, hid, hkind, hphase⟩,
      fun hd => absurd (hst.symm.trans hd) (by decide), fun busy => absurd busy hb⟩
  · obtain ⟨goes, hops⟩ := fresh.goesOn_of_dequeued hx
    exact ⟨goes, f, hfind, Or.inr hst, hshape, fun hfill => absurd (hst.symm.trans hfill) (by decide), fun _ => hops,
      fun _ => hst⟩

/-- `STASH` of a key that the context holds (R180). -/
theorem stash_again {s : State} {t : ThreadId} {w : TileWord} (h : Issues s t w.pred w.pneg)
    (hlen : (s.thread t).ops.length < 8) (hf : FreshNumber s t) (hl : tileLegal w { a := true, imm := 2 ^ 64 - 1 } = true)
    (hc : firstTrap [(s.issued t).checkDesc t (s.thread t) (Desc.parse ((s.thread t).descr w.a)) { num := 1, ok := legalFormat },
      (s.issued t).checkRead? (s.thread t) (Desc.parse ((s.thread t).descr w.a))] = none)
    (hn : s.stash? (s.thread t).ctx w.imm ≠ none) :
    Completes (.stash t w) s fun u => u.stashes = s.stashes ∧ (u.thread t).ops = (s.thread t).ops := by
  refine ⟨_, exec_stash h hlen hf hl hc, ?_⟩
  have fresh := (fresh_entered (kind := .stash) (word := tileBits w 0x50 0x00) h hl rfl hf).counted cStashes 0 1
  rw [State.startStash, if_pos]
  · exact fresh.traps _
  · rw [fresh.stash?, Option.isSome_iff_ne_none]
    refine fun hno => hn ?_
    rw [← fresh.ctx, State.count_thread]
    exact hno

/-! ### `UNSTASH` (R183) -/

theorem State.runs_thread (s : State) (t : ThreadId) (id : Nat) :
    (s.modOp t id fun o => { o with phase := .running }).thread t = (s.thread t).runs id :=
  State.setThread_thread s t ((s.thread t).runs id)

theorem State.freeStash_thread (s : State) (c : Nat) (key : Word) (t : ThreadId) :
    (s.freeStash c key).thread t = s.thread t := by
  unfold State.freeStash
  extract_lets s1
  rw [State.thread, State.modMem_threads]
  rfl

theorem State.stash?_left (s : State) (t : ThreadId) (o : TileOp) (c : Nat) (key : Word) :
    (s.left t o).stash? c key = s.stash? c key := State.stash?_congr rfl c key

theorem State.stash?_modOp (s : State) (t : ThreadId) (id : Nat) (f : TileOp → TileOp) (c : Nat) (key : Word) :
    (s.modOp t id f).stash? c key = s.stash? c key := State.stash?_congr rfl c key

theorem State.stash?_modMem (s : State) (f : Memory → Memory) (c : Nat) (key : Word) :
    (s.modMem f).stash? c key = s.stash? c key := State.stash?_congr rfl c key

/-- An entry that is freed is not there. -/
theorem State.stash?_freeStash (s : State) (c : Nat) (key : Word) : (s.freeStash c key).stash? c key = none := by
  have hs : (s.freeStash c key).stashes = s.stashes.filter fun e => !(e.ctx == c && e.key == key) := rfl
  rw [State.stash?, hs, List.find?_eq_none]
  intro e he
  have := (List.mem_filter.1 he).2
  simpa [imp_iff_not_or] using this

/-- The state in which an entry is in `UNSTASHING` (R183). -/
def State.unstashing (s : State) (c : Nat) (key : Word) : State :=
  s.modStash c key fun e => { e with state := .unstashing }

theorem State.unstashing_stash? (s : State) (c : Nat) (key : Word) :
    (s.unstashing c key).stash? c key = (s.stash? c key).map fun e => { e with state := .unstashing } :=
  State.stash?_modStash s c key _ fun _ => ⟨rfl, rfl⟩

section
variable {s e : State} {t : ThreadId} {o : TileOp} (h : Fresh s e t o)
include h

/-- A held entry of D's shape (R183). -/
theorem Fresh.unstash_held {f : Stash} (hf : s.stash? (s.thread t).ctx o.imm = some f)
    (hst : f.state = .heldCellar ∨ f.state = .heldAttic ∨ f.state = .spilling)
    (hfmt : (Desc.parse f.shape).format = (Desc.parse o.d).format) (hrows : (Desc.parse f.shape).rows = (Desc.parse o.d).rows)
    (hcols : (Desc.parse f.shape).cols = (Desc.parse o.d).cols)
    (hmx : (Desc.parse f.shape).mxCols = (Desc.parse o.d).mxCols) :
    ((e.startUnstash t o).stash? (s.thread t).ctx o.imm).map Stash.state = some .unstashing ∧
      (e.startUnstash t o).thread t = (e.thread t).runs o.id := by
  have hfind : e.stash? (s.thread t).ctx o.imm = some f := (h.stash? ..).trans hf
  have hfill : (f.state == .filling) = false ∧ (f.state == .unstashing) = false ∧ (f.state == .downgraded) = false := by
    rcases hst with hst | hst | hst <;> simp [hst]
  obtain ⟨hfill, hun, hdown⟩ := hfill
  have he : e.startUnstash t o = ((e.unstashing (s.thread t).ctx o.imm).modMem fun m =>
      { m with zeroing := m.zeroing + (e.pantryFrames (s.thread t).ctx -
        (e.unstashing (s.thread t).ctx o.imm).pantryFrames (s.thread t).ctx) }).modOp t o.id
          fun o => { o with phase := .running } := by
    unfold State.startUnstash
    simp only [h.ctx, hfind, hfill, hun, hdown, hfmt, hrows, hcols, hmx, Bool.false_eq_true, if_false, ne_eq,
      not_true_eq_false, decide_false, Bool.or_self]
    rfl
  rw [he]
  refine ⟨?_, by rw [State.runs_thread, State.thread, State.modMem_threads]; rfl⟩
  rw [State.stash?_modOp, State.stash?_modMem, State.unstashing_stash?, hfind]
  rfl

/-- A downgraded entry of D's shape (R182, R183). -/
theorem Fresh.unstash_downgraded {f : Stash} (hf : s.stash? (s.thread t).ctx o.imm = some f) (hst : f.state = .downgraded)
    (hfmt : (Desc.parse f.shape).format = (Desc.parse o.d).format) (hrows : (Desc.parse f.shape).rows = (Desc.parse o.d).rows)
    (hcols : (Desc.parse f.shape).cols = (Desc.parse o.d).cols)
    (hmx : (Desc.parse f.shape).mxCols = (Desc.parse o.d).mxCols) :
    (e.startUnstash t o).stash? (s.thread t).ctx o.imm = none ∧
      (e.startUnstash t o).thread t = (e.thread t).dequeued o := by
  have hfind : e.stash? (s.thread t).ctx o.imm = some f := (h.stash? ..).trans hf
  have he : e.startUnstash t o = (e.freeStash (s.thread t).ctx o.imm).opEnd t o := by
    unfold State.startUnstash
    have hfill : (f.state == .filling) = false ∧ (f.state == .unstashing) = false := by simp [hst]
    simp only [h.ctx, hfind, hfill, beq_iff_eq.2 hst, hfmt, hrows, hcols, hmx, Bool.false_eq_true, if_false, ne_eq,
      not_true_eq_false, decide_false, Bool.or_self, if_true]
  rw [he, State.opEnd_quiet (by rw [State.freeStash_thread]; exact h.run) h.cond h.late h.reader h.record,
    State.left_thread, State.freeStash_thread, State.stash?_left, State.stash?_freeStash]
  exact ⟨rfl, rfl⟩

/-- An entry that fills (R183). -/
theorem Fresh.unstash_filling {f : Stash} (hf : s.stash? (s.thread t).ctx o.imm = some f) (hst : f.state = .filling) :
    e.startUnstash t o = e := by
  have hfind : e.stash? (s.thread t).ctx o.imm = some f := (h.stash? ..).trans hf
  unfold State.startUnstash
  simp only [h.ctx, hfind, beq_iff_eq.2 hst, if_true]

/-- No entry (R183). -/
theorem Fresh.unstash_absent (hf : s.stash? (s.thread t).ctx o.imm = none) :
    e.startUnstash t o = e.opTrap t o (trOperand 5 11) := by
  have hfind : e.stash? (s.thread t).ctx o.imm = none := (h.stash? ..).trans hf
  unfold State.startUnstash
  simp only [h.ctx, hfind]
end

/-! ### `RECOMP` (R182, R183) -/

theorem exec_recomp {s : State} {t : ThreadId} {w : TileWord} (h : Issues s t w.pred w.pneg)
    (hlen : (s.thread t).ops.length < 8) (hl : tileLegal w { s1 := true, imm := 2 ^ 64 - 1 } = true) :
    exec (.recomp t w) s = .next ((((s.issued t).count cTileIssued t.array).setThread t
      { s.thread t with word := tileBits w 0x50 0x02 }).resolveRecomp t w.imm ((s.thread t).reg w.s1)) := by
  have e : exec (.recomp t w) s = execRecomp t w s := rfl
  rw [e, execRecomp]
  dsimp only
  rw [State.issue_of_issues h hl, if_neg (Nat.not_le.2 hlen), State.modThread_eq, State.count_thread, State.issued_thread]

section
variable {s : State} {t : ThreadId} {w : TileWord} {f : Stash} (h : Issues s t w.pred w.pneg)
  (hlen : (s.thread t).ops.length < 8) (hl : tileLegal w { s1 := true, imm := 2 ^ 64 - 1 } = true)
  (hf : s.stash? (s.thread t).ctx w.imm = some f)
include h hlen hl hf

/-- What `RECOMP` does to its thread by the state of the entry (R182, R183). -/
theorem recomp_resolves :
    ∃ v : State, v.thread t = { s.thread t with word := tileBits w 0x50 0x02 } ∧ v.memory = s.memory ∧
      v.lodge.deviceId = s.lodge.deviceId ∧ v.stash? (s.thread t).ctx w.imm = some f ∧
      exec (.recomp t w) s = .next (v.resolveRecomp t w.imm ((s.thread t).reg w.s1)) := by
  refine ⟨_, State.setThread_thread .., ?_, ?_, ?_, exec_recomp h hlen hl⟩
  · exact (congrArg State.memory (State.count_kept ..) :).trans (s.issued_memory t)
  · exact (congrArg (fun v : State => v.lodge.deviceId) (State.count_kept ..) :).trans (s.issued_deviceId t)
  · have hs : ((s.issued t).count cTileIssued t.array).stashes = s.stashes :=
      (congrArg State.stashes (State.count_kept ..) :).trans (congrArg State.stashes (s.issued_kept t) :)
    exact (State.stash?_congr hs ..).trans hf

/-- `RECOMP` of a held entry goes on (R183). -/
theorem recomp_held (hst : f.state = .heldCellar ∨ f.state = .heldAttic ∨ f.state = .spilling) :
    Completes (.recomp t w) s fun u => GoesOn s u t ∧ u.memory = s.memory := by
  obtain ⟨v, hx, hm, -, hv, e⟩ := recomp_resolves h hlen hl hf
  have hr : v.resolveRecomp t w.imm ((s.thread t).reg w.s1) = v.setThread t
      { s.thread t with state := .running, wait := none, pc := (s.thread t).pc + 16, word := tileBits w 0x50 0x02 } := by
    rw [State.resolveRecomp, hx]
    simp only [hv]
    rcases hst with hst | hst | hst <;> rw [hst] <;> exact (v.modThread_eq ..).trans (by rw [hx])
  refine ⟨_, e, ?_⟩
  dsimp only
  rw [hr, GoesOn, State.setThread_thread]
  exact ⟨⟨rfl, rfl, rfl, rfl⟩, hm⟩

/-- `RECOMP` of a downgraded entry goes to S1 (R182). -/
theorem recomp_downgraded (hst : f.state = .downgraded) (hd : devOf ((s.thread t).reg w.s1) = s.lodge.deviceId)
    (ha : ((s.thread t).reg w.s1).toNat % 16 = 0) :
    Completes (.recomp t w) s fun u => (u.thread t).state = .running ∧ (u.thread t).pc = (s.thread t).reg w.s1 ∧
      (u.thread t).regs = (s.thread t).regs.set 31 ((s.thread t).pc + 16) ∧ u.memory = s.memory := by
  obtain ⟨v, hx, hm, hdev, hv, e⟩ := recomp_resolves h hlen hl hf
  have hr : v.resolveRecomp t w.imm ((s.thread t).reg w.s1) = v.modThread t fun x =>
      { x.setReg 31 (x.pc + 16) with state := .running, wait := none, pc := (s.thread t).reg w.s1 } := by
    rw [State.resolveRecomp, hx]
    simp only [hv, hst, hd, ha, hdev, ne_eq, not_true_eq_false, decide_false, Bool.or_self, Bool.false_eq_true, if_false]
  refine ⟨_, e, ?_⟩
  dsimp only
  rw [hr, State.modThread_eq, State.setThread_thread, hx]
  exact ⟨rfl, rfl, rfl, hm⟩

/-- `RECOMP` of an entry that fills waits (R183). -/
theorem recomp_filling (hst : f.state = .filling) :
    Completes (.recomp t w) s fun u => Waits s u t (.recomp (s.thread t).ctx w.imm ((s.thread t).reg w.s1)) := by
  obtain ⟨v, hx, hm, -, hv, e⟩ := recomp_resolves h hlen hl hf
  have hr : v.resolveRecomp t w.imm ((s.thread t).reg w.s1) = v.modThread t fun x =>
      { x with state := .waiting, wait := some (.recomp x.ctx w.imm ((s.thread t).reg w.s1)) } := by
    rw [State.resolveRecomp, hx]
    simp only [hv, hst]
  refine ⟨_, e, ?_⟩
  dsimp only
  rw [hr, Waits, State.modThread_eq, State.setThread_thread, hx]
  exact ⟨rfl, rfl, rfl, rfl, rfl, rfl, congrArg Memory.bytes hm⟩
end

/-- Settles O36: the three instructions look at the entry of their key. -/
theorem stashesFillAndResolve : Obligations.StashesFillAndResolve := by
  unfold Obligations.StashesFillAndResolve
  intro s t w h hlen hfresh x mine charge
  refine ⟨fun hl hc => ⟨fun hn => stash_fills h hlen hfresh hl hc hn, fun hn => stash_again h hlen hfresh hl hc hn⟩,
    fun hl hc => ?_, fun f hl hf => ⟨fun hst => recomp_held h hlen hl hf hst,
      fun hst hd ha => recomp_downgraded h hlen hl hf hst hd ha, fun hst => recomp_filling h hlen hl hf hst⟩⟩
  have e := exec_unstash h hlen hfresh hl hc
  have fresh := fresh_entered (kind := .unstash) (word := tileBits w 0x50 0x01) h hl rfl hfresh
  refine ⟨fun hn => ⟨_, e, ?_⟩, fun f hf => ⟨fun hst hfit => ⟨_, e, ?_⟩, fun hst hfit => ⟨_, e, ?_⟩,
    fun hst => ⟨_, e, ?_⟩⟩⟩
  · rw [fresh.unstash_absent hn]
    exact fresh.traps _
  · obtain ⟨hfmt, hrows, hcols, hmx⟩ := hfit
    obtain ⟨hstate, hx⟩ := fresh.unstash_held hf hst hfmt hrows hcols hmx
    obtain ⟨goes, p, hp, hid, hkind, hphase⟩ := fresh.goesOn_of_runs hx
    exact ⟨goes, hstate, p, hp, hid, hkind, hphase⟩
  · obtain ⟨hfmt, hrows, hcols, hmx⟩ := hfit
    obtain ⟨hnone, hx⟩ := fresh.unstash_downgraded hf hst hfmt hrows hcols hmx
    obtain ⟨goes, hops⟩ := fresh.goesOn_of_dequeued hx
    exact ⟨goes, hnone, hops⟩
  · rw [fresh.unstash_filling hf hst]
    refine ⟨queued_enqueueOp h.running (s.issued_thread t t) (s.issued_nextOp t) ?_ (names_opOf ..) rfl, fresh.stashes⟩
    exact congrArg Memory.bytes (s.issued_memory t)

end Sys2Proof.Machine
end

section
/-! CLAIMS. What moves the entries of the Pantry (O37). -/

namespace Sys2Proof.Machine

/-- The checks of clean memory find nothing, and its ranges are ready (R232, R243). -/
theorem sourcesReady_clean {s : State} (h : MemoryClean s) (rs : List (Nat × Nat)) : s.sourcesReady rs = (s, true) := by
  have fold : rs.foldl (fun s r => s.checkRead r.1 r.2) s = s := by
    induction rs with
    | nil => rfl
    | cons r rs ih => rw [List.foldl_cons, State.checkRead_clean _ _ _ h.ecc h.cellar, ih]
  have ready : rs.all (fun r => (s.repairingIn r.1 r.2).isEmpty) = true := by
    rw [List.all_eq_true]
    intro r _
    rw [State.repairingIn_nil h.repairing h.retiring]
    rfl
  simp only [State.sourcesReady, fold, ready]

/-- What is left of a copy, where its cellar has room and its memory is clean (R181). -/
theorem stashLeft_clean {s : State} {e : Stash} {o : TileOp} (h : MemoryClean s) (hst : e.state = .filling)
    (hroom : e.inCellar = true → chargeOf ((s.stashesOf e.ctx).filter fun f => f.inCellar && f.order ≤ e.order) ≤
      (s.ctx e.ctx).quota.pantryCellarLimit) :
    s.stashLeft e o = (s, some (cutPieces (65536 * o.done)
      (sortPieces (copyPieces (Desc.parse o.a) (Desc.parse o.a).packed (s.byteFrom 0) (s.lostFrom 0)))).2) := by
  have hn : (e.state != .filling || (e.inCellar && decide ((s.ctx e.ctx).quota.pantryCellarLimit <
      chargeOf ((s.stashesOf e.ctx).filter fun f => f.inCellar && f.order ≤ e.order)))) = false := by
    cases hc : e.inCellar with
    | false => simp [hst]
    | true => simp [hst, Nat.not_lt.2 (hroom hc)]
  unfold State.stashLeft
  simp only [hn, Bool.false_eq_true, if_false, sourcesReady_clean h, Bool.not_true]
  rfl

theorem State.unplaced_of_kept {s u : State} (h : u.kept = s.kept) : u.unplaced = s.unplaced := by
  have hm : u.memory = s.memory := (congrArg State.memory h :)
  simp only [State.unplaced, h, hm]

/-- The reads of a copy leave everything but placement and records. -/
theorem touchAll_unplaced (s : State) (ps : List CopyPiece) :
    (ps.foldl (fun s p => (s.touch p.src p.data.length).countLost p.src p.data.length) s).unplaced = s.unplaced := by
  refine foldl_keeps State.unplaced _ (fun v p => ?_) ps s
  rw [State.countLost, State.unplaced_of_kept (State.count_kept _ _ _ _), State.touch_unplaced]

theorem State.count_stash? (s : State) (i : CtrId) (a n c : Nat) (key : Word) :
    (s.count i a n).stash? c key = s.stash? c key :=
  State.stash?_congr (congrArg State.stashes (s.count_kept i a n) :) c key

/-- The bytes that a copy adds to its entry, and the addresses of those that were lost (R181, R244). -/
def Stash.filled (ps : List CopyPiece) (e : Stash) : Stash :=
  { e with data := e.data ++ ps.flatMap (·.data), lost := e.lost ++ (ps.filter (·.lost)).map (·.dst) }

/-- The entry whose copy is written (R181). -/
def Stash.held (e : Stash) : Stash :=
  { e with state := if e.inCellar then .heldCellar else .heldAttic, owner := none }

/-- The code of a `STASH` by what its entry has lost (R244). -/
theorem lostCode_filled (e : Stash) (ps : List CopyPiece) :
    (if ((some (e.filled ps)).any fun e => !e.lost.isEmpty) = true then some Code.weightLost else none) =
      if e.lost ++ (ps.filter (·.lost)).map (·.dst) = [] then none else some .weightLost := by
  have hl : (e.filled ps).lost = e.lost ++ (ps.filter (·.lost)).map (·.dst) := rfl
  rw [Option.any_some, hl]
  cases e.lost ++ (ps.filter (·.lost)).map (·.dst) with
  | nil => rfl
  | cons x xs => rfl

/-- What `STASH_FILL_COMPLETE` does once the source and the room are there. -/
theorem stashFill_effect {s : State} {ctx cycles id : Nat} {key : Word} {e : Stash} {t : ThreadId} {o : TileOp}
    {ps : List CopyPiece} (he : s.stash? ctx key = some e) (ho : e.owner = some (t, id)) (hop : s.op? t id = some o)
    (hc : (s.ctx ctx).state ≠ .suspended) (hl : s.stashLeft e o = (s, some ps)) :
    ∃ v : State, v.stash? ctx key = some (e.filled ps).held ∧ v.memory.bytes = s.memory.bytes ∧
      exec (.stashFillComplete ctx key cycles) s = .next ((v.opEnd t
        { o with cond := if e.lost ++ (ps.filter (·.lost)).map (·.dst) = [] then none else some .weightLost }).stashSettled
          ctx key) := by
  have run : exec (.stashFillComplete ctx key cycles) s = execStashFillComplete ctx key cycles s := rfl
  obtain ⟨hctx, hkey⟩ : e.ctx = ctx ∧ e.key = key := by simpa using List.find?_some he
  have hpl := touchAll_unplaced s ps
  have hfill : s.fillStash e ps = (ps.foldl (fun s p => (s.touch p.src p.data.length).countLost p.src p.data.length)
      s).modStash ctx key (Stash.filled ps) := by
    rw [State.fillStash, hctx, hkey]
    rfl
  generalize ps.foldl (fun s p => (s.touch p.src p.data.length).countLost p.src p.data.length) s = s1 at hpl hfill
  have h1 : s1.stash? ctx key = some e := (State.stash?_congr (congrArg State.stashes hpl :) ctx key).trans he
  have h2 : (s.fillStash e ps).stash? ctx key = some (e.filled ps) := by
    rw [hfill, State.stash?_modStash _ _ _ (Stash.filled ps) fun _ => ⟨rfl, rfl⟩, h1]
    rfl
  refine ⟨((s.fillStash e ps).modStash ctx key Stash.held).count cStashWait 0 cycles, ?_, ?_, ?_⟩
  · rw [State.count_stash?, State.stash?_modStash _ _ _ Stash.held fun _ => ⟨rfl, rfl⟩, h2]
    rfl
  · have hm : (((s.fillStash e ps).modStash ctx key Stash.held).count cStashWait 0 cycles).memory = s1.memory := by
      rw [hfill]
      exact (congrArg State.memory (State.count_kept ..) :)
    rw [hm]
    exact (congrArg (fun v : State => v.memory.bytes) hpl :)
  · rw [run, execStashFillComplete, he]
    simp only [ho, Option.bind_some, hop, Option.map_some, beq_eq_false_iff_ne.2 hc, Bool.false_eq_true, if_false, hl, h2]
    rw [lostCode_filled]
    rfl

/-- Settles O37: the copy's end and the spill's end change the entry of their key. -/
theorem pantryEventsMoveEntries : Obligations.PantryEventsMoveEntries := by
  unfold Obligations.PantryEventsMoveEntries
  constructor
  · intro s ctx cycles key e t id o he hst hc ho hop hclean hroom a ps lost
    obtain ⟨hctx, -⟩ : e.ctx = ctx ∧ e.key = key := by simpa using List.find?_some he
    have hl := stashLeft_clean (o := o) hclean hst (by rw [hctx]; exact hroom)
    obtain ⟨v, hv, hb, e'⟩ := stashFill_effect (cycles := cycles) he ho hop hc hl
    refine ⟨_, e', v, ?_, hb, rfl⟩
    rw [hv]
    rfl
  · intro s ctx key e he
    have run : exec (.pantrySpillComplete ctx key) s = execPantrySpillComplete ctx key s := rfl
    constructor
    · intro hst
      simp [run, execPantrySpillComplete, he, hst]
    · intro hst
      simp [run, execPantrySpillComplete, he, hst]

end Sys2Proof.Machine
end

section
/-! CLAIMS. The order of `BKT_ADD` (O38). -/

namespace Sys2Proof.Machine

theorem exec_bktAdd {s : State} {t : ThreadId} {w : TileWord} (h : Issues s t w.pred w.pneg)
    (hlen : (s.thread t).ops.length < 8) (hf : FreshNumber s t) (hl : tileLegal w { a := true, imm := 2 ^ 64 - 1 } = true)
    (hc : (s.issued t).checkBkt t (s.thread t) ((s.thread t).opOf w .bktAdd (tileBits w 0x50 0x04)) = none) :
    exec (.bktAdd t w) s = .next ((s.entered t ((s.thread t).opOf w .bktAdd (tileBits w 0x50 0x04))).startBkt t
      (s.entry ((s.thread t).opOf w .bktAdd (tileBits w 0x50 0x04)))) := by
  have e : exec (.bktAdd t w) s = execBktAdd t w s := rfl
  rw [e]
  refine congrArg Host.Outcome.next (acts_of_issueTile (act := fun o s => s.startBkt t o) h hlen hl hf ?_)
  rw [hc]

/-- The state in which a segment's bucket fills (R187). -/
def State.fillBucket (s : State) (c b : Nat) (k : Bucket) : State :=
  if k.state == .empty then s.setBucket c b .filling else s

theorem State.fillBucket_bucket? {s : State} {c b : Nat} {k : Bucket} (hk : s.bucket? c b = some k) :
    ((s.fillBucket c b k).bucket? c b).map Bucket.state = some (if k.state = .empty then .filling else k.state) := by
  unfold State.fillBucket
  by_cases he : k.state = .empty
  · rw [if_pos (beq_iff_eq.2 he), if_pos he, State.bucket?_setBucket, hk]
    rfl
  · rw [if_neg (mt beq_iff_eq.1 he), if_neg he, hk]
    rfl

theorem State.writeBucket_unwritten (s : State) (c b : Nat) : (s.writeBucket c b).unwritten = s.unwritten := by
  unfold State.writeBucket
  split
  · rw [State.store_unwritten, State.store_unwritten]
  · rfl

theorem State.fillBucket_fields (s : State) (c b : Nat) (k : Bucket) :
    (s.fillBucket c b k).threads = s.threads ∧ (s.fillBucket c b k).nextOp = s.nextOp := by
  unfold State.fillBucket
  split
  · have h := (s.modBucket c b fun k => { k with state := .filling }).writeBucket_unwritten c b
    exact ⟨(congrArg State.threads h :), (congrArg State.nextOp h :)⟩
  · exact ⟨rfl, rfl⟩

section
variable {e : State} {t : ThreadId} {o : TileOp} {k : Bucket} {g : Segment}
  (hk : e.bucket? (e.thread t).ctx (bktOf o).1 = some k) (hg : k.segments[(bktOf o).2.1]? = some g)
include hk hg

/-- A later index waits (R190). -/
theorem State.startBkt_later (h : g.nextMb < (bktOf o).2.2) : e.startBkt t o = e := by
  unfold State.startBkt
  simp only [hk, hg]
  rw [if_neg (Nat.lt_asymm h), if_pos (by simp [h])]

/-- An index already added traps (R190). -/
theorem State.startBkt_again (h : (bktOf o).2.2 < g.nextMb) : e.startBkt t o = e.opTrap t o (trOperand 5 11) := by
  unfold State.startBkt
  simp only [hk, hg]
  rw [if_pos h]

/-- The next index of an idle segment starts (R187, R190). -/
theorem State.startBkt_next (h : g.nextMb = (bktOf o).2.2) (hb : e.segmentBusy (e.thread t).ctx o = false) :
    e.startBkt t o = (e.fillBucket (e.thread t).ctx (bktOf o).1 k).modOp t o.id fun o => { o with phase := .running } := by
  unfold State.startBkt
  simp only [hk, hg]
  rw [if_neg (Nat.not_lt.2 (Nat.le_of_eq h)), if_neg (by simp [h, hb])]
  rfl
end

/-- No segment is busy where no `BKT_ADD` runs (R190). -/
theorem State.segmentBusy_idle {s : State} (c : Nat) (o : TileOp)
    (h : ∀ v p, p ∈ (s.thread v).ops → p.kind = .bktAdd → p.phase ≠ .running) : s.segmentBusy c o = false := by
  rw [State.segmentBusy, List.any_eq_false]
  intro v _
  rw [Bool.not_eq_true, List.any_eq_false]
  intro p hp
  have := h v p hp
  simp only [Bool.and_eq_true, beq_iff_eq, not_and]
  tauto

section
variable {s e : State} {t : ThreadId} {o : TileOp} (h : Fresh s e t o)
include h

theorem Fresh.trains : e.trains = s.trains := (congrArg State.trains h.unrecorded :)

/-- An instruction that runs is the last of its queue. -/
theorem Fresh.runs : (e.thread t).runs o.id = (s.thread t).enqueued { o with phase := .running } := by
  rw [h.thread, Thread.runs, Thread.enqueued, Thread.enqueued]
  have old : (s.thread t).ops.map (fun p => if p.id == o.id then { p with phase := .running } else p) = (s.thread t).ops := by
    refine (List.map_congr_left fun p hp => ?_).trans (List.map_id _)
    have := h.fresh p hp
    rw [if_neg (by rw [beq_iff_eq, h.id]; omega)]
    rfl
  simp only [List.map_append, old, List.map_cons, List.map_nil, beq_self_eq_true, if_true]

theorem Fresh.bucket? (c b : Nat) : e.bucket? c b = s.bucket? c b := State.bucket?_congr h.trains c b
end

/-- Where no `BKT_ADD` runs, none runs once a queued instruction has entered. -/
theorem entered_idle {s : State} {t : ThreadId} {o : TileOp} (hq : o.phase = .queued)
    (h : ∀ v p, p ∈ (s.thread v).ops → p.kind = .bktAdd → p.phase ≠ .running) :
    ∀ v p, p ∈ ((s.entered t o).thread v).ops → p.kind = .bktAdd → p.phase ≠ .running := by
  intro v p hp hk
  have hx : (s.entered t o).thread v = if threadKey v = threadKey t then (s.thread t).enqueued (s.entry o) else s.thread v := by
    rw [← s.entered_thread t o]
    split
    · rename_i e
      rw [State.thread, State.thread, e]
    · rename_i e
      have ht : (s.entered t o).threads = ((s.issued t).setThread t (((s.issued t).thread t).enqueued
          { o with id := (s.issued t).nextOp, issuedAt := (s.issued t).now })).threads :=
        (congrArg State.threads ((s.issued t).enqueueOp_kept t o) :)
      rw [State.thread, ht, State.setThread_threads, Map.getD, Map.get?_put, if_neg e]
      exact s.issued_thread t v
  rw [hx] at hp
  split at hp
  · rcases List.mem_append.1 hp with hp | hp
    · exact h t p hp hk
    · rw [List.mem_singleton.1 hp]
      exact fun e => absurd (hq.symm.trans e) (by decide)
  · exact h v p hp hk

/-- `BKT_ADD` of the next index of an idle segment (R190). -/
theorem bktAdd_next {s : State} {t : ThreadId} {w : TileWord} {k : Bucket} {g : Segment} (h : Issues s t w.pred w.pneg)
    (hlen : (s.thread t).ops.length < 8) (hf : FreshNumber s t) (hl : tileLegal w { a := true, imm := 2 ^ 64 - 1 } = true)
    (hc : (s.issued t).checkBkt t (s.thread t) ((s.thread t).opOf w .bktAdd (tileBits w 0x50 0x04)) = none)
    (hk : s.bucket? (s.thread t).ctx (bktOf ((s.thread t).opOf w .bktAdd (tileBits w 0x50 0x04))).1 = some k)
    (hg : k.segments[(bktOf ((s.thread t).opOf w .bktAdd (tileBits w 0x50 0x04))).2.1]? = some g)
    (hn : g.nextMb = (bktOf ((s.thread t).opOf w .bktAdd (tileBits w 0x50 0x04))).2.2)
    (hidle : ∀ v p, p ∈ (s.thread v).ops → p.kind = .bktAdd → p.phase ≠ .running) :
    Completes (.bktAdd t w) s fun u =>
      Entered s u t w .bktAdd (tileBits w 0x50 0x04) (fun o => o.phase = .running) ∧
        (u.bucket? (s.thread t).ctx (bktOf ((s.thread t).opOf w .bktAdd (tileBits w 0x50 0x04))).1).map Bucket.state =
          some (if k.state = .empty then .filling else k.state) := by
  have e := exec_bktAdd h hlen hf hl hc
  have fresh := fresh_entered (kind := .bktAdd) (word := tileBits w 0x50 0x04) h hl rfl hf
  have names : Names (s.thread t) w .bktAdd (tileBits w 0x50 0x04)
    (s.entry ((s.thread t).opOf w .bktAdd (tileBits w 0x50 0x04))) := ⟨rfl, rfl, rfl, rfl, rfl, rfl, rfl, rfl, rfl, rfl, rfl⟩
  have busy := State.segmentBusy_idle (s.thread t).ctx (s.entry ((s.thread t).opOf w .bktAdd (tileBits w 0x50 0x04)))
    (entered_idle (t := t) (o := (s.thread t).opOf w .bktAdd (tileBits w 0x50 0x04)) rfl hidle)
  have hnext := s.entered_nextOp t ((s.thread t).opOf w .bktAdd (tileBits w 0x50 0x04))
  have hb : ∀ o, bktOf (s.entry o) = bktOf o := fun _ => rfl
  rw [← hb] at hk hg hn ⊢
  generalize s.entry ((s.thread t).opOf w .bktAdd (tileBits w 0x50 0x04)) = o at *
  generalize s.entered t ((s.thread t).opOf w .bktAdd (tileBits w 0x50 0x04)) = v at *
  have hk' : v.bucket? (v.thread t).ctx (bktOf o).1 = some k := by rw [fresh.ctx, fresh.bucket?, hk]
  refine ⟨_, e, ?_⟩
  rw [State.startBkt_next hk' hg hn (by rw [fresh.ctx]; exact busy)]
  obtain ⟨hthreads, hnum⟩ := v.fillBucket_fields (v.thread t).ctx (bktOf o).1 k
  have hbucket := State.fillBucket_bucket? hk'
  generalize v.fillBucket (v.thread t).ctx (bktOf o).1 k = u at *
  have hx : u.thread t = v.thread t := by rw [State.thread, State.thread, hthreads]
  constructor
  · refine entered_of_enqueued (o := { o with phase := .running }) h.running ?_ (hnum.trans hnext) fresh.id ?_ rfl
    · rw [State.runs_thread, hx, fresh.runs]
    · obtain ⟨hkind, hword, hpc, hcg, hd, ha, hb, hc, hs1, himm, hnt⟩ := names
      exact ⟨hkind, hword, hpc, hcg, hd, ha, hb, hc, hs1, himm, hnt⟩
  · rw [← fresh.ctx]
    exact hbucket

theorem State.count_bucket? (s : State) (i : CtrId) (a n c b : Nat) : (s.count i a n).bucket? c b = s.bucket? c b :=
  State.bucket?_congr (congrArg State.trains (s.count_kept i a n) :) c b

/-- A tile instruction that is changed is the changed one. -/
theorem State.op?_modOp (s : State) (t : ThreadId) (id : Nat) (f : TileOp → TileOp) (hf : ∀ o, (f o).id = o.id) :
    (s.modOp t id f).op? t id = (s.op? t id).map f := by
  have hx : (s.modOp t id f).thread t = { s.thread t with ops := (s.thread t).ops.map fun o => if o.id == id then f o else o } :=
    State.setThread_thread ..
  rw [State.op?, hx]
  exact find?_map_where (fun o : TileOp => o.id == id) f (fun o => by rw [hf]) (s.thread t).ops

/-- `BKT_ADD_START` of the next index of an idle segment (R190). -/
theorem bktAddStart_next {s : State} {t : ThreadId} {id cycles : Nat} {p : TileOp} {k : Bucket} {g : Segment}
    (hp : s.op? t id = some p) (hkind : p.kind = .bktAdd) (hphase : p.phase = .queued) (hlate : p.late = none)
    (hact : s.opActive t = true) (hk : s.bucket? (s.thread t).ctx (bktOf p).1 = some k)
    (hg : k.segments[(bktOf p).2.1]? = some g) (hn : g.nextMb = (bktOf p).2.2)
    (hb : s.segmentBusy (s.thread t).ctx p = false) :
    Completes (.bktAddStart t id cycles) s fun u =>
      (u.op? t id).map TileOp.phase = some .running ∧
        (u.bucket? (s.thread t).ctx (bktOf p).1).map Bucket.state = some (if k.state = .empty then .filling else k.state) := by
  have e : exec (.bktAddStart t id cycles) s = execBktAddStart t id cycles s := rfl
  have hstart := State.startBkt_next hk hg hn hb
  have hpid : p.id = id := by simpa using List.find?_some hp
  rw [hpid] at hstart
  rw [execBktAddStart, hp] at e
  simp only [hkind, hphase, hlate, hact, Option.isSome_none, Bool.not_true, Bool.or_self, bne_self_eq_false,
    Bool.false_eq_true, if_false, hstart] at e
  obtain ⟨hthreads, -⟩ := s.fillBucket_fields (s.thread t).ctx (bktOf p).1 k
  have hbucket := State.fillBucket_bucket? hk
  generalize s.fillBucket (s.thread t).ctx (bktOf p).1 k = u at *
  have hop : (u.modOp t id fun o => { o with phase := .running }).op? t id = some { p with phase := .running } := by
    have hu : u.op? t id = some p := by rw [← hp, State.op?, State.op?, State.thread, State.thread, hthreads]
    rw [State.op?_modOp u t id (fun o => { o with phase := .running }) fun _ => rfl, hu]
    rfl
  have hb' : (u.modOp t id fun o => { o with phase := .running }).bucket? (s.thread t).ctx (bktOf p).1 =
      u.bucket? (s.thread t).ctx (bktOf p).1 := State.bucket?_congr rfl _ _
  rw [← hb'] at hbucket
  generalize u.modOp t id (fun o => { o with phase := .running }) = v at *
  refine ⟨_, e, ?_⟩
  split
  · exact ⟨by rw [hop]; rfl, hbucket⟩
  · refine ⟨?_, ?_⟩
    · rw [State.op?, State.count_thread, ← State.op?, hop]
      rfl
    · exact (congrArg (Option.map Bucket.state) (State.count_bucket? ..)).trans hbucket

/-- Settles O38: a `BKT_ADD` looks at the next index of its segment. -/
theorem bucketAddsRunInOrder : Obligations.BucketAddsRunInOrder := by
  unfold Obligations.BucketAddsRunInOrder
  constructor
  · intro s t w h hlen hl hf x o c hc k g hk hg
    have e := exec_bktAdd h hlen hf hl hc
    have fresh := fresh_entered (kind := .bktAdd) (word := tileBits w 0x50 0x04) h hl rfl hf
    have hk' : (s.entered t o).bucket? ((s.entered t o).thread t).ctx (bktOf (s.entry o)).1 = some k := by
      rw [fresh.ctx, fresh.bucket?]
      exact hk
    refine ⟨fun hn => ⟨_, e, ?_⟩, fun hn => ⟨_, e, ?_⟩, fun hn hidle => bktAdd_next h hlen hf hl hc hk hg hn hidle⟩
    · rw [State.startBkt_later hk' hg hn]
      exact ⟨queued_enqueueOp h.running (s.issued_thread t t) (s.issued_nextOp t) (congrArg Memory.bytes (s.issued_memory t))
        (names_opOf ..) rfl, fresh.trains⟩
    · rw [State.startBkt_again hk' hg hn]
      obtain ⟨leaves, -⟩ := State.opTrap_leaves (r := trOperand 5 11) fresh.run fresh.reader fresh.record fresh.contribs
      exact ⟨leaves.trains.trans fresh.trains, (fresh.traps _).2⟩
  · intro s t id cycles p k g hp hkind hphase hlate hact hk hg
    refine ⟨fun hn => ?_, fun hn hb => bktAddStart_next hp hkind hphase hlate hact hk hg hn hb⟩
    have e : exec (.bktAddStart t id cycles) s = execBktAddStart t id cycles s := rfl
    rw [e, execBktAddStart, hp]
    simp [hkind, hphase, hlate, hact, State.startBkt_later hk hg hn, hp]

end Sys2Proof.Machine
end

section
/-! CLAIMS. The start of collectives (O41). -/

namespace Sys2Proof.Machine

def State.setTags (s : State) (tags : List Tag) : State := { s with tags := tags }

def TileOp.setContribs (o : TileOp) (cs : List (Nat × Nat)) : TileOp := { o with contribs := cs }

/-- Taking contributions changes the tags alone (R167). -/
theorem State.takeContributions_tags (s : State) (t : ThreadId) (c : Nat) (ds : List Desc) :
    ∃ tags, (s.takeContributions t c ds).2 = s.setTags tags := by
  refine foldl_inv (fun r : List (Nat × Nat) × State => ∃ tags, r.2 = s.setTags tags) _ ?_ ds ([], s) ⟨s.tags, rfl⟩
  rintro ⟨l, v⟩ d ⟨tags, hv⟩
  dsimp only at hv ⊢
  split
  · exact ⟨tags, hv⟩
  · rw [hv]
    exact ⟨_, rfl⟩

/-- What the check of a collective answers where it passes: its contributions, and a change of the tags. -/
theorem collCheck_passes {s : State} {t : ThreadId} {x : Thread} {o : TileOp} {op : Nat} (h : s.checkColl t x o op = none) :
    ∃ cs tags, (match s.checkColl t x o op with
      | some r => .error r
      | none =>
        let b := CollBlock.read (s.bytesAt (locOf o.s1) 128)
        let own := ((s.group? x.ctx b.group).map (·.own)).getD 0
        if (usesOf op b.root own).2 then
          let (cs, s1) := s.takeContributions t x.ctx [Desc.parse o.d]
          .ok ({ o with contribs := cs }, s1)
        else .ok (o, s) : Except Trap (TileOp × State)) = .ok (o.setContribs cs, s.setTags tags) := by
  rw [h]
  dsimp only
  split
  · obtain ⟨tags, ht⟩ := s.takeContributions_tags t x.ctx [Desc.parse o.d]
    exact ⟨(s.takeContributions t x.ctx [Desc.parse o.d]).1, tags, by rw [ht]; rfl⟩
  · exact ⟨o.contribs, s.tags, rfl⟩

/-- The operation that a legal `COLL` starts (R291, R298). -/
def collOf (s : State) (ctx op : Nat) (b : CollBlock) (g : CollGroup) (unit : CollUnit) (o : TileOp) : Coll :=
  { ctx := ctx, group := b.group, epoch := g.epoch, kind := 0, matchKey := g.nextSeq, unit := unit
    op := op, redop := b.redop, nodeFormat := b.nodeFormat, root := b.root, plan := b.plan
    planEpoch := if op = opPermute then ((Map.get? s.coll.plans (groupKey ctx b.plan)).map (·.epoch)).getD 0 else 0
    block := locOf o.s1, doneSem := b.doneSem, scratch := (b.scratchBase, b.scratchLength), slot := b.slot
    d := o.d, a := o.a, usesD := (usesOf op b.root g.own).2, usesA := (usesOf op b.root g.own).1 }

/-- The collective of an instruction that runs is added to the engine, under the next match sequence of its group (R298). -/
def State.addColl (s : State) (t : ThreadId) (id key : Nat) (c : Coll) : Nat × State :=
  (((s.modOp t id fun o => { o with phase := .running }).modCe fun e =>
    { e with groups := Map.modify e.groups key fun g => { g with nextSeq := (g.nextSeq + 1) % 2 ^ 32 } }).count
      cCollsStarted 0).collAdd c

theorem issueColl_starts {s : State} {t : ThreadId} {w : TileWord} {op : Nat} {g : CollGroup} (h : Issues s t w.pred w.pneg)
    (hlen : (s.thread t).ops.length < 8) (hf : FreshNumber s t)
    (hl : tileLegal w { d := true, a := true, s1 := true, conv := true, imm := 0xFFFFFF } = true)
    (hg : s.group? (s.thread t).ctx (CollBlock.read (s.bytesAt (locOf ((s.thread t).reg w.s1)) 128)).group = some g)
    (hc : (s.issued t).checkColl t (s.thread t) ((s.thread t).opOf w (.coll op) (tileBits w 0x70 0x00)) op = none) :
    ∃ (e : State) (o : TileOp) (tags : List Tag) (cs : List (Nat × Nat)),
      e = ((s.issued t).setTags tags).enqueueOp t (((s.thread t).opOf w (.coll op) (tileBits w 0x70 0x00)).setContribs cs) ∧
      o = s.entry (((s.thread t).opOf w (.coll op) (tileBits w 0x70 0x00)).setContribs cs) ∧
      let r := e.addColl t o.id (groupKey (s.thread t).ctx
        (CollBlock.read (s.bytesAt (locOf ((s.thread t).reg w.s1)) 128)).group) (collOf e (s.thread t).ctx op
          (CollBlock.read (s.bytesAt (locOf ((s.thread t).reg w.s1)) 128)) g (.op t o.id) o)
      s.issueColl t op w = (r.2.collStart r.1).collStep r.1 := by
  obtain ⟨cs, tags, hok⟩ := collCheck_passes hc
  refine ⟨_, _, tags, cs, rfl, rfl, ?_⟩
  intro r
  unfold State.issueColl
  extract_lets s1 ctx
  have hs1 : s1 = ((s.issued t).setTags tags).enqueueOp t
      (((s.thread t).opOf w (.coll op) (tileBits w 0x70 0x00)).setContribs cs) :=
    State.issueTile_enters (stall := fun _ => false) h hlen hl hok rfl
  have hn : ((s.issued t).setTags tags).nextOp = s.nextOp := s.issued_nextOp t
  have hop := State.enqueueOp_op? (((s.thread t).opOf w (.coll op) (tileBits w 0x70 0x00)).setContribs cs)
    (freshNumber_congr (v := (s.issued t).setTags tags) hf (s.issued_thread t t) hn)
  have hnow : ((s.issued t).setTags tags).now = s.now := s.issued_now t
  rw [hn, hnow, ← hs1] at hop
  have hk := ((s.issued t).setTags tags).enqueueOp_kept t
    (((s.thread t).opOf w (.coll op) (tileBits w 0x70 0x00)).setContribs cs)
  rw [← hs1] at hk
  have hm : s1.memory = s.memory := (congrArg State.memory hk :).trans (s.issued_memory t)
  have hcoll : s1.coll = s.coll := (congrArg State.coll hk :).trans (congrArg State.coll (s.issued_kept t) :)
  have hctx : ctx = (s.thread t).ctx := by
    change (s1.thread t).ctx = _
    have hv : ((s.issued t).setTags tags).thread t = s.thread t := s.issued_thread t t
    rw [hs1, State.enqueueOp_thread, hv]
    rfl
  have hbytes : ∀ a n, s1.bytesAt a n = s.bytesAt a n := fun a n => by rw [State.bytesAt, State.bytesAt, hm]
  have hgroup : ∀ c n, s1.group? c n = s.group? c n := fun c n => by rw [State.group?, State.group?, hcoll]
  subst r
  rw [← hs1]
  clear_value s1 ctx
  subst hctx
  have haddr : (((s.thread t).opOf w (.coll op) (tileBits w 0x70 0x00)).setContribs cs).s1 = (s.thread t).reg w.s1 := rfl
  simp only [hop, hbytes, hgroup, haddr, hg]
  rfl

/-- What the addition of a collective changes: its instruction's phase, its group's next match sequence, and the engine. -/
theorem State.addColl_effect {e : State} {t : ThreadId} {id c n : Nat} {q : Coll} {g : CollGroup}
    (hg : e.group? c n = some g) :
    (e.addColl t id (groupKey c n) q).2.thread t = (e.thread t).runs id ∧
      (e.addColl t id (groupKey c n) q).2.memory = e.memory ∧
      ((e.addColl t id (groupKey c n) q).2.group? c n).map CollGroup.nextSeq = some ((g.nextSeq + 1) % 2 ^ 32) ∧
      (e.addColl t id (groupKey c n) q).2.coll? (e.addColl t id (groupKey c n) q).1 = some { q with stage := 0 } := by
  unfold State.addColl State.collAdd
  have hx := e.runs_thread t id
  have hm : (e.modOp t id fun o => { o with phase := .running }).memory = e.memory := rfl
  have hcoll : (e.modOp t id fun o => { o with phase := .running }).coll = e.coll := rfl
  generalize (e.modOp t id fun o => { o with phase := .running }) = v at hx hm hcoll
  have hk := (v.modCe fun e => { e with groups := Map.modify e.groups (groupKey c n) fun g =>
    { g with nextSeq := (g.nextSeq + 1) % 2 ^ 32 } }).count_kept cCollsStarted 0 1
  refine ⟨(State.thread_of_kept hk t).trans hx, (congrArg State.memory hk :).trans hm, ?_, ?_⟩
  · have hgroups : Map.get? ((v.modCe fun e => { e with groups := Map.modify e.groups (groupKey c n) fun g =>
        { g with nextSeq := (g.nextSeq + 1) % 2 ^ 32 } }).count cCollsStarted 0 1).coll.groups (groupKey c n) =
        Map.get? (Map.modify v.coll.groups (groupKey c n) fun g => { g with nextSeq := (g.nextSeq + 1) % 2 ^ 32 })
          (groupKey c n) := (congrArg (fun s : State => Map.get? s.coll.groups (groupKey c n)) hk :)
    refine (congrArg (Option.map CollGroup.nextSeq) hgroups).trans ?_
    rw [Map.get?_modify, if_pos rfl, hcoll]
    rw [State.group?] at hg
    rw [hg]
    rfl
  · exact (Map.get?_put ..).trans (if_pos rfl)

/-- The instruction that has just entered is among those of its number that run. -/
theorem runs_enqueued (x : Thread) {o : TileOp} {id : Nat} (h : o.id = id) :
    ∃ p ∈ ((x.enqueued o).runs id).ops, p.id = id ∧ p.phase = .running := by
  refine ⟨{ o with phase := .running }, ?_, h, rfl⟩
  refine List.mem_map.2 ⟨o, List.mem_append_right _ (List.mem_singleton.2 rfl), ?_⟩
  rw [if_pos (beq_iff_eq.2 h)]

/-- A legal collective's operation takes the next match sequence of its group, and then starts (R298). -/
theorem coll_takes {s : State} {t : ThreadId} {w : TileWord} {op : Nat} {g : CollGroup} {i : Instr}
    (hi : exec i s = .next (s.issueColl t op w)) (h : Issues s t w.pred w.pneg)
    (hlen : (s.thread t).ops.length < 8) (hf : FreshNumber s t)
    (hl : tileLegal w { d := true, a := true, s1 := true, conv := true, imm := 0xFFFFFF } = true)
    (hg : s.group? (s.thread t).ctx (CollBlock.read (s.bytesAt (locOf ((s.thread t).reg w.s1)) 128)).group = some g)
    (hc : (s.issued t).checkColl t (s.thread t) ((s.thread t).opOf w (.coll op) (tileBits w 0x70 0x00)) op = none) :
    ∃ (v : State) (id : Nat) (c : Coll),
      exec i s = .next ((v.collStart id).collStep id) ∧
        (v.thread t).pc = (s.thread t).pc + 16 ∧ (v.thread t).regs = (s.thread t).regs ∧ v.memory.bytes = s.memory.bytes ∧
        (∃ o ∈ (v.thread t).ops, o.id = s.nextOp ∧ o.phase = .running) ∧
        (v.group? (s.thread t).ctx (CollBlock.read (s.bytesAt (locOf ((s.thread t).reg w.s1)) 128)).group).map
          CollGroup.nextSeq = some ((g.nextSeq + 1) % 2 ^ 32) ∧
        v.coll? id = some c ∧ c.op = op ∧
        c.group = (CollBlock.read (s.bytesAt (locOf ((s.thread t).reg w.s1)) 128)).group ∧ c.epoch = g.epoch ∧
        c.matchKey = g.nextSeq ∧ c.unit = .op t s.nextOp := by
  obtain ⟨e, o, tags, cs, he, ho, hstart⟩ := issueColl_starts h hlen hf hl hg hc
  have hk := ((s.issued t).setTags tags).enqueueOp_kept t
    (((s.thread t).opOf w (.coll op) (tileBits w 0x70 0x00)).setContribs cs)
  have hv : ((s.issued t).setTags tags).thread t = s.thread t := s.issued_thread t t
  have hx := ((s.issued t).setTags tags).enqueueOp_thread t
    (((s.thread t).opOf w (.coll op) (tileBits w 0x70 0x00)).setContribs cs)
  rw [← he] at hk hx
  rw [hv] at hx
  have hm : e.memory = s.memory := (congrArg State.memory hk :).trans (s.issued_memory t)
  have hcoll : e.coll = s.coll := (congrArg State.coll hk :).trans (congrArg State.coll (s.issued_kept t) :)
  have hid : o.id = s.nextOp := by rw [ho]; rfl
  have hge : e.group? (s.thread t).ctx (CollBlock.read (s.bytesAt (locOf ((s.thread t).reg w.s1)) 128)).group = some g := by
    rw [State.group?, hcoll]
    exact hg
  obtain ⟨hthread, hmem, hseq, hfind⟩ := State.addColl_effect (t := t) (id := o.id) (q := collOf e (s.thread t).ctx op
    (CollBlock.read (s.bytesAt (locOf ((s.thread t).reg w.s1)) 128)) g (.op t o.id) o) hge
  rw [hx] at hthread
  refine ⟨_, _, _, hi.trans (congrArg Host.Outcome.next hstart), ?_, ?_, ?_, ?_, hseq, hfind, rfl, rfl, rfl, rfl, ?_⟩
  · rw [hthread]
    rfl
  · rw [hthread]
    rfl
  · rw [hmem, hm]
  · rw [hthread, hid]
    exact runs_enqueued _ (s.issued_nextOp t)
  · rw [← hid]
    rfl

/-- Settles O41: the nine collectives go through the one start, and differ in the operation alone. -/
theorem collectivesTakeTheirMatchSequence : Obligations.CollectivesTakeTheirMatchSequence := by
  unfold Obligations.CollectivesTakeTheirMatchSequence
  intro s t w g h hlen hf hl x b hg
  have takes := fun {i : Instr} {op : Nat} (hi : exec i s = .next (s.issueColl t op w)) => coll_takes hi h hlen hf hl hg
  simp only [List.forall_mem_cons]
  exact ⟨takes rfl, takes rfl, takes rfl, takes rfl, takes rfl, takes rfl, takes rfl, takes rfl, takes rfl, by simp⟩

end Sys2Proof.Machine
end

section
/-! CLAIMS. The host commands (R327, R334, R335, R438): what a carrier's Steward takes, the order of the checks, and the
rules that each opcode runs. -/

namespace Sys2Proof.Machine

/-- What the common checks of R335 and then the rules of an opcode answer. -/
theorem State.startCommand_answered (s : State) (h : CmdHeader) (op : Nat) (q : Bytes) (mg : Nat) :
    let g := s.host.nextHandle
    let k : OutCmd :=
      { header := h, opcode := op, ctx := s.boundCtx h, generation := s.gen (s.boundCtx h), takenAt := s.now
        work := .drain 0, mgSequence := mg, object := objectOf op q }
    s.startCommand h op q mg = answered g (((s.modHost fun x =>
      { x with nextHandle := g + 1, commands := Map.put x.commands g k }).traceCommand k 0).runCommand g k q) := by
  intro g k
  unfold State.startCommand answered
  dsimp only
  generalize (((s.modHost fun x =>
      { x with nextHandle := g + 1, commands := Map.put x.commands g k }).traceCommand k 0).runCommand g k q) = a
  obtain ⟨_ | r, u⟩ := a <;> rfl

/-- A command that is taken runs the checks on the state in which its rules are looked at. -/
theorem State.command_taken {s : State} {op : Nat} {h : CmdHeader} (ht : Taken s op h) (p : Bytes) :
    s.command op h p = answered (s.begun op h p).1
      ((s.begun op h p).2.2.runCommand (s.begun op h p).1 (s.begun op h p).2.1 (padTo h.paramLength.toNat p)) := by
  obtain ⟨hlen, htake⟩ := ht
  by_cases hs : h.session ≠ 0
  · rw [if_pos hs] at htake
    obtain ⟨hsome, htake⟩ := htake
    obtain ⟨x, hx⟩ := Option.isSome_iff_exists.1 hsome
    unfold State.command State.takeFromSession
    rw [if_pos hs, hx]
    dsimp only
    rw [if_pos htake, if_neg (by omega), State.startCommand_answered]
    unfold State.begun State.consumed carried
    simp only [if_pos hs, hx, Option.map_some, Option.getD_some]
  · rw [if_neg hs] at htake
    unfold State.command State.takeFromRing
    rw [if_neg hs]
    dsimp only
    rw [if_neg (by omega), htake, if_neg (by simp), State.startCommand_answered]
    unfold State.begun State.consumed carried
    simp only [if_neg hs]

/-- Each host command is the command of its opcode. -/
theorem exec_hostRows : ∀ e ∈ hostRows, ∀ (s : State) (h : CmdHeader) (p : Bytes),
    exec (e.1 h p) s = .next (s.command e.2.1 h p) := by
  unfold hostRows
  iterate 60
    refine List.forall_mem_cons.2 ⟨?_, ?_⟩
    · intro s h p
      rfl
  exact List.forall_mem_nil _

/-- The rules that an opcode runs are those of its row. -/
theorem State.commandBody_hostRows : ∀ e ∈ hostRows, ∀ (v : State) (g : Nat) (k : OutCmd) (q : Bytes), k.opcode = e.2.1 →
    v.commandBody g k q = e.2.2 v g k q := by
  unfold hostRows State.commandBody
  iterate 60
    refine List.forall_mem_cons.2 ⟨?_, ?_⟩
    · intro v g k q hk
      simp only [hk, State.bodyLow, State.bodyMid, State.bodyMgmt]
      rfl
  exact List.forall_mem_nil _

/-- A row's command that is taken answers what the checks and the rules of its opcode answer. -/
theorem exec_taken {e : (CmdHeader → Bytes → Instr) × Nat × (State → Nat → OutCmd → Bytes → Answer)} (he : e ∈ hostRows)
    {s : State} {h : CmdHeader} (ht : Taken s e.2.1 h) (p : Bytes) :
    exec (e.1 h p) s = .next (answered (s.begun e.2.1 h p).1 ((s.begun e.2.1 h p).2.2.runCommand (s.begun e.2.1 h p).1
      (s.begun e.2.1 h p).2.1 (padTo h.paramLength.toNat p))) := by
  rw [exec_hostRows e he, State.command_taken ht]

theorem carried_txnId (h : CmdHeader) : (carried h).txnId = h.txnId := by
  unfold carried
  split <;> rfl

/-- What is left once the unit, the service and the context have been looked at: the notice of an eviction, and then the
command's own rules. -/
theorem State.runCommand_checked {v : State} {k : OutCmd} {q : Bytes} (g : Nat) (hf : checkForm k q = none)
    (hu : v.absentUnit k.opcode q = false) (ho : v.outOfService k.opcode = false) (hw : v.unitWaits k.opcode q = false)
    (hn : k.header.txnId ≠ 0 ∨ (namedCtx k.opcode q).any v.noCtx = false) :
    v.runCommand g k q = if v.noticed k then (v.modCtx k.ctx fun x => { x with notice := {} }).says .evicted
      else if k.header.txnId ≠ 0 then v.joinCmd g k q else v.commandBody g k q := by
  have hc : (decide (k.header.txnId = 0) && (namedCtx k.opcode q).any v.noCtx) = false := by
    rcases hn with hn | hn
    · rw [decide_eq_false hn, Bool.false_and]
    · rw [hn, Bool.and_false]
  unfold State.runCommand
  simp only [hf, hu, ho, hw, hc, Bool.or_false, Bool.false_eq_true, if_false]

/-- A command that passes the common checks runs the rules of its opcode. -/
theorem exec_runs {e : (CmdHeader → Bytes → Instr) × Nat × (State → Nat → OutCmd → Bytes → Answer)} (he : e ∈ hostRows)
    {s : State} {h : CmdHeader} {p : Bytes} (hr : Runs s e.2.1 h p) :
    exec (e.1 h p) s = .next (answered (s.begun e.2.1 h p).1
      (e.2.2 (s.begun e.2.1 h p).2.2 (s.begun e.2.1 h p).1 (s.begun e.2.1 h p).2.1 (padTo h.paramLength.toNat p))) := by
  have hop : (s.begun e.2.1 h p).2.1.opcode = e.2.1 := rfl
  have htxn : (s.begun e.2.1 h p).2.1.header.txnId = h.txnId := carried_txnId h
  rw [exec_taken he hr.taken, ← State.commandBody_hostRows e he _ _ _ _ hop]
  rw [State.runCommand_checked _ hr.form hr.fitted hr.serves hr.units (.inr hr.context), hr.unnoticed, if_neg (by simp),
    if_neg (by simp [htxn, hr.alone])]

/-- A ring that is stopped for a cause (R325). -/
theorem State.stopRing_ring {s : State} {n : Nat} (hb : (s.ring n).state = .bound) (cause : Nat) :
    (s.stopRing n cause).ring n = { s.ring n with state := .stopped, stopCause := cause } := by
  unfold State.stopRing
  rw [if_pos (by simp [hb])]
  refine (State.congr_kept (g := fun v : State => v.ring n) (fun _ => rfl)
    ((State.fault_kept ..).trans (State.count_kept ..))).trans ?_
  exact Map.getD_put_self ..

/-- A command whose parameters do not fit a packet stops its ring (R329). -/
theorem State.takeFromRing_long {s : State} {h : CmdHeader} (hl : 4096 < h.paramLength.toNat) (op : Nat) (p : Bytes)
    (hrun : s.stewardRunning = true) (hb : (s.ring h.ring).state = .bound) (hw : (s.ring h.ring).waiting ≠ 0) :
    s.takeFromRing h op p = s.stopRing h.ring 3 := by
  unfold State.takeFromRing
  simp [hl, hrun, hb, hw]

theorem State.takeFromRing_waits {s : State} {h : CmdHeader} {op : Nat} (hl : h.paramLength.toNat ≤ 4096)
    (hw : s.ringTakes h.ring op h.paramLength.toNat = false) (p : Bytes) : s.takeFromRing h op p = s := by
  unfold State.takeFromRing
  simp [Nat.not_lt.2 hl, hw]

theorem State.command_ring {h : CmdHeader} (hs : h.session = 0) (s : State) (op : Nat) (p : Bytes) :
    s.command op h p = s.takeFromRing h op p := if_neg (by simp [hs])

theorem State.command_session_waits {s : State} {h : CmdHeader} {op : Nat} (hs : h.session ≠ 0)
    (hw : s.session? h.session = none ∨ s.sessionTakes h.session op = false) (p : Bytes) : s.command op h p = s := by
  unfold State.command
  rw [if_pos hs]
  cases hx : s.session? h.session with
  | none => rfl
  | some x => simp_all

/-- Settles O58: each row's command is the command of its opcode, and the checks of R335 are looked at in turn. -/
theorem hostCommandsRunTheRulesOfTheirOpcode : Obligations.HostCommandsRunTheRulesOfTheirOpcode := by
  intro s h p e he g k v q
  have hop : k.opcode = e.2.1 := rfl
  have htxn : k.header.txnId = h.txnId := carried_txnId h
  have taken : Taken s e.2.1 h → ∀ a, v.runCommand g k q = a → exec (e.1 h p) s = .next (answered g a) := by
    rintro ht a rfl
    exact exec_taken he ht p
  refine ⟨fun ht c hc => taken ht _ ?_, fun ht hf hu => taken ht _ ?_, fun ht hf hu hw => taken ht _ ?_,
    fun ht hf hu ho hw => ⟨fun h0 hn => taken ht _ ?_, fun hn => ⟨fun hno => taken ht _ ?_, fun hno h0 => taken ht _ ?_⟩⟩,
    fun hr => exec_runs he hr, fun h0 hl hw => ?_, fun h0 hw => ?_, fun h0 hl hrun hb hw => ?_⟩
  · simp [State.runCommand, hc]
  · simp [State.runCommand, hf, hop, hu]
  · simp [State.runCommand, hf, hop, hu, hw]
  · simp [State.runCommand, hf, hop, hu, ho, hw, htxn, h0, hn]
  · rw [State.runCommand_checked g hf hu ho hw (htxn ▸ hn), hno, if_pos rfl]
  · rw [State.runCommand_checked g hf hu ho hw (htxn ▸ hn), hno, if_neg (by simp), if_pos (htxn ▸ h0)]
  · rw [exec_hostRows e he, State.command_ring h0, State.takeFromRing_waits hl hw]
  · rw [exec_hostRows e he, State.command_session_waits h0 hw]
  · refine ⟨_, exec_hostRows e he s h p, ?_⟩
    dsimp only
    rw [State.command_ring h0, State.takeFromRing_long hl _ _ hrun hb hw, State.stopRing_ring hb]
    exact ⟨rfl, rfl⟩

end Sys2Proof.Machine
end

section
/-! CLAIMS. The host's registers, windows and rings (R320 to R326, R332, R333, R337, R470). -/

namespace Sys2Proof.Machine

/-! ### Rings -/

theorem State.modRing_ring (s : State) (n : Nat) (f : Ring → Ring) : (s.modRing n f).ring n = f (s.ring n) :=
  Map.getD_put_self ..

theorem State.ring_of_kept {s u : State} (h : u.kept = s.kept) (n : Nat) : u.ring n = s.ring n :=
  State.congr_kept (g := fun v : State => v.ring n) (fun _ => rfl) h

theorem State.bindRing0_bound {s : State} {n : Nat} (h : (s.ring n).state = .bound) : s.bindRing0 n = s := by
  unfold State.bindRing0
  by_cases hn : n = 0
  · subst hn
    simp [h]
  · simp [hn]

theorem State.bindRing0_other {s : State} {n : Nat} (h : n ≠ 0) : s.bindRing0 n = s := by simp [State.bindRing0, h]

/-- A doorbell that no bound ring takes is counted. -/
theorem State.ringDoorbell_ignored {s : State} {n width : Nat} (value : Word)
    (h : s.deviceReady = false ∨ width ≠ 8 ∨ (n ≠ 0 ∧ (s.ring n).state ≠ .bound)) :
    s.ringDoorbell n width value = s.count cDoorbellIgnored 0 := by
  unfold State.ringDoorbell
  rcases h with h | h | ⟨hn, hb⟩
  · simp [h]
  · simp [h]
  · rw [State.bindRing0_other hn]
    simp [hb]

/-- A bound ring once a doorbell has written its indices. -/
def Ring.rung (r : Ring) (now : Nat) (value : Word) : Ring :=
  { r with cmdTail := value.setWidth 32, replyHead := (value >>> 32).setWidth 32
           backlogSince := if r.waiting = 0 then now else r.backlogSince }

/-- A doorbell of a bound ring writes its indices, and stops the ring where they do not fit it (R325). -/
theorem State.ringDoorbell_bound {s : State} {n : Nat} (value : Word) (hr : s.deviceReady = true)
    (hb : (s.ring n).state = .bound) :
    let r := (s.ring n).rung s.now value
    let u := (s.modRing n fun r => r.rung s.now value).count cDoorbells 0
    u.ring n = r ∧ s.ringDoorbell n 8 value = if r.cmdSize < r.waiting || r.replySize < r.unread then u.stopRing n 2 else u := by
  intro r u
  have hu : u.ring n = r := (State.ring_of_kept (State.count_kept ..) n).trans (State.modRing_ring ..)
  refine ⟨hu, ?_⟩
  rw [← hu]
  unfold State.ringDoorbell
  rw [State.bindRing0_bound hb]
  simp only [hr, hb]
  rfl

theorem State.settleRing_open {s : State} {n : Nat} (h : (s.ring n).outstanding ≠ 0) : s.settleRing n = s := by
  simp [State.settleRing, h]

theorem State.settleRing_ring {s : State} {n : Nat} (ho : (s.ring n).outstanding = 0)
    (h : (s.ring n).state = .draining ∨ ((s.ring n).state = .stopped ∧ n ≠ 0)) :
    (s.settleRing n).ring n = { s.ring n with state := .unbound, boundCtx := 0 } := by
  unfold State.settleRing
  rw [if_pos (by rcases h with h | ⟨h, hn⟩ <;> simp [*]), State.modRing_ring]

/-- A write of an entry of a ring that is not unbound does nothing. -/
theorem State.writeRegister_entry (s : State) {n : Nat} (value : Word) (hn : n < 65536) (hc : s.chipResetting = false) :
    s.writeRegister (0x400000 + 64 * n) 8 value = s.writeRingEntry n 0 ((le 8 value.toNat).take 8) := by
  unfold State.writeRegister
  dsimp only
  rw [if_neg (by omega), if_neg (by omega), hc, if_neg (by simp), if_neg (by simp; omega), if_neg (by simp; omega),
    if_neg (by simp; omega), if_pos (by simp; omega)]
  congr 1 <;> omega

/-- The number that bytes written lowest first spell (R321). -/
theorem leNat_le (n v : Nat) : leNat (le n v) = v % 2 ^ (8 * n) := by
  induction n generalizing v with
  | zero => simp [le, leNat, Nat.mod_one]
  | succ n ih =>
    rw [le, leNat, ih, show 8 * (n + 1) = 8 + 8 * n by ring, pow_add, Nat.mod_mul]
    rfl

/-- Eight bytes written at the front of a record are the field that stands there. -/
theorem field_patch_front (bs : Bytes) (v : Word) : field (patch bs 0 ((le 8 v.toNat).take 8)) 0 8 = v.toNat := by
  have hl : (le 8 v.toNat).take 8 = le 8 v.toNat := List.take_of_length_le (by rw [length_le])
  have hf : ((le 8 v.toNat ++ bs.drop 8).take 8) = le 8 v.toNat := by
    rw [List.take_append_of_le_length (by rw [length_le]), hl]
  simp only [field, patch, hl, List.take_zero, List.nil_append, List.drop_zero, length_le, hf, leNat_le]
  exact Nat.mod_eq_of_lt v.isLt

/-- A write of the first 8 bytes of an unbound ring's entry is its base (R324). -/
theorem State.writeRingEntry_base {s : State} {n : Nat} (hb : (s.ring n).state = .unbound) (value : Word) :
    let u := s.writeRingEntry n 0 ((le 8 value.toNat).take 8)
    (u.ring n).cmdBase = value.toNat ∧ (u.ring n).state = .unbound := by
  intro u
  have hu : u = s.writeRingEntry n 0 ((le 8 value.toNat).take 8) := rfl
  unfold State.writeRingEntry at hu
  dsimp only at hu
  rw [if_neg (by simp [hb])] at hu
  rw [hu, State.modRing_ring]
  exact ⟨field_patch_front _ _, hb⟩

theorem State.writeRingEntry_bound {s : State} {n : Nat} (hb : (s.ring n).state ≠ .unbound) (off : Nat) (bs : Bytes) :
    s.writeRingEntry n off bs = s := by
  unfold State.writeRingEntry
  exact if_pos (by simp [hb])

/-- A write of BAR2's base moves the window (R333). -/
theorem State.writeRegister_bar2Base {s : State} (hc : s.chipResetting = false) (value : Word) :
    (s.writeRegister 0x3000 8 value).host.bar2Base = value.toNat ∧
      (s.writeRegister 0x3000 8 value).host.bar2Ctx = s.host.bar2Ctx := by
  have e : s.writeRegister 0x3000 8 value = s.modHost fun h => { h with
      bar2Base := field (patch (le 8 h.bar2Base) 0 ((le 8 value.toNat).take 8)) 0 8 } := by
    unfold State.writeRegister
    dsimp only
    rw [if_neg (by decide), if_neg (by decide), hc, if_neg (by decide), if_pos (by decide)]
  rw [e, State.modHost_host]
  exact ⟨field_patch_front _ _, rfl⟩

/-! ### Resets -/

/-- What a request of a reset of the host does where the chip has power (R320, R337, R370). -/
theorem State.resetReq_starts {s : State} {d target : Nat} (hp : s.chipOn = true) (hb : s.host.resetBusy = false)
    (hd : d ∈ [1, 2, 3, 4]) (h4 : d = 4 → target = 0) (h1 : d = 1 → target < s.variant.arrays)
    (hs : s.resetStands d target = true) :
    s.resetReq 0xA5 d target = (if d = 1 then s.healthEvent 10 else s).beginReset d target 1 := by
  unfold State.resetReq
  fin_cases hd <;> simp_all [State.resetStands]

theorem State.resetReq_ignored {s : State} {key : Byte} {d target : Nat} (hp : s.chipOn = true) (hd : d ∈ [1, 2, 3, 4])
    (h : key ≠ 0xA5 ∨ s.host.resetBusy = true ∨ (d = 4 ∧ target ≠ 0) ∨ (d ≤ 3 ∧ s.resetStands d target = false)) :
    s.resetReq key d target = s.count cResetReqIgnored 0 := by
  unfold State.resetReq
  dsimp only
  rw [if_neg (by simp [hp])]
  refine if_pos ?_
  rcases h with h | h | ⟨rfl, h⟩ | ⟨h3, h⟩
  · simp only [decide_eq_true h, Bool.true_or]
  · simp [h]
  · simp [h]
  · fin_cases hd <;> simp_all [State.resetStands]

/-- What of the Lodge a reset of the transactions leaves as it was. -/
def Lodge.resetKept (l : Lodge) : Nat × Phase × Nat := (l.incarnation, l.phase, l.time16)

/-- What a reset of the transactions leaves as it was: the incarnation, the phase, the time, and what waits of a reset. -/
def State.resetKept (s : State) : (Nat × Phase × Nat) × Bool × Nat × Bool :=
  (s.lodge.resetKept, s.host.resetBusy, s.host.resetDomain, s.host.perst)

theorem State.resetKept_of_kept {s u : State} (h : u.kept = s.kept) : u.resetKept = s.resetKept :=
  State.congr_kept (g := State.resetKept) (fun _ => rfl) h

theorem State.count_resetKept (s : State) (c : CtrId) (i n : Nat) : (s.count c i n).resetKept = s.resetKept :=
  State.resetKept_of_kept (State.count_kept ..)

theorem State.catalogue_resetKept (s : State) (e : CatEntry) : (s.catalogue e).resetKept = s.resetKept :=
  State.resetKept_of_kept (State.catalogue_kept ..)

theorem State.modLodge_resetKept (s : State) (f : Lodge → Lodge) (h : (f s.lodge).resetKept = s.lodge.resetKept) :
    (s.modLodge f).resetKept = s.resetKept := by
  rw [State.resetKept, State.modLodge_lodge, h]
  rfl

theorem State.moveTxn_resetKept (s : State) (e : CatEntry) (t : Txn) (st : TxnState) (failed : Nat) :
    (s.moveTxn e t st failed).resetKept = s.resetKept := by
  unfold State.moveTxn
  extract_lets s1 t1 s2
  rw [State.count_resetKept, State.count_resetKept]
  exact (State.modLodge_resetKept s1 _ rfl).trans (State.catalogue_resetKept ..)

theorem State.oweEffect_resetKept (s : State) (c : StagedCmd) : (s.oweEffect c).resetKept = s.resetKept := by
  unfold State.oweEffect
  split
  · split
    · rw [State.catalogue_resetKept]
      unfold State.activateFirmware
      split <;> rfl
    · rfl
  · split
    · split
      · rfl
      · split
        · exact State.catalogue_resetKept ..
        · rfl
    · split
      · rfl
      · split <;> rfl

theorem State.resetTxns_resetKept (s : State) (left : Txn → Nat) : (s.resetTxns left).resetKept = s.resetKept := by
  unfold State.resetTxns
  refine foldl_keeps State.resetKept _ (fun s t => ?_) _ _
  split
  · split
    · rw [State.moveTxn_resetKept]
      exact foldl_keeps State.resetKept _ State.oweEffect_resetKept _ _
    · exact State.moveTxn_resetKept ..
  · rfl
  · split <;> rfl

/-- A reset of the chip leaves nothing in service and moves the incarnation on (R320, R376). -/
theorem State.beginChipReset_effect (s : State) :
    let u := s.beginChipReset
    u.deviceReady = false ∧ u.stewardRunning = false ∧ u.serviceLevel = 0 ∧ u.host.resetBusy = s.host.resetBusy ∧
      u.host.resetDomain = s.host.resetDomain ∧ u.lodge.incarnation = nextIncarnation s.lodge.incarnation ∧ u.ctxs = [] ∧
      u.threads = [] ∧ u.lodge.phase = .firmware ∧ u.host.perst = s.host.perst := by
  have snapshot : ∀ (s : State) (c : Nat), (s.takeSnapshot c).resetKept = s.resetKept := fun s c =>
    State.count_resetKept ..
  have before : ∀ (s1 : State), (if s1.host.snapshotBusy then s1 else s1.takeSnapshot 2).resetKept = s1.resetKept := by
    intro s1
    split
    · rfl
    · exact snapshot _ _
  unfold State.beginChipReset
  extract_lets s1 s2 s3
  have h := (State.resetTxns_resetKept s2 s2.commitNext).trans ((before s1).trans (State.resetKept_of_kept (State.healthEvent_kept ..)))
  simp only [State.resetKept, Lodge.resetKept, Prod.mk.injEq] at h
  obtain ⟨⟨hi, -, -⟩, hb, hd, hp⟩ := h
  exact ⟨rfl, rfl, rfl, hb, hd, congrArg nextIncarnation hi, rfl, rfl, rfl, hp⟩

/-- A PCIe reset is one of the chip (R337, R370). -/
theorem State.pcieReset_starts {s : State} (hp : s.chipOn = true) (hb : s.host.resetBusy = false) :
    s.pcieReset = s.beginReset 4 0 2 := by
  have hc : s.chipResetting = false := by simp [State.chipResetting, hb]
  unfold State.pcieReset State.requestReset
  simp [hp, hc, hb, State.resetStands]

theorem State.pcieReset_off {s : State} (h : s.chipOn = false) : s.pcieReset = s := by simp [State.pcieReset, h]

/-! ### Memory -/

theorem memoryClean_of_unplaced {s u : State} (h : u.unplaced = s.unplaced) (hc : MemoryClean s) : MemoryClean u :=
  ⟨(congrArg (fun v : State => v.memory.eccErrors) h :).trans hc.ecc,
    (congrArg (fun v : State => v.memory.cellarErrors) h :).trans hc.cellar,
    (congrArg (fun v : State => v.memory.repairing) h :).trans hc.repairing,
    (congrArg (fun v : State => v.memory.retiringRows) h :).trans hc.retiring,
    (congrArg (fun v : State => v.memory.lost) h :).trans hc.lost,
    (congrArg (fun v : State => v.memory.lostPages) h :).trans hc.lostPages⟩

theorem State.writable_clean {s : State} (h : MemoryClean s) (rs : List (Nat × Nat)) : s.writable rs = true := by
  unfold State.writable
  rw [List.all_eq_true]
  intro r _
  rw [State.repairingIn_nil h.repairing h.retiring]
  rfl

/-- A read through BAR2 of clean memory that the window reaches answers its bytes (R333). -/
theorem State.bar2Get_clean {s : State} {a n : Nat} (hr : (unitsOf pageBytes a n).all (s.bar2Reaches false) = true)
    (hb : s.boundTo a n = none) (ha : s.awayPages a n = []) (hc : MemoryClean s) :
    s.bar2Get a n = (s.touch a n).answerRead (s.bytesAt a n) false false := by
  have ht := memoryClean_of_unplaced (s.touch_unplaced a n) hc
  unfold State.bar2Get
  simp [hr, hb, ha, State.checkRead_clean _ _ _ hc.ecc hc.cellar, State.repairingIn_nil ht.repairing ht.retiring,
    State.lostIn_nil ht]

theorem State.bar2Put_clean {s : State} {a : Nat} {bs : Bytes}
    (hr : (unitsOf pageBytes a bs.length).all (s.bar2Reaches true) = true) (hb : s.boundTo a bs.length = none)
    (ha : s.awayPages a bs.length = []) (hc : MemoryClean s) (hw : s.host.writesWaiting = []) :
    s.bar2Put a bs = s.store a bs := by
  unfold State.bar2Put
  simp [hw, hr, hb, ha, State.repairingIn_nil hc.repairing hc.retiring]

/-- A copy between clean ranges that its context may reach stores the source's bytes (R338). -/
theorem State.copyGo_copy {s : State} {n : Nat} {k : OutCmd} {src dst len : Nat} (hk : s.cmd? n = some k)
    (hw : k.work = .copy src dst len false) (hs : s.awayPages src len = []) (hd : s.awayPages dst len = [])
    (hr : s.canRead k.ctx src len = true) (hcw : s.canWrite k.ctx dst len = true) (hc : MemoryClean s) :
    s.copyGo n = ((((s.touch src len).store dst (s.bytesAt src len)).markLost []).bind src len dst len).finishCmd n
      (Reply.of .done) := by
  have ht := memoryClean_of_unplaced (s.touch_unplaced src len) hc
  have hcount : (s.touch src len).countLost src len = s.touch src len := by
    simp [State.countLost, State.lostIn_nil ht, State.count]
  unfold State.copyGo
  simp [hk, hw, hs, hd, hr, hcw, sourcesReady_clean hc, State.writable_clean hc, State.lostIn_nil hc, hcount,
    State.lostTargets, State.lostIn_nil ht]

theorem State.copyGo_fill {s : State} {n : Nat} {k : OutCmd} {dst len : Nat} {w : Word} (hk : s.cmd? n = some k)
    (hw : k.work = .fill dst len w) (hd : s.awayPages dst len = []) (hwr : s.writable [(dst, len)] = true)
    (hcw : s.canWrite k.ctx dst len = true) :
    s.copyGo n = (s.store dst (patternBytes w len)).finishCmd n (Reply.of .done) := by
  unfold State.copyGo
  simp [hk, hw, hd, hwr, hcw]

/-! ### What the end of a command leaves (R327) -/

/-- A state with the sessions, the records of events and what the host reads, but for the reset that it asked for, taken
out. -/
def State.unanswered (s : State) : State :=
  { s.kept with
    host := { resetBusy := s.host.resetBusy, resetDomain := s.host.resetDomain }
    lodge := { s.kept.lodge with sessions := [] } }

/-- The head of each ring is as it was, and so is everything but the rest of the host's interface, the sessions and
records. -/
structure HeadsKept (s u : State) : Prop where
  heads : ∀ n, (u.ring n).cmdHead = (s.ring n).cmdHead
  rest : u.unanswered = s.unanswered

theorem HeadsKept.refl (s : State) : HeadsKept s s := ⟨fun _ => rfl, rfl⟩

theorem HeadsKept.trans {r s u : State} (h : HeadsKept r s) (k : HeadsKept s u) : HeadsKept r u :=
  ⟨fun n => (k.heads n).trans (h.heads n), k.rest.trans h.rest⟩

theorem HeadsKept.of_kept {s u : State} (h : u.kept = s.kept) : HeadsKept s u :=
  ⟨fun n => congrArg Ring.cmdHead (State.ring_of_kept h n), State.congr_kept (g := State.unanswered) (fun _ => rfl) h⟩

/-- A change of the host's interface that leaves the rings leaves their heads. -/
theorem HeadsKept.modHost (s : State) (f : HostIf → HostIf) (h : (f s.host).rings = s.host.rings)
    (hb : (f s.host).resetBusy = s.host.resetBusy) (hd : (f s.host).resetDomain = s.host.resetDomain) :
    HeadsKept s (s.modHost f) := by
  refine ⟨fun n => ?_, by
    unfold State.unanswered
    rw [State.modHost_host, hb, hd]
    rfl⟩
  unfold State.ring
  rw [State.modHost_host, h]

theorem HeadsKept.modSession (s : State) (id : Nat) (f : Session → Session) : HeadsKept s (s.modSession id f) :=
  ⟨fun _ => rfl, rfl⟩

theorem HeadsKept.modRing (s : State) (n : Nat) (f : Ring → Ring) (h : ∀ r, (f r).cmdHead = r.cmdHead) :
    HeadsKept s (s.modRing n f) := by
  refine ⟨fun m => ?_, rfl⟩
  by_cases hm : m = n
  · subst hm
    rw [State.modRing_ring, h]
  · exact congrArg Ring.cmdHead (Map.getD_put_other _ _ _ _ _ hm)

theorem HeadsKept.pushReply (s : State) (n : Nat) (bs : Bytes) (interim : Bool) : HeadsKept s (s.pushReply n bs interim) := by
  unfold State.pushReply
  dsimp only
  refine HeadsKept.trans ?_ (.of_kept (State.count_kept ..))
  exact (HeadsKept.modHost s _ rfl rfl rfl).trans (.modRing _ _ _ fun _ => rfl)

theorem HeadsKept.logDone (s : State) (k : OutCmd) (r : Reply) : HeadsKept s (s.logDone k r) := by
  unfold State.logDone
  split
  · split
    · exact (HeadsKept.of_kept rfl).trans (.of_kept (State.catalogue_kept ..))
    · exact .refl s
  · exact .refl s

/-- The final reply to a command. -/
theorem HeadsKept.finishOne (s : State) (h : Nat) (r : Reply) : HeadsKept s (s.finishOne h r) := by
  unfold State.finishOne
  split
  · exact .refl s
  · next k hk =>
    extract_lets s1 s2 s1' m n s2'
    have h1 : HeadsKept s s1 := (HeadsKept.logDone s k r).trans (.modHost _ _ rfl rfl rfl)
    have h1' : HeadsKept s s1' := h1.trans (.of_kept (State.trace_kept ..))
    split
    · have h2 : HeadsKept s s2 := by
        unfold s2
        split
        · exact h1
        · exact h1.trans (.modHost _ _ rfl rfl rfl)
      exact h2.trans (.modHost _ _ rfl rfl rfl)
    · split
      · exact h1'.trans ((HeadsKept.modSession ..).trans (.modSession ..))
      · have h2' : HeadsKept s s2' := by
          unfold s2'
          split
          · exact h1'
          · exact h1'.trans (.modHost _ _ rfl rfl rfl)
        exact h2'.trans ((HeadsKept.pushReply ..).trans (.modRing _ _ _ fun _ => rfl))

/-- The end of a command, and of a fence that it lets go, changes no head of a ring and nothing but replies (R327). -/
theorem HeadsKept.finishCmd (s : State) (h : Nat) (r : Reply) : HeadsKept s (s.finishCmd h r) := by
  unfold State.finishCmd
  split
  · exact .refl s
  · dsimp only
    split
    · exact .finishOne ..
    · exact (HeadsKept.finishOne ..).trans (.finishOne ..)

/-! ### Commands of a ring (R327, R329) -/

/-- The first free-standing row is that of `NOP`. -/
theorem nop_mem_hostRows : ((.nop, 0x0000, fun v _ _ _ => v.cmdNop) :
    (CmdHeader → Bytes → Instr) × Nat × (State → Nat → OutCmd → Bytes → Answer)) ∈ hostRows := List.mem_cons_self ..

/-- What the Steward reads from a ring is the command that its entries spell. -/
theorem exec_commandTake (n : Nat) (bs : Bytes) (s : State) :
    exec (.commandTake n (.bytes bs)) s =
      .next (s.takeFromRing (readHeader n 0 bs).2 (readHeader n 0 bs).1 (bs.drop 32)) := rfl

theorem exec_commandTake_row {e : (CmdHeader → Bytes → Instr) × Nat × (State → Nat → OutCmd → Bytes → Answer)}
    (he : e ∈ hostRows) {n : Nat} {bs : Bytes} (ho : (readHeader n 0 bs).1 = e.2.1) (s : State) :
    exec (.commandTake n (.bytes bs)) s = exec (e.1 (readHeader n 0 bs).2 (bs.drop 32)) s := by
  rw [exec_commandTake, exec_hostRows e he, State.command_ring rfl, ho]

/-- A command of a ring that has been taken has consumed its entries. -/
theorem State.begun_head {h : CmdHeader} (hs : h.session = 0) (s : State) (op : Nat) (p : Bytes) :
    ((s.begun op h p).2.2.ring h.ring).cmdHead =
      (s.ring h.ring).cmdHead + BitVec.ofNat 32 (entriesOf h.paramLength.toNat) ∧
    (s.begun op h p).2.2.memory = s.memory := by
  have hc : ((s.consumed op h).ring h.ring).cmdHead =
      (s.ring h.ring).cmdHead + BitVec.ofNat 32 (entriesOf h.paramLength.toNat) ∧ (s.consumed op h).memory = s.memory := by
    unfold State.consumed
    rw [if_neg (by simp [hs])]
    have hr := s.modRing_ring h.ring
    generalize hf : (fun r : Ring => { r with cmdHead := r.cmdHead + BitVec.ofNat 32 (entriesOf h.paramLength.toNat)
                                              outstanding := r.outstanding + 1 }) = f at hr ⊢
    have hk := (s.modRing h.ring f).count_kept cCommandsTaken 0 1
    refine ⟨?_, (State.memory_of_kept hk :)⟩
    refine (congrArg Ring.cmdHead (State.ring_of_kept hk h.ring)).trans ?_
    rw [hr, ← hf]
  have hb : HeadsKept (s.consumed op h) (s.begun op h p).2.2 := by
    unfold State.begun
    exact (HeadsKept.modHost _ _ rfl rfl rfl).trans (.of_kept (State.trace_kept ..))
  exact ⟨(hb.heads _).trans hc.1, (congrArg State.memory hb.rest :).trans hc.2⟩

/-! ### The registers and windows, one by one -/

theorem exec_doorbell {n : Nat} (hn : n < 65536) (width : Nat) (value : Word) (s : State) :
    exec (.doorbell n width value) s = .next (s.ringDoorbell n width value) := by
  have e : exec (.doorbell n width value) s = .next (if n < 65536 then s.ringDoorbell n width value else s) := rfl
  rw [e, if_pos hn]

theorem exec_snapshotReq (v : BitVec 32) (s : State) : exec (.snapshotReq v) s =
    .next (if v.getLsbD 0 && s.lodge.phase != .off then s.modHost fun h => { h with snapshotBusy := true } else s) := rfl

theorem exec_snapshotComplete (s : State) :
    exec .snapshotComplete s = .next (if s.host.snapshotBusy then s.takeSnapshot 1 else s) := rfl

theorem exec_registerWrite {s : State} (hp : s.lodge.phase ≠ .off) (off width : Nat) (value : Word) :
    exec (.registerWrite off width value) s = .next (s.writeRegister off width value) := by
  have e : exec (.registerWrite off width value) s =
    .next (if s.lodge.phase == .off then s else s.writeRegister off width value) := rfl
  rw [e, if_neg (by simpa using hp)]

theorem exec_bar2Read (s : State) (off n : Nat) : exec (.bar2Read off n) s =
    .next (if !s.deviceReady then s.answerRead (zeros n) false true else s.bar2Get (s.host.bar2Base + off) n) := rfl

theorem exec_bar2Write (s : State) (off : Nat) (bs : Bytes) : exec (.bar2Write off bs) s =
    .next (if s.deviceReady then s.bar2Put (s.host.bar2Base + off) bs else s) := rfl

theorem exec_stewardBeatTick (s : State) : exec .stewardBeatTick s = .next (if s.stewardRunning then
    (s.modHost fun h => { h with stewardBeat := h.stewardBeat + 1, beatTime := s.now }).pumpSessions else s) := rfl

theorem exec_commandTake_error (n : Nat) (s : State) : exec (.commandTake n .error) s =
    .next (if s.stewardRunning && (s.ring n).state == .bound && (s.ring n).waiting ≠ 0 then
      (s.count cDmaReadErrors 0).stopRing n 1 else s) := rfl

/-- A doorbell of a bound ring moves its indices, or stops it where they do not fit (R325, R326). -/
theorem doorbell_bound {s : State} {n : Nat} (value : Word) (hn : n < 65536) (hr : s.deviceReady = true)
    (hb : (s.ring n).state = .bound) :
    let r := (s.ring n).rung s.now value
    (r.waiting ≤ r.cmdSize → r.unread ≤ r.replySize → Completes (.doorbell n 8 value) s fun u =>
      u.ring n = r ∧ u.memory = s.memory) ∧
    (r.cmdSize < r.waiting ∨ r.replySize < r.unread → Completes (.doorbell n 8 value) s fun u =>
      u.ring n = { r with state := .stopped, stopCause := 2 }) := by
  intro r
  obtain ⟨hring, hbell⟩ := State.ringDoorbell_bound value hr hb
  have e := exec_doorbell hn 8 value s
  rw [hbell] at e
  refine ⟨fun h1 h2 => ⟨_, e, ?_⟩, fun h => ⟨_, e, ?_⟩⟩
  · dsimp only
    rw [if_neg (by simpa only [Bool.or_eq_true, decide_eq_true_eq, not_or, Nat.not_lt] using And.intro h1 h2)]
    exact ⟨hring, (State.memory_of_kept (State.count_kept ..) :)⟩
  · dsimp only
    rw [if_pos (by simpa only [Bool.or_eq_true, decide_eq_true_eq] using h), State.stopRing_ring (hring ▸ hb), hring]

/-- A snapshot fills the mailbox (R332). -/
theorem snapshotComplete_fills {s : State} (h : s.host.snapshotBusy = true) : Completes .snapshotComplete s fun u =>
    u.host.snapshotBusy = false ∧ u.host.snapshotSeq = s.host.snapshotSeq + 1 ∧ u.host.snapshotTime = s.now ∧
      u.host.mailbox = s.mailboxNow (s.host.snapshotSeq + 1).toNat 1 := by
  have e := exec_snapshotComplete s
  rw [if_pos h] at e
  refine ⟨_, e, ?_⟩
  have hk : (s.takeSnapshot 1).host = _ := State.congr_kept (g := State.host) (fun _ => rfl) (State.count_kept ..)
  dsimp only
  rw [hk]
  exact ⟨rfl, rfl, rfl, rfl⟩

/-- One row of the resets that the host asks for: one that may not start is counted, and one that may starts (R337). -/
theorem resetReq_row {s : State} (key : Byte) (target : BitVec 16) {c : Byte → BitVec 16 → Instr} {d : Nat}
    (hd : d ∈ [1, 2, 3, 4]) (hp : s.chipOn = true)
    (e : ∀ key, exec (c key target) s = .next (s.resetReq key d target.toNat)) :
    ((key ≠ 0xA5 ∨ s.host.resetBusy = true ∨ (d = 4 ∧ target ≠ 0) ∨ (d ≤ 3 ∧ s.resetStands d target.toNat = false)) →
      exec (c key target) s = .next (s.count cResetReqIgnored 0)) ∧
    (s.host.resetBusy = false → (d = 4 → target = 0) → s.resetStands d target.toNat = true →
      (d = 1 → target.toNat < s.variant.arrays) →
      exec (c 0xA5 target) s = .next ((if d = 1 then s.healthEvent 10 else s).beginReset d target.toNat 1)) := by
  have zero : target ≠ 0 → target.toNat ≠ 0 := fun h h0 => h (BitVec.eq_of_toNat_eq h0)
  refine ⟨fun h => ?_, fun hb h4 hs h1 => ?_⟩
  · rw [e, State.resetReq_ignored hp hd]
    exact h.imp_right (Or.imp_right (Or.imp_left (And.imp_right zero)))
  · rw [e, State.resetReq_starts hp hb hd (fun h => by rw [h4 h]; rfl) h1 hs]

/-- A reset of the chip, whoever asks for it (R320, R370, R376). -/
theorem State.beginReset_chip (s : State) (origin : Nat) :
    let u := s.beginReset 4 0 origin
    u.deviceReady = false ∧ u.stewardRunning = false ∧ u.serviceLevel = 0 ∧ u.host.resetBusy = true ∧
      u.host.resetDomain = 4 ∧ u.lodge.incarnation = nextIncarnation s.lodge.incarnation ∧ u.ctxs = [] ∧
      u.threads = [] ∧ u.lodge.phase = .firmware ∧ u.host.perst = s.host.perst :=
  State.beginChipReset_effect _

/-- A PCIe reset is one of the chip, and so is the one that the host writes (R320, R337, R470). -/
theorem chipReset_rows {s : State} (hp : s.chipOn = true) (hb : s.host.resetBusy = false) :
    ∀ c ∈ [Instr.perstAssert, .hotReset, .functionLevelReset, .linkDisable, .chipReset 0xA5 0], Completes c s fun u =>
      u.deviceReady = false ∧ u.stewardRunning = false ∧ u.serviceLevel = 0 ∧ u.host.resetBusy = true ∧
        u.host.resetDomain = 4 ∧ u.lodge.incarnation = nextIncarnation s.lodge.incarnation ∧ u.ctxs = [] ∧
        u.threads = [] ∧ u.lodge.phase = .firmware ∧ (c = .perstAssert → u.host.perst = true) := by
  have reset : ∀ (c : Instr) (v : State) (origin : Nat), exec c s = .next (v.beginReset 4 0 origin) →
      v.lodge = s.lodge → (c = .perstAssert → v.host.perst = true) → Completes c s fun u =>
      u.deviceReady = false ∧ u.stewardRunning = false ∧ u.serviceLevel = 0 ∧ u.host.resetBusy = true ∧
        u.host.resetDomain = 4 ∧ u.lodge.incarnation = nextIncarnation s.lodge.incarnation ∧ u.ctxs = [] ∧
        u.threads = [] ∧ u.lodge.phase = .firmware ∧ (c = .perstAssert → u.host.perst = true) := by
    intro c v origin e hl hperst
    obtain ⟨h1, h2, h3, h4, h5, h6, h7, h8, h9, h10⟩ := v.beginReset_chip origin
    exact ⟨_, e, h1, h2, h3, h4, h5, hl ▸ h6, h7, h8, h9, fun hc => h10.trans (hperst hc)⟩
  have pcie := congrArg Host.Outcome.next (α := State) (β := Host.Outcome State Fault Refusal) (State.pcieReset_starts hp hb)
  have assert : exec .perstAssert s = .next ((s.modHost fun h => { h with perst := true }).beginReset 4 0 2) :=
    congrArg _ (State.pcieReset_starts (s := s.modHost fun h => { h with perst := true }) hp hb)
  have written : exec (.chipReset 0xA5 0) s = .next (s.beginReset 4 0 1) :=
    congrArg _ (State.resetReq_starts hp hb (by simp) (fun _ => rfl) (by simp) rfl)
  exact List.forall_mem_cons.2 ⟨reset _ _ 2 assert rfl fun _ => rfl,
    List.forall_mem_cons.2 ⟨reset _ s 2 pcie rfl nofun, List.forall_mem_cons.2 ⟨reset _ s 2 pcie rfl nofun,
    List.forall_mem_cons.2 ⟨reset _ s 2 pcie rfl nofun, List.forall_mem_cons.2 ⟨reset _ s 1 written rfl nofun,
    List.forall_mem_nil _⟩⟩⟩⟩⟩

/-- What of a ring's command the Steward takes, refuses or stops the ring for (R327, R329). -/
theorem commandTake_rows (s : State) (n : Nat) (bs : Bytes) :
    let op := (readHeader n 0 bs).1
    let h := (readHeader n 0 bs).2
    (∀ e ∈ hostRows, op = e.2.1 → Runs s op h (bs.drop 32) →
      let b := s.begun op h (bs.drop 32)
      exec (.commandTake n (.bytes bs)) s = .next (answered b.1 (e.2.2 b.2.2 b.1 b.2.1
        (padTo h.paramLength.toNat (bs.drop 32))))) ∧
    (op = 0x0000 → Runs s op h (bs.drop 32) → Completes (.commandTake n (.bytes bs)) s fun u =>
      ∃ v : State, u = v.versionsReady ∧ (v.ring n).cmdHead = (s.ring n).cmdHead
        + BitVec.ofNat 32 (entriesOf h.paramLength.toNat) ∧ v.memory = s.memory) ∧
    (h.paramLength.toNat ≤ 4096 → s.ringTakes n op h.paramLength.toNat = false →
      exec (.commandTake n (.bytes bs)) s = .next s) ∧
    (4096 < h.paramLength.toNat → s.stewardRunning = true → (s.ring n).state = .bound → (s.ring n).waiting ≠ 0 →
      Completes (.commandTake n (.bytes bs)) s fun u => (u.ring n).state = .stopped ∧ (u.ring n).stopCause = 3) := by
  intro op h
  have runs : ∀ e ∈ hostRows, op = e.2.1 → Runs s op h (bs.drop 32) →
      exec (.commandTake n (.bytes bs)) s = .next (answered (s.begun op h (bs.drop 32)).1
        (e.2.2 (s.begun op h (bs.drop 32)).2.2 (s.begun op h (bs.drop 32)).1 (s.begun op h (bs.drop 32)).2.1
        (padTo h.paramLength.toNat (bs.drop 32)))) := by
    intro e he ho hr
    rw [exec_commandTake_row he ho]
    rw [ho] at hr ⊢
    exact exec_runs he hr
  refine ⟨runs, fun ho hr => ⟨_, runs _ nop_mem_hostRows ho hr, ?_⟩, fun hl hw => ?_, fun hl hrun hb hw => ?_⟩
  · have head := s.begun_head (h := h) rfl op (bs.drop 32)
    have done := HeadsKept.finishCmd (s.begun op h (bs.drop 32)).2.2 (s.begun op h (bs.drop 32)).1 (Reply.of .done)
    exact ⟨_, rfl, (done.heads n).trans head.1, (congrArg State.memory done.rest :).trans head.2⟩
  · rw [exec_commandTake]
    exact congrArg _ (State.takeFromRing_waits hl hw _)
  · refine ⟨_, exec_commandTake n bs s, ?_⟩
    dsimp only
    rw [State.takeFromRing_long hl _ _ hrun hb hw]
    have hs := State.stopRing_ring hb 3
    exact ⟨congrArg Ring.state hs, congrArg Ring.stopCause hs⟩

theorem exec_copyIn {s : State} {n dst len : Nat} {k : OutCmd} (hk : s.cmd? n = some k) (hw : k.work = .copyIn dst len)
    (d : BusData) : exec (.dmaReadCompletion n d) s = .next (s.copyInGo n dst len d) := by
  have e : exec (.dmaReadCompletion n d) s = execDmaReadCompletion n d s := rfl
  rw [e, execDmaReadCompletion.eq_def, hk, Option.map_some, hw]

/-- The bytes that a copy from the host waits for come, or its read fails (R338). -/
theorem copyIn_ends {s : State} {n dst len : Nat} {k : OutCmd} (hk : s.cmd? n = some k) (hw : k.work = .copyIn dst len)
    (bs : Bytes) :
    (s.awayPages dst len = [] → s.writable [(dst, len)] = true → s.canWrite k.ctx dst len = true →
      exec (.dmaReadCompletion n (.bytes bs)) s = .next ((s.store dst (padTo len bs)).finishCmd n (Reply.of .done))) ∧
    ((s.awayPages dst len ≠ [] ∨ s.canWrite k.ctx dst len = false) → exec (.dmaReadCompletion n .error) s =
      .next ((s.count cDmaReadErrors 0).finishCmd n (Reply.of .badPacket))) ∧
    (s.awayPages dst len = [] → s.canWrite k.ctx dst len = true → exec (.dmaReadCompletion n .error) s =
      .next (((s.copyCut dst len).count cDmaReadErrors 0).finishCmd n (Reply.of .badPacket))) := by
  have hctx : ((s.cmd? n).map (·.ctx)).getD 0 = k.ctx := by rw [hk]; rfl
  refine ⟨fun ha hwr hc => ?_, fun h => ?_, fun ha hc => ?_⟩ <;> rw [exec_copyIn hk hw] <;> unfold State.copyInGo <;>
    dsimp only <;> rw [hctx]
  · simp [ha, hwr, hc]
  · rw [if_neg]
    rcases h with h | h <;> simp [h]
  · simp [ha, hc]

/-- Settles O57: each register, window and ring by the operation that answers it. -/
theorem hostRegistersWindowsAndRings : Obligations.HostRegistersWindowsAndRings := by
  intro s n width off value
  refine ⟨fun hn h => ?_, fun hn hr hb => ?_, fun v hv hp => ?_, fun v hv => ?_, snapshotComplete_fills, fun h => ?_,
    fun target key hp => ?_, chipReset_rows, rfl, fun hp => ?_, fun hp hc => ⟨?_, fun hn hb => ?_, fun hn hb => ?_⟩, rfl,
    fun hr => ?_, ?_, ?_, fun hr bs => ?_, fun h ho => ?_, fun ho => congrArg _ (State.settleRing_open ho),
    fun hrun hb hw => ?_, fun bs e he ho => exec_commandTake_row he ho s, commandTake_rows s n,
    fun k dst len bs hk hw => copyIn_ends hk hw bs, fun k src dst len hk hw hs hd hr hcw hc => congrArg _ (State.copyGo_copy hk hw hs hd hr hcw hc),
    fun k dst len w hk hw hd hwr hcw => congrArg _ (State.copyGo_fill hk hw hd hwr hcw), fun hrun hs => ?_, fun hrun => ?_⟩
  · rw [exec_doorbell hn, State.ringDoorbell_ignored value h]
  · obtain ⟨moves, stops⟩ := doorbell_bound value hn hr hb
    refine ⟨fun h1 h2 => ?_, fun h => ?_⟩
    · obtain ⟨u, e, hu, hm⟩ := moves h1 h2
      exact ⟨u, e, hu ▸ hb, hu ▸ rfl, hu ▸ rfl, hm⟩
    · obtain ⟨u, e, hu⟩ := stops h
      exact ⟨u, e, hu ▸ rfl, hu ▸ rfl⟩
  · rw [exec_snapshotReq, if_pos (by simp [hv, hp])]
    rfl
  · rw [exec_snapshotReq, hv]
    rfl
  · rw [exec_snapshotComplete, h]
    rfl
  · exact List.forall_mem_cons.2 ⟨resetReq_row (c := .arrayReset) (d := 1) key target (by simp) hp fun _ => rfl,
      List.forall_mem_cons.2 ⟨resetReq_row (c := .channelReset) (d := 2) key target (by simp) hp fun _ => rfl,
      List.forall_mem_cons.2 ⟨resetReq_row (c := .portReset) (d := 3) key target (by simp) hp fun _ => rfl,
      List.forall_mem_cons.2 ⟨resetReq_row (c := .chipReset) (d := 4) key target (by simp) hp fun _ => rfl,
      List.forall_mem_nil _⟩⟩⟩⟩
  · have off := congrArg Host.Outcome.next (α := State) (β := Host.Outcome State Fault Refusal) (State.pcieReset_off hp)
    exact List.forall_mem_cons.2 ⟨off, List.forall_mem_cons.2 ⟨off, List.forall_mem_cons.2 ⟨off, List.forall_mem_nil _⟩⟩⟩
  · exact ⟨_, exec_registerWrite hp .., State.writeRegister_bar2Base hc value⟩
  · refine ⟨_, exec_registerWrite hp .., ?_⟩
    dsimp only
    rw [State.writeRegister_entry _ _ hn hc]
    exact State.writeRingEntry_base hb value
  · rw [exec_registerWrite hp, State.writeRegister_entry _ _ hn hc, State.writeRingEntry_bound hb]
  · rw [exec_bar2Read, if_pos (by simp [hr])]
    rfl
  · intro a hr hreach hbound haway hc
    have e := exec_bar2Read s off n
    rw [hr, State.bar2Get_clean hreach hbound haway hc] at e
    exact ⟨_, e, rfl, rfl, rfl, s.touch_bytes a n⟩
  · intro bs a hr hreach hbound haway hc hw
    rw [exec_bar2Write, if_pos hr, State.bar2Put_clean hreach hbound haway hc hw]
  · rw [exec_bar2Write, hr]
    rfl
  · refine ⟨_, rfl, ?_⟩
    have hs := State.settleRing_ring ho h
    exact ⟨congrArg Ring.state hs, congrArg Ring.boundCtx hs⟩
  · have e := exec_commandTake_error n s
    rw [if_pos (by simp [hrun, hb, hw])] at e
    have hr := State.ring_of_kept (s.count_kept cDmaReadErrors 0 1) n
    have hs := State.stopRing_ring (s := s.count cDmaReadErrors 0) (hr ▸ hb) 1
    exact ⟨_, e, congrArg Ring.state hs, congrArg Ring.stopCause hs⟩
  · rw [exec_stewardBeatTick, if_pos hrun]
    unfold State.pumpSessions
    rw [State.modHost_lodge, hs]
    rfl
  · rw [exec_stewardBeatTick, hrun]
    rfl

end Sys2Proof.Machine
end

section
/-! SUPPORT. What waiting packets of other modules, checkpoint streams and the ends of commands leave as it was when they are
looked at again (R194, R271, R403): the launches, the collective groups, and what a module knows of its neighbours. -/

namespace Sys2Proof.Machine

/-- The state of a port and what it knows of the module at its other end (R250, R268, R279). -/
structure Link where
  state : PortState
  device : Nat
  incarnation : Nat
  helloDone : Bool
  syncDone : Bool
  delay : Int
  offset : Int

def Port.link (x : Port) : Link :=
  { state := x.state, device := x.neighbourDevice, incarnation := x.neighbourIncarnation, helloDone := x.helloDone
    syncDone := x.syncDone, delay := x.lastDelay, offset := x.lastOffset }

/-- Launches, groups, and what a module knows of others: what neither the end of a command nor a packet that waited
changes. -/
structure Fleet where
  launches : Map Launch
  groups : Map CollGroup
  incarnations : Map Nat
  links : List Link
  portReset : Bool
  peerDrained : Word × Nat
  peerReady : Bool

def State.fleet (s : State) : Fleet :=
  { launches := s.launches, groups := s.coll.groups, incarnations := s.fabric.incarnations
    links := s.fabric.ports.map Port.link, portReset := s.host.resetBusy && s.host.resetDomain == 3
    peerDrained := s.twin.peerDrained, peerReady := s.twin.peerReady }

theorem State.fleet_of_kept {s u : State} (h : u.kept = s.kept) : u.fleet = s.fleet :=
  State.congr_kept (g := State.fleet) (fun _ => rfl) h

theorem State.fleet_of_unpaged {s u : State} (h : u.unpaged = s.unpaged) : u.fleet = s.fleet :=
  (congrArg State.fleet h :)

theorem State.fleet_of_unwritten {s u : State} (h : u.unwritten = s.unwritten) : u.fleet = s.fleet :=
  (congrArg State.fleet h :)

/-! ### Records and memory -/

@[simp] theorem State.count_fleet (s : State) (c : CtrId) (i n : Nat) : (s.count c i n).fleet = s.fleet :=
  State.fleet_of_kept (s.count_kept c i n)
@[simp] theorem State.countFree_fleet (s : State) (c : CtrId) (i : Nat) : (s.countFree c i).fleet = s.fleet :=
  State.fleet_of_kept (s.countFree_kept c i)
@[simp] theorem State.fault_fleet (s : State) (cause unit index domain ctx : Nat) (address : Word) (detail : Nat) :
    (s.fault cause unit index domain ctx address detail).fleet = s.fleet :=
  State.fleet_of_kept (s.fault_kept ..)
@[simp] theorem State.modMem_fleet (s : State) (f : Memory → Memory) : (s.modMem f).fleet = s.fleet := rfl
@[simp] theorem State.modFabric_fleet (s : State) (f : Fabric → Fabric) (hi : ∀ x, (f x).incarnations = x.incarnations)
    (hp : ∀ x, (f x).ports = x.ports) : (s.modFabric f).fleet = s.fleet := by
  unfold State.fleet
  rw [State.modFabric_fabric, hi, hp]
  rfl
@[simp] theorem State.modSr_fleet (s : State) (f : Strongroom → Strongroom) : (s.modSr f).fleet = s.fleet := rfl
/-- One element of a list that changes, but for what is looked at. -/
theorem map_modAt_keeps {α β : Type} (g : α → β) (l : List α) (i : Nat) (f : α → α) (hf : ∀ x, g (f x) = g x) :
    (modAt l i f).map g = l.map g := by
  refine List.ext_getElem? fun j => ?_
  unfold modAt
  rw [List.getElem?_map, List.getElem?_map, List.getElem?_modify]
  cases l[j]? with
  | none => rfl
  | some x =>
    change some (g (if i = j then f x else x)) = some (g x)
    split
    · exact congrArg some (hf x)
    · rfl

/-- A port that changes, but for its state and what it knows of its neighbour. -/
theorem State.modPort_fleet (s : State) (p : Nat) (f : Port → Port) (hf : ∀ x, (f x).link = x.link) :
    (s.modPort p f).fleet = s.fleet := by
  unfold State.fleet
  rw [show (s.modPort p f).fabric.ports.map Port.link = s.fabric.ports.map Port.link from map_modAt_keeps _ _ _ _ hf]
  rfl
@[simp] theorem State.modPage_fleet (s : State) (i : Nat) (f : Page → Page) : (s.modPage i f).fleet = s.fleet := rfl
@[simp] theorem State.cleanCellar_fleet (s : State) (l : Nat) : (s.cleanCellar l).fleet = s.fleet := rfl
@[simp] theorem State.cleanAttic_fleet (s : State) (l : Nat) : (s.cleanAttic l).fleet = s.fleet := rfl
@[simp] theorem State.touch_fleet (s : State) (a n : Nat) : (s.touch a n).fleet = s.fleet :=
  (congrArg State.fleet (s.touch_unplaced a n) :)
@[simp] theorem State.storeNow_fleet (s : State) (a : Nat) (bs : Bytes) : (s.storeNow a bs).fleet = s.fleet :=
  State.fleet_of_unwritten (s.storeNow_unwritten a bs)
@[simp] theorem State.store_fleet (s : State) (a : Nat) (bs : Bytes) : (s.store a bs).fleet = s.fleet :=
  State.fleet_of_unwritten (s.store_unwritten a bs)
@[simp] theorem State.atomicAt_fleet (s : State) (a op : Nat) (src cmp : Word) : (s.atomicAt a op src cmp).fleet = s.fleet := by
  unfold State.atomicAt
  split <;> simp
@[simp] theorem State.countLost_fleet (s : State) (a n : Nat) : (s.countLost a n).fleet = s.fleet := State.count_fleet ..
@[simp] theorem State.countSuppressed_fleet (s : State) (id : Word) (n : Nat) : (s.countSuppressed id n).fleet = s.fleet := by
  unfold State.countSuppressed
  simp
@[simp] theorem State.violation_fleet (s : State) (cause inst : Nat) : (s.violation cause inst).fleet = s.fleet :=
  State.count_fleet ..

/-! ### Packets that leave -/

@[simp] theorem State.enqueue_fleet (s : State) (p : Nat) (o : OutPacket) : (s.enqueue p o).fleet = s.fleet :=
  State.modPort_fleet _ _ _ fun _ => rfl
@[simp] theorem State.setFlow_fleet (s : State) (dst vc p : Nat) : (s.setFlow dst vc p).fleet = s.fleet := rfl
@[simp] theorem State.endStall_fleet (s : State) (p vc : Nat) : (s.endStall p vc).fleet = s.fleet := by
  unfold State.endStall
  split <;> simp

@[simp] theorem State.settleFlow_fleet (s : State) (dst vc : Nat) : (s.settleFlow dst vc).fleet = s.fleet := by
  unfold State.settleFlow
  split
  · rfl
  · split
    · rfl
    · split
      · rfl
      · extract_lets p mine moved s0 s1
        have stalled : s0.fleet = s.fleet := by
          unfold s0
          split
          · rfl
          · exact State.endStall_fleet ..
        refine (foldl_keeps State.fleet _ (fun v o => by exact State.modPort_fleet v _ _ fun _ => rfl) _ _).trans ?_
        refine Eq.trans (State.modPort_fleet _ p _ ?_) ?_
        · exact fun _ => rfl
        · rw [State.count_fleet, State.setFlow_fleet]
          exact stalled

theorem State.flowPort_fleet {s u : State} {dst vc p : Nat} (h : s.flowPort dst vc = some (p, u)) : u.fleet = s.fleet := by
  unfold State.flowPort at h
  dsimp only at h
  split at h
  · split at h
    · cases h
      simp
    · cases h
  · obtain ⟨n, -, hn⟩ := Option.map_eq_some_iff.1 h
    cases hn
    simp

theorem State.portFor_fleet {s u : State} {type dst vc p : Nat} (h : s.portFor type dst vc = some (p, u)) :
    u.fleet = s.fleet := by
  unfold State.portFor at h
  split at h
  · split at h
    · cases h
      rfl
    · cases h
  · exact State.flowPort_fleet h

@[simp] theorem State.helloFirst_fleet (s : State) (dst : Nat) : (s.helloFirst dst).fleet = s.fleet := by
  unfold State.helloFirst State.hello
  split
  · rfl
  · split
    · rfl
    · next hf => exact ((State.enqueue_fleet ..).trans (State.flowPort_fleet hf) :)

@[simp] theorem State.emit_fleet (s : State) (o : OutPacket) : (s.emit o).fleet = s.fleet := by
  unfold State.emit
  dsimp only
  split
  · simp
  · split
    · rfl
    · next hp => exact (State.enqueue_fleet ..).trans (State.portFor_fleet hp)

@[simp] theorem State.sendRequest_fleet (s : State) (tag : Nat) : (s.sendRequest tag).fleet = s.fleet := by
  unfold State.sendRequest
  split
  · rfl
  · dsimp only
    split
    · rfl
    · split
      · exact State.helloFirst_fleet ..
      · split
        · split <;> rfl
        · next hp =>
          split
          · exact (State.portFor_fleet hp :)
          · exact (State.enqueue_fleet ..).trans (State.portFor_fleet hp)

theorem State.request_fleet (s : State) (type dst ctx : Nat) (addr : Word) (len : Nat) (unit : ReqUnit) (operand : Word)
    (payload : Bytes) (operation : Nat) (select byTag : Bool) (thread : Option ThreadId) (owner : Option Nat)
    (span : Option (Nat × Nat)) :
    (s.request type dst ctx addr len unit operand payload operation select byTag thread owner span).2.fleet = s.fleet :=
  State.sendRequest_fleet ..

@[simp] theorem State.respond_fleet (s : State) (type : Nat) (k : Packet) (len : Nat) (operand : Word) (payload : Bytes)
    (status : Nat) : (s.respond type k len operand payload status).fleet = s.fleet := State.emit_fleet ..
@[simp] theorem State.collReply_fleet (s : State) (k : Packet) (sub operand : Nat) :
    (s.collReply k sub operand).fleet = s.fleet := State.emit_fleet ..
@[simp] theorem State.hold_fleet (s : State) (p type : Nat) (k : Packet) : (s.hold p type k).fleet = s.fleet := rfl
@[simp] theorem State.refuseRead_fleet (s : State) (type : Nat) (k : Packet) (c : Code) :
    (s.refuseRead type k c).fleet = s.fleet := State.respond_fleet ..

/-! ### Lines that are looked at (R235 to R244) -/

@[simp] theorem State.semAddNow_fleet (s : State) (array a n : Nat) : (s.semAddNow array a n).fleet = s.fleet := by
  unfold State.semAddNow
  dsimp only
  split
  · simp
  · split <;> simp

@[simp] theorem State.semAdd_fleet (s : State) (array a n : Nat) : (s.semAdd array a n).fleet = s.fleet := by
  unfold State.semAdd
  split <;> simp

@[simp] theorem State.applyDeferred_fleet (s : State) (l : Nat) : (s.applyDeferred l).fleet = s.fleet := by
  unfold State.applyDeferred
  refine foldl_keeps State.fleet _ (fun v w => ?_) _ _
  cases w <;> simp

@[simp] theorem State.releaseLine_fleet (s : State) (l : Nat) : (s.releaseLine l).fleet = s.fleet := by
  have wake : ∀ v : State, (v.wakeLine l).fleet = v.fleet := by
    intro v
    unfold State.wakeLine
    split <;> rfl
  unfold State.releaseLine
  rw [wake, State.applyDeferred_fleet]
  split <;> simp

@[simp] theorem State.loseLine_fleet (s : State) (l : Nat) : (s.loseLine l).fleet = s.fleet := by
  unfold State.loseLine
  dsimp only
  rw [State.releaseLine_fleet, State.fault_fleet, State.count_fleet]
  rfl

@[simp] theorem State.retireRow_fleet (s : State) (row : Nat) : (s.retireRow row).fleet = s.fleet := by
  unfold State.retireRow
  split
  · rfl
  · split
    · rfl
    · dsimp only
      split <;> simp

@[simp] theorem State.corrected_fleet (s : State) (cellar : Bool) (attic : Nat) : (s.corrected cellar attic).fleet = s.fleet := by
  unfold State.corrected
  split
  · simp
  · dsimp only
    split <;> simp

/-- A reset of a channel is none of a port, whether it goes on or has ended. -/
theorem State.modHost_fleet (s : State) (f : HostIf → HostIf) (hb : (s.host.resetBusy && s.host.resetDomain == 3) = false)
    (hf : ((f s.host).resetBusy && (f s.host).resetDomain == 3) = false) : (s.modHost f).fleet = s.fleet := by
  unfold State.fleet
  rw [State.modHost_host, hf, hb]
  rfl

@[simp] theorem State.retireChannel_fleet (s : State) (ch : Nat) : (s.retireChannel ch).fleet = s.fleet := by
  have room : ∀ v : State, ((v.makeRoom 3 1024 v.memory.pages.length).getD v).fleet = v.fleet := by
    intro v
    cases h : v.makeRoom 3 1024 v.memory.pages.length with
    | none => rfl
    | some u => exact State.fleet_of_unpaged (State.makeRoom_unpaged h)
  unfold State.retireChannel
  split
  · rfl
  · next busy =>
    have idle : (s.host.resetBusy && s.host.resetDomain == 3) = false := by
      rw [Bool.not_eq_true] at busy
      rw [busy, Bool.false_and]
    split
    · refine Eq.trans ?_ (State.modHost_fleet s (fun h =>
        { h with resetBusy := true, resetDomain := 2, resetTarget := ch, resetOrigin := 4 }) idle rfl)
      have domain : ((s.modHost fun h =>
          { h with resetBusy := true, resetDomain := 2, resetTarget := ch, resetOrigin := 4 }).host.resetDomain == 3) = false :=
        rfl
      generalize (s.modHost fun h =>
        { h with resetBusy := true, resetDomain := 2, resetTarget := ch, resetOrigin := 4 }) = v at domain ⊢
      unfold State.beginChannelReset
      split
      · have recorded : ((v.count cRelocationFull 0).fault 0x0004 4 ch 2).kept = v.kept :=
          (State.fault_kept ..).trans (State.count_kept ..)
        have host := State.congr_kept (g := State.host) (fun _ => rfl) recorded
        unfold State.endReset
        rw [State.fault_fleet, State.modHost_fleet _ _ (by rw [host, domain, Bool.and_false]) rfl]
        exact State.fleet_of_kept recorded
      · rw [State.modMem_fleet, room]
    · rfl

@[simp] theorem State.uncorrectable_fleet (s : State) (cellar : Bool) (l : Nat) : (s.uncorrectable cellar l).fleet = s.fleet := by
  unfold State.uncorrectable
  dsimp only
  split
  · simp
  · split <;> simp

@[simp] theorem State.settleLine_fleet (s : State) (l : Nat) : (s.settleLine l).fleet = s.fleet := by
  unfold State.settleLine
  refine foldl_keeps State.fleet _ (fun v b => ?_) _ _
  unfold State.settleWild
  split
  · rfl
  · dsimp only
    split <;> rfl

theorem State.repairGo_fleet (l fuel : Nat) (s : State) : (State.repairGo l fuel s).fleet = s.fleet := by
  induction fuel generalizing s with
  | zero => rfl
  | succ fuel ih =>
    unfold State.repairGo
    split
    · rfl
    · split
      · simp
      · dsimp only
        split
        · rw [ih, State.count_fleet, State.modMem_fleet]
          exact State.count_fleet ..
        · split
          · rfl
          · split
            · exact State.request_fleet ..
            · exact State.request_fleet ..

@[simp] theorem State.startRepair_fleet (s : State) (l : Nat) : (s.startRepair l).fleet = s.fleet :=
  State.repairGo_fleet ..

@[simp] theorem State.cellarRepair_fleet (s : State) (l : Nat) (dirty : Bool) : (s.cellarRepair l dirty).fleet = s.fleet := by
  unfold State.cellarRepair
  dsimp only
  split
  · simp
  · split <;> simp

@[simp] theorem State.checkRead_fleet (s : State) (a n : Nat) : (s.checkRead a n).fleet = s.fleet := by
  unfold State.checkRead
  refine foldl_keeps State.fleet _ (fun v l => ?_) _ _
  unfold State.checkLine
  split
  · rfl
  · split
    · split <;> simp
    · dsimp only
      split <;> simp

/-! ### Requests that wait -/

theorem State.beginReturn_fleet {s u : State} {cls i : Nat} (h : s.beginReturn cls i = some u) : u.fleet = s.fleet := by
  unfold State.beginReturn at h
  split at h
  · cases h
    rfl
  · split at h
    · cases h
      rfl
    · split at h
      · cases h
      · obtain ⟨v, hv, rfl⟩ := Option.map_eq_some_iff.1 h
        refine Eq.trans ?_ (State.fleet_of_unpaged (State.allocate_unpaged hv))
        dsimp only
        split <;> rfl

theorem State.whenHere_fleet (s : State) (p type : Nat) (k : Packet) (ct a n : Nat) {go : State → State}
    (hgo : ∀ v, (go v).fleet = v.fleet) : (s.whenHere p type k ct a n go).fleet = s.fleet := by
  unfold State.whenHere
  split
  · split
    · next h => exact (State.beginReturn_fleet h :)
    · rfl
  · have checked : (if type == tWriteReq then s else s.checkRead a n).fleet = s.fleet := by
      split <;> simp
    extract_lets s1
    refine Eq.trans ?_ checked
    change _ = s1.fleet
    split
    · exact hgo s1
    · exact State.countFree_fleet ..

@[simp] theorem State.readFor_fleet (s : State) (p : Nat) (k : Packet) (ct a : Nat) (version : Word) :
    (s.readFor p k ct a version).fleet = s.fleet := by
  unfold State.readFor
  dsimp only
  split
  · simp
  · refine State.whenHere_fleet _ _ _ _ _ _ _ fun v => ?_
    split <;> simp

@[simp] theorem State.serveRead_fleet (s : State) (p : Nat) (k : Packet) (ct : Nat) :
    (s.serveRead p k ct).fleet = s.fleet := by
  unfold State.serveRead
  dsimp only
  split
  · simp
  · simp
  · split
    · simp
    · split <;> simp

@[simp] theorem State.violates_fleet (s : State) (type : Nat) (k : Packet) (cause inst : Nat) :
    (s.violates type k cause inst).fleet = s.fleet := by
  unfold State.violates
  dsimp only
  split
  · simp
  · split
    · simp
    · split
      · simp
      · split <;> simp

theorem State.carryOut_fleet (s : State) (p type : Nat) (k : Packet) (ct : Nat) : (s.carryOut p type k ct).fleet = s.fleet := by
  unfold State.carryOut
  dsimp only
  split
  · simp
  · split
    · exact State.whenHere_fleet _ _ _ _ _ _ _ fun v => by simp
    · split
      · refine State.whenHere_fleet _ _ _ _ _ _ _ fun v => ?_
        split <;> simp
      · exact State.whenHere_fleet _ _ _ _ _ _ _ fun v => by simp

/-- The claims of first-writer-wins slots are not groups. -/
theorem State.modCe_claims_fleet (s : State) (f : Collectives → Collectives) (h : (f s.coll).groups = s.coll.groups) :
    (s.modCe f).fleet = s.fleet := by
  rw [State.fleet, State.modCe_coll, h]
  rfl

theorem State.claimSlot_fleet (s : State) (ct a logical dev c : Nat) : (s.claimSlot ct a logical dev c).2.2.2.fleet = s.fleet := by
  unfold State.claimSlot
  dsimp only
  split
  · simp
  · refine (State.modCe_claims_fleet _ _ rfl).trans ?_
    simp

@[simp] theorem State.releaseSlot_fleet (s : State) (a : Nat) : (s.releaseSlot a).fleet = s.fleet :=
  (State.modCe_claims_fleet _ _ rfl).trans (State.store_fleet ..)

@[simp] theorem State.unitPost_fleet (s : State) (c array : Nat) (a : Word) (n : Nat) : (s.unitPost c array a n).fleet = s.fleet := by
  unfold State.unitPost
  split
  · split
    · simp
    · split <;> simp
  · split
    · exact State.count_fleet ..
    · exact State.request_fleet ..

theorem State.fillSlot_fleet (s : State) (ct addr number : Nat) (bs : Bytes) : (s.fillSlot ct addr number bs).2.fleet = s.fleet := by
  unfold State.fillSlot
  split
  · simp
  · split
    · simp
    · dsimp only
      split
      · simp
      · split
        · simp
        · split
          · exact (State.modCe_claims_fleet _ _ rfl).trans (State.store_fleet ..)
          · rw [State.count_fleet]
            split
            · exact (State.modCe_claims_fleet _ _ rfl).trans (by simp)
            · rw [State.unitPost_fleet]
              exact (State.modCe_claims_fleet _ _ rfl).trans (by simp)

theorem State.serveFww_fleet (s : State) (p : Nat) (k : Packet) : (s.serveFww p k).fleet = s.fleet := by
  unfold State.serveFww
  extract_lets h a data n
  split
  · simp
  · split
    · simp
    · refine State.whenHere_fleet _ _ _ _ _ _ _ fun v => ?_
      split
      · exact (State.collReply_fleet ..).trans (State.claimSlot_fleet ..)
      · exact (State.collReply_fleet ..).trans (State.fillSlot_fleet ..)

/-- Requests that waited change neither launches nor groups when they are looked at again. -/
theorem State.versionsReady_fleet (s : State) : s.versionsReady.fleet = s.fleet := by
  have serve : ∀ (v : State) (p type : Nat) (k : Packet), (v.serve p type k).fleet = v.fleet := by
    intro v p type k
    unfold State.serve
    split
    · exact State.serveFww_fleet ..
    · split
      · simp
      · exact State.carryOut_fleet ..
  unfold State.versionsReady State.serveWaiting
  split
  · rfl
  · exact (foldl_keeps State.fleet _ (fun v r => serve ..) _ _).trans rfl

/-- Nor does the end of a command. -/
theorem State.finishCmd_fleet (s : State) (h : Nat) (r : Reply) : (s.finishCmd h r).fleet = s.fleet :=
  (congrArg State.fleet (HeadsKept.finishCmd s h r).rest :)

end Sys2Proof.Machine
end

section
/-! CLAIMS. The commands of models, launches, the fabric, checkpoints, security and operators (O60). -/

namespace Sys2Proof.Machine

/-- A group as a tenant has defined it, of one member. -/
def oneMember : CollGroup := { epoch := 1, members := [(0, 1)], runs := 1, own := 0 }

/-- A state in which the list of groups holds two entries of one key, and ring 1 holds a command. -/
def twiceDefined : State :=
  { State.reset with
    stewardRunning := true
    ctxs := [(1, { state := .active, generation := 1 })]
    host := { State.reset.host with
      rings := [(1, { state := .bound, boundCtx := 1, cmdLog2 := 4, replyLog2 := 4, cmdTail := 1 })] }
    coll := { State.reset.coll with groups := [(groupKey 1 1, oneMember), (groupKey 1 1, oneMember)] } }

/-- The header of the `GROUP_DEFINE` of ring 1, and the parameters that delete group 1. -/
def deleteHeader : CmdHeader := { ring := 1, ctxId := 1, ringId := 1, paramLength := 16 }
def deleteParams : Bytes := [1, 0, 0, 0, 0, 0, 1, 0]

theorem twiceDefined_runs : Runs twiceDefined 0x0502 deleteHeader deleteParams :=
  ⟨⟨by decide +kernel, by decide +kernel⟩, by decide +kernel, by decide +kernel, by decide +kernel, by decide +kernel,
    by decide +kernel, by decide +kernel, rfl⟩

/-- Once the rules of the command have run, the first entry of the key is gone, and the second stands. -/
theorem twiceDefined_leaves :
    let b := twiceDefined.begun 0x0502 deleteHeader deleteParams
    let q := padTo deleteHeader.paramLength.toNat deleteParams
    Map.get? (b.2.2.cmdGroupDefine b.2.1 q).2.coll.groups (groupKey b.2.1.ctx (field q 0 2)) = some oneMember := by
  decide +kernel

theorem answered_fleet (g : Nat) (a : Answer) : (answered g a).fleet = a.2.fleet := by
  obtain ⟨_ | r, u⟩ := a
  · exact State.versionsReady_fleet u
  · exact (State.versionsReady_fleet _).trans (State.finishCmd_fleet u g r)

/-- The groups that a command leaves are those that its rules leave, however it is answered. -/
theorem groups_of_answered {g h : Nat} {a : Answer} {u : State} {r : Reply}
    (e : answered g a = (u.finishCmd h r).versionsReady) : u.coll.groups = a.2.coll.groups := by
  have fleet := congrArg State.fleet e
  rw [answered_fleet, State.versionsReady_fleet, State.finishCmd_fleet] at fleet
  exact (congrArg Fleet.groups fleet).symm

theorem groupDefine_mem_hostRows : ((.groupDefine, 0x0502, fun v _ k q => v.cmdGroupDefine k q) :
    (CmdHeader → Bytes → Instr) × Nat × (State → Nat → OutCmd → Bytes → Answer)) ∈ hostRows := by
  simp [hostRows]

/-- Refutes O60: a `GROUP_DEFINE` that deletes takes out one entry of its key (`Map.erase`), and where the list of groups
holds two, the group still stands. -/
theorem not_fleetSecurityAndOperatorCommandsAct : ¬ Obligations.FleetSecurityAndOperatorCommandsAct := by
  unfold Obligations.FleetSecurityAndOperatorCommandsAct
  intro h
  obtain ⟨-, -, -, -, -, -, -, -, -, -, -, -, -, delete, -⟩ := h
  obtain ⟨r, u, -, e, gone⟩ := delete twiceDefined deleteHeader deleteParams twiceDefined_runs (by decide +kernel)
  have runs : exec (.groupDefine deleteHeader deleteParams) twiceDefined =
      .next (answered (twiceDefined.begun 0x0502 deleteHeader deleteParams).1
        ((twiceDefined.begun 0x0502 deleteHeader deleteParams).2.2.cmdGroupDefine
          (twiceDefined.begun 0x0502 deleteHeader deleteParams).2.1
          (padTo deleteHeader.paramLength.toNat deleteParams))) := exec_runs groupDefine_mem_hostRows twiceDefined_runs
  rw [groups_of_answered (Host.Outcome.next.inj (runs.symm.trans e)), twiceDefined_leaves] at gone
  exact Option.some_ne_none _ gone

end Sys2Proof.Machine
end

section
/-! CLAIMS. Launches and contexts (O44). -/

namespace Sys2Proof.Machine

/-- A state in which the list of launches holds two entries of one number, both admitted and with no thread left. -/
def twiceLaunched : State :=
  { State.reset with
    launches := [(1, { ctx := 1, gen := 1, handle := 0, admitted := true }),
      (1, { ctx := 1, gen := 1, handle := 0, admitted := true })] }

/-- Once the launch has completed, the first entry is gone, and the second stands. -/
theorem twiceLaunched_leaves : (Map.get? (twiceLaunched.completeLaunch 1).launches 1).isSome = true := by
  decide +kernel

/-- Refutes O44: the end of a launch takes out one entry of its number (`Map.erase`), and where the list of launches holds
two, the launch still stands. -/
theorem not_launchesAndContextsMove : ¬ Obligations.LaunchesAndContextsMove := by
  unfold Obligations.LaunchesAndContextsMove
  intro h
  obtain ⟨-, -, -, ends, -⟩ := h twiceLaunched 1 1
  obtain ⟨v, r, e, gone, -⟩ := ends _ rfl rfl (by decide +kernel)
  have run : exec (.launchComplete 1) twiceLaunched = .next (twiceLaunched.completeLaunch 1).versionsReady := rfl
  have fleet := congrArg State.fleet (Host.Outcome.next.inj (run.symm.trans e))
  rw [State.versionsReady_fleet, State.versionsReady_fleet, State.finishCmd_fleet] at fleet
  have launches : (twiceLaunched.completeLaunch 1).launches = v.launches := congrArg Fleet.launches fleet
  have stands := twiceLaunched_leaves
  rw [launches, gone] at stands
  exact Bool.false_ne_true stands

end Sys2Proof.Machine
end

section
/-! CLAIMS. Ports (R250, R265, R268, R283). -/

namespace Sys2Proof.Machine

/-! ### Reading a port after a change -/

theorem State.modPort_port {s : State} {p : Nat} (hp : p < s.fabric.ports.length) (f : Port → Port) :
    (s.modPort p f).port p = f (s.port p) := by
  unfold State.port State.modPort modAt
  rw [State.modFabric_fabric]
  simp [List.getD_eq_getElem?_getD, hp]

theorem State.modPort_length (s : State) (p : Nat) (f : Port → Port) :
    (s.modPort p f).fabric.ports.length = s.fabric.ports.length := List.length_modify ..

theorem State.port_of_ports {s u : State} (h : u.fabric.ports = s.fabric.ports) (p : Nat) : u.port p = s.port p :=
  congrArg (fun l : List Port => l.getD p {}) h

theorem State.ports_of_kept {s u : State} (h : u.kept = s.kept) : u.fabric.ports = s.fabric.ports :=
  State.congr_kept (g := fun v : State => v.fabric.ports) (fun _ => rfl) h

theorem State.now_of_kept {s u : State} (h : u.kept = s.kept) : u.now = s.now :=
  State.congr_kept (g := State.now) (fun _ => rfl) h

@[simp] theorem State.count_ports (s : State) (c : CtrId) (i n : Nat) : (s.count c i n).fabric.ports = s.fabric.ports :=
  State.ports_of_kept (s.count_kept c i n)

@[simp] theorem State.fault_ports (s : State) (cause unit index domain ctx : Nat) (address : Word) (detail : Nat) :
    (s.fault cause unit index domain ctx address detail).fabric.ports = s.fabric.ports :=
  State.ports_of_kept (s.fault_kept ..)

@[simp] theorem State.raise_ports (s : State) (cls level : Nat) (e : CatEntry) (detail : Nat) :
    (s.raise cls level e detail).fabric.ports = s.fabric.ports := State.ports_of_kept (s.raise_kept ..)

@[simp] theorem State.startTimer_ports (s : State) (tag : Nat) : (s.startTimer tag).fabric.ports = s.fabric.ports := rfl

@[simp] theorem State.startCutTimers_ports (s : State) : s.startCutTimers.fabric.ports = s.fabric.ports := by
  unfold State.startCutTimers
  dsimp only
  rw [State.modFabric_fabric]
  exact foldl_keeps (fun v : State => v.fabric.ports) _ (fun v e => State.startTimer_ports ..) _ _

@[simp] theorem State.portFault_ports (s : State) (p : Nat) (command : Bool) :
    (s.portFault p command).fabric.ports = s.fabric.ports := by
  have caps : s.capsChanged.fabric.ports = s.fabric.ports := by
    unfold State.capsChanged
    split <;> rfl
  unfold State.portFault
  dsimp only
  split
  · rw [State.raise_ports, caps]
  · rw [State.fault_ports, State.raise_ports, caps]

/-- The stalls of a port's channels are counted, and nothing else changes. -/
theorem State.endStalls_kept (s : State) (p : Nat) (vs : List Nat) :
    (vs.foldl (fun (s : State) v => s.endStall p v) s).kept = s.kept := by
  refine foldl_keeps State.kept _ (fun v i => ?_) _ _
  unfold State.endStall
  split
  · exact State.countFree_kept ..
  · rfl

/-- A port whose snapshots are dropped keeps everything but its queue. -/
theorem State.dropSnapshots_port {s : State} {p : Nat} (hp : p < s.fabric.ports.length) :
    ∃ q, (s.dropSnapshots p).port p = { s.port p with queue := q } := by
  unfold State.dropSnapshots
  split
  · exact ⟨_, rfl⟩
  · next h =>
    obtain rfl : p = 0 := not_not.1 h
    exact ⟨_, State.modPort_port hp _⟩

theorem State.dropSnapshots_length (s : State) (p : Nat) : (s.dropSnapshots p).fabric.ports.length = s.fabric.ports.length := by
  unfold State.dropSnapshots
  split
  · rfl
  · exact State.modPort_length ..

theorem State.setPort_port {s : State} {p : Nat} (hp : p < s.fabric.ports.length) (st : PortState) :
    (s.setPort p st).port p = { s.port p with state := st, lastChange := s.now } := State.modPort_port hp _

theorem State.setPort_length (s : State) (p : Nat) (st : PortState) :
    (s.setPort p st).fabric.ports.length = s.fabric.ports.length := State.modPort_length ..

/-- A port that has left `ACTIVE` (R250). -/
def Port.left (x : Port) (st : PortState) (now : Nat) (planned : Bool) : Port :=
  { x with state := st, lastChange := now, leftActive := now, oldWidth := x.width, oldRate := x.rate, planned := planned
           keyed := false, helloDone := false, syncDone := false, localNonce := [], replayTimes := [], authTimes := [] }

/-- A port leaves `ACTIVE` for another state (R250). -/
theorem State.leaveActive_port {s : State} {p : Nat} (hp : p < s.fabric.ports.length) (st : PortState)
    (planned command : Bool) :
    (∃ q, (s.leaveActive p st planned command).port p = { (s.port p).left st s.now planned with queue := q }) ∧
      (s.leaveActive p st planned command).fabric.ports.length = s.fabric.ports.length := by
  have stalls := s.endStalls_kept p (List.range 8)
  unfold State.leaveActive
  generalize (List.range 8).foldl (fun (s : State) v => s.endStall p v) s = s0 at stalls ⊢
  have hports := State.ports_of_kept stalls
  have hnow := State.now_of_kept stalls
  have hp0 : p < s0.fabric.ports.length := hports ▸ hp
  extract_lets s1 s2 s3 s4
  have h1 : s1.port p = (s.port p).left st s.now planned := by
    unfold s1
    rw [State.modPort_port ((State.setPort_length s0 p st).symm ▸ hp0), State.setPort_port hp0, State.port_of_ports hports,
      hnow]
    rfl
  have l1 : s1.fabric.ports.length = s.fabric.ports.length := by
    unfold s1
    rw [State.modPort_length, State.setPort_length, hports]
  have h2 : s2.fabric.ports = s1.fabric.ports := State.count_ports ..
  have h3 : (∃ q, s3.port p = { s2.port p with queue := q }) ∧ s3.fabric.ports.length = s2.fabric.ports.length := by
    unfold s3
    split
    · exact ⟨⟨_, rfl⟩, rfl⟩
    · exact ⟨State.dropSnapshots_port (by rw [h2, l1]; exact hp), State.dropSnapshots_length ..⟩
  have h4 : s4.startCutTimers.fabric.ports = s3.fabric.ports := by
    rw [State.startCutTimers_ports]
    unfold s4
    split
    · rfl
    · exact State.portFault_ports ..
  obtain ⟨⟨q, hq⟩, l3⟩ := h3
  refine ⟨⟨q, ?_⟩, by rw [h4, l3, h2, l1]⟩
  rw [State.port_of_ports h4, hq, State.port_of_ports h2, h1]

/-- A port that fails keeps no state of its link, and the cause is recorded (R250, R283). -/
theorem State.portFail_port {s : State} {p : Nat} (hp : p < s.fabric.ports.length) (cause : Nat) :
    ((s.portFail p cause).port p).state = .failed ∧ ((s.portFail p cause).port p).failCause = cause := by
  unfold State.portFail
  extract_lets s1 s2 s3
  have h1 : (s1.port p).state = .failed ∧ s1.fabric.ports.length = s.fabric.ports.length := by
    unfold s1
    split
    · obtain ⟨⟨q, hq⟩, hl⟩ := State.leaveActive_port hp .failed false false
      exact ⟨by rw [hq]; rfl, hl⟩
    · exact ⟨by rw [State.setPort_port hp], State.setPort_length ..⟩
  obtain ⟨q, hq⟩ := State.dropSnapshots_port
    (s := s1.modPort p fun x => { x.unlink with failCause := cause, planned := false })
    (by rw [State.modPort_length, h1.2]; exact hp)
  rw [State.modPort_port (h1.2 ▸ hp)] at hq
  have h3 : (s3.fault 0x0011 5 p).fabric.ports = s2.fabric.ports := by
    rw [State.fault_ports]
    unfold s3
    split
    · exact State.raise_ports ..
    · rfl
  rw [State.port_of_ports h3, State.port_of_ports (State.startCutTimers_ports _), hq]
  exact ⟨h1.1, rfl⟩

/-- A port falls back to `TRAINING` with no state of its link; a reset that is under way goes on (R250). -/
theorem State.fallToTraining_port {s : State} {p : Nat} (hp : p < s.fabric.ports.length) :
    ((s.fallToTraining p).port p).state = .training ∧ ((s.fallToTraining p).port p).replay = [] ∧
      (s.fallToTraining p).host = s.host := by
  have faults : ∀ v : State, (v.portFault p false).host = v.host := by
    intro v
    have caps : v.capsChanged.host = v.host := by
      unfold State.capsChanged
      split <;> rfl
    have records : (v.portFault p false).kept = v.capsChanged.kept := by
      unfold State.portFault
      dsimp only
      rw [if_neg Bool.false_ne_true, State.fault_kept, State.raise_kept]
    have hh : (v.portFault p false).host = v.capsChanged.host :=
      State.congr_kept (g := State.host) (fun _ => rfl) records
    rw [hh, caps]
  have timers : ∀ v : State, v.startCutTimers.host = v.host := by
    intro v
    unfold State.startCutTimers
    dsimp only
    rw [State.modFabric_host]
    refine foldl_keeps State.host _ (fun v e => ?_) _ _
    exact State.modFabric_host ..
  have drops : ∀ v : State, (v.dropSnapshots p).host = v.host := by
    intro v
    unfold State.dropSnapshots
    split <;> rfl
  unfold State.fallToTraining
  extract_lets x s1
  have hl1 : (s.setPort p .training).fabric.ports.length = s.fabric.ports.length := State.setPort_length ..
  have hl2 : ((s.setPort p .training).modPort p fun y => { y.unlink with planned := false }).fabric.ports.length =
      s.fabric.ports.length := (State.modPort_length ..).trans hl1
  have hu := State.modPort_port (hl1.symm ▸ hp) fun y => { y.unlink with planned := false }
  have hst : ((s.setPort p .training).port p).state = .training := by rw [State.setPort_port hp]
  obtain ⟨q, hq⟩ := State.dropSnapshots_port (hl2.symm ▸ hp)
  have h1 : s1.host = s.host := drops _
  have h2 : (if x.planned then s1.portFault p false else s1).fabric.ports = s1.fabric.ports ∧
      (if x.planned then s1.portFault p false else s1).host = s.host := by
    split
    · exact ⟨State.portFault_ports .., (faults s1).trans h1⟩
    · exact ⟨rfl, h1⟩
  rw [State.port_of_ports ((State.startCutTimers_ports _).trans h2.1)]
  have hs1 : s1.port p = _ := hq
  rw [hs1, hu]
  exact ⟨hst, rfl, (timers _).trans h2.2⟩

/-- A port that starts keying has drawn a nonce and sent it with its device and incarnation. That these two follow the
nonce is the model's choice (notes/assumptions/2.md; R265). -/
theorem State.startKeying_port {s : State} {p : Nat} (hp : p < s.fabric.ports.length) :
    ∃ n : Bytes, (s.startKeying p).port p = { s.port p with
      localNonce := n, keyed := false, helloDone := false, syncDone := false
      nonceSent := n ++ le 2 s.lodge.deviceId ++ le 2 s.lodge.incarnation, confirmSent := none } :=
  ⟨_, State.modPort_port (s := (s.random 32).2) hp _⟩

/-! ### The port's triggers, one by one -/

theorem exec_signalDetected (p lanes : Nat) (s : State) : exec (.signalDetected p lanes) s =
    .next (if (s.port p).state == .down && 4 ≤ lanes then s.setPort p .training else s) := rfl

theorem exec_signalLost (p : Nat) (s : State) : exec (.signalLost p) s =
    .next (if (s.port p).state == .training then s.setPort p .down else s) := rfl

theorem exec_trainingTimeout (p : Nat) (s : State) : exec (.trainingTimeout p) s =
    .next (if (s.port p).state == .training && (s.port p).lastChange + 50000000 ≤ s.now then
      (s.setPort p .down).modPort p fun x => { x with failCause := 4 } else s) := rfl

theorem exec_lossOfLock (p : Nat) (s : State) : exec (.lossOfLock p) s =
    .next (if (s.port p).state == .active then s.leaveActive p .retraining false false else s) := rfl

theorem exec_replayLimit (p : Nat) (s : State) : exec (.replayLimit p) s =
    .next (if (s.port p).state == .active && 64 ≤ ((s.port p).replayTimes.filter fun t => s.now < t + 1000000).length then
      s.leaveActive p .retraining false false else s) := rfl

theorem exec_retrainTimeout (p : Nat) (s : State) : exec (.retrainTimeout p) s =
    .next (if (s.port p).state == .retraining && (s.port p).lastChange + 500000 ≤ s.now then
      (s.fallToTraining p).portResetOver p else s) := rfl

theorem exec_authFailureLimit (p : Nat) (s : State) : exec (.authFailureLimit p) s =
    .next (if (s.port p).state == .active && 8 ≤ ((s.port p).authTimes.filter fun t => s.now < t + 1000000).length then
      s.portFail p 3 else s) := rfl

/-- A port once it has locked on lanes at a neighbour's rate (R250, R251). -/
def State.locked (s : State) (p rate w m : Nat) : State := s.modPort p fun x =>
  { x with width := w, laneMask := BitVec.ofNat 16 m, rate := s.trainingRate p rate }

theorem exec_flitLock {s : State} {p w m : Nat} {lanes : BitVec 16}
    (hl : lockedLanes lanes.toNat (s.port p).minWidth = some (w, m)) (rate : Nat) : exec (.flitLock p lanes rate) s =
      .next (if (s.port p).state == .training then ((s.locked p rate w m).setPort p .keying).startKeying p
        else if (s.port p).state == .retraining then (s.locked p rate w m).startKeying p else s) := by
  have e : exec (.flitLock p lanes rate) s = execFlitLock p lanes rate s := rfl
  rw [e, execFlitLock, hl]
  rfl

theorem exec_flitLock_none {s : State} {p : Nat} {lanes : BitVec 16}
    (hl : lockedLanes lanes.toNat (s.port p).minWidth = none) (rate : Nat) : exec (.flitLock p lanes rate) s = .next s := by
  have e : exec (.flitLock p lanes rate) s = execFlitLock p lanes rate s := rfl
  rw [e, execFlitLock, hl]

/-- A port that locks starts keying, from `TRAINING` in `KEYING` and from `RETRAINING` as it is (R250, R265). -/
theorem flitLock_starts {s : State} {p rate w m : Nat} {lanes : BitVec 16} (hp : p < s.fabric.ports.length)
    (hl : lockedLanes lanes.toNat (s.port p).minWidth = some (w, m))
    (hst : (s.port p).state = .training ∨ (s.port p).state = .retraining) :
    Completes (.flitLock p lanes rate) s fun u =>
      (u.port p).state = (if (s.port p).state = .training then .keying else .retraining) ∧ (u.port p).width = w ∧
        (u.port p).laneMask = BitVec.ofNat 16 m ∧ (u.port p).keyed = false ∧
        (u.port p).nonceSent = (u.port p).localNonce ++ le 2 s.lodge.deviceId ++ le 2 s.lodge.incarnation ∧
        (u.port p).rate = min (min s.permittedRate (if (s.port p).maxRate = 0 then 128 else (s.port p).maxRate)) rate := by
  have e := exec_flitLock hl rate
  have hlp : (s.locked p rate w m).port p = { s.port p with
      width := w, laneMask := BitVec.ofNat 16 m, rate := s.trainingRate p rate } := State.modPort_port hp _
  have hpl : p < (s.locked p rate w m).fabric.ports.length := by
    unfold State.locked
    rw [State.modPort_length]
    exact hp
  rcases hst with ht | hr
  · rw [if_pos (by simp [ht])] at e
    obtain ⟨n, hn⟩ := State.startKeying_port (s := (s.locked p rate w m).setPort p .keying)
      ((State.setPort_length (s.locked p rate w m) p .keying).symm ▸ hpl)
    rw [State.setPort_port hpl, hlp] at hn
    refine ⟨_, e, ?_⟩
    dsimp only
    rw [hn, if_pos ht]
    exact ⟨rfl, rfl, rfl, rfl, rfl, rfl⟩
  · rw [if_neg (by simp [hr]), if_pos (by simp [hr])] at e
    obtain ⟨n, hn⟩ := State.startKeying_port hpl
    rw [hlp] at hn
    refine ⟨_, e, ?_⟩
    dsimp only
    rw [hn, if_neg (by simp [hr])]
    exact ⟨hr, rfl, rfl, rfl, rfl, rfl⟩

/-- Settles O47: each trigger moves the port as R250 lists, through the changes that the lemmas above describe. -/
theorem portsMoveBetweenTheirStates : Obligations.PortsMoveBetweenTheirStates := by
  intro s p rate lanes hp x inMs
  have retrains : ∃ q, (s.leaveActive p .retraining false false).port p =
      { (s.port p).left .retraining s.now false with queue := q } := (State.leaveActive_port hp _ _ _).1
  obtain ⟨q, hq⟩ := retrains
  refine ⟨fun n hd hn => ?_, fun ht => ?_, fun ht hl => ?_, fun ht hl => ?_, fun w m hl hst => flitLock_starts hp hl hst,
    fun hl => exec_flitLock_none hl rate, fun ha => ?_, fun ha hn => ?_, fun hn => ?_, fun hr hl hb => ?_, fun hr hl => ?_,
    fun ha hn => ?_, fun hn => ?_⟩
  · refine ⟨_, (exec_signalDetected p n s).trans (congrArg _ (if_pos (by
      simp only [Bool.and_eq_true, beq_iff_eq, decide_eq_true_eq]; exact ⟨hd, hn⟩))), ?_⟩
    dsimp only
    rw [State.setPort_port hp]
    exact ⟨rfl, rfl⟩
  · refine ⟨_, (exec_signalLost p s).trans (congrArg _ (if_pos (by simpa [x] using ht))), ?_⟩
    dsimp only
    rw [State.setPort_port hp]
    exact ⟨rfl, rfl⟩
  · refine ⟨_, (exec_trainingTimeout p s).trans (congrArg _ (if_pos (by
      simp only [Bool.and_eq_true, beq_iff_eq, decide_eq_true_eq]; exact ⟨ht, hl⟩))), ?_⟩
    dsimp only
    rw [State.modPort_port (by rw [State.setPort_length]; exact hp), State.setPort_port hp]
    exact ⟨rfl, rfl⟩
  · rw [exec_trainingTimeout, if_neg (by
      simp only [Bool.and_eq_true, decide_eq_true_eq, not_and, Nat.not_le]; exact fun _ => hl)]
  · refine ⟨_, (exec_lossOfLock p s).trans (congrArg _ (if_pos (by simpa [x] using ha))), ?_⟩
    dsimp only
    rw [hq]
    exact ⟨rfl, rfl, rfl⟩
  · refine ⟨_, (exec_replayLimit p s).trans (congrArg _ (if_pos (by
      simp only [Bool.and_eq_true, beq_iff_eq, decide_eq_true_eq]; exact ⟨ha, hn⟩))), ?_⟩
    dsimp only
    rw [hq]
    exact ⟨rfl, rfl, rfl⟩
  · rw [exec_replayLimit, if_neg (by
      simp only [Bool.and_eq_true, decide_eq_true_eq, not_and, Nat.not_le]; exact fun _ => hn)]
  · have h := State.fallToTraining_port hp
    have e := exec_retrainTimeout p s
    rw [if_pos (by simp only [Bool.and_eq_true, beq_iff_eq, decide_eq_true_eq]; exact ⟨hr, hl⟩)] at e
    have still : (s.fallToTraining p).portResetOver p = s.fallToTraining p := by
      unfold State.portResetOver
      rw [h.2.2, hb]
      rfl
    rw [still] at e
    exact ⟨_, e, h.1, h.2.1⟩
  · rw [exec_retrainTimeout, if_neg (by
      simp only [Bool.and_eq_true, decide_eq_true_eq, not_and, Nat.not_le]; exact fun _ => hl)]
  · exact ⟨_, (exec_authFailureLimit p s).trans (congrArg _ (if_pos (by
      simp only [Bool.and_eq_true, beq_iff_eq, decide_eq_true_eq]; exact ⟨ha, hn⟩))),
      State.portFail_port hp 3⟩
  · rw [exec_authFailureLimit, if_neg (by
      simp only [Bool.and_eq_true, decide_eq_true_eq, not_and, Nat.not_le]; exact fun _ => hn)]

/-! ### Keys (R265, R268) -/

/-- A confirmation is looked at by a port that has drawn its nonce and holds no keys yet. -/
theorem exec_keyConfirmation {s : State} {p : Nat} (hk : (s.port p).state = .keying) (hn : (s.port p).localNonce ≠ [])
    (hkeyed : (s.port p).keyed = false) (hr : s.strongroom.state = .ready) (nonce : Bytes) (dev inc np : Nat)
    (tag : BitVec 128) :
    let own := s.lodge.deviceId
    let nonces := orderNonces own dev (s.port p).localNonce nonce
    let rx := s.directionKeys nonces dev inc dev
    let tx := s.directionKeys nonces dev inc own
    let s1 := s.modPort p fun x =>
      { x with keyed := true, neighbourDevice := dev, neighbourIncarnation := inc, neighbourPort := np, txFrames := 0
               rxFrames := 0, txKey := tx.1, txSalt := tx.2, rxKey := rx.1, rxSalt := rx.2
               confirmSent := some (confirmTag tx.1 tx.2 nonces) }
    exec (.keyConfirmation p nonce dev inc np tag) s = .next (
      if own = 0xFFFF || dev = 0xFFFF then s.keyingFails p 2
      else if dev = own then s.keyingFails p 5
      else if confirmTag rx.1 rx.2 nonces ≠ tag then
        ((s.modPort p fun x => { x with confirmSent := some (confirmTag tx.1 tx.2 nonces) }).count cKeyConfirmFails
          p).keyingFails p 1
      else s1.enqueue p { type := tHello, packet := s1.packet tHello dev 0 (globalAddr dev 0) 0 0 }) := by
  have e : exec (.keyConfirmation p nonce dev inc np tag) s = execKeyConfirmation p nonce dev inc np tag s := rfl
  intro own nonces rx tx s1
  rw [e]
  unfold execKeyConfirmation
  dsimp only
  rw [if_neg (by simp [hk, hn, hkeyed, hr])]

theorem State.keyingFails_port {s : State} {p : Nat} (hp : p < s.fabric.ports.length) (hk : (s.port p).state = .keying)
    (cause : Nat) : ((s.keyingFails p cause).port p).state = .failed ∧ ((s.keyingFails p cause).port p).failCause = cause := by
  unfold State.keyingFails
  rw [if_pos (by simp [hk])]
  exact State.portFail_port hp cause

/-- Settles O49: the causes of a mismatch in the order of the confirmation's checks, and the keys of one that fits. -/
theorem keysAreConfirmedOrFail : Obligations.KeysAreConfirmedOrFail := by
  intro s p dev inc np nonce tag hp x own nonces rx tx hk hn hkeyed hr
  have e := exec_keyConfirmation hk hn hkeyed hr nonce dev inc np tag
  refine ⟨fun h => ?_, fun ho hd => ?_, fun ho hd hdo ht => ?_, fun ho hd hdo ht => ?_⟩
  · dsimp only at e
    rw [if_pos (by simpa [own] using h)] at e
    exact ⟨_, e, State.keyingFails_port hp hk 2⟩
  · dsimp only at e
    rw [if_neg (by simp [own] at ho hd; simp [ho, hd]), if_pos hd] at e
    exact ⟨_, e, State.keyingFails_port hp hk 5⟩
  · dsimp only at e
    rw [if_neg (by simp [own] at ho hd; simp [ho, hd]), if_neg hdo, if_pos ht] at e
    have hx : (s.modPort p fun x => { x with confirmSent := some (confirmTag tx.1 tx.2 nonces) }).port p =
      { x with confirmSent := some (confirmTag tx.1 tx.2 nonces) } := State.modPort_port hp _
    refine ⟨_, e, State.keyingFails_port ?_ ?_ 1⟩
    · rw [State.count_ports, State.modPort_length]
      exact hp
    · rw [State.port_of_ports (State.count_ports ..), hx]
      exact hk
  · dsimp only at e
    rw [if_neg (by simp [own] at ho hd; simp [ho, hd]), if_neg hdo, if_neg (not_not.2 ht)] at e
    refine ⟨_, e, ?_⟩
    dsimp only
    rw [State.enqueue, State.modPort_port (by rw [State.modPort_length]; exact hp), State.modPort_port hp]
    exact ⟨hk, rfl, rfl, rfl, rfl, rfl, rfl, rfl, rfl, rfl, _, rfl, rfl, rfl⟩

end Sys2Proof.Machine
end

section
/-! CLAIMS. Power, heat and leaks (R458, R459, R475, R476, R478). -/

namespace Sys2Proof.Machine

/-! ### What an entry of the catalogue leaves -/

/-- An entry of the catalogue takes the next accession number, and no fault's number (R367, R378). -/
theorem State.catalogue_numbers (s : State) (e : CatEntry) :
    (s.catalogue e).lodge.nextAccession = s.lodge.nextAccession + 1 ∧
      (s.catalogue e).lodge.nextFault = s.lodge.nextFault := by
  have opened : (s.openValues e).2.lodge = s.lodge := by
    unfold State.openValues
    split <;> rfl
  unfold State.catalogue
  generalize s.openValues e = o at opened ⊢
  obtain ⟨e0, v⟩ := o
  dsimp -zeta only at opened ⊢
  extract_lets e' kept s1
  have h1 : s1.lodge.nextAccession = s.lodge.nextAccession + 1 ∧ s1.lodge.nextFault = s.lodge.nextFault :=
    ⟨(congrArg (fun l : Lodge => l.nextAccession + 1) opened :), (congrArg Lodge.nextFault opened :)⟩
  split
  · exact h1
  · exact h1

theorem State.raise_numbers (s : State) (cls level : Nat) (e : CatEntry) (detail : Nat) :
    (s.raise cls level e detail).lodge.nextAccession = s.lodge.nextAccession + 1 ∧
      (s.raise cls level e detail).lodge.nextFault = s.lodge.nextFault :=
  State.catalogue_numbers ..

/-- An attention that is raised is pending (R342). -/
theorem State.raise_pending (s : State) (cls level : Nat) (e : CatEntry) (detail : Nat) :
    (Map.get? (s.raise cls level e detail).attnPending cls).isSome = true := by
  unfold State.raise State.mark
  dsimp only
  rw [Map.get?_put]
  simp

theorem State.mark_pending_of (s : State) (cls level acc detail : Nat) {c : Nat}
    (h : (Map.get? s.attnPending c).isSome = true) :
    (Map.get? (s.mark cls level acc detail).attnPending c).isSome = true := by
  unfold State.mark
  dsimp only
  rw [Map.get?_put]
  split
  · rfl
  · exact h

/-- An entry of the catalogue leaves an attention that is pending (R342). -/
theorem State.catalogue_pending_of (s : State) (e : CatEntry) {c : Nat} (h : (Map.get? s.attnPending c).isSome = true) :
    (Map.get? (s.catalogue e).attnPending c).isSome = true := by
  have opened : (s.openValues e).2.attnPending = s.attnPending := by
    unfold State.openValues
    split <;> rfl
  unfold State.catalogue
  generalize s.openValues e = o at opened ⊢
  obtain ⟨e0, v⟩ := o
  dsimp -zeta only at opened ⊢
  rw [← opened] at h
  extract_lets e' kept s1
  split
  · exact State.mark_pending_of _ _ _ _ _ h
  · exact h

/-- Raising another attention leaves one that is pending (R342). -/
theorem State.raise_pending_of (s : State) (cls level : Nat) (e : CatEntry) (detail : Nat) {c : Nat}
    (h : (Map.get? s.attnPending c).isSome = true) :
    (Map.get? (s.raise cls level e detail).attnPending c).isSome = true :=
  State.mark_pending_of _ _ _ _ _ (State.catalogue_pending_of s _ h)

/-- A fault is recorded under its number (R367). -/
theorem State.fault_nextFault (s : State) (cause unit index domain ctx : Nat) (address : Word) (detail : Nat) :
    (s.fault cause unit index domain ctx address detail).lodge.nextFault = s.lodge.nextFault + 1 := by
  unfold State.fault
  extract_lets s1 g r s2
  have h1 : s1.lodge.nextFault = s.lodge.nextFault := (State.raise_numbers ..).2
  have h2 : s2.lodge.nextFault = s.lodge.nextFault + 1 := congrArg (· + 1) h1
  split
  · exact h2
  · exact h2

theorem State.fault_pending_of (s : State) (cause unit index domain ctx : Nat) (address : Word) (detail : Nat) {c : Nat}
    (h : (Map.get? s.attnPending c).isSome = true) :
    (Map.get? (s.fault cause unit index domain ctx address detail).attnPending c).isSome = true := by
  have h1 := s.raise_pending_of 1 2 (unitEntry unit 16 s.lodge.nextFault ctx) detail h
  unfold State.fault
  dsimp only
  split <;> exact h1

/-- Power that is withheld is reported (R458). -/
theorem State.withhold_pending (s : State) : (Map.get? s.withhold.attnPending 3).isSome = true := State.raise_pending ..

theorem State.withhold_kept (s : State) : s.withhold.kept = (s.modLodge fun l => { l with withheld := true }).kept :=
  State.raise_kept ..

/-- A field of the Lodge that no record changes. -/
theorem State.lodge_of_kept {β : Type} (g : Lodge → β) {s u : State} (h : u.kept = s.kept)
    (hg : ∀ v : State, g v.kept.lodge = g v.lodge := by intro _; rfl) : g u.lodge = g s.lodge :=
  State.congr_kept (g := fun v : State => g v.lodge) hg h

/-! ### The events of power, heat and leaks, one by one -/

theorem exec_inputMonitorSample (dv ma : Nat) (s : State) : exec (.inputMonitorSample dv ma) s =
    execInputMonitorSample dv ma s := rfl

/-- The state once a sample of the input has entered the sums (R458, R476). -/
def State.sampled (s : State) (dv ma : Nat) : State := (s.modLodge fun l =>
  { l with inputMv := 100 * dv, inputSamples := l.inputSamples ++ [dv * ma], periodSum := l.periodSum + dv * ma
           periodCount := l.periodCount + 1 }).trace 5 0 0 (le 2 dv ++ le 4 ma)

theorem State.sampled_kept (s : State) (dv ma : Nat) : (s.sampled dv ma).kept = (s.modLodge fun l =>
    { l with inputMv := 100 * dv, inputSamples := l.inputSamples ++ [dv * ma], periodSum := l.periodSum + dv * ma
             periodCount := l.periodCount + 1 }).kept := State.trace_kept ..

theorem State.sampled_inputSamples (s : State) (dv ma : Nat) :
    (s.sampled dv ma).lodge.inputSamples = s.lodge.inputSamples ++ [dv * ma] :=
  (State.lodge_of_kept Lodge.inputSamples (s.sampled_kept dv ma) :)

/-- A sample below the tenth of a millisecond enters the averages and nothing else (R458). -/
theorem inputMonitorSample_adds {s : State} (hp : s.lodge.phase ≠ .off) (hl : s.lodge.inputSamples.length < 9)
    (dv ma : Nat) : exec (.inputMonitorSample dv ma) s = .next (s.sampled dv ma) := by
  rw [exec_inputMonitorSample]
  unfold execInputMonitorSample
  rw [if_neg (by simpa using hp)]
  refine congrArg Host.Outcome.next (if_pos ?_)
  show (s.sampled dv ma).lodge.inputSamples.length < 10
  rw [State.sampled_inputSamples, List.length_append, List.length_singleton]
  omega

/-- The tenth sample looks at the average (R458, R476). -/
theorem inputMonitorSample_regulates {s : State} (hp : s.lodge.phase ≠ .off) (hs : s.lodge.phase ≠ .shutdown)
    (hl : 9 ≤ s.lodge.inputSamples.length) (dv ma : Nat) :
    exec (.inputMonitorSample dv ma) s =
      .next ((s.sampled dv ma).regulate.modLodge fun l => { l with inputSamples := [] }) := by
  rw [exec_inputMonitorSample]
  unfold execInputMonitorSample
  rw [if_neg (by simpa using hp)]
  have phase : (s.sampled dv ma).lodge.phase = s.lodge.phase := (State.lodge_of_kept Lodge.phase (s.sampled_kept dv ma) :)
  refine congrArg Host.Outcome.next ((if_neg ?_).trans ?_)
  · show ¬ (s.sampled dv ma).lodge.inputSamples.length < 10
    rw [State.sampled_inputSamples, List.length_append, List.length_singleton]
    omega
  · show State.modLodge (if (s.sampled dv ma).lodge.phase == .shutdown then s.sampled dv ma
        else (s.sampled dv ma).regulate) _ = _
    rw [phase, if_neg (by simpa using hs)]

/-- An average above the cap withholds, and reports it where it had not (R458). -/
theorem State.regulate_over {s : State} (h : 10 * (s.lodge.powerCap * 10000) < s.lodge.inputSamples.sum) :
    s.regulate.lodge.withholding = true ∧
      (s.lodge.withholding = false → (Map.get? s.regulate.attnPending 3).isSome = true) := by
  unfold State.regulate
  dsimp only
  rw [if_pos (by simpa using h)]
  cases hw : s.lodge.withholding
  · exact ⟨State.lodge_of_kept Lodge.withholding (State.withhold_kept _), fun _ => State.withhold_pending _⟩
  · exact ⟨hw, nofun⟩

theorem exec_thermalThrottle (centi : Int) (s : State) : exec (.thermalThrottle centi) s =
    .next (if s.chipOn && 9500 ≤ centi && !s.lodge.throttling then
      (s.modLodge fun l => { l with throttling := true }).withhold.fault 0x0050 10 0 else s) := rfl

theorem exec_thermalCountdown (centi : Int) (s : State) : exec (.thermalCountdown centi) s =
    .next (if s.chipOn && 10000 ≤ centi && s.lodge.countdown.isNone then
      (s.modLodge fun l => { l with countdown := some s.now }).raise 3 3 (lodgeEntry 17 0) else s) := rfl

theorem exec_thermalShutdown (centi : Int) (s : State) : exec (.thermalShutdown centi) s =
    .next (if s.chipOn && 10000 ≤ centi && (s.lodge.countdown.any fun t => t + 5000000000 ≤ s.now) then s.shutDown
      else s) := rfl

theorem exec_inputUndervoltage (s : State) : exec .inputUndervoltage s =
    .next (if s.lodge.phase == .off then s else s.powerOff) := rfl

theorem exec_inputOvervoltage (s : State) : exec .inputOvervoltage s =
    .next (if s.lodge.phase == .off then s else s.powerOff) := rfl

/-- Settles O55: each event by the state that it leaves. -/
theorem powerHeatAndLeaksProtect : Obligations.PowerHeatAndLeaksProtect := by
  intro s dv ma centi
  refine ⟨fun hp => ?_, fun hp => ?_, ?_, fun hp hd => ?_, fun hp hl => ?_, fun hp hs hl hover => ?_,
    fun hc ht hn => ?_, fun hc ht hn => ?_, fun t hc ht hn hnow => ?_, fun h => ?_, fun h => ⟨?_, ?_⟩, rfl,
    fun hp => ?_, fun hp => ?_⟩
  · have off : (if s.lodge.phase == .off then s else s.powerOff) = s.powerOff := if_neg (by simpa using hp)
    have under := exec_inputUndervoltage s
    have above := exec_inputOvervoltage s
    rw [off] at under above
    exact List.forall_mem_cons.2 ⟨⟨_, under, rfl, rfl, rfl, rfl, rfl, rfl, rfl⟩,
      List.forall_mem_cons.2 ⟨⟨_, above, rfl, rfl, rfl, rfl, rfl, rfl, rfl⟩, List.forall_mem_nil _⟩⟩
  · have off : (if s.lodge.phase == .off then s else s.powerOff) = s := if_pos (by simp [hp])
    have under := exec_inputUndervoltage s
    have above := exec_inputOvervoltage s
    rw [off] at under above
    exact List.forall_mem_cons.2 ⟨under, List.forall_mem_cons.2 ⟨above, List.forall_mem_nil _⟩⟩
  · refine ⟨_, rfl, ?_, rfl⟩
    rw [State.modLodge_lodge]
    split
    · next h => simpa using h
    · rfl
  · rw [exec_inputMonitorSample]
    unfold execInputMonitorSample
    rw [if_pos (by simp [hp]), if_pos hd]
    rfl
  · have hk := s.sampled_kept dv ma
    exact ⟨_, inputMonitorSample_adds hp hl dv ma, (State.lodge_of_kept Lodge.inputMv hk :),
      (State.lodge_of_kept Lodge.inputSamples hk :), (State.lodge_of_kept Lodge.periodSum hk :),
      (State.lodge_of_kept Lodge.periodCount hk :), (State.lodge_of_kept Lodge.withholding hk :)⟩
  · have hk := s.sampled_kept dv ma
    have cap : (s.sampled dv ma).lodge.powerCap = s.lodge.powerCap := (State.lodge_of_kept Lodge.powerCap hk :)
    have was : (s.sampled dv ma).lodge.withholding = s.lodge.withholding := (State.lodge_of_kept Lodge.withholding hk :)
    obtain ⟨hw, ha⟩ := State.regulate_over (s := s.sampled dv ma)
      (by rw [cap, State.sampled_inputSamples]; simpa using hover)
    exact ⟨_, inputMonitorSample_regulates hp hs hl dv ma, rfl, hw, fun h => ha (was.trans h)⟩
  · have e := exec_thermalThrottle centi s
    rw [if_pos (by simp [hc, ht, hn])] at e
    have hk := (State.fault_kept (s.modLodge fun l => { l with throttling := true }).withhold 0x0050 10 0 0 0 0 0).trans
      (State.withhold_kept _)
    refine ⟨_, e, State.lodge_of_kept Lodge.throttling hk, ?_, State.fault_pending_of _ _ _ _ _ _ _ _ (State.withhold_pending _)⟩
    exact (State.fault_nextFault ..).trans (congrArg (· + 1) (State.raise_numbers ..).2)
  · have e := exec_thermalCountdown centi s
    rw [if_pos (by simp [hc, ht, hn])] at e
    exact ⟨_, e, State.lodge_of_kept Lodge.countdown (State.raise_kept ..), State.raise_pending ..⟩
  · have e := exec_thermalShutdown centi s
    rw [hn, Option.any_some, hc, decide_eq_true ht, decide_eq_true hnow] at e
    exact ⟨_, e, rfl, rfl, rfl, rfl⟩
  · rw [exec_thermalThrottle, if_neg]
    rcases h with h | h
    · simp [h]
    · simp [Int.not_le.2 h]
  · rw [exec_thermalCountdown, if_neg]
    rcases h with h | h
    · simp [h]
    · simp [Int.not_le.2 h]
  · rw [exec_thermalShutdown, if_neg]
    rcases h with h | h
    · simp [h]
    · simp [Int.not_le.2 h]
  · have e : exec .leakDetected s = execLeakDetected s := rfl
    unfold execLeakDetected at e
    rw [if_neg (by simpa using hp)] at e
    refine ⟨_, e, State.lodge_of_kept Lodge.leak (State.raise_kept ..), ?_, State.raise_pending ..⟩
    refine (State.lodge_of_kept Lodge.phase (State.raise_kept ..)).trans ?_
    rw [State.modLodge_lodge]
    split
    · next h => simpa using h
    · rfl
  · have e : exec .leakDetected s = execLeakDetected s := rfl
    rw [e]
    unfold execLeakDetected
    rw [if_pos (by simp [hp])]

end Sys2Proof.Machine
end

section
/-! CLAIMS. Bring-up (R11, R250, R415, R444, R451, R461 to R463). -/

namespace Sys2Proof.Machine

/-! ### What a step of bring-up leaves -/

/-- What of a state a step of bring-up reports: the phase, the service level, the rates and the FP64 path. -/
def State.levels (s : State) : Phase × Nat × Nat × Nat × Bool :=
  (s.lodge.phase, s.serviceLevel, s.laneRate, s.permittedRate, s.fp64Serving)

/-- The levels are as they were, and an attention that was pending is. -/
structure Steady (s u : State) : Prop where
  levels : u.levels = s.levels
  pending : ∀ c, (Map.get? s.attnPending c).isSome = true → (Map.get? u.attnPending c).isSome = true

theorem Steady.of_eq {s u : State} (hl : u.levels = s.levels) (ha : u.attnPending = s.attnPending) : Steady s u :=
  ⟨hl, fun c h => by rw [ha]; exact h⟩

theorem Steady.refl (s : State) : Steady s s := .of_eq rfl rfl

theorem Steady.trans {r s u : State} (h : Steady r s) (k : Steady s u) : Steady r u :=
  ⟨k.levels.trans h.levels, fun c hc => k.pending c (h.pending c hc)⟩

theorem State.levels_of_kept {s u : State} (h : u.kept = s.kept) : u.levels = s.levels :=
  State.congr_kept (g := State.levels) (fun _ => rfl) h

theorem Steady.raise (s : State) (cls level : Nat) (e : CatEntry) (detail : Nat) :
    Steady s (s.raise cls level e detail) :=
  ⟨State.levels_of_kept (State.raise_kept ..), fun _ h => State.raise_pending_of _ _ _ _ _ h⟩

theorem Steady.count (s : State) (c : CtrId) (i n : Nat) : Steady s (s.count c i n) := by
  refine ⟨State.levels_of_kept (State.count_kept ..), fun j h => ?_⟩
  unfold State.count
  split
  · exact h
  · dsimp only
    split
    · exact h
    · split
      · exact h
      · exact State.raise_pending_of _ _ _ _ _ h

theorem Steady.countFree (s : State) (c : CtrId) (i : Nat) : Steady s (s.countFree c i) :=
  (Steady.of_eq (s := s) (u := (s.free 1).2) rfl rfl).trans (Steady.count ..)

theorem Steady.fault (s : State) (cause unit index domain ctx : Nat) (address : Word) (detail : Nat) :
    Steady s (s.fault cause unit index domain ctx address detail) :=
  ⟨State.levels_of_kept (State.fault_kept ..), fun _ h => State.fault_pending_of _ _ _ _ _ _ _ _ h⟩

theorem Steady.foldl {α : Type} {f : State → α → State} (h : ∀ s a, Steady s (f s a)) (l : List α) (s : State) :
    Steady s (l.foldl f s) := by
  induction l generalizing s with
  | nil => exact .refl s
  | cons a l ih => exact (h s a).trans (ih _)

theorem Steady.modFabric (s : State) (f : Fabric → Fabric) : Steady s (s.modFabric f) := .of_eq rfl rfl
theorem Steady.modPort (s : State) (p : Nat) (f : Port → Port) : Steady s (s.modPort p f) := .of_eq rfl rfl
theorem Steady.modArray (s : State) (a : Nat) (f : ArrayState → ArrayState) : Steady s (s.modArray a f) := .of_eq rfl rfl

/-! ### Packets that leave -/

theorem Steady.endStall (s : State) (p vc : Nat) : Steady s (s.endStall p vc) := by
  unfold State.endStall
  split
  · exact .countFree ..
  · exact .refl s

theorem Steady.settleFlow (s : State) (dst vc : Nat) : Steady s (s.settleFlow dst vc) := by
  unfold State.settleFlow
  split
  · exact .refl s
  · split
    · exact .refl s
    · split
      · exact .refl s
      · extract_lets p mine moved s0 s1
        have h0 : Steady s s0 := by
          unfold s0
          split
          · exact .refl s
          · exact .endStall ..
        have h1 : Steady s s1 := (h0.trans (.modFabric ..)).trans ((Steady.count ..).trans (.modPort ..))
        exact h1.trans (.foldl (fun _ _ => .modPort ..) _ _)

theorem Steady.flowPort {s u : State} {dst vc p : Nat} (h : s.flowPort dst vc = some (p, u)) : Steady s u := by
  have hs := Steady.settleFlow s dst vc
  unfold State.flowPort at h
  dsimp only at h
  split at h
  · split at h
    · cases h
      exact hs
    · cases h
  · obtain ⟨n, -, hn⟩ := Option.map_eq_some_iff.1 h
    cases hn
    exact hs.trans (.modFabric ..)

theorem Steady.portFor {s u : State} {type dst vc p : Nat} (h : s.portFor type dst vc = some (p, u)) : Steady s u := by
  unfold State.portFor at h
  split at h
  · split at h
    · cases h
      exact .refl s
    · cases h
  · exact .flowPort h

theorem Steady.helloFirst (s : State) (dst : Nat) : Steady s (s.helloFirst dst) := by
  unfold State.helloFirst State.hello
  split
  · exact .refl s
  · split
    · exact .refl s
    · next hf => exact (Steady.flowPort hf).trans ((Steady.modPort ..).trans (.modFabric ..))

theorem Steady.emit (s : State) (o : OutPacket) : Steady s (s.emit o) := by
  unfold State.emit
  dsimp only
  split
  · exact (Steady.helloFirst ..).trans (.modFabric ..)
  · split
    · exact .modFabric ..
    · next hp => exact (Steady.portFor hp).trans (.modPort ..)

theorem Steady.dirSync (s : State) (gone : Word) : Steady s (s.dirSync gone) := by
  unfold State.dirSync
  split
  · exact .refl s
  · exact .emit ..

theorem Steady.wakeStalled (s : State) : Steady s s.wakeStalled := by
  unfold State.wakeStalled
  split
  · exact .refl s
  · refine .foldl (fun s e => ?_) _ _
    exact (Steady.of_eq (s := s) (u := s.wake (keyThread e.1)) rfl rfl).trans (.countFree ..)

/-! ### Units that are checked -/

theorem Steady.checkArray (s : State) (failed : List Nat) (a : Nat) : Steady s (s.checkArray failed a) := by
  unfold State.checkArray
  split
  · exact .refl s
  · split
    · exact (Steady.modArray ..).trans (.fault ..)
    · exact .modArray ..

theorem Steady.recordStacks (s : State) (failed : List Nat) : Steady s (s.recordStacks failed) :=
  .foldl (fun _ _ => .fault ..) _ _

/-- A port that leaves `ACTIVE` as planned changes no level (R250). -/
theorem Steady.leaveActive_planned (s : State) (p : Nat) : Steady s (s.leaveActive p .retraining true false) := by
  have timers : ∀ v : State, Steady v v.startCutTimers := fun v => by
    unfold State.startCutTimers
    dsimp only
    have fold := Steady.foldl (f := fun (s : State) (e : Nat × Request) => s.startTimer e.1) fun w e => .of_eq rfl rfl
    exact (fold _ v).trans (.modFabric ..)
  unfold State.leaveActive
  extract_lets s1 s2 s3 s4
  have h1 : Steady s s1 := by
    have stalls := Steady.foldl (fun s v => Steady.endStall s p v) (List.range 8) s
    exact stalls.trans ((Steady.modPort ..).trans (.modPort ..))
  have h2 : Steady s1 s2 := .count ..
  have h3 : s3 = s2 := if_pos rfl
  have h4 : s4 = s3 := if_pos rfl
  rw [h4, h3]
  exact (h1.trans h2).trans (timers s2)

/-! ### Power-good (R451, R461, R476) -/

/-- What a power-good leaves of the Lodge where the sensor is dry. -/
theorem powerGood_effect {s : State} (hp : s.lodge.phase = .off) (hs : s.lodge.inputShort = false)
    (hl : s.lodge.leak = false) : Completes .powerGood s fun u =>
      u.lodge.resetKept = (if s.lodge.inputLost then nextIncarnation s.lodge.incarnation else s.lodge.incarnation, .keys,
        (s.lodge.timeSaved + 1000000000) * 65536) := by
  have dry : s.sensorDry = (true, s) := by
    unfold State.sensorDry
    rw [hl]
    rfl
  have package : s.repairPackage.lodge = s.lodge := by
    unfold State.repairPackage
    refine foldl_keeps State.lodge _ (fun v row => ?_) _ _
    dsimp only
    split <;> rfl
  have awake : s.wakeUp.lodge = { s.lodge with phase := .keys, time16 := (s.lodge.timeSaved + 1000000000) * 65536 } := by
    unfold State.wakeUp
    rw [State.modLodge_lodge, package]
  have e : exec .powerGood s = execPowerGood s := rfl
  unfold execPowerGood at e
  rw [if_neg (by simp [hp, hs]), dry] at e
  refine ⟨_, e, ?_⟩
  dsimp only
  rw [if_pos rfl]
  cases hi : s.lodge.inputLost
  · rw [if_pos (by rw [awake]; simp [hi]), if_neg Bool.false_ne_true, awake]
    rfl
  · rw [if_neg (by rw [awake]; simp [hi]), if_pos rfl]
    have hk : ∀ v : State, ((v.resetTxns v.commitNext).catalogue (lodgeEntry 17 0)).lodge.resetKept = v.lodge.resetKept :=
      fun v => congrArg Prod.fst ((State.catalogue_resetKept ..).trans (State.resetTxns_resetKept v v.commitNext))
    rw [hk, State.modLodge_lodge, awake]
    rfl

/-! ### The firmware starts (R444, R462) -/

theorem State.modPort_port_other {p q : Nat} (h : p ≠ q) (s : State) (f : Port → Port) : (s.modPort q f).port p = s.port p := by
  unfold State.port State.modPort modAt
  rw [State.modFabric_fabric]
  simp [List.getD_eq_getElem?_getD, Ne.symm h]

/-- A port that the Steward enables. -/
def State.enabled (s : State) (p : Nat) : State :=
  (if (s.port p).state == .disabled then s.setPort p .down else s).modPort p fun x => { x with leftActive := s.now }

theorem State.enabled_length (s : State) (p : Nat) : (s.enabled p).fabric.ports.length = s.fabric.ports.length := by
  unfold State.enabled
  rw [State.modPort_length]
  split
  · exact State.setPort_length ..
  · rfl

/-- A port that is `DISABLED` is `DOWN` once it has been enabled, and one that is `DOWN` stays so (R250). -/
theorem State.enabled_state {s : State} {p q : Nat} (hp : p < s.fabric.ports.length)
    (h : (s.port p).state = .down ∨ ((s.port p).state = .disabled ∧ q = p)) : ((s.enabled q).port p).state = .down := by
  have first : ((if (s.port q).state == .disabled then s.setPort q .down else s).port p).state = .down := by
    rcases h with h | ⟨h, rfl⟩
    · by_cases hq : q = p
      · subst hq
        rw [h, if_neg (by decide), h]
      · split
        · rw [State.setPort, State.modPort_port_other (Ne.symm hq), h]
        · exact h
    · rw [if_pos (by simp [h]), State.setPort_port hp]
  have hl : (if (s.port q).state == .disabled then s.setPort q .down else s).fabric.ports.length = s.fabric.ports.length := by
    split
    · exact State.setPort_length ..
    · rfl
  unfold State.enabled
  by_cases hq : q = p
  · subst hq
    rw [State.modPort_port (hl.symm ▸ hp)]
    exact first
  · rw [State.modPort_port_other (Ne.symm hq)]
    exact first

/-- Every port in a list that was `DISABLED` is `DOWN` once the list's ports have been enabled. -/
theorem State.enableAll_state {p : Nat} (ps : List Nat) {s : State} (hp : p < s.fabric.ports.length)
    (h : (s.port p).state = .down ∨ ((s.port p).state = .disabled ∧ p ∈ ps)) :
    ((ps.foldl State.enabled s).port p).state = .down := by
  induction ps generalizing s with
  | nil => simpa using h
  | cons q ps ih =>
    have hl : p < (s.enabled q).fabric.ports.length := by
      rw [State.enabled_length]
      exact hp
    rw [List.foldl_cons]
    rcases h with h | ⟨h, hm⟩
    · exact ih hl (.inl (State.enabled_state hp (.inl h)))
    · rcases List.mem_cons.1 hm with rfl | hm
      · exact ih hl (.inl (State.enabled_state hp (.inr ⟨h, rfl⟩)))
      · by_cases hq : q = p
        · exact ih hl (.inl (State.enabled_state hp (.inr ⟨h, hq⟩)))
        · refine ih hl (.inr ⟨?_, hm⟩)
          unfold State.enabled
          rw [State.modPort_port_other (Ne.symm hq)]
          split
          · rw [State.setPort, State.modPort_port_other (Ne.symm hq), h]
          · exact h

/-- What no record changes, nor the list of transactions, is as it was once a transaction has moved. -/
theorem State.moveTxn_keeps {β : Type} (g : State → β) (hk : ∀ v : State, g v.kept = g v)
    (ht : ∀ (v : State) (f : List Txn → List Txn), g (v.modLodge fun l => { l with txns := f l.txns }) = g v)
    (s : State) (e : CatEntry) (t : Txn) (st : TxnState) (failed : Nat) : g (s.moveTxn e t st failed) = g s := by
  unfold State.moveTxn
  extract_lets s1 t1 s2
  refine (State.congr_kept hk ((State.count_kept ..).trans (State.count_kept ..))).trans ?_
  exact (ht s1 fun ts => keepTxns 4096 (t1 :: ts.filter fun x => x.id != t.id)).trans
    (State.congr_kept hk (State.catalogue_kept ..))

/-- What a start of the Steward leaves as it was. -/
def State.startKept (s : State) : Fabric × Variant × Bool × Nat :=
  (s.fabric, s.variant, s.stewardRunning, s.lodge.activeSlot)

/-- The stored settings touch no port, nor what a start reports. -/
theorem State.applyStored_startKept (s : State) : s.applyStored.startKept = s.startKept := by
  unfold State.applyStored
  split
  · rfl
  · extract_lets id src s1 s2
    have h1 : s1.startKept = s.startKept := State.congr_kept (fun _ => rfl) (State.catalogue_kept ..)
    have h2 : s2.startKept = s1.startKept := State.moveTxn_keeps State.startKept (fun _ => rfl) (fun _ _ => rfl) ..
    clear_value s2
    exact (h2.trans h1 :)

/-- The Steward starts: the module is in the phase that checks its units, and every port that was `DISABLED` is `DOWN`
(R250, R462). -/
theorem State.startSteward_effect (s : State) :
    s.startSteward.lodge.phase = .checking ∧ s.startSteward.stewardRunning = true ∧
      s.startSteward.lodge.activeSlot = s.lodge.activeSlot ∧
      ∀ p, p < s.variant.ports → p < s.fabric.ports.length → (s.port p).state = .disabled →
        (s.startSteward.port p).state = .down := by
  unfold State.startSteward
  extract_lets s1 s2
  have h2 : s2.startKept = (s.fabric, s.variant, true, s.lodge.activeSlot) := by
    unfold s2
    split <;> rfl
  have h3 := (State.applyStored_startKept s2).trans h2
  generalize s2.applyStored = v at h3
  simp only [State.startKept, Prod.mk.injEq] at h3
  obtain ⟨hf, hv, hr, hs⟩ := h3
  have ports : v.enablePorts = (List.range v.variant.ports).foldl State.enabled v := rfl
  have rest : v.enablePorts.stewardRunning = v.stewardRunning ∧ v.enablePorts.lodge = v.lodge := by
    have fold := foldl_keeps (fun w : State => (w.stewardRunning, w.lodge)) State.enabled (fun w q => by
      unfold State.enabled
      split <;> rfl) (List.range v.variant.ports) v
    exact Prod.mk.inj fold
  refine ⟨rfl, rest.1.trans hr, (congrArg Lodge.activeSlot rest.2 :).trans hs, fun p hp hl hd => ?_⟩
  show (v.enablePorts.port p).state = .down
  rw [ports]
  refine State.enableAll_state _ (by rw [hf]; exact hl) (.inr ⟨?_, List.mem_range.2 (by rw [hv]; exact hp)⟩)
  unfold State.port
  rw [hf]
  exact hd

/-! ### The steps of bring-up, one by one -/

theorem exec_firmwareVerified {s : State} (hp : s.lodge.phase = .firmware) (hb : s.host.resetBusy = false)
    (slot0 slot1 : Bool) :
    let ok := fun (i : Nat) => if i = 0 then slot0 else slot1
    exec (.firmwareVerified slot0 slot1) s = .next (
      if ok s.lodge.activeSlot then s.startSteward
      else if ok (1 - s.lodge.activeSlot) then
        ((s.modLodge fun l => { l with activeSlot := 1 - s.lodge.activeSlot }).startSteward).raise 7 3
          { lodgeEntry 8 (1 - s.lodge.activeSlot) with pinned := true }
      else s.recover) := by
  intro ok
  have e : exec (.firmwareVerified slot0 slot1) s = execFirmwareVerified slot0 slot1 s := rfl
  rw [e]
  unfold execFirmwareVerified
  dsimp only
  rw [if_neg (by simp [hp, hb])]

/-- The host's interface and the Strongroom, which the check of a unit leaves as they were. -/
def State.bootKept (s : State) : HostIf × Strongroom := (s.host, s.strongroom)

theorem State.fault_bootKept (s : State) (cause unit index : Nat) : (s.fault cause unit index).bootKept = s.bootKept :=
  State.congr_kept (g := State.bootKept) (fun _ => rfl) (State.fault_kept ..)

theorem State.checkArray_bootKept (s : State) (failed : List Nat) (a : Nat) :
    (s.checkArray failed a).bootKept = s.bootKept := by
  unfold State.checkArray
  split
  · rfl
  · split
    · exact State.fault_bootKept ..
    · rfl

theorem State.modMem_bootKept (s : State) (f : Memory → Memory) : (s.modMem f).bootKept = s.bootKept := rfl

theorem State.recordStacks_bootKept (s : State) (failed : List Nat) : (s.recordStacks failed).bootKept = s.bootKept := by
  unfold State.recordStacks
  exact foldl_keeps State.bootKept _ (fun _ _ => State.fault_bootKept ..) _ _

/-- Foyer service (R462). -/
theorem foyerService_effect {s : State} (hp : s.lodge.phase = .checking) (hb : s.host.resetBusy = false)
    (failedArrays failedStacks : List Nat) : Completes (.foyerService failedArrays failedStacks) s fun u =>
      u.lodge.phase = .foyer ∧ u.deviceReady = true ∧ u.memory.selfRefresh = [] ∧
        u.serviceLevel = (if s.strongroom.state = .failed then 0 else 1) := by
  have e : exec (.foyerService failedArrays failedStacks) s = execFoyerService failedArrays failedStacks s := rfl
  unfold execFoyerService at e
  rw [if_neg (by simp [hp])] at e
  extract_lets s1 good s2 s3 level s4 at e
  have h1 : s1.bootKept = s.bootKept := foldl_keeps State.bootKept _ (fun _ _ => State.checkArray_bootKept ..) _ _
  have h2 : s2.bootKept = s1.bootKept := by
    unfold s2
    split
    · rfl
    · rw [State.modMem_bootKept, State.recordStacks_bootKept]
  have hk := h2.trans h1
  clear_value s2
  simp only [State.bootKept, Prod.mk.injEq] at hk
  have h4 : s4.host = s.host := hk.1
  have hr : s3.strongroom = s.strongroom := hk.2
  rw [h4, hb] at e
  refine ⟨s4, e, rfl, rfl, rfl, ?_⟩
  show (if s3.strongroom.state == .failed then 0 else 1) = _
  rw [hr]
  simp

/-- Full service where no port has to retrain (R11, R462). -/
theorem State.enterFull_effect (s : State) (failedArrays failedStacks : List Nat) (fp64 : Bool) :
    (s.enterFull failedArrays failedStacks fp64).levels = (.full, 2, 128, s.permittedRate, fp64 && s.variant.fp64) ∧
      (Map.get? (s.enterFull failedArrays failedStacks fp64).attnPending 2).isSome = true := by
  unfold State.enterFull
  extract_lets s1 s2 s3 s4
  have h1 : s1.permittedRate = s.permittedRate :=
    congrArg (fun l => l.2.2.2.1) (Steady.foldl (fun v a => Steady.checkArray v failedArrays a) (List.range s.variant.arrays) s).levels
  have h2 : s2.permittedRate = s1.permittedRate := congrArg (fun l => l.2.2.2.1) (Steady.recordStacks s1 failedStacks).levels
  have h4 : s4.levels = (.full, 2, 128, s.permittedRate, fp64 && s.variant.fp64) := by
    have h3 : s3.levels = (.full, 2, 128, s2.permittedRate, fp64 && s.variant.fp64) := rfl
    have caps : s4.levels = s3.levels := by
      unfold s4 State.capsChanged
      split <;> rfl
    rw [caps, h3, h2, h1]
  have last := (Steady.wakeStalled (s4.raise 2 1 (unitEntry 7 16 0))).trans (.dirSync _ 0)
  exact ⟨last.levels.trans ((State.levels_of_kept (State.raise_kept ..)).trans h4), last.pending 2 (State.raise_pending ..)⟩

theorem exec_fullService {s : State} (hp : s.lodge.phase = .foyer) (hl : s.serviceLevel = 1)
    (hr : ∀ p, p < s.variant.ports → (s.port p).state ≠ .retraining) (failedArrays failedStacks : List Nat) (fp64 : Bool) :
    let s1 : State := { s with permittedRate := 128 }
    exec (.fullService failedArrays failedStacks fp64) s = .next (match s.nextRetrain with
      | some p => (s1.leaveActive p .retraining true false).modFabric fun f => { f with retrained := f.retrained ++ [p] }
      | none => s1.enterFull failedArrays failedStacks fp64) := by
  intro s1
  have e : exec (.fullService failedArrays failedStacks fp64) s = execFullService failedArrays failedStacks fp64 s := rfl
  rw [e]
  unfold execFullService
  rw [if_neg (by simp [hp, hl])]
  dsimp only
  rw [if_neg]
  · rfl
  · rw [List.any_eq_true]
    rintro ⟨p, hm, h⟩
    have hs : (s.port p).state = .retraining := beq_iff_eq.1 (Bool.and_eq_true_iff.1 h).1
    exact hr p (List.mem_range.1 hm) hs

/-- Settles O54: each step of bring-up by the state that it leaves. -/
theorem bringUpReachesService : Obligations.BringUpReachesService := by
  intro s failedArrays failedStacks fp64 slot0 slot1 ok
  refine ⟨fun hp hs hl => ?_, fun h => ?_, fun hp => ?_, fun hp => ?_, fun hp hb ha => ?_, fun hp hb ha ho => ?_,
    fun hp hb ha ho => ?_, fun hp hb => foyerService_effect hp hb failedArrays failedStacks, fun hp hl hports => ?_,
    fun p hp hl hports hn hlen => ?_, fun h => ?_⟩
  · obtain ⟨u, e, hu⟩ := powerGood_effect hp hs hl
    simp only [Lodge.resetKept, Prod.mk.injEq] at hu
    obtain ⟨hi, hph, ht⟩ := hu
    exact ⟨u, e, hph, ht, hi⟩
  · have e : exec .powerGood s = execPowerGood s := rfl
    rw [e]
    unfold execPowerGood
    rw [if_pos (by simpa using h)]
  · have e : exec (.keyReconstruction true) s = execKeyReconstruction true s := rfl
    unfold execKeyReconstruction at e
    rw [if_neg (by simp [hp])] at e
    exact ⟨_, e, rfl, rfl⟩
  · have e : exec (.keyReconstruction false) s = execKeyReconstruction false s := rfl
    unfold execKeyReconstruction at e
    rw [if_neg (by simp [hp])] at e
    exact ⟨_, e, State.lodge_of_kept Lodge.phase (State.raise_kept ..),
      (State.congr_kept (g := fun v : State => v.strongroom.state) (fun _ => rfl) (State.raise_kept ..)).trans rfl,
      State.raise_pending ..⟩
  · have e := exec_firmwareVerified hp hb slot0 slot1
    dsimp only at e
    rw [if_pos ha] at e
    exact ⟨_, e, s.startSteward_effect⟩
  · have e := exec_firmwareVerified hp hb slot0 slot1
    dsimp only at e
    rw [if_neg (by rw [show (if s.lodge.activeSlot = 0 then slot0 else slot1) = false from ha]; simp), if_pos ho] at e
    obtain ⟨h1, h2, h3, -⟩ := (s.modLodge fun l => { l with activeSlot := 1 - s.lodge.activeSlot }).startSteward_effect
    refine ⟨_, e, ?_, ?_, ?_, State.raise_pending ..⟩
    · exact (State.lodge_of_kept Lodge.phase (State.raise_kept ..)).trans h1
    · exact (State.congr_kept (g := State.stewardRunning) (fun _ => rfl) (State.raise_kept ..)).trans h2
    · exact (State.lodge_of_kept Lodge.activeSlot (State.raise_kept ..)).trans h3
  · have e := exec_firmwareVerified hp hb slot0 slot1
    dsimp only at e
    rw [if_neg (by rw [show (if s.lodge.activeSlot = 0 then slot0 else slot1) = false from ha]; simp),
      if_neg (by rw [show (if 1 - s.lodge.activeSlot = 0 then slot0 else slot1) = false from ho]; simp)] at e
    have hrec : s.recover = s.modLodge fun l => { l with phase := .recovery } := by
      unfold State.recover
      dsimp only
      rw [if_neg (by simp [hb])]
    rw [hrec] at e
    exact ⟨_, e, rfl, rfl⟩
  · have none : s.nextRetrain = none := by
      unfold State.nextRetrain
      rw [List.find?_eq_none]
      intro p hm
      simp [(hports p (List.mem_range.1 hm)).1]
    have e := exec_fullService hp hl (fun p h => (hports p h).2) failedArrays failedStacks fp64
    rw [none] at e
    obtain ⟨hlev, hpend⟩ := State.enterFull_effect ({ s with permittedRate := 128 } : State) failedArrays failedStacks fp64
    simp only [State.levels, Prod.mk.injEq] at hlev
    obtain ⟨h1, h2, h3, h4, h5⟩ := hlev
    exact ⟨_, e, h1, h2, h3, h4, h5, hpend⟩
  · have e := exec_fullService hp hl hports failedArrays failedStacks fp64
    rw [hn] at e
    have hlev := (Steady.leaveActive_planned ({ s with permittedRate := 128 } : State) p).levels
    simp only [State.levels, Prod.mk.injEq] at hlev
    obtain ⟨-, h2, -, h4, -⟩ := hlev
    obtain ⟨⟨q, hq⟩, -⟩ := State.leaveActive_port (s := ({ s with permittedRate := 128 } : State)) hlen .retraining true false
    have hst := congrArg Port.state hq
    have hpl := congrArg Port.planned hq
    dsimp only at e
    generalize ({ s with permittedRate := 128 } : State).leaveActive p .retraining true false = w at e h2 h4 hst hpl
    exact ⟨_, e, h2.trans hl, h4, hst, hpl⟩
  · have e : exec (.fullService failedArrays failedStacks fp64) s = execFullService failedArrays failedStacks fp64 s := rfl
    rw [e]
    unfold execFullService
    rw [if_pos (by simpa using h)]

end Sys2Proof.Machine
end

section
/-! CLAIMS. Sessions, telemetry and what ends in time (R385, R395, R398, R424, R428, R436 to R439, R443, R460). -/

namespace Sys2Proof.Machine

/-! ### Sessions (R437, R439) -/

theorem State.sessions_of_kept {s u : State} (h : u.kept = s.kept) : u.lodge.sessions = s.lodge.sessions :=
  State.lodge_of_kept Lodge.sessions h

/-- A session that closes is gone, and no other. -/
theorem State.closeSession_sessions (s : State) (id : Nat) (tell : Bool) :
    (s.closeSession id tell).lodge.sessions = s.lodge.sessions.filter fun x => x.id ≠ id := by
  unfold State.closeSession
  dsimp only
  rw [State.sessions_of_kept (State.catalogue_kept _ (lodgeEntry 14 id)), State.modLodge_lodge]

theorem State.closeSession_gone (s : State) (id : Nat) (tell : Bool) : (s.closeSession id tell).session? id = none := by
  unfold State.session?
  rw [State.closeSession_sessions, List.find?_eq_none]
  intro x hx
  simpa using (List.mem_filter.1 hx).2

/-- A session that the module accepts where there is room is its newest (R437). -/
theorem State.acceptOpen_sessions {s : State} (hroom : s.lodge.sessions.length < 4) (m : OpenMessage) (secret : Bytes) :
    ∃ x, (s.acceptOpen m secret).lodge.sessions = s.lodge.sessions ++ [x] ∧ x.id = s.lodge.nextSession ∧
      x.lastHeard = s.now := by
  have room : s.makeRoomForSession = s := if_pos hroom
  unfold State.acceptOpen
  rw [room]
  exact ⟨_, (State.sessions_of_kept (State.catalogue_kept ..) :), rfl, rfl⟩

theorem State.refuseOpen_sessions (s : State) (signature : Bool) :
    (s.refuseOpen signature).lodge.sessions = s.lodge.sessions := by
  unfold State.refuseOpen
  dsimp only
  split
  · exact State.sessions_of_kept ((State.raise_kept ..).trans (State.count_kept ..))
  · exact State.sessions_of_kept ((State.catalogue_kept ..).trans (State.count_kept ..))

/-! ### Telemetry and health (R395, R460) -/

/-- The telemetry of a period, sent to the one session that is open (R460). -/
theorem telemetry_sends {s : State} {x : Session} (hp : s.lodge.phase ≠ .off)
    (ht : s.lodge.lastTelemetry + s.lodge.settings.telemetryMs * 1000000 ≤ s.now) (hs : s.lodge.sessions = [x]) :
    Completes .telemetry s fun u =>
      u.lodge.lastTelemetry = s.now ∧ u.lodge.periodCount = 0 ∧ ∃ body, body.take 8 = le 8 s.now ∧
        u.lodge.sessions = [{ x with sent := x.sent ++ [(x.txSequence, 5, body)], txSequence := x.txSequence + 1 }] := by
  have e : exec .telemetry s = execTelemetry s := rfl
  unfold execTelemetry at e
  rw [if_neg (by simpa [Nat.not_lt] using And.intro hp ht)] at e
  refine ⟨_, e, ?_⟩
  dsimp only
  have hs1 : (s.free 4).2.lodge.sessions = [x] := hs
  rw [hs1, List.foldl_cons, List.foldl_nil]
  refine ⟨rfl, rfl, (s.free 4).2.telemetryBody (s.free 4).1, ?_, ?_⟩
  · unfold State.telemetryBody
    simp only [List.append_assoc]
    rw [List.take_append_of_le_length (by rw [length_le]), List.take_of_length_le (by rw [length_le])]
    rfl
  · unfold State.sendMessage State.modSession
    rw [State.modLodge_lodge, State.modLodge_lodge]
    dsimp only
    rw [hs1, List.map_cons, List.map_nil, if_pos rfl]

theorem modAt_add_zero (l : List Nat) (i : Nat) : modAt l i (· + 0) = l := by
  unfold modAt
  exact List.modify_id ..

/-- The health update of a minute in which nothing was counted decays each rate (R395). -/
theorem healthUpdate_decays {s : State} (hp : s.lodge.phase ≠ .off)
    (hc : unitsSince s.correctedErrors s.lodge.correctedBase 1000 = 0)
    (hr : unitsSince s.replays s.lodge.replaysBase 10000 = 0) : Completes .healthUpdate s fun u =>
      u.lodge.rates = (((s.lodge.rates.zip s.lodge.events).zip (healthClasses.map (·.2))).map fun e =>
        e.1.1 * decayOf e.2 / rateUnit + e.1.2 * rateUnit) ∧
      u.lodge.events = List.replicate 15 0 ∧
      u.lodge.observedSeconds = s.lodge.observedSeconds + (if s.serviceLevel = 0 then 0 else 60) := by
  have e : exec .healthUpdate s = execHealthUpdate s := rfl
  unfold execHealthUpdate at e
  rw [if_neg (by simpa using hp), hc, hr] at e
  refine ⟨_, e, ?_, rfl, rfl⟩
  rw [State.modLodge_lodge]
  dsimp only
  rw [modAt_add_zero, modAt_add_zero]

/-! ### Transactions, loans and quotes (R385, R424, R428) -/

/-- The record of a transaction that has moved is its newest (R388). -/
theorem State.moveTxn_txn? (s : State) (e : CatEntry) (t : Txn) (st : TxnState) (failed : Nat) :
    ((s.moveTxn e t st failed).txn? t.id).map Txn.state = some st := by
  unfold State.moveTxn
  extract_lets s1 t1 s2
  have hk : ((s2.count cTxnCommitted 0 (b2n (st == .committed))).count cTxnAborted 0 (b2n (st == .aborted))).lodge.txns =
      s2.lodge.txns := State.lodge_of_kept Lodge.txns ((State.count_kept ..).trans (State.count_kept ..))
  unfold State.txn?
  rw [hk]
  have h2 : s2.lodge.txns = keepTxns 4096 (t1 :: s1.lodge.txns.filter fun x => x.id != t.id) := rfl
  have hfirst : ∃ rest, keepTxns 4096 (t1 :: s1.lodge.txns.filter fun x => x.id != t.id) = t1 :: rest := by
    unfold keepTxns
    split <;> exact ⟨_, rfl⟩
  obtain ⟨rest, hrest⟩ := hfirst
  rw [h2, hrest, List.find?_cons_of_pos (by simp [t1])]
  rfl

/-- A count takes no fault's number. -/
theorem State.count_nextFault (s : State) (c : CtrId) (i n : Nat) : (s.count c i n).lodge.nextFault = s.lodge.nextFault := by
  unfold State.count
  split
  · rfl
  · dsimp only
    split
    · rfl
    · split
      · rfl
      · exact (State.raise_numbers ..).2

theorem State.moveTxn_nextFault (s : State) (e : CatEntry) (t : Txn) (st : TxnState) (failed : Nat) :
    (s.moveTxn e t st failed).lodge.nextFault = s.lodge.nextFault := by
  unfold State.moveTxn
  extract_lets s1 t1 s2
  rw [State.count_nextFault, State.count_nextFault]
  have h1 : s1.lodge.nextFault = s.lodge.nextFault := (State.catalogue_numbers s _).2
  have h2 : s2.lodge.nextFault = s1.lodge.nextFault := by
    unfold s2
    rw [State.modLodge_lodge]
  exact h2.trans h1

theorem exec_txnTimeout {s : State} {txn : Word} {t : Txn} (h : s.txn? txn = some t) :
    exec (.txnTimeout txn) s = .next (if t.state == .opened && !t.committing && t.time + t.timeoutMs * 1000000 ≤ s.now then
      (s.moveTxn (lodgeEntry 15 0) { t with staged := [] } .aborted).fault 0x0061 10 0 else s) := by
  have e : exec (.txnTimeout txn) s = execTxnTimeout txn s := rfl
  rw [e]
  unfold execTxnTimeout
  rw [h]

theorem State.fault_txn? (s : State) (cause unit index domain ctx : Nat) (address : Word) (detail : Nat) (id : Word) :
    (s.fault cause unit index domain ctx address detail).txn? id = s.txn? id :=
  State.congr_kept (g := fun w : State => w.txn? id) (fun _ => rfl) (State.fault_kept ..)

/-- A transaction that has run out of time is aborted, and the fault is recorded (R385). -/
theorem txnTimeout_aborts {s : State} {txn : Word} {t : Txn} (h : s.txn? txn = some t) (ho : t.state = .opened)
    (hc : t.committing = false) :
    (t.time + t.timeoutMs * 1000000 ≤ s.now → Completes (.txnTimeout txn) s fun u =>
      (u.txn? txn).map Txn.state = some .aborted ∧ u.lodge.nextFault = s.lodge.nextFault + 1) ∧
    (s.now < t.time + t.timeoutMs * 1000000 → exec (.txnTimeout txn) s = .next s) := by
  have hid : t.id = txn := beq_iff_eq.1 (List.find?_some h :)
  have moved := State.moveTxn_txn? s (lodgeEntry 15 0) { t with staged := [] } .aborted 0xFFFF
  have number := State.moveTxn_nextFault s (lodgeEntry 15 0) { t with staged := [] } .aborted 0xFFFF
  have e := exec_txnTimeout h
  generalize s.moveTxn (lodgeEntry 15 0) { t with staged := [] } .aborted = v at moved number e
  refine ⟨fun hn => ?_, fun hn => ?_⟩
  · rw [if_pos (by rw [ho, hc, decide_eq_true hn]; decide)] at e
    refine ⟨_, e, ?_, ?_⟩
    · rw [State.fault_txn?, ← hid]
      exact moved
    · rw [State.fault_nextFault, number]
  · rw [if_neg (by rw [ho, hc, decide_eq_false (Nat.not_le.2 hn)]; decide)] at e
    exact e

theorem State.revokeLoan_loan? (s : State) (id : Word) : (s.revokeLoan id).loan? id = none := by
  unfold State.loan? State.revokeLoan
  rw [State.modSr_strongroom, List.find?_eq_none]
  intro l hl
  simpa using (List.mem_filter.1 hl).2

/-- A loan whose time has come is revoked (R424). -/
theorem loanExpiry_revokes {s : State} {loan : Word} {l : Loan} (h : s.loan? loan = some l) (hn : l.notAfter ≠ 0)
    (hb : s.loanBusy loan = false) :
    (l.notAfter ≤ s.now → Completes (.loanExpiry loan) s fun u => u.loan? loan = none) ∧
    (s.now < l.notAfter → exec (.loanExpiry loan) s = .next s) := by
  have e : exec (.loanExpiry loan) s = execLoanExpiry loan s := rfl
  unfold execLoanExpiry at e
  rw [h] at e
  dsimp only at e
  refine ⟨fun hnow => ?_, fun hnow => ?_⟩
  · rw [if_neg (by simp [hn, hb, Nat.not_lt.2 hnow])] at e
    refine ⟨_, e, ?_⟩
    have hk := (State.catalogue_kept ((s.revokeLoan loan).count cLoanRevocations 0)
      { unitEntry 11 10 loan.toNat with pinned := true }).trans (State.count_kept ..)
    exact (State.congr_kept (g := fun v : State => v.loan? loan) (fun _ => rfl) hk).trans (s.revokeLoan_loan? loan)
  · rw [if_pos (by simp [hnow])] at e
    exact e

/-- A field of the Strongroom, and one of the Lodge other than the sessions, is as it was once a command has ended. -/
theorem State.finishCmd_keeps {β : Type} (g : State → β) (hg : ∀ v : State, g v.unanswered = g v) (s : State) (h : Nat)
    (r : Reply) : g (s.finishCmd h r) = g s := by
  rw [← hg, (HeadsKept.finishCmd s h r).rest, hg]

/-- A quote leaves the queue (R428). -/
theorem State.signQuote_quotes {s : State} {q : QuoteReq} {qs : List QuoteReq} (h : s.strongroom.quotes = q :: qs) :
    s.signQuote.strongroom.quotes = qs := by
  unfold State.signQuote
  rw [h]
  dsimp -zeta only
  extract_lets b s1 s2
  have h1 : s1.strongroom.quotes = qs :=
    State.congr_kept (g := fun v : State => v.strongroom.quotes) (fun _ => rfl) (State.count_kept ..)
  have h2 : s2.strongroom.quotes = s1.strongroom.quotes :=
    State.finishCmd_keeps (fun v => v.strongroom.quotes) (fun _ => rfl) ..
  split
  · exact h2.trans h1
  · exact h2.trans h1

/-! ### Firmware and probation (R398, R443) -/

/-- The entry and the reply that end an activation change neither the Strongroom nor the slots. -/
theorem State.finishActivation_keeps {β : Type} (v : State) (f : CatEntry → CatEntry) (k : OutCmd) (h : Nat) (g : State → β)
    (hu : ∀ w : State, g w.unanswered = g w) (hk : ∀ w : State, g w.kept = g w) :
    g (((((v.modSr fun r => { r with window := false }).cmdEntry k 8 0 0).2.catalogue
      (f ((v.modSr fun r => { r with window := false }).cmdEntry k 8 0 0).1)).finishCmd h (Reply.of .done))) =
      g (v.modSr fun r => { r with window := false }) := by
  generalize (v.modSr fun r => { r with window := false }) = w
  refine (State.finishCmd_keeps g hu _ h _).trans ?_
  have listed := State.catalogue_kept (w.cmdEntry k 8 0 0).2 (f (w.cmdEntry k 8 0 0).1)
  have opened : (w.cmdEntry k 8 0 0).2.kept = w.kept := rfl
  exact State.congr_kept hk (listed.trans opened)

/-- The window of an activation closes on the new image (R443). -/
theorem commitWindowClose_activates {s : State} {e : Nat × OutCmd} {g : Staged}
    (he : s.host.commands.find? (fun e => e.2.work == .activate) = some e) (hw : s.strongroom.window = true)
    (hg : s.lodge.stagedFw = some g) : Completes .commitWindowClose s fun u =>
      ∃ v : State, u = v.settleCommits ∧ v.strongroom.window = false ∧ v.lodge.activeSlot = 1 - s.lodge.activeSlot ∧
        v.lodge.stagedFw = none := by
  have x : exec .commitWindowClose s = execCommitWindowClose s := rfl
  unfold execCommitWindowClose at x
  obtain ⟨h, k⟩ := e
  rw [he] at x
  dsimp only at x
  rw [if_neg (by simp [hw])] at x
  refine ⟨_, x, _, rfl, ?_⟩
  have slot : s.activateFirmware.lodge.activeSlot = 1 - s.lodge.activeSlot ∧ s.activateFirmware.lodge.stagedFw = none := by
    unfold State.activateFirmware
    rw [hg]
    exact ⟨rfl, rfl⟩
  generalize s.activateFirmware = v at slot ⊢
  have keeps := fun {β : Type} (f : State → β) => v.finishActivation_keeps (fun c => { c with
    old := BitVec.ofNat 256 s.activeFw.version
    new := BitVec.ofNat 256 (v.modSr fun r => { r with window := false }).activeFw.version }) k h f
  exact ⟨keeps (fun w => w.strongroom.window) (fun _ => rfl) (fun _ => rfl),
    (keeps (fun w => w.lodge.activeSlot) (fun _ => rfl) (fun _ => rfl)).trans slot.1,
    (keeps (fun w => w.lodge.stagedFw) (fun _ => rfl) (fun _ => rfl)).trans slot.2⟩

/-- A probation test leaves its outcome (R398). -/
theorem State.probationEnds_probation (s : State) (failed : Option (Nat × Nat)) :
    (s.probationEnds failed).2.lodge.probation = (if failed = none then 2 else 3) ∧
      (s.probationEnds failed).2.lodge.lastProbation = s.now := by
  cases failed with
  | none => exact ⟨rfl, rfl⟩
  | some at_ =>
    have recorded : ∀ v : State,
        ((v.fault 0x0070 at_.1 at_.2).lodge.probation, (v.fault 0x0070 at_.1 at_.2).lodge.lastProbation) =
          (v.lodge.probation, v.lodge.lastProbation) := fun v =>
      State.congr_kept (g := fun v : State => (v.lodge.probation, v.lodge.lastProbation)) (fun _ => rfl)
        (State.fault_kept ..)
    have both := recorded (s.modLodge fun l => { l with probation := 3, lastProbation := s.now })
    exact Prod.mk.injEq .. ▸ both

theorem probationTestDone_records {s : State} {e : Nat × OutCmd} (failed : Option (Nat × Nat))
    (he : s.host.commands.find? (fun e => e.2.work == .probation) = some e) :
    Completes (.probationTestDone failed) s fun u => ∃ v : State, u = v.settleCommits ∧
      v.lodge.probation = (if failed = none then 2 else 3) ∧ v.lodge.lastProbation = s.now := by
  have x : exec (.probationTestDone failed) s = execProbationTestDone failed s := rfl
  unfold execProbationTestDone at x
  obtain ⟨h, k⟩ := e
  rw [he] at x
  refine ⟨_, x, _, rfl, ?_⟩
  have ended := State.finishCmd_keeps (fun v => (v.lodge.probation, v.lodge.lastProbation)) (fun _ => rfl)
    (s.probationEnds failed).2 h { code := .done, result := (s.probationEnds failed).1 }
  rw [Prod.mk.injEq] at ended
  obtain ⟨outcome, time⟩ := s.probationEnds_probation failed
  exact ⟨ended.1.trans outcome, ended.2.trans time⟩

/-! ### The clauses of a session -/

theorem openSession_accepts {s : State} {m : OpenMessage} {secret : Bytes} (hp : s.lodge.phase ≠ .off)
    (hf : s.catalogueFull = false) (hk : s.openKnown m = true)
    (hv : Config.verify m.opAlg (padTo 64 m.operatorKey) (openFields m) m.signature = true)
    (hr : s.strongroom.state = .ready)
    (hd : Config.decapsulate m.kemCt = some secret) : exec (.openSession m) s = .next (s.acceptOpen m secret) := by
  have e : exec (.openSession m) s = execOpenSession m s := rfl
  unfold execOpenSession at e
  rw [if_neg (by simp [hp, hf]), if_neg (by simp [hk]), if_neg (by simp [hv]), if_pos (by simp [hr]), hd] at e
  exact e

theorem openSession_refuses {s : State} {m : OpenMessage} (hp : s.lodge.phase ≠ .off) (hf : s.catalogueFull = false)
    (hk : s.openKnown m = false) : exec (.openSession m) s = .next (s.refuseOpen false) := by
  have e : exec (.openSession m) s = execOpenSession m s := rfl
  unfold execOpenSession at e
  rw [if_neg (by simp [hp, hf]), if_pos (by simp [hk])] at e
  exact e

/-- A datagram that is no valid fragment is discarded (R436). -/
theorem mgmtCommand_discards {s : State} {d : Datagram} {x : Session} (hx : s.session? d.session = some x)
    (hd : datagramOk x d = false) : exec (.mgmtCommand d) s = .next s := by
  have e : exec (.mgmtCommand d) s = execMgmtCommand d s := rfl
  unfold execMgmtCommand at e
  rw [hx] at e
  dsimp only at e
  rw [if_pos (by rw [hd]; rfl)] at e
  exact e

/-- One that repeats is answered again (R438). -/
theorem mgmtCommand_repeats {s : State} {d : Datagram} {x : Session} (hx : s.session? d.session = some x)
    (hd : datagramOk x d = true) (hseq : d.sequence < x.next) :
    exec (.mgmtCommand d) s =
      .next ((s.modSession x.id fun y => { y with lastHeard := s.now }).replyAgain x d.sequence) := by
  have e : exec (.mgmtCommand d) s = execMgmtCommand d s := rfl
  unfold execMgmtCommand at e
  rw [hx] at e
  dsimp only at e
  rw [if_neg (by rw [hd]; decide), if_pos hseq] at e
  exact e

/-- A command that is whole in its first datagram waits for its turn (R436). -/
theorem mgmtCommand_holds {s : State} {d : Datagram} {x : Session} {b : Bytes} (hx : s.session? d.session = some x)
    (hd : datagramOk x d = true) (hseq : x.next ≤ d.sequence) (hwin : d.sequence ≤ x.next + 64)
    (hahead : Map.has x.ahead d.sequence = false) (hold : Map.get? x.partials d.sequence = none)
    (hb : (joinFragment s.now none d).whole = some b) :
    exec (.mgmtCommand d) s =
      .next ((s.modSession x.id fun y => { y with lastHeard := s.now }).holdCommand x.id d.sequence b) := by
  have e : exec (.mgmtCommand d) s = execMgmtCommand d s := rfl
  unfold execMgmtCommand at e
  rw [hx] at e
  dsimp only at e
  rw [if_neg (by rw [hd]; decide), if_neg (Nat.not_lt.2 hseq),
    if_neg (by rw [hahead, decide_eq_false (Nat.not_lt.2 hwin)]; decide), hold, Option.any_none,
    if_neg Bool.false_ne_true, hb] at e
  exact e

theorem mgmtCommand_unknown {s : State} {d : Datagram} (hx : s.session? d.session = none) :
    exec (.mgmtCommand d) s = .next s := by
  have e : exec (.mgmtCommand d) s = execMgmtCommand d s := rfl
  unfold execMgmtCommand at e
  rw [hx] at e
  exact e

/-- A session that is idle for 60 s closes (R439). -/
theorem sessionIdleTimeout_closes {s : State} {id : Nat} {x : Session} (hx : s.session? id = some x) :
    (x.lastHeard + 60000000000 ≤ s.now → Completes (.sessionIdleTimeout id) s fun u => u.session? id = none) ∧
    (s.now < x.lastHeard + 60000000000 → exec (.sessionIdleTimeout id) s = .next s) := by
  have e : exec (.sessionIdleTimeout id) s = execSessionIdleTimeout id s := rfl
  unfold execSessionIdleTimeout at e
  rw [hx] at e
  dsimp only at e
  refine ⟨fun hn => ?_, fun hn => ?_⟩
  · rw [if_pos hn] at e
    exact ⟨_, e, s.closeSession_gone id false⟩
  · rw [if_neg (Nat.not_le.2 hn)] at e
    exact e

theorem telemetry_waits {s : State} (ht : s.now < s.lodge.lastTelemetry + s.lodge.settings.telemetryMs * 1000000) :
    exec .telemetry s = .next s := by
  have e : exec .telemetry s = execTelemetry s := rfl
  unfold execTelemetry at e
  rw [if_pos (by rw [decide_eq_true ht, Bool.or_true])] at e
  exact e

theorem quoteSigned_none {s : State} (h : s.strongroom.quotes = []) : exec .quoteSigned s = .next s := by
  have e : exec .quoteSigned s = .next s.signQuote := rfl
  rw [e]
  unfold State.signQuote
  rw [h]

/-- With no activation and no probation test under way, their ends change nothing (R398, R443). -/
theorem slow_work_none {s : State}
    (h : s.host.commands.find? (fun e => e.2.work == .activate || e.2.work == .probation) = none) :
    exec .commitWindowClose s = .next s ∧ ∀ failed, exec (.probationTestDone failed) s = .next s := by
  rw [List.find?_eq_none] at h
  have activate : s.host.commands.find? (fun e => e.2.work == .activate) = none :=
    List.find?_eq_none.2 fun e he hw => h e he (by rw [hw, Bool.true_or])
  have probation : s.host.commands.find? (fun e => e.2.work == .probation) = none :=
    List.find?_eq_none.2 fun e he hw => h e he (by rw [hw, Bool.or_true])
  constructor
  · have e : exec .commitWindowClose s = execCommitWindowClose s := rfl
    unfold execCommitWindowClose at e
    rw [activate] at e
    exact e
  · intro failed
    have e : exec (.probationTestDone failed) s = execProbationTestDone failed s := rfl
    unfold execProbationTestDone at e
    rw [probation] at e
    exact e

/-- Settles O56: each command by its conditions; the sessions, the fault's number and the outcome of the slow work are
unchanged by the catalogue, the counts and the reply that ends a command. -/
theorem sessionsAndTimeLimits : Obligations.SessionsAndTimeLimits := by
  unfold Obligations.SessionsAndTimeLimits
  intro s m d id
  refine ⟨?_, ?_, ?_, mgmtCommand_unknown, ?_, rfl, ?_, ?_, telemetry_waits, healthUpdate_decays, ?_, ?_, ?_,
    quoteSigned_none, ?_, ?_, slow_work_none⟩
  · intro secret hp hf hk hv hr hd hroom
    exact ⟨_, openSession_accepts hp hf hk hv hr hd, rfl, State.acceptOpen_sessions hroom m secret⟩
  · intro hp hf hk
    exact ⟨_, openSession_refuses hp hf hk, rfl, s.refuseOpen_sessions false⟩
  · intro x hx
    refine ⟨mgmtCommand_discards hx, fun hd => ⟨mgmtCommand_repeats hx hd, ?_⟩⟩
    intro b hseq hwin hahead hold hb
    exact mgmtCommand_holds hx hd hseq hwin hahead hold hb
  · intro hx
    have e : exec (.closeSession id) s = execCloseSession id s := rfl
    unfold execCloseSession at e
    rw [if_pos hx] at e
    exact ⟨_, e, s.closeSession_sessions id false⟩
  · exact fun x hx => sessionIdleTimeout_closes hx
  · exact fun x hp ht hs => telemetry_sends hp ht hs
  · exact fun txn t h ho hc => txnTimeout_aborts h ho hc
  · exact fun loan l h hn hb => loanExpiry_revokes h hn hb
  · intro q qs h
    exact ⟨_, rfl, State.signQuote_quotes h⟩
  · exact fun e g he hw hg => commitWindowClose_activates he hw hg
  · exact fun e failed he => probationTestDone_records failed he

end Sys2Proof.Machine
end

section
/-! CLAIMS. Repairs, retirements, scrubs and self-refresh (R234 to R237, R241, R242, R244, R375, R403, R457). -/

namespace Sys2Proof.Machine

/-! ### Repairs (R241, R242, R244) -/

theorem repairHostReadDone_ends {s : State} {l : Nat} {r : Repair} (h : Map.get? s.memory.repairing l = some r)
    (hr : r.hostRead = true) (bs : Bytes) :
    exec (.repairHostReadDone l (.bytes bs)) s = .next (s.repairDone l bs).memoryReady ∧
      exec (.repairHostReadDone l .error) s = .next (s.repairFailed l).memoryReady := by
  have e : ∀ data, exec (.repairHostReadDone l data) s = execRepairHostReadDone l data s := fun _ => rfl
  unfold execRepairHostReadDone at e
  have reads : ¬ (!((Map.get? s.memory.repairing l).any fun r => r.hostRead)) = true := by
    rw [h, Option.any_some, hr]
    decide
  exact ⟨(e _).trans (by rw [if_neg reads]), (e _).trans (by rw [if_neg reads])⟩

theorem repairBudgetExpiry_none {s : State} {l : Nat} (h : Map.get? s.memory.repairing l = none) :
    exec (.repairBudgetExpiry l) s = .next s := by
  have e : exec (.repairBudgetExpiry l) s = execRepairBudgetExpiry l s := rfl
  unfold execRepairBudgetExpiry at e
  rw [h] at e
  exact e

/-- A repair has its budget, and no more (R242). -/
theorem repairBudgetExpiry_some {s : State} {l : Nat} {r : Repair} (h : Map.get? s.memory.repairing l = some r) :
    exec (.repairBudgetExpiry l) s = .next (if r.since + s.lodge.settings.repairBudgetUs * 1000 ≤ s.now then
      ((s.count cRepairSourceFails 0 (b2n (r.tag.isSome || r.hostRead))).loseLine l).memoryReady else s) := by
  have e : exec (.repairBudgetExpiry l) s = execRepairBudgetExpiry l s := rfl
  unfold execRepairBudgetExpiry at e
  rw [h] at e
  exact e

/-! ### Retirements (R236, R237, R375) -/

theorem State.badLines_nil {s : State} (h : s.memory.eccErrors = []) (ok : Nat → Bool) : s.badLines ok = [] := by
  unfold State.badLines
  rw [h]
  rfl

theorem State.wakeLine_memory (s : State) (l : Nat) : (s.wakeLine l).memory = s.memory := by
  unfold State.wakeLine
  split <;> rfl

/-- A row with no line under repair is served from its relocation slots (R237). -/
theorem rowRetirementComplete_relocates {s : State} {row : Nat} (cycles : Nat)
    (hrow : s.memory.retiringRows.contains row = true) (he : s.memory.eccErrors = []) (hr : s.rowUnderRepair row = false) :
    Completes (.rowRetirementComplete row cycles) s fun u => ∃ v : State, u = v.memoryReady ∧
      v.memory.relocated = s.memory.relocated ++ [row] ∧ v.memory.retiringRows.contains row = false ∧
      v.memory.bytes = s.memory.bytes := by
  have e : exec (.rowRetirementComplete row cycles) s = execRowRetirementComplete row cycles s := rfl
  unfold execRowRetirementComplete at e
  rw [if_neg (by rw [hrow]; decide), State.badLines_nil he, List.foldl_nil,
    if_neg (by rw [hr]; decide)] at e
  refine ⟨_, e, _, rfl, ?_⟩
  have counted : ∀ v : State, ((v.count cRowsRetired 0).count cRepairWait 0 cycles).memory = v.memory := fun v =>
    State.memory_of_kept ((State.count_kept ..).trans (State.count_kept ..))
  rw [foldl_keeps State.memory State.wakeLine State.wakeLine_memory, counted]
  exact ⟨rfl, by simp [State.modMem], rfl⟩

theorem rowRetirementComplete_none {s : State} {row : Nat} (cycles : Nat)
    (hrow : s.memory.retiringRows.contains row = false) : exec (.rowRetirementComplete row cycles) s = .next s := by
  have e : exec (.rowRetirementComplete row cycles) s = execRowRetirementComplete row cycles s := rfl
  unfold execRowRetirementComplete at e
  rw [if_pos (by rw [hrow]; decide)] at e
  exact e

theorem channelCopyComplete_none {s : State} {channel : Nat} (h : s.memory.copyingChannels.contains channel = false) :
    exec (.channelCopyComplete channel) s = .next s := by
  have e : exec (.channelCopyComplete channel) s = execChannelCopyComplete channel s := rfl
  unfold execChannelCopyComplete at e
  rw [if_pos (by rw [h]; decide)] at e
  exact e

/-- The copy of a retired channel is recorded when it is done (R375). -/
theorem channelCopyComplete_records {s : State} {channel : Nat} (h : s.memory.copyingChannels.contains channel = true)
    (he : s.memory.eccErrors = []) (hb : s.host.resetBusy = false) :
    exec (.channelCopyComplete channel) s = .next
      ((s.modMem fun m => { m with copyingChannels := m.copyingChannels.filter (· ≠ channel) }).fault 0x0005 4 channel
        2) := by
  have e : exec (.channelCopyComplete channel) s = execChannelCopyComplete channel s := rfl
  unfold execChannelCopyComplete at e
  rw [if_neg (by rw [h]; decide)] at e
  dsimp only at e
  rw [State.badLines_nil he, List.foldl_nil] at e
  have busy : ((s.modMem fun m => { m with copyingChannels := m.copyingChannels.filter (· ≠ channel) }).fault 0x0005 4
      channel 2).host.resetBusy = false :=
    (State.congr_kept (g := fun v : State => v.host.resetBusy) (fun _ => rfl) (State.fault_kept ..)).trans hb
  rw [if_neg (by rw [busy, Bool.false_and, Bool.false_and]; decide)] at e
  exact e

/-! ### Scrubs and self-refresh (R235, R457) -/

/-- A scrub of the attic that finds no error counts itself (R235). -/
theorem scrubPass_attic {s : State} (hon : s.chipOn = true) (he : s.memory.eccErrors = []) :
    exec (.scrubPass false) s = .next
      ((s.modMem fun m => { m with scrubbing := false }).count cScrubPasses 0).memoryReady := by
  have e : exec (.scrubPass false) s = execScrubPass false s := rfl
  unfold execScrubPass State.scrub at e
  rw [if_pos hon, if_neg Bool.false_ne_true, State.badLines_nil he, List.foldl_nil] at e
  simp only [Bool.and_false] at e
  exact e

theorem State.checkStash_clean (s : State) {x : Stash} (h : x.errors = []) : s.checkStash x = s := by
  unfold State.checkStash
  exact if_pos (by rw [h, List.isEmpty_nil, Bool.or_true])

theorem State.checkStashes_clean {xs : List Stash} (h : ∀ x ∈ xs, x.errors = []) (s : State) :
    xs.foldl State.checkStash s = s := by
  induction xs generalizing s with
  | nil => rfl
  | cons x xs ih =>
    obtain ⟨hx, hxs⟩ := List.forall_mem_cons.1 h
    rw [List.foldl_cons, State.checkStash_clean s hx, ih hxs]

/-- A scrub of the cellar looks at the Pantry too, and goes on with the attic's (R235). -/
theorem scrubPass_cellar {s : State} (hon : s.chipOn = true) (hc : s.memory.cellarErrors = [])
    (hs : ∀ x ∈ s.stashes, x.errors = []) :
    exec (.scrubPass true) s = .next
      ((s.modMem fun m => { m with scrubbing := m.scrubbing }).count cScrubPasses 0).memoryReady := by
  have e : exec (.scrubPass true) s = execScrubPass true s := rfl
  unfold execScrubPass State.scrub at e
  have lines : ((Map.keys s.memory.cellarErrors).map (· / 32)).eraseDups.foldl State.checkLine s = s := by
    rw [hc]
    rfl
  rw [if_pos hon, if_pos rfl, lines, State.checkStashes_clean hs] at e
  simp only [Bool.and_true] at e
  exact e

theorem scrubPass_off {s : State} (hon : s.chipOn = false) (cellar : Bool) : exec (.scrubPass cellar) s = .next s := by
  have e : exec (.scrubPass cellar) s = execScrubPass cellar s := rfl
  unfold execScrubPass at e
  rw [if_neg (by rw [hon]; decide)] at e
  exact e

theorem scrubWake_wakes {s : State} (hon : s.chipOn = true) (h : s.memory.selfRefresh ≠ []) :
    exec .scrubWake s = .next (s.modMem fun m => { m with selfRefresh := [], scrubbing := true }) := by
  have e : exec .scrubWake s = execScrubWake s := rfl
  unfold execScrubWake at e
  rw [if_neg (by simp [hon, h])] at e
  exact e

/-- A stack with nothing in the cellar to write back enters self-refresh (R457). -/
theorem atticSelfRefreshEntry_enters {s : State} {stack : Nat} (hs : s.memory.stacksServing.contains stack = true)
    (ha : s.memory.selfRefresh.contains stack = false) (hi : s.lodge.settings.atticIdleUs ≠ 0)
    (hg : s.memory.granules = []) :
    exec (.atticSelfRefreshEntry stack) s = .next
      (s.modMem fun m => { m with selfRefresh := m.selfRefresh ++ [stack], scrubbing := false }) := by
  have e : exec (.atticSelfRefreshEntry stack) s = execAtticSelfRefreshEntry stack s := rfl
  unfold execAtticSelfRefreshEntry at e
  dsimp only at e
  rw [if_pos (by rw [hs, ha, hg, decide_eq_true hi]; rfl)] at e
  exact e

theorem atticSelfRefreshEntry_disabled {s : State} (stack : Nat) (hi : s.lodge.settings.atticIdleUs = 0) :
    exec (.atticSelfRefreshEntry stack) s = .next s := by
  have e : exec (.atticSelfRefreshEntry stack) s = execAtticSelfRefreshEntry stack s := rfl
  unfold execAtticSelfRefreshEntry at e
  dsimp only at e
  rw [if_neg (by simp [hi])] at e
  exact e

/-- A page that a write had copied aside is no longer being copied (R403). -/
theorem cowCopyComplete_ends {s : State} {page : Nat} (cycles : Nat) {st : Stream} (hs : s.twin.stream = some st)
    (hp : st.copying.contains page = true) :
    exec (.cowCopyComplete page cycles) s = .next ((s.modTwin fun w =>
      { w with stream := some { st with copying := st.copying.filter (· ≠ page) } }).count cCowWait 0 cycles) := by
  have e : exec (.cowCopyComplete page cycles) s = execCowCopyComplete page cycles s := rfl
  unfold execCowCopyComplete at e
  rw [if_pos (by rw [hs]; exact hp)] at e
  refine e.trans ?_
  unfold State.modTwin
  dsimp only
  rw [hs]
  rfl

theorem cowCopyComplete_none {s : State} (page cycles : Nat) (hs : s.twin.stream = none) :
    exec (.cowCopyComplete page cycles) s = .next s := by
  have e : exec (.cowCopyComplete page cycles) s = execCowCopyComplete page cycles s := rfl
  unfold execCowCopyComplete at e
  rw [hs] at e
  exact e

/-- Settles O46: each command by its conditions; where no error is recorded, no line is looked at. -/
theorem repairsScrubsAndSelfRefresh : Obligations.RepairsScrubsAndSelfRefresh := by
  unfold Obligations.RepairsScrubsAndSelfRefresh
  intro s l cycles
  refine ⟨fun r bs h hr => repairHostReadDone_ends h hr bs, repairBudgetExpiry_none, ?_, ?_,
    rowRetirementComplete_relocates cycles, rowRetirementComplete_none cycles, channelCopyComplete_none,
    channelCopyComplete_records, scrubPass_attic, scrubPass_cellar,
    fun hon => ⟨scrubPass_off hon _, scrubPass_off hon _⟩,
    scrubWake_wakes, atticSelfRefreshEntry_enters, atticSelfRefreshEntry_disabled l, rfl,
    fun st hs hp => cowCopyComplete_ends cycles hs hp, cowCopyComplete_none l cycles⟩
  · intro r h hn
    rw [repairBudgetExpiry_some h, if_pos hn]
  · intro r h hn
    rw [repairBudgetExpiry_some h, if_neg (Nat.not_le.2 hn)]

end Sys2Proof.Machine
end

section
/-! CLAIMS. Flits and frames of a link (R249, R254 to R256, R261, R262, R264, R266). -/

namespace Sys2Proof.Machine

section Ports
variable {s : State} {p : Nat} {f : Flit}

/-! ### What a port sends, and what is acknowledged (R249, R255) -/

/-- Flits that are sent change what is on the wire, after an idle flit where one is due (R249). -/
theorem Port.sendFlits_eq (x : Port) (fs : List Bytes) : ∃ first n, first.length ≤ 1 ∧
    x.sendFlits fs = { x with wire := first ++ fs, sinceIdle := n } := by
  unfold Port.sendFlits
  split
  · exact ⟨[x.idleFlit], _, Nat.le_refl 1, rfl⟩
  · exact ⟨[], _, Nat.zero_le 1, rfl⟩

/-- What an acknowledgement leaves in the replay buffer, and what a `NAK` sends again (R255). -/
theorem State.takeAck_port (hp : p < s.fabric.ports.length) (f : Flit) :
    (f.ackValid = false → (s.takeAck p f).port p = s.port p) ∧
    (f.ackValid = true → (f.nak = false ∨ ackReplay f.ackSeq (s.port p).replay = []) →
      (s.takeAck p f).port p = { s.port p with replay := ackReplay f.ackSeq (s.port p).replay }) ∧
    (f.ackValid = true → f.nak = true → ackReplay f.ackSeq (s.port p).replay ≠ [] →
      ∃ first n times, first.length ≤ 1 ∧ (s.takeAck p f).port p =
        { s.port p with
            replay := ackReplay f.ackSeq (s.port p).replay
            wire := first ++ (ackReplay f.ackSeq (s.port p).replay).map (·.2)
            sinceIdle := n, replayTimes := times }) := by
  unfold State.takeAck
  extract_lets s1
  have h1 : s1.port p = { s.port p with replay := ackReplay f.ackSeq (s.port p).replay } := State.modPort_port hp _
  have hp1 : p < s1.fabric.ports.length := (State.modPort_length s p _).symm ▸ hp
  refine ⟨fun ha => ?_, fun ha hn => ?_, fun ha hn hl => ?_⟩
  · rw [if_pos (by rw [ha]; rfl)]
  · rw [if_neg (by rw [ha]; decide), if_pos ?_, h1]
    rw [h1]
    rcases hn with hn | hn
    · rw [hn]
      rfl
    · rw [hn, List.isEmpty_nil, Bool.or_true]
  · rw [if_neg (by rw [ha]; decide), if_neg (by rw [h1, hn]; simpa using hl), State.port_of_ports (State.count_ports ..),
      State.modPort_port hp1, h1]
    obtain ⟨first, n, hfirst, hsent⟩ := Port.sendFlits_eq
      { s.port p with replay := ackReplay f.ackSeq (s.port p).replay } ((ackReplay f.ackSeq (s.port p).replay).map (·.2))
    rw [hsent]
    exact ⟨first, n, _, hfirst, rfl⟩

/-- What every acknowledgement keeps: all but the replay buffer, the wire and the times of replays. -/
theorem State.takeAck_keeps (hp : p < s.fabric.ports.length) (f : Flit) :
    ((s.takeAck p f).port p).replay = (if f.ackValid then ackReplay f.ackSeq (s.port p).replay else (s.port p).replay) ∧
    ∃ w n times, (s.takeAck p f).port p =
      { s.port p with replay := ((s.takeAck p f).port p).replay, wire := w, sinceIdle := n, replayTimes := times } := by
  obtain ⟨none, some, again⟩ := State.takeAck_port hp f
  cases ha : f.ackValid with
  | false =>
    rw [none ha]
    exact ⟨rfl, _, _, _, rfl⟩
  | true =>
    by_cases hn : f.nak = false ∨ ackReplay f.ackSeq (s.port p).replay = []
    · rw [some ha hn]
      exact ⟨rfl, _, _, _, rfl⟩
    · rw [not_or, Bool.not_eq_false] at hn
      obtain ⟨first, n, times, -, h⟩ := again ha hn.1 hn.2
      rw [h]
      exact ⟨rfl, _, _, _, rfl⟩

theorem State.takeAck_length (s : State) (p : Nat) (f : Flit) :
    (s.takeAck p f).fabric.ports.length = s.fabric.ports.length := by
  unfold State.takeAck
  split
  · rfl
  · dsimp only
    split
    · exact State.modPort_length ..
    · rw [State.count_ports, State.modPort_length, State.modPort_length]

/-! ### Flits that arrive (R254 to R256, R261) -/

theorem State.flitArrives_good (hg : f.crcGood = true) : (s.flitArrives p f).fabric.ports = s.fabric.ports := by
  unfold State.flitArrives
  dsimp only
  rw [if_pos hg, State.count_ports]

/-- A bad flit asks for a resend (R255). -/
theorem State.flitArrives_bad (hp : p < s.fabric.ports.length) (hg : f.crcGood = false) :
    (s.flitArrives p f).port p = { s.port p with nakSent := true, ackDue := true } := by
  unfold State.flitArrives
  dsimp only
  have counted := State.count_ports s cFecCorrected p (b2n f.fecCorrected)
  rw [if_neg (by rw [hg]; decide), State.port_of_ports (State.count_ports ..), State.modPort_port (counted ▸ hp),
    State.port_of_ports counted]

/-- A good data flit in sequence is accepted with its slots, and its acknowledgement is due (R255, R256). -/
theorem dataFlitRx_accepts (hp : p < s.fabric.ports.length) (hl : (s.port p).linked = true) (hg : f.crcGood = true)
    (hk : Flit.known f 0 = true) (hseq : f.seq = ((s.port p).lastRx + 1) % 1024) :
    Completes (.dataFlitRx p f) s fun u =>
      (u.port p).lastRx = f.seq ∧ (u.port p).nakSent = false ∧ (u.port p).ackDue = true ∧
        (u.port p).rxSlots = (s.port p).rxSlots ++ padTo 240 f.slots ∧
        (u.port p).replay =
          (if f.ackValid then ackReplay f.ackSeq (s.port p).replay else (s.port p).replay) ∧
        (f.ackValid = true → f.nak = true → ackReplay f.ackSeq (s.port p).replay ≠ [] →
          ∃ first, (u.port p).wire = first ++ (ackReplay f.ackSeq (s.port p).replay).map (·.2) ∧
            first.length ≤ 1) := by
  have e : exec (.dataFlitRx p f) s = execDataFlitRx p f s := rfl
  unfold execDataFlitRx at e
  dsimp only at e
  rw [if_neg (by rw [hl]; decide), if_pos (by rw [hg, hk, decide_eq_true hseq]; rfl)] at e
  refine ⟨_, e, ?_⟩
  have good := State.flitArrives_good (s := s) (p := p) hg
  have hp1 : p < (s.flitArrives p f).fabric.ports.length := good ▸ hp
  have took := State.modPort_port hp1 fun x =>
    { x with lastRx := f.seq, nakSent := false, ackDue := true, rxSlots := x.rxSlots ++ padTo 240 f.slots }
  have hlen := State.modPort_length (s.flitArrives p f) p fun x =>
    { x with lastRx := f.seq, nakSent := false, ackDue := true, rxSlots := x.rxSlots ++ padTo 240 f.slots }
  beta_reduce at took
  rw [State.port_of_ports good] at took
  generalize ((s.flitArrives p f).modPort p fun x =>
    { x with lastRx := f.seq, nakSent := false, ackDue := true, rxSlots := x.rxSlots ++ padTo 240 f.slots }) = v
    at took hlen ⊢
  have counted := State.count_ports v cFlitsRx p 1
  have hp2 : p < (v.count cFlitsRx p).fabric.ports.length := by rw [counted, hlen]; exact hp1
  have took2 := (State.port_of_ports counted p).trans took
  generalize v.count cFlitsRx p = v2 at *
  beta_reduce
  obtain ⟨hreplay, w, n, times, hport⟩ := State.takeAck_keeps hp2 f
  obtain ⟨-, -, again⟩ := State.takeAck_port hp2 f
  rw [took2] at hreplay hport again
  refine ⟨by rw [hport], by rw [hport], by rw [hport], by rw [hport], hreplay, fun ha hn hleft => ?_⟩
  obtain ⟨first, m, ts, hfirst, hagain⟩ := again ha hn hleft
  exact ⟨first, by rw [hagain], hfirst⟩

/-- A good flit that is none of the next data flits changes nothing of the port (R255). -/
theorem dataFlitRx_discards (hl : (s.port p).linked = true) (hg : f.crcGood = true)
    (hk : Flit.known f 0 = false ∨ f.seq ≠ ((s.port p).lastRx + 1) % 1024) :
    Completes (.dataFlitRx p f) s fun u => u.port p = s.port p := by
  have e : exec (.dataFlitRx p f) s = execDataFlitRx p f s := rfl
  unfold execDataFlitRx at e
  dsimp only at e
  rw [if_neg (by rw [hl]; decide), if_neg (by rcases hk with hk | hk <;> simp [hk])] at e
  exact ⟨_, e, State.port_of_ports (State.flitArrives_good hg) p⟩

/-- A bad flit, of whichever kind, asks for a resend (R255). -/
theorem badFlit_asks (hl : (s.port p).linked = true) (hg : f.crcGood = false)
    (credits : List Nat) :
    exec (.dataFlitRx p f) s = .next (s.flitArrives p f) ∧
      exec (.controlFlitRx p f credits) s = .next (s.flitArrives p f) := by
  have e : exec (.dataFlitRx p f) s = execDataFlitRx p f s := rfl
  have e' : exec (.controlFlitRx p f credits) s = execControlFlitRx p f credits s := rfl
  unfold execDataFlitRx at e
  unfold execControlFlitRx at e'
  dsimp only at e e'
  rw [if_neg (by rw [hl]; decide), if_neg (by rw [hg, Bool.false_and, Bool.false_and]; decide)] at e
  rw [if_neg (by rw [hl]; decide), if_pos (by rw [hg, Bool.false_and]; rfl)] at e'
  exact ⟨e, e'⟩

/-- Credits are added up to the buffer of each virtual channel (R261). -/
theorem State.takeCredits_port (hp : p < s.fabric.ports.length) (credits : List Nat) :
    (s.takeCredits p credits).port p = { s.port p with
      credits := (List.range 8).map fun v => min (vcBuffer v) ((s.port p).credits.getD v 0 + credits.getD v 0) } := by
  unfold State.takeCredits
  extract_lets x s1
  have h1 : s1.fabric.ports = s.fabric.ports := by
    refine foldl_keeps (fun v : State => v.fabric.ports) _ (fun v i => ?_) _ _
    split
    · unfold State.endStall
      split
      · exact State.ports_of_kept (State.countFree_kept ..)
      · rfl
    · rfl
  rw [State.modPort_port (h1 ▸ hp), State.port_of_ports h1]

/-- A control flit carries an acknowledgement and credits (R254, R261). -/
theorem controlFlitRx_takes (hp : p < s.fabric.ports.length) (hl : (s.port p).linked = true) (hg : f.crcGood = true)
    (hk : Flit.known f 1 = true) (ha : (s.port p).state = .active) (credits : List Nat) :
    Completes (.controlFlitRx p f credits) s fun u =>
      (u.port p).lastRx = (s.port p).lastRx ∧
      (u.port p).replay = (if f.ackValid then ackReplay f.ackSeq (s.port p).replay else (s.port p).replay) ∧
      ∀ v < 8, (u.port p).credits.getD v 0 = min (vcBuffer v) ((s.port p).credits.getD v 0 + credits.getD v 0) := by
  have e : exec (.controlFlitRx p f credits) s = execControlFlitRx p f credits s := rfl
  unfold execControlFlitRx at e
  dsimp only at e
  rw [if_neg (by rw [hl]; decide), if_neg (by rw [hg, hk]; decide), if_pos (by rw [ha]; rfl)] at e
  refine ⟨_, e, ?_⟩
  beta_reduce
  have good := State.flitArrives_good (s := s) (p := p) hg
  have hp1 : p < (s.flitArrives p f).fabric.ports.length := good ▸ hp
  obtain ⟨hreplay, w, n, times, hport⟩ := State.takeAck_keeps hp1 f
  rw [State.port_of_ports good] at hreplay hport
  rw [State.takeCredits_port ((State.takeAck_length ..).symm ▸ hp1)]
  dsimp only
  refine ⟨by rw [hport], hreplay, fun v hv => ?_⟩
  have hcredits : ((s.flitArrives p f).takeAck p f |>.port p).credits = (s.port p).credits := by rw [hport]
  rw [hcredits]
  simp [List.getD_eq_getElem?_getD, hv]

/-! ### Acknowledgements and idle flits (R249, R256, R261) -/

theorem ackTimer_sends (hp : p < s.fabric.ports.length) (hl : (s.port p).linked = true)
    (hdue : ((s.port p).ackDue || (s.port p).creditsDue.any (· ≠ 0)) = true) : Completes (.ackTimer p) s fun u =>
      (u.port p).ackDue = false ∧ (u.port p).creditsDue = List.replicate 8 0 ∧
        (if (s.port p).sinceIdle < 2047 then
            (u.port p).wire = [(s.port p).controlFlit] ∧ (u.port p).sinceIdle = (s.port p).sinceIdle + 1
          else (u.port p).wire = [(s.port p).idleFlit, (s.port p).controlFlit] ∧ (u.port p).sinceIdle = 1) ∧
        u.memory = s.memory := by
  have e : exec (.ackTimer p) s = execAckTimer p s := rfl
  unfold execAckTimer at e
  rw [if_pos (by rw [hl, hdue]; rfl)] at e
  refine ⟨_, e, ?_⟩
  beta_reduce
  rw [State.modPort_port hp]
  refine ⟨rfl, rfl, ?_, rfl⟩
  unfold Port.sendFlits
  rw [List.length_singleton]
  by_cases h : (s.port p).sinceIdle < 2047
  · rw [if_pos h, if_neg (by omega)]
    exact ⟨rfl, rfl⟩
  · rw [if_neg h, if_pos (by omega)]
    exact ⟨rfl, rfl⟩

theorem ackTimer_nothing_due (hdue : ((s.port p).ackDue || (s.port p).creditsDue.any (· ≠ 0)) = false) :
    exec (.ackTimer p) s = .next s := by
  have e : exec (.ackTimer p) s = execAckTimer p s := rfl
  unfold execAckTimer at e
  rw [if_neg (by rw [hdue, Bool.and_false]; decide)] at e
  exact e

theorem idleFlitInsert_sends (hp : p < s.fabric.ports.length) (hl : (s.port p).linked = true) :
    Completes (.idleFlitInsert p) s fun u =>
      (u.port p).wire = [(s.port p).idleFlit] ∧ (u.port p).sinceIdle = 0 ∧ (u.port p).ackDue = false := by
  have e : exec (.idleFlitInsert p) s = execIdleFlitInsert p s := rfl
  unfold execIdleFlitInsert at e
  rw [if_pos hl] at e
  refine ⟨_, e, ?_⟩
  beta_reduce
  rw [State.modPort_port hp]
  exact ⟨rfl, rfl, rfl⟩

/-! ### Frames (R262, R264, R266) -/

theorem frameClose_empty (hq : (s.port p).queue = []) : exec (.frameClose p) s = .next s := by
  have e : exec (.frameClose p) s = .next (if (s.port p).linked then s.closeFrame p else s) := rfl
  rw [e]
  split
  · unfold State.closeFrame
    dsimp only
    rw [hq]
    rfl
  · rfl

/-- A frame takes its packets from the queue in the order of arbitration, and its flits stay in the replay buffer (R255,
R262, R264). -/
theorem frameClose_sends (hp : p < s.fabric.ports.length) (hl : (s.port p).linked = true) {out rest : List OutPacket}
    {after round : List Nat} {used : Nat}
    (hf : fillFrame (s.port p).queue
        (if (s.port p).state == .active then (s.port p).credits else if (s.port p).keyed then [vcBuffer 0] else []) 0
        (s.port p).round (s.port p).queue.length = (out, rest, after, round, used))
    (ho : out ≠ []) (hr : (s.port p).replay.length + ceilDiv (used + 1) 15 ≤ 1023) :
    Completes (.frameClose p) s fun u =>
      (u.port p).queue = rest ∧ (u.port p).lastFrame = out.map s.leaves ∧
        (u.port p).txFrames = (s.port p).txFrames + 1 ∧
        (u.port p).round = round ∧ ((s.port p).state = .active → (u.port p).credits = after) ∧
        (u.port p).replay =
          (s.port p).replay ++ (s.port p).dataFlits (s.frameSlotBytes p (out.map s.leaves)) ∧
        (u.port p).nextSeq = ((s.port p).nextSeq + ceilDiv (used + 1) 15) % 1024 ∧ (u.port p).ackDue = false := by
  have e : exec (.frameClose p) s = .next (if (s.port p).linked then s.closeFrame p else s) := rfl
  rw [if_pos hl] at e
  refine ⟨_, e, ?_⟩
  unfold State.closeFrame
  dsimp only
  rw [hf]
  dsimp only
  rw [if_neg (by simp [ho, Nat.not_lt.2 hr])]
  have tail : ∀ v : State, (out.foldl (fun (s : State) o =>
      if (s.traceHeader p o.type o.packet).isRequest o then (s.traceHeader p o.type o.packet).startTimer o.packet.tag
      else s.traceHeader p o.type o.packet) v).fabric.ports = v.fabric.ports := fun v => by
    refine foldl_keeps (fun v : State => v.fabric.ports) _ (fun v o => ?_) _ _
    have traced : (v.traceHeader p o.type o.packet).fabric.ports = v.fabric.ports :=
      State.ports_of_kept (State.trace_kept ..)
    split
    · exact (State.startTimer_ports ..).trans traced
    · exact traced
  rw [State.port_of_ports (tail _), State.port_of_ports (State.count_ports ..), State.modPort_port hp]
  obtain ⟨first, n, -, hsent⟩ := Port.sendFlits_eq (s.port p)
    (((s.port p).dataFlits (s.frameSlotBytes p (out.map s.leaves))).map (·.2))
  rw [hsent]
  exact ⟨rfl, rfl, rfl, rfl, fun ha => if_pos (by rw [ha]; rfl), rfl, rfl, rfl⟩

/-- A frame whose tag verifies goes to the port's receive buffers (R264). -/
theorem encryptionFrameRx_delivers (hl : (s.port p).linked = true) {slots : Bytes} {tag : BitVec 128}
    (hh : (s.port p).holdsFrame slots tag = true) (ht : s.rxTag p slots = tag) :
    exec (.encryptionFrameRx p slots tag) s = .next ((s.modPort p fun x => x.deliverFrame slots).dropUnlisted p) := by
  have e : exec (.encryptionFrameRx p slots tag) s = execEncryptionFrameRx p slots tag s := rfl
  unfold execEncryptionFrameRx at e
  rw [if_neg (by rw [hl, hh]; decide), if_pos ht] at e
  exact e

/-- One whose tag fails counts as not received, with its flits (R264, R266). -/
theorem encryptionFrameRx_discards (hp : p < s.fabric.ports.length) (hl : (s.port p).linked = true) {slots : Bytes}
    {tag : BitVec 128} (hh : (s.port p).holdsFrame slots tag = true) (ht : s.rxTag p slots ≠ tag) :
    Completes (.encryptionFrameRx p slots tag) s fun u =>
      (u.port p).rxFrames = (s.port p).rxFrames ∧ (u.port p).rxStream = (s.port p).rxStream ∧ (u.port p).rxSlots = [] ∧
        (u.port p).nakSent = true ∧ (u.port p).ackDue = true ∧
        (u.port p).lastRx = ((s.port p).lastRx + 1024 - (s.port p).rxSlots.length / 240 % 1024) % 1024 := by
  have e : exec (.encryptionFrameRx p slots tag) s = execEncryptionFrameRx p slots tag s := rfl
  unfold execEncryptionFrameRx at e
  rw [if_neg (by rw [hl, hh]; decide), if_neg ht] at e
  refine ⟨_, e, ?_⟩
  beta_reduce
  rw [State.port_of_ports (State.count_ports ..), State.modPort_port hp]
  exact ⟨rfl, rfl, rfl, rfl, rfl, rfl⟩

theorem encryptionFrameRx_none {slots : Bytes} {tag : BitVec 128} (hh : (s.port p).holdsFrame slots tag = false) :
    exec (.encryptionFrameRx p slots tag) s = .next s := by
  have e : exec (.encryptionFrameRx p slots tag) s = execEncryptionFrameRx p slots tag s := rfl
  unfold execEncryptionFrameRx at e
  rw [if_pos (by rw [hh]; exact Bool.or_true _)] at e
  exact e

end Ports

/-- Settles O48: each command by its conditions; what arrives or leaves is read off the port that it changes. -/
theorem flitsAndFrames : Obligations.FlitsAndFrames := by
  unfold Obligations.FlitsAndFrames
  intro s p f credits hp hl
  refine ⟨dataFlitRx_accepts hp hl, dataFlitRx_discards hl, ?_,
    fun hg hk ha => controlFlitRx_takes hp hl hg hk ha credits, ackTimer_sends hp hl, ackTimer_nothing_due,
    idleFlitInsert_sends hp hl, frameClose_empty, fun _ _ _ _ _ hf => frameClose_sends hp hl hf,
    fun _ _ => encryptionFrameRx_delivers hl, fun _ _ => encryptionFrameRx_discards hp hl,
    fun _ _ => encryptionFrameRx_none⟩
  intro hg c hc
  have bad := State.flitArrives_bad hp hg
  obtain ⟨hdata, hcontrol⟩ := badFlit_asks hl hg credits
  rcases List.mem_pair.1 hc with rfl | rfl
  · exact ⟨_, hdata, by beta_reduce; rw [bad]; exact ⟨rfl, rfl, rfl, rfl⟩⟩
  · exact ⟨_, hcontrol, by beta_reduce; rw [bad]; exact ⟨rfl, rfl, rfl, rfl⟩⟩

end Sys2Proof.Machine
end

section
/-! CLAIMS. Packets of other modules: their checks, their service and their ends (R144, R242, R260, R269 to R277). -/

namespace Sys2Proof.Machine

/-- The requests that a module serves, with their types. -/
def requestRows : List ((Nat → Packet → Instr) × Nat) :=
  [(.readReq, tReadReq), (.writeReq, tWriteReq), (.atomicReq, tAtomicReq), (.semPostPacket, tSemPost)]

/-- The responses that a module takes, with their types. -/
def responseRows : List ((Nat → Packet → Instr) × Nat) :=
  [(.readRsp, tReadRsp), (.writeAck, tWriteAck), (.atomicRsp, tAtomicRsp), (.semAck, tSemAck), (.repairRsp, tRepairRsp)]

section Packets
variable {s : State} {p type : Nat} {k : Packet}

/-! ### What arrives (R260, R264, R269 to R271, R276) -/

theorem State.arrived_kept (s : State) (p type : Nat) (k : Packet) :
    (s.arrived p type k).kept = (s.modPort p Port.take).kept := State.trace_kept ..

@[simp] theorem State.arrived_memory (s : State) (p type : Nat) (k : Packet) : (s.arrived p type k).memory = s.memory :=
  (State.memory_of_kept (s.arrived_kept p type k)).trans rfl

@[simp] theorem State.arrived_requests (s : State) (p type : Nat) (k : Packet) :
    (s.arrived p type k).fabric.requests = s.fabric.requests :=
  (State.congr_kept (g := fun v : State => v.fabric.requests) (fun _ => rfl) (s.arrived_kept p type k)).trans rfl

theorem MemoryClean.of_memory {u : State} (h : MemoryClean s) (hm : u.memory = s.memory) : MemoryClean u :=
  ⟨hm ▸ h.ecc, hm ▸ h.cellar, hm ▸ h.repairing, hm ▸ h.retiring, hm ▸ h.lost, hm ▸ h.lostPages⟩

theorem State.takeFront_stands (h : Stands s p type k) : s.takeFront p type k = some (s.arrived p type k) := by
  unfold State.takeFront
  rw [if_pos (by rw [h.delivers, h.front, beq_self_eq_true]; rfl)]
  rfl

/-- A packet that the port does not deliver, or that does not stand at its front, is not seen (R264). -/
theorem State.takeFront_unseen
    (h : s.delivers p type = false ∨ (s.port p).front ≠ some (type, { k with span := none })) :
    s.takeFront p type k = none := by
  unfold State.takeFront
  refine if_neg fun hc => ?_
  rw [Bool.and_eq_true, beq_iff_eq] at hc
  rcases h with h | h
  · exact Bool.false_ne_true (h.symm.trans hc.1)
  · exact h hc.2

theorem State.receive_unseen (h : s.takeFront p type k = none) (go : State → State) : s.receive p type k go = s := by
  unfold State.receive
  rw [h]

theorem State.receive_stale {v : State} (h : Stands s p type k) (hv : (s.arrived p type k).staleDrop p type k = some v)
    (go : State → State) : s.receive p type k go = v.dropUnlisted p := by
  unfold State.receive
  rw [State.takeFront_stands h]
  dsimp only
  rw [hv]

/-- A packet of bad form is a violation (R269). -/
theorem State.receive_malformed (h : Stands s p type k) (hv : (s.arrived p type k).staleDrop p type k = none)
    (hf : formOk type k = false) (go : State → State) :
    s.receive p type k go = ((s.arrived p type k).violates type k 1 p).dropUnlisted p := by
  unfold State.receive
  rw [State.takeFront_stands h]
  dsimp only
  rw [hv]
  dsimp only
  rw [if_pos (by rw [hf]; rfl)]

/-- A packet for another module is a violation (R269). -/
theorem State.receive_misrouted (h : Stands s p type k) (hv : (s.arrived p type k).staleDrop p type k = none)
    (hf : formOk type k = true) (hd : k.dstDevice ≠ s.lodge.deviceId) (go : State → State) :
    s.receive p type k go = ((s.arrived p type k).violates type k 2 p).dropUnlisted p := by
  unfold State.receive
  rw [State.takeFront_stands h]
  dsimp only
  rw [hv]
  dsimp only
  rw [if_neg (by rw [hf]; decide), if_pos hd]

theorem State.receive_arrives (h : Arrives s p type k) (go : State → State) :
    s.receive p type k go = (go (s.arrived p type k)).dropUnlisted p := by
  unfold State.receive
  rw [State.takeFront_stands h.toStands]
  dsimp only
  rw [h.fresh]
  dsimp only
  rw [if_neg (by rw [h.form]; decide), if_neg (not_not.2 h.mine)]

/-- A packet of an unlisted type or sub-operation is dropped as a violation (R276). -/
theorem State.dropUnlistedN_front {r : Nat × Packet} (hr : (s.port p).front = some r)
    (hl : listed r.1 r.2.operation = false)
    (hd : s.delivers p r.1 = true) (hv : (s.arrived p r.1 r.2).staleDrop p r.1 r.2 = none) (n : Nat) :
    State.dropUnlistedN p (n + 1) s = State.dropUnlistedN p n ((s.arrived p r.1 r.2).violation 1 p) := by
  rw [State.dropUnlistedN, hr]
  dsimp only
  rw [if_neg (by rw [hl, hd]; decide),
    show (s.modPort p Port.take).traceHeader p r.1 r.2 = s.arrived p r.1 r.2 from rfl, hv]
  rfl

/-! ### The commands of packets -/

theorem exec_requestRows (s : State) (p : Nat) (k : Packet) : ∀ e ∈ requestRows,
    exec (e.1 p k) s = .next (s.receive p e.2 k fun v => v.serve p e.2 k) :=
  List.forall_mem_cons.2 ⟨rfl, List.forall_mem_cons.2 ⟨rfl, List.forall_mem_cons.2 ⟨rfl,
    List.forall_mem_singleton.2 rfl⟩⟩⟩

theorem exec_responseRows (s : State) (p : Nat) (k : Packet) : ∀ e ∈ responseRows,
    exec (e.1 p k) s = .next (s.receive p e.2 k fun v => v.answer p e.2 k) :=
  List.forall_mem_cons.2 ⟨rfl, List.forall_mem_cons.2 ⟨rfl, List.forall_mem_cons.2 ⟨rfl,
    List.forall_mem_cons.2 ⟨rfl, List.forall_mem_singleton.2 rfl⟩⟩⟩⟩

/-- A request and a response are received in one way, and then each has its own. -/
theorem exec_rows (s : State) (p : Nat) (k : Packet) : ∀ e ∈ requestRows ++ responseRows,
    ∃ go, exec (e.1 p k) s = .next (s.receive p e.2 k go) := fun e he =>
  (List.mem_append.1 he).elim (fun h => ⟨_, exec_requestRows s p k e h⟩) (fun h => ⟨_, exec_responseRows s p k e h⟩)

theorem exec_repairRead_unseen (h : s.takeFront p tRepairRead k = none) : exec (.repairRead p k) s = .next s := by
  have e : exec (.repairRead p k) s = execRepairRead p k s := rfl
  unfold execRepairRead at e
  rw [h] at e
  exact e

theorem exec_repairRead_stale {v : State} (h : Stands s p tRepairRead k)
    (hv : (s.arrived p tRepairRead k).staleDrop p tRepairRead k = some v) :
    exec (.repairRead p k) s = .next (v.dropUnlisted p) := by
  have e : exec (.repairRead p k) s = execRepairRead p k s := rfl
  unfold execRepairRead at e
  rw [State.takeFront_stands h] at e
  dsimp only at e
  rw [hv] at e
  exact e

/-- A repair's read that is not stale, by its channel and its destination (R242). -/
theorem exec_repairRead_fresh (h : Stands s p tRepairRead k)
    (hv : (s.arrived p tRepairRead k).staleDrop p tRepairRead k = none) :
    exec (.repairRead p k) s = .next ((if k.vc ≠ 2 then (s.arrived p tRepairRead k).violation 1 p
      else if k.dstDevice ≠ s.lodge.deviceId then (s.arrived p tRepairRead k).violation 2 p
      else (s.arrived p tRepairRead k).serveRepair k).dropUnlisted p) := by
  have e : exec (.repairRead p k) s = execRepairRead p k s := rfl
  unfold execRepairRead at e
  rw [State.takeFront_stands h] at e
  dsimp only at e
  rw [hv] at e
  exact e

/-! ### Requests (R126, R144, R242, R272, R273) -/

theorem State.serve_refused {cause inst : Nat} (ht : type ≠ tColl) (h : s.admits p type k = .error (cause, inst)) :
    s.serve p type k = s.violates type k cause inst := by
  unfold State.serve
  rw [if_neg (by simpa using ht), h]

theorem State.serve_admitted {ct : Nat} (ht : type ≠ tColl) (h : s.admits p type k = .ok ct) :
    s.serve p type k = s.carryOut p type k ct := by
  unfold State.serve
  rw [if_neg (by simpa using ht), h]

/-- What finds its pages in place and its lines whole is carried out at once (R226, R243). -/
theorem State.whenHere_clean (hc : MemoryClean s) {a n : Nat} (ha : s.awayPages a n = []) (p type : Nat) (k : Packet)
    (ct : Nat) (go : State → State) : s.whenHere p type k ct a n go = go s := by
  unfold State.whenHere
  rw [ha]
  dsimp only
  rw [State.checkRead_clean _ _ _ hc.ecc hc.cellar, ite_self, State.repairingIn_nil hc.repairing hc.retiring]
  rfl

/-- A read is answered with the bytes of its range, and with zeros where a loan is kept from its device (R126, R424). -/
theorem State.carryOut_read (hc : MemoryClean s) (ha : s.awayPages (locOf k.address) k.length = [])
    (hsel : k.select = false) (ct : Nat) :
    (s.suppressedBy (locOf k.address) k.length k.srcDevice = none →
      s.carryOut p tReadReq k ct = (s.touch (locOf k.address) k.length).respond tReadRsp k k.length 0
        (s.bytesAt (locOf k.address) k.length)) ∧
    (∀ id, s.suppressedBy (locOf k.address) k.length k.srcDevice = some id →
      s.carryOut p tReadReq k ct = (s.countSuppressed id k.length).respond tReadRsp k k.length 0 (zeros k.length)) := by
  have e : s.carryOut p tReadReq k ct = s.serveRead p k ct := rfl
  rw [e]
  unfold State.serveRead
  dsimp only
  rw [hsel, if_neg Bool.false_ne_true]
  dsimp only
  unfold State.readFor
  refine ⟨fun hs => ?_, fun id hs => ?_⟩
  · dsimp only
    rw [hs]
    dsimp only
    rw [State.whenHere_clean hc ha, State.lostIn_nil hc]
    rfl
  · dsimp only
    rw [hs]

theorem State.carryOut_write (hc : MemoryClean s) (ha : s.awayPages (locOf k.address) k.length = []) (ct : Nat) :
    s.carryOut p tWriteReq k ct =
      (s.store (locOf k.address + (k.span.getD (0, k.length)).1) ((k.payload.drop (k.span.getD (0, k.length)).1).take
        ((k.span.getD (0, k.length)).2 - (k.span.getD (0, k.length)).1))).respond tWriteAck k 0 := by
  have e : s.carryOut p tWriteReq k ct = s.whenHere p tWriteReq k ct (locOf k.address) k.length fun s1 =>
      (s1.store (locOf k.address + (k.span.getD (0, k.length)).1) ((k.payload.drop (k.span.getD (0, k.length)).1).take
        ((k.span.getD (0, k.length)).2 - (k.span.getD (0, k.length)).1))).respond tWriteAck k 0 := rfl
  rw [e, State.whenHere_clean hc ha]

theorem State.carryOut_atomic (hc : MemoryClean s) (ha : s.awayPages (locOf k.address) 8 = []) (ct : Nat) :
    s.carryOut p tAtomicReq k ct =
      ((s.touch (locOf k.address) 8).atomicAt (locOf k.address) k.operation k.operand
        (BitVec.ofNat 64 (field k.payload 0 8))).respond tAtomicRsp k 0
          (BitVec.ofNat 64 (leNat (s.bytesAt (locOf k.address) 8))) := by
  have e : s.carryOut p tAtomicReq k ct = s.whenHere p tAtomicReq k ct (locOf k.address) 8 fun s1 =>
      if (s1.lostIn (locOf k.address) 8).isEmpty then
        ((s1.touch (locOf k.address) 8).atomicAt (locOf k.address) k.operation k.operand
          (BitVec.ofNat 64 (field k.payload 0 8))).respond tAtomicRsp k 0
            (BitVec.ofNat 64 (leNat (s1.bytesAt (locOf k.address) 8)))
      else (s1.countLost (locOf k.address) 8).refuseRead tAtomicRsp k .weightLost := rfl
  rw [e, State.whenHere_clean hc ha, State.lostIn_nil hc]
  rfl

theorem State.carryOut_post (hc : MemoryClean s) (ha : s.awayPages (locOf k.address) 16 = []) (ct : Nat) :
    s.carryOut p tSemPost k ct = (s.semAdd 0 (locOf k.address) k.operand.toNat).respond tSemAck k 0 := by
  have e : s.carryOut p tSemPost k ct = s.whenHere p tSemPost k ct (locOf k.address) 16 fun s1 =>
      (s1.semAdd 0 (locOf k.address) k.operand.toNat).respond tSemAck k 0 := rfl
  rw [e, State.whenHere_clean hc ha]

theorem State.suppressedBy_refused {id : Word} (h : s.suppressedBy (locOf k.address) lineBytes k.srcDevice = some id) :
    s.repairRefused k = true := by
  unfold State.repairRefused
  dsimp only
  split
  · rfl
  · rw [h, Option.isSome_some, Bool.or_true]

/-- A line for a repair is given, or refused (R242). -/
theorem State.serveRepair_clean (hc : MemoryClean s) :
    (s.repairRefused k = false → s.serveRepair k =
      (s.touch (locOf k.address) lineBytes).respond tRepairRsp k lineBytes 0 (s.bytesAt (locOf k.address) lineBytes)) ∧
    (s.repairRefused k = true → s.suppressedBy (locOf k.address) lineBytes k.srcDevice = none →
      s.serveRepair k = s.respond tRepairRsp k 0 0 [] 1) ∧
    (∀ id, s.suppressedBy (locOf k.address) lineBytes k.srcDevice = some id →
      s.serveRepair k = (s.countSuppressed id lineBytes).respond tRepairRsp k 0 0 [] 1) := by
  unfold State.serveRepair
  dsimp only
  refine ⟨fun hr => ?_, fun hr hs => ?_, fun id hs => ?_⟩
  · cases hs : s.suppressedBy (locOf k.address) lineBytes k.srcDevice with
    | some id => exact absurd (hr.symm.trans (State.suppressedBy_refused hs)) Bool.false_ne_true
    | none =>
      dsimp only
      rw [hr, if_neg Bool.false_ne_true, State.checkRead_clean _ _ _ hc.ecc hc.cellar,
        State.repairingIn_nil hc.repairing hc.retiring, State.lostIn_nil hc]
      rfl
  · rw [hs, hr]
    rfl
  · rw [hs, State.suppressedBy_refused hs]
    rfl

/-! ### Responses, and requests that have run out of time (R273 to R275) -/

theorem State.answer_unknown (h : Map.get? s.fabric.requests k.tag = none) :
    s.answer p type k = s.count cLateResponse p := by
  unfold State.answer
  rw [h]

/-- A response ends the request of its tag; one of another type or module is counted as late (R273). -/
theorem State.answer_known {r : Request} (h : Map.get? s.fabric.requests k.tag = some r) :
    s.answer p type k = if responseType r.out.type == type && r.out.packet.dstDevice == k.srcDevice then
      s.endRequest k.tag (if k.status = 1 then .refused k.operand.toNat else .ok k.operand k.payload)
    else s.count cLateResponse p := by
  unfold State.answer
  rw [h]

theorem exec_fabricTimeout (s : State) (tag : Nat) : exec (.fabricTimeout tag) s = .next
    (if (Map.get? s.fabric.requests tag).any fun r => r.over s.now then s.endRequest tag .expired else s) := rfl

/-! ### Flows whose port has failed (R274, R275) -/

theorem State.flowMove_stays {q dst vc : Nat} (h : Map.get? s.fabric.flows (flowKey dst vc) = some q)
    (hs : s.portUp (q % 8) = true ∨ s.choosePort dst vc = none) : s.flowMove dst vc = s := by
  unfold State.flowMove
  rw [h]
  dsimp only
  rcases hs with hs | hs
  · rw [if_pos hs]
  · rw [hs, ite_self]

/-- The requests of a flow that have left by its port and are not sent again (R275). -/
def State.deadBy (s : State) (dst vc port : Nat) : List Nat :=
  (s.sentBy dst vc port ((s.port port).queue.filter fun o => inFlow o.packet dst vc)).filter fun tag =>
    ((Map.get? s.fabric.requests tag).map fun r => r.out.type).getD 0 == tAtomicReq ||
      ((Map.get? s.fabric.requests tag).map fun r => r.out.type).getD 0 == tSemPost

/-- A port that is there, or not, has of its queue what a filter leaves. -/
theorem State.modPort_filter (s : State) (p : Nat) (keep : OutPacket → Bool) :
    ((s.modPort p fun x => { x with queue := x.queue.filter keep }).port p).queue = (s.port p).queue.filter keep := by
  by_cases hp : p < s.fabric.ports.length
  · rw [State.modPort_port hp]
  · have none : s.port p = {} := List.getD_eq_default _ _ (Nat.not_lt.1 hp)
    have none' : (s.modPort p fun x => { x with queue := x.queue.filter keep }).port p = {} :=
      List.getD_eq_default _ _ (by rw [State.modPort_length]; exact Nat.not_lt.1 hp)
    rw [none, none']
    rfl

/-- A flow whose port has failed moves: none of its packets stays in the port's queue (R275). -/
theorem State.flowMove_moves {q n dst vc : Nat} (h : Map.get? s.fabric.flows (flowKey dst vc) = some q)
    (hu : s.portUp (q % 8) = false) (hc : s.choosePort dst vc = some n) (hn : n ≠ q % 8) :
    ∃ v : State, s.flowMove dst vc =
        ((s.deadBy dst vc (q % 8)).foldl (fun (s : State) tag => s.endRequest tag .expired) v).pump ∧
      Map.get? v.fabric.flows (flowKey dst vc) = some n ∧ v.memory = s.memory ∧
      ∀ o ∈ (v.port (q % 8)).queue, inFlow o.packet dst vc = false := by
  unfold State.flowMove
  rw [h]
  dsimp -zeta only
  extract_lets old queued sent type again dead copies moved s0
  rw [show (if s.portUp old = true then none else s.choosePort dst vc) = some n by rw [if_neg (by rw [hu]; decide), hc]]
  dsimp -zeta only
  extract_lets s1 s2 s3
  have e0 : s0.kept = s.kept := by
    unfold s0 State.endStall
    split
    · rfl
    · split
      · exact State.countFree_kept ..
      · rfl
  have e1 : s1.memory = s.memory ∧ Map.get? s1.fabric.flows (flowKey dst vc) = some n ∧
      (s1.port old).queue = (s.port old).queue.filter fun o => !inFlow o.packet dst vc := by
    have counted : ((s0.setFlow dst vc n).count cFlowMoves old).kept = (s0.setFlow dst vc n).kept := State.count_kept ..
    refine ⟨(State.memory_of_kept counted).trans (State.memory_of_kept e0 :), ?_, ?_⟩
    · exact (State.congr_kept (g := fun v : State => Map.get? v.fabric.flows (flowKey dst vc)) (fun _ => rfl) counted).trans
        ((Map.get?_put ..).trans (if_pos rfl))
    · unfold s1
      rw [State.modPort_filter, State.port_of_ports (State.ports_of_kept counted)]
      have unmoved : (s0.setFlow dst vc n).port old = s0.port old := rfl
      rw [unmoved, State.port_of_ports (State.ports_of_kept e0)]
  have e2 : s2.memory = s1.memory ∧ s2.fabric.flows = s1.fabric.flows ∧ s2.port old = s1.port old := by
    have each := foldl_keeps (fun v : State => (v.memory, v.fabric.flows, v.port old))
      (fun (s : State) o => s.enqueue n o) (fun v o => by
        unfold State.enqueue
        rw [State.modPort_port_other (Ne.symm hn)]
        rfl) (copies ++ queued) s1
    simpa only [Prod.mk.injEq] using each
  have e3 : s3.memory = s2.memory ∧ s3.fabric.flows = s2.fabric.flows ∧ s3.port old = s2.port old := by
    have each := foldl_keeps (fun v : State => (v.memory, v.fabric.flows, v.port old))
      (fun (s : State) tag => s.modRequest tag fun r => { r with port := some n }) (fun v o => rfl) moved s2
    simpa only [Prod.mk.injEq] using each
  obtain ⟨m1, f1, q1⟩ := e1
  obtain ⟨m2, f2, q2⟩ := e2
  obtain ⟨m3, f3, q3⟩ := e3
  refine ⟨s3, rfl, by rw [f3, f2, f1], m3.trans (m2.trans m1), fun o ho => ?_⟩
  rw [q3, q2, q1, List.mem_filter] at ho
  simpa using ho.2

end Packets

/-! ### The obligation -/

/-- Requests that keep the rules of form are refused, or admitted and served. -/
theorem exec_request {s : State} {p : Nat} {k : Packet} {e : (Nat → Packet → Instr) × Nat} (he : e ∈ requestRows)
    (ha : Arrives s p e.2 k) :
    exec (e.1 p k) s = .next (((s.arrived p e.2 k).serve p e.2 k).dropUnlisted p) := by
  rw [exec_requestRows s p k e he, State.receive_arrives ha]

theorem exec_request_admitted {s : State} {p ct : Nat} {k : Packet} {e : (Nat → Packet → Instr) × Nat}
    (he : e ∈ requestRows) (ha : Arrives s p e.2 k) (h : (s.arrived p e.2 k).admits p e.2 k = .ok ct) :
    exec (e.1 p k) s = .next (((s.arrived p e.2 k).carryOut p e.2 k ct).dropUnlisted p) := by
  have types : ∀ e ∈ requestRows, e.2 ≠ tColl := by decide
  rw [exec_request he ha, State.serve_admitted (types e he) h]

theorem exec_request_refused {s : State} {p cause inst : Nat} {k : Packet} {e : (Nat → Packet → Instr) × Nat}
    (he : e ∈ requestRows) (ha : Arrives s p e.2 k) (h : (s.arrived p e.2 k).admits p e.2 k = .error (cause, inst)) :
    exec (e.1 p k) s = .next (((s.arrived p e.2 k).violates e.2 k cause inst).dropUnlisted p) := by
  have types : ∀ e ∈ requestRows, e.2 ≠ tColl := by decide
  rw [exec_request he ha, State.serve_refused (types e he) h]

/-- Settles O50: a packet is received in one way, whatever its type; what is admitted is carried out where its pages are in
place; and a flow that moves takes its packets with it. -/
theorem packetsAreCheckedServedAndEnd : Obligations.PacketsAreCheckedServedAndEnd := by
  unfold Obligations.PacketsAreCheckedServedAndEnd
  intro s p k
  have unseen : ∀ e ∈ (.repairRead, tRepairRead) :: requestRows ++ responseRows,
      s.takeFront p e.2 k = none → exec (e.1 p k) s = .next s := by
    intro e he h
    rcases List.mem_cons.1 he with rfl | he
    · exact exec_repairRead_unseen h
    · obtain ⟨go, hgo⟩ := exec_rows s p k e he
      rw [hgo, State.receive_unseen h]
  have clean : ∀ type, MemoryClean s → MemoryClean (s.arrived p type k) := fun type hc =>
    MemoryClean.of_memory hc (State.arrived_memory ..)
  have bytes : ∀ type a n, (s.arrived p type k).bytesAt a n = s.bytesAt a n := fun type a n => by
    unfold State.bytesAt
    rw [State.arrived_memory]
  refine ⟨fun e he => ⟨fun h => unseen e he (State.takeFront_unseen (.inl h)),
    fun h => unseen e he (State.takeFront_unseen (.inr h)), ?_⟩,
    fun r n hr hl hd hv => State.dropUnlistedN_front hr hl hd hv n,
    ?_, fun e he ha cause inst h => exec_request_refused he ha h, ?_, ?_, ?_, ?_, ?_, ?_, ?_, ?_, ?_⟩
  · intro v hs hv
    rcases List.mem_cons.1 he with rfl | he
    · exact exec_repairRead_stale hs hv
    · obtain ⟨go, hgo⟩ := exec_rows s p k e he
      rw [hgo, State.receive_stale hs hv]
  · intro e he hs hv
    obtain ⟨go, hgo⟩ := exec_rows s p k e he
    rw [hgo]
    refine ⟨fun hf => ?_, fun hf hd => ?_⟩
    · rw [State.receive_malformed hs hv hf]
    · rw [State.receive_misrouted hs hv hf hd]
  · intro ct ha h hsel v hp hc
    obtain ⟨read, suppressed⟩ := State.carryOut_read (p := p) (clean tReadReq hc) hp hsel ct
    have e := exec_request_admitted (e := (.readReq, tReadReq)) (.head _) ha h
    refine ⟨fun hs => ?_, fun id hs => ?_⟩
    · rw [e, read hs, bytes]
    · rw [e, suppressed id hs]
  · intro ct ha h v r hp hc
    rw [exec_request_admitted (e := (.writeReq, tWriteReq)) (.tail _ (.head _)) ha h,
      State.carryOut_write (clean tWriteReq hc) hp]
  · intro ct ha h v hp hc
    rw [exec_request_admitted (e := (.atomicReq, tAtomicReq)) (.tail _ (.tail _ (.head _))) ha h,
      State.carryOut_atomic (clean tAtomicReq hc) hp, bytes]
  · intro ct ha h v hp hc
    rw [exec_request_admitted (e := (.semPostPacket, tSemPost)) (.tail _ (.tail _ (.tail _ (.head _)))) ha h,
      State.carryOut_post (clean tSemPost hc) hp]
  · intro hs hv w
    have e := exec_repairRead_fresh hs hv
    refine ⟨fun h2 => ?_, fun h2 hd => ?_, fun h2 hd hc => ?_⟩
    · rw [e, if_pos h2]
    · rw [e, if_neg (not_not.2 h2), if_pos hd]
    · rw [if_neg (not_not.2 h2), if_neg (not_not.2 hd)] at e
      obtain ⟨given, refused, suppressed⟩ := State.serveRepair_clean (k := k) (clean tRepairRead hc)
      refine ⟨fun hr => ?_, fun hr hn => ?_, fun id hi => ?_⟩
      · rw [e, given hr, bytes]
      · rw [e, refused hr hn]
      · rw [e, suppressed id hi]
  · intro e he ha w
    have x := exec_responseRows s p k e he
    rw [State.receive_arrives ha] at x
    refine ⟨fun hr => ?_, fun r hr => ⟨fun ht hd => ?_, fun h => ?_⟩⟩
    · rw [x, State.answer_unknown ((congrArg (Map.get? · k.tag) (State.arrived_requests ..)).trans hr)]
    all_goals rw [x, State.answer_known ((congrArg (Map.get? · k.tag) (State.arrived_requests ..)).trans hr)]
    · rw [if_pos (by simp [ht, hd])]
    · rw [if_neg (by rcases h with h | h <;> simp [h])]
  · intro tag r hr
    rw [exec_fabricTimeout, hr, Option.any_some]
    refine ⟨fun h => ?_, fun h => ?_⟩
    · rw [h, if_pos rfl]
    · rw [h, if_neg Bool.false_ne_true]
  · intro tag hr
    rw [exec_fabricTimeout, hr]
    rfl
  · intro dst vc q hq
    have e : exec (.flowMove dst vc) s = .next (s.flowMove dst vc) := rfl
    rw [e]
    refine ⟨fun hu => ?_, fun hu hc => ?_, fun n hu hc hn => ?_⟩
    · rw [State.flowMove_stays hq (.inl hu)]
    · rw [State.flowMove_stays hq (.inr hc)]
    · obtain ⟨v, hv, rest⟩ := State.flowMove_moves hq hu hc hn
      exact ⟨v, congrArg Host.Outcome.next hv, rest⟩

end Sys2Proof.Machine
end

section
/-! CLAIMS. Packets of collectives (R302, R304, R307, R308, R316, R317). -/

namespace Sys2Proof.Machine

section Packets
variable {s : State} {p sub : Nat} {k : Packet} {go : Packet → CollHdr → State → State}

/-! ### What a packet that has arrived leaves as it was -/

theorem State.arrived_eq {β : Type} (g : State → β) (hk : ∀ v, g v.kept = g v)
    (hp : ∀ v : State, g (v.modPort p Port.take) = g v) (type : Nat) : g (s.arrived p type k) = g s :=
  (State.congr_kept hk (s.arrived_kept p type k)).trans (hp s)

/-! ### The checks of R308 -/

theorem State.collArrives_other (h : k.operation ≠ sub) : s.collArrives p sub k go = s := if_pos h

/-- What arrives of a sub-operation is checked in order (R308). -/
theorem State.collArrives_arrives (ho : k.operation = sub) (ha : Arrives s p tColl k) :
    s.collArrives p sub k go =
      (if k.payload.length < 48 then (s.arrived p tColl k).violation 1 p
        else match (s.arrived p tColl k).headerGroup (CollHdr.parse k.payload) with
          | none => (s.arrived p tColl k).lateColl
          | some g =>
            if !(s.arrived p tColl k).memberOk g k (CollHdr.parse k.payload) then
              (s.arrived p tColl k).violation 4 (CollHdr.parse k.payload).dstCtx
            else if sub ≠ subProbeRsp && (CollHdr.parse k.payload).epoch ≠ g.epoch then (s.arrived p tColl k).lateColl
            else go k (CollHdr.parse k.payload) (s.arrived p tColl k)).dropUnlisted p :=
  (if_neg (not_not.2 ho)).trans (State.receive_arrives ha _)

theorem State.collArrives_short (ho : k.operation = sub) (ha : Arrives s p tColl k) (hl : k.payload.length < 48) :
    s.collArrives p sub k go = ((s.arrived p tColl k).violation 1 p).dropUnlisted p := by
  rw [State.collArrives_arrives ho ha, if_pos hl]

theorem State.collArrives_groupless (ho : k.operation = sub) (ha : Arrives s p tColl k) (hl : 48 ≤ k.payload.length)
    (hg : (s.arrived p tColl k).headerGroup (CollHdr.parse k.payload) = none) :
    s.collArrives p sub k go = ((s.arrived p tColl k).count cCollLateDrops 0).dropUnlisted p := by
  rw [State.collArrives_arrives ho ha, if_neg (Nat.not_lt.2 hl), hg]
  rfl

variable {g : CollGroup}

theorem State.collArrives_stranger (ho : k.operation = sub) (ha : Arrives s p tColl k) (hl : 48 ≤ k.payload.length)
    (hg : (s.arrived p tColl k).headerGroup (CollHdr.parse k.payload) = some g)
    (hm : (s.arrived p tColl k).memberOk g k (CollHdr.parse k.payload) = false) :
    s.collArrives p sub k go =
      ((s.arrived p tColl k).violation 4 (CollHdr.parse k.payload).dstCtx).dropUnlisted p := by
  rw [State.collArrives_arrives ho ha, if_neg (Nat.not_lt.2 hl), hg]
  dsimp only
  rw [if_pos (by rw [hm]; rfl)]

theorem State.collArrives_stale (ho : k.operation = sub) (hs : sub ≠ subProbeRsp) (ha : Arrives s p tColl k)
    (hl : 48 ≤ k.payload.length) (hg : (s.arrived p tColl k).headerGroup (CollHdr.parse k.payload) = some g)
    (hm : (s.arrived p tColl k).memberOk g k (CollHdr.parse k.payload) = true)
    (he : (CollHdr.parse k.payload).epoch ≠ g.epoch) :
    s.collArrives p sub k go = ((s.arrived p tColl k).count cCollLateDrops 0).dropUnlisted p := by
  rw [State.collArrives_arrives ho ha, if_neg (Nat.not_lt.2 hl), hg]
  dsimp only
  rw [if_neg (by rw [hm]; decide), if_pos (by simp [hs, he])]
  rfl

/-- A packet of a member, of the group's epoch or a probe's answer, goes to its collective (R308). -/
theorem State.collArrives_member (ho : k.operation = sub) (ha : Arrives s p tColl k) (hl : 48 ≤ k.payload.length)
    (hg : (s.arrived p tColl k).headerGroup (CollHdr.parse k.payload) = some g)
    (hm : (s.arrived p tColl k).memberOk g k (CollHdr.parse k.payload) = true)
    (he : sub = subProbeRsp ∨ (CollHdr.parse k.payload).epoch = g.epoch) :
    s.collArrives p sub k go = (go k (CollHdr.parse k.payload) (s.arrived p tColl k)).dropUnlisted p := by
  rw [State.collArrives_arrives ho ha, if_neg (Nat.not_lt.2 hl), hg]
  dsimp only
  rw [if_neg (by rw [hm]; decide), if_neg (by rcases he with he | he <;> simp [he])]

end Packets

/-- The packets of collectives that any group's epoch drops, with their sub-operations and what becomes of them. -/
noncomputable def collRows (p : Nat) (k : Packet) : List ((Nat → Packet → Instr) × Nat × (State → State)) :=
  [(.collData, subData, fun u => u.matchColl k (CollHdr.parse k.payload)),
    (.collResult, subResult, fun u => u.matchColl k (CollHdr.parse k.payload)),
    (.pieceAck, subPieceAck, fun u => u.matchColl k (CollHdr.parse k.payload)),
    (.ready, subReady, fun u => u.matchColl k (CollHdr.parse k.payload)),
    (.arrive, subArrive, fun u => u.matchColl k (CollHdr.parse k.payload)),
    (.fwwClaim, subClaim, fun u => u.serveFww p k), (.fwwData, subFwwData, fun u => u.serveFww p k)]

/-- The row of a packet that is checked as R308 says, in whichever epoch. -/
def CollRow (s : State) (p : Nat) (k : Packet) (e : (Nat → Packet → Instr) × Nat × (State → State)) : Prop :=
  e.2.1 ≠ subProbeRsp ∧ ∃ go : Packet → CollHdr → State → State,
    exec (e.1 p k) s = .next (s.collArrives p e.2.1 k go) ∧ ∀ u, go k (CollHdr.parse k.payload) u = e.2.2 u

theorem exec_collRows (s : State) (p : Nat) (k : Packet) : ∀ e ∈ collRows p k, CollRow s p k e :=
  List.forall_mem_cons.2 ⟨⟨show subData ≠ subProbeRsp by decide, _, rfl, fun _ => rfl⟩,
    List.forall_mem_cons.2 ⟨⟨show subResult ≠ subProbeRsp by decide, _, rfl, fun _ => rfl⟩,
    List.forall_mem_cons.2 ⟨⟨show subPieceAck ≠ subProbeRsp by decide, _, rfl, fun _ => rfl⟩,
    List.forall_mem_cons.2 ⟨⟨show subReady ≠ subProbeRsp by decide, _, rfl, fun _ => rfl⟩,
    List.forall_mem_cons.2 ⟨⟨show subArrive ≠ subProbeRsp by decide, _, rfl, fun _ => rfl⟩,
    List.forall_mem_cons.2 ⟨⟨show subClaim ≠ subProbeRsp by decide, _, rfl, fun _ => rfl⟩,
    List.forall_mem_singleton.2 ⟨show subFwwData ≠ subProbeRsp by decide, _, rfl, fun _ => rfl⟩⟩⟩⟩⟩⟩⟩

/-! ### Probes (R302, R308) -/

/-- A probe is answered at once, unless its context is draining (R308, R382). -/
theorem exec_probe {s : State} {p : Nat} {k : Packet} (ho : k.operation = subProbe) (ha : Arrives s p tColl k)
    (hl : 48 ≤ k.payload.length) :
    exec (.probe p k) s = .next ((if ((s.arrived p tColl k).ctx (CollHdr.parse k.payload).dstCtx).state == .draining then
        (s.arrived p tColl k).lateColl
      else match (s.arrived p tColl k).headerGroup (CollHdr.parse k.payload) with
        | none => (s.arrived p tColl k).collReply k subProbeRsp (2 ^ 48 * 0xFFFF)
        | some g =>
          if !(s.arrived p tColl k).memberOk g k (CollHdr.parse k.payload) then
            (s.arrived p tColl k).violation 4 (CollHdr.parse k.payload).dstCtx
          else (s.arrived p tColl k).collReply k subProbeRsp
            ((s.arrived p tColl k).probeAnswer g (CollHdr.parse k.payload))).dropUnlisted p) :=
  congrArg Host.Outcome.next ((if_neg (not_not.2 ho)).trans ((State.receive_arrives ha _).trans
    (congrArg (State.dropUnlisted · p) (if_neg (Nat.not_lt.2 hl)))))

theorem exec_probeRsp (s : State) (p : Nat) (k : Packet) : exec (.probeRsp p k) s =
    .next (s.collArrives p subProbeRsp k fun k h s =>
      match (Map.get? s.fabric.requests k.tag).map (·.unit) with
      | some (ReqUnit.probe id j) => match s.coll? id with
        | none => s.lateColl
        | some c =>
          if c.epoch ≠ h.epoch || c.matchKey ≠ h.matchKey || c.kind ≠ h.kind || j ≠ h.src then s.lateColl
          else (s.endRequest k.tag (.ok k.operand [])).probed id j k.operand.toNat
      | _ => s.lateColl) := rfl

theorem exec_fwwClaimRsp (s : State) (p : Nat) (k : Packet) : exec (.fwwClaimRsp p k) s =
    .next (s.collArrives p subClaimRsp k fun k _ s =>
      match (Map.get? s.fabric.requests k.tag).map (·.unit) with
      | some (ReqUnit.claim id) =>
        ((s.endRequest k.tag (.ok k.operand [])).claimed id (k.operand.toNat % 65536) (bitOf k.operand.toNat 16)
          (k.operand.toNat / 2 ^ 32)).collStep id
      | _ => s.lateColl) := rfl

theorem exec_fwwDataAck (s : State) (p : Nat) (k : Packet) : exec (.fwwDataAck p k) s =
    .next (s.collArrives p subFwwAck k fun k h s =>
      match s.collOf h with
      | none => s.lateColl
      | some id =>
        if !(s.coll? id).any fun c => c.stage = 1 && c.op = opFwwPut then s.lateColl
        else (s.modColl id fun c =>
          { c with acked := Map.put c.acked h.src (Map.getD c.acked h.src 0 + 1)
                   lost := c.lost || !bitOf k.operand.toNat 16 }).collStep id) := rfl

/-- Probes go out again after each interval, while the context is active (R302). -/
theorem exec_probeInterval {s : State} {id : Nat} {c : Coll} {g : CollGroup} (hc : s.coll? id = some c)
    (hg : s.group? c.ctx c.group = some g) (h1 : c.stage = 1) : exec (.probeInterval id) s = .next
      (if (s.ctx c.ctx).state != .active then s else
        (s.awaited c g ++ s.unacked c).eraseDups.foldl (fun (s : State) j =>
          if Map.getD c.probed j 0 + s.probeEvery c.ctx ≤ s.now then s.probe id j else s) s) := by
  have e : exec (.probeInterval id) s = execProbeInterval id s := rfl
  rw [e]
  unfold execProbeInterval
  rw [hc]
  dsimp only
  rw [hg, h1]
  rfl

/-- A claim that is too old gives its slot back (R317). -/
theorem exec_fwwClaimExpiry {s : State} {a : Nat} {c : Claim} (hc : Map.get? s.coll.claims a = some c) :
    exec (.fwwClaimExpiry a) s = .next (if c.since + 2 * s.timeoutOf c.ctx * 1000 ≤ s.now then
      (s.releaseSlot a).count cFwwClaimsExpired 0 else s) := by
  have e : exec (.fwwClaimExpiry a) s = execFwwClaimExpiry a s := rfl
  rw [e]
  unfold execFwwClaimExpiry
  rw [hc]

/-- Settles O52: the checks of R308 are one function of what a port receives; past them each packet has its own rule. -/
theorem collectivePacketsReachTheirCollective : Obligations.CollectivePacketsReachTheirCollective := by
  unfold Obligations.CollectivePacketsReachTheirCollective
  intro s p k hd v go member
  have ctxs : ∀ c, v.ctx c = s.ctx c := fun c =>
    State.arrived_eq (fun u => u.ctx c) (fun _ => rfl) (fun _ => rfl) tColl
  have colls? : ∀ id, (s.arrived p tColl k).coll? id = s.coll? id := fun id =>
    State.arrived_eq (fun u => u.coll? id) (fun _ => rfl) (fun _ => rfl) tColl
  have collOf : (s.arrived p tColl k).collOf (CollHdr.parse k.payload) = s.collOf hd :=
    State.arrived_eq (fun u => u.collOf hd) (fun _ => rfl) (fun _ => rfl) tColl
  have requests : v.fabric.requests = s.fabric.requests := State.arrived_requests ..
  refine ⟨?_, ?_, ?_, ?_, ?_, ?_, ?_, ?_, ?_⟩
  · intro e he ho ha
    obtain ⟨hs, f, hf, hgo⟩ := exec_collRows s p k e he
    rw [hf]
    refine ⟨fun hl => ?_, fun hl hg => ?_, fun g hl hg => ⟨fun hm => ?_, fun hm => ⟨fun h => ?_, fun h => ?_⟩⟩⟩
    · rw [State.collArrives_short ho ha hl]
    · rw [State.collArrives_groupless ho ha hl hg]
    · rw [State.collArrives_stranger ho ha hl hg hm]
    · rw [State.collArrives_stale ho hs ha hl hg hm h]
    · rw [State.collArrives_member ho ha hl hg hm (.inr h), hgo]
  · intro e he ho
    obtain ⟨-, f, hf, -⟩ := exec_collRows s p k e he
    rw [hf, State.collArrives_other ho]
  · intro g ho ⟨hl, ha, hg, hm⟩ h
    have e : exec (.flag p k) s =
      .next (s.collArrives p subFlag k fun k h s => s.matchColl k h).versionsReady := rfl
    rw [e, State.collArrives_member ho ha hl hg hm (.inr h)]
  · intro hl ho ha
    have e := exec_probe ho ha hl
    refine ⟨fun hc => ?_, fun hc hg => ?_, fun g hc hg hm => ?_⟩
    · rw [e, ctxs, if_pos (by rw [hc]; rfl)]
      rfl
    · rw [e, ctxs, if_neg (by simpa using hc), hg]
    · rw [e, ctxs, if_neg (by simpa using hc), hg]
      dsimp only
      rw [if_neg (by rw [hm]; decide)]
  · intro g ho ⟨hl, ha, hg, hm⟩ r id j c hr hu hc h1 h2 h3 h4
    rw [exec_probeRsp, State.collArrives_member ho ha hl hg hm (.inl rfl), requests, hr]
    dsimp only [Option.map_some]
    rw [hu]
    dsimp only
    rw [colls?, hc]
    dsimp only
    rw [if_neg (by simp [h1, h2, h3, h4, hd])]
  · intro g ho ⟨hl, ha, hg, hm⟩ h r id hr hu
    rw [exec_fwwClaimRsp, State.collArrives_member ho ha hl hg hm (.inr h), requests, hr]
    dsimp only [Option.map_some]
    rw [hu]
  · intro g ho ⟨hl, ha, hg, hm⟩ h id c hid hc h1 h2
    rw [exec_fwwDataAck, State.collArrives_member ho ha hl hg hm (.inr h)]
    rw [collOf, hid]
    dsimp only
    rw [colls?, hc, if_neg (by simp [h1, h2])]
  · intro a c hc
    rw [exec_fwwClaimExpiry hc]
    exact ⟨fun h => by rw [if_pos h], fun h => by rw [if_neg (Nat.not_le.2 h)]⟩
  · intro id c g hc hg h1
    rw [exec_probeInterval hc hg h1]
    exact ⟨fun h => by rw [if_pos (by simpa using h)], fun h => by rw [if_neg (by simp [h])]⟩

end Sys2Proof.Machine
end

section
/-! SUPPORT. The twin's stream, its ends and a port that becomes `ACTIVE` leave launches, groups and what a module knows of
others as they were (R268, R399 to R405). -/

namespace Sys2Proof.Machine

theorem State.fleet_of_twin (s : State) (f : Twin → Twin) (hd : ∀ w, (f w).peerDrained = w.peerDrained)
    (hr : ∀ w, (f w).peerReady = w.peerReady) : (s.modTwin f).fleet = s.fleet := by
  unfold State.fleet
  rw [show (s.modTwin f).twin = f s.twin from rfl, hd, hr]
  rfl

@[simp] theorem State.raise_fleet (s : State) (cls level : Nat) (e : CatEntry) (detail : Nat) :
    (s.raise cls level e detail).fleet = s.fleet := State.fleet_of_kept (State.raise_kept ..)

@[simp] theorem State.busWrite_fleet (s : State) (a : Nat) (bs : Bytes) : (s.busWrite a bs).fleet = s.fleet := rfl

/-! ### The Party Wall (R399 to R405) -/

@[simp] theorem State.freeHeld_fleet (s : State) (p : MirrorEntry → Bool) : (s.freeHeld p).fleet = s.fleet := rfl

@[simp] theorem State.setPair_fleet (s : State) (p : PairState) : (s.setPair p).fleet = s.fleet := by
  unfold State.setPair
  split
  · rfl
  · exact State.raise_fleet ..

@[simp] theorem State.twinSend_fleet (s : State) (sub : Nat) (ckpt : Word) (data : Bytes) (off : Nat) (dev : Option Nat) :
    (s.twinSend sub ckpt data off dev).fleet = s.fleet := State.emit_fleet ..

@[simp] theorem State.dirSync_fleet (s : State) (gone : Word) : (s.dirSync gone).fleet = s.fleet := by
  unfold State.dirSync
  split
  · rfl
  · exact State.twinSend_fleet ..

@[simp] theorem State.sendAdopt_fleet (s : State) : s.sendAdopt.fleet = s.fleet := State.twinSend_fleet ..

@[simp] theorem State.settleAdoption_fleet (s : State) : s.settleAdoption.fleet = s.fleet := by
  unfold State.settleAdoption
  extract_lets left
  split
  · exact State.setPair_fleet ..
  · rfl

@[simp] theorem State.closeStream_fleet (s : State) : s.closeStream.fleet = s.fleet := by
  have unstaged : (s.memory.staging.foldl State.unstage s).fleet = s.fleet :=
    foldl_keeps State.fleet _ (fun v i => by unfold State.unstage; split <;> rfl) _ _
  exact unstaged

@[simp] theorem State.abandonStream_fleet (s : State) (r : Reply) : (s.abandonStream r).fleet = s.fleet := by
  unfold State.abandonStream
  split
  · rfl
  · next t _ =>
    extract_lets s1
    have closed : s1.fleet = s.fleet := (State.count_fleet ..).trans (State.closeStream_fleet s)
    rw [State.finishCmd_fleet]
    split
    · exact (State.dirSync_fleet ..).trans closed
    · exact closed

@[simp] theorem State.finishStream_fleet (s : State) : s.finishStream.fleet = s.fleet := by
  unfold State.finishStream
  split
  · rfl
  · next t _ =>
    dsimp only
    rw [State.settleAdoption_fleet, State.finishCmd_fleet, State.count_fleet]
    refine (State.fleet_of_twin _ _ (fun w => ?_) (fun w => ?_)).trans (State.closeStream_fleet s)
    all_goals split <;> rfl

@[simp] theorem State.writeImage_fleet (s : State) (h : Nat) (toHost : Bool) (dst : Word) (ctx : Nat) (image : Bytes) :
    (s.writeImage h toHost dst ctx image).fleet = s.fleet := by
  unfold State.writeImage
  split
  · rfl
  · exact foldl_keeps State.fleet _ (fun v p => State.request_fleet ..) _ _

/-- Pieces of a page that leave. -/
theorem State.sendPieces_fleet (s : State) (ckpt : Word) (data : Nat → Bytes) (off : Nat → Nat) (ks : List Nat) :
    (ks.foldl (fun (s : State) k => s.twinSend 0x03 ckpt (data k) (off k)) s).fleet = s.fleet :=
  foldl_keeps State.fleet _ (fun _ _ => State.twinSend_fleet ..) _ _

theorem State.modStream_fleet (s : State) (f : Stream → Stream) :
    (s.modTwin fun w => { w with stream := w.stream.map f }).fleet = s.fleet := rfl

@[simp] theorem State.sendPage_fleet (s : State) (t : Stream) (i : Nat) : (s.sendPage t i).fleet = s.fleet := by
  unfold State.sendPage
  extract_lets base pos bs s0 s1
  have touched : s0.fleet = s.fleet := by
    unfold s0
    split
    · rfl
    · exact State.touch_fleet ..
  have sent : s1.fleet = s0.fleet := State.sendPieces_fleet ..
  exact (State.modStream_fleet s1 _).trans (sent.trans touched)

@[simp] theorem State.streamGo_fleet (s : State) : s.streamGo.fleet = s.fleet := by
  unfold State.streamGo
  split
  · rfl
  · next t _ =>
    extract_lets fresh s1 data image s2
    split
    · rfl
    · split
      · split
        · split
          · rfl
          · split
            · rfl
            · exact State.twinSend_fleet ..
        · extract_lets s1
          have checked : s1.fleet = s.fleet := by
            unfold s1
            split
            · exact State.checkRead_fleet ..
            · rfl
          split
          · rfl
          · split
            · rw [State.abandonStream_fleet, State.countLost_fleet, checked]
            · split
              · exact checked
              · rw [State.sendPage_fleet, checked]
      · split
        · rfl
        · have checked : s1.fleet = s.fleet :=
            foldl_keeps State.fleet _ (fun v i => (State.touch_fleet ..).trans (State.checkRead_fleet ..)) _ _
          have written : s2.fleet = s1.fleet := State.writeImage_fleet ..
          split
          · rw [State.abandonStream_fleet]
            exact (foldl_keeps State.fleet _ (fun v i => State.countLost_fleet ..) _ _).trans checked
          · split
            · exact checked
            · split
              · exact written.trans checked
              · rw [State.finishStream_fleet, written, checked]

@[simp] theorem State.streamResume_fleet (s : State) : s.streamResume.fleet = s.fleet := State.streamGo_fleet ..

@[simp] theorem State.endJob_fleet (s : State) (h : Nat) (r : Reply) : (s.endJob h r).fleet = s.fleet := by
  unfold State.endJob
  rw [State.streamGo_fleet, State.finishCmd_fleet]
  rfl

@[simp] theorem State.unpair_fleet (s : State) : s.unpair.fleet = s.fleet := by
  unfold State.unpair
  extract_lets twin peer spare s0 s1 s2 s3
  have h0 : s0.fleet = s.fleet := by
    unfold s0
    split <;> rfl
  have h1 : s1.fleet = s0.fleet := by
    unfold s1
    split
    · split
      · exact State.abandonStream_fleet ..
      · rfl
    · rfl
  have h2 : s2.fleet = s1.fleet := foldl_keeps State.fleet _ (fun v j => by
    split
    · exact (State.endJob_fleet ..).trans (State.count_fleet ..)
    · exact State.endJob_fleet ..) _ _
  exact (State.setPair_fleet ..).trans (h2.trans (h1.trans h0))

@[simp] theorem State.mirrorLost_fleet (s : State) : s.mirrorLost.fleet = s.fleet := by
  unfold State.mirrorLost
  extract_lets lost s1
  have h1 : s1.fleet = s.fleet := by
    unfold s1
    split
    · exact State.abandonStream_fleet ..
    · rfl
  split
  · rw [State.unpair_fleet, h1]
  · exact (foldl_keeps State.fleet _ (fun v j => (State.endJob_fleet ..).trans (State.count_fleet ..)) _ _).trans h1

/-! ### Ports that become `ACTIVE` (R250, R268) -/

@[simp] theorem State.pump_fleet (s : State) : s.pump.fleet = s.fleet := by
  unfold State.pump
  dsimp only
  refine (foldl_keeps State.fleet _ (fun v tag => State.sendRequest_fleet ..) _ _).trans ?_
  exact (foldl_keeps State.fleet _ (fun v o => State.emit_fleet ..) _ _).trans rfl

@[simp] theorem State.twinUp_fleet (s : State) : s.twinUp.fleet = s.fleet := by
  have offered : ∀ v : State, v.offerPair.fleet = v.fleet := fun v => by
    unfold State.offerPair
    split
    · rfl
    · split
      · exact State.twinSend_fleet ..
      · rfl
  have tried : ∀ v : State, v.tryPair.fleet = v.fleet := fun v => by
    unfold State.tryPair
    split
    · exact (State.dirSync_fleet ..).trans (State.setPair_fleet ..)
    · rfl
  unfold State.twinUp
  split
  · rw [tried, offered, State.dirSync_fleet]
  · rfl

@[simp] theorem State.twinHello_fleet (s : State) (p dev : Nat) : (s.twinHello p dev).fleet = s.fleet := by
  unfold State.twinHello
  split
  · exact State.twinUp_fleet ..
  · rfl

/-- What is known of others, whatever the ports' states are. -/
def Fleet.settled (f : Fleet) : Fleet := { f with links := f.links.map fun l => { l with state := .down } }

theorem State.setPort_settled (s : State) (p : Nat) (st : PortState) : (s.setPort p st).fleet.settled = s.fleet.settled := by
  have links : ((s.setPort p st).fabric.ports.map Port.link).map (fun l : Link => { l with state := .down }) =
      (s.fabric.ports.map Port.link).map (fun l : Link => { l with state := .down }) := by
    rw [List.map_map, List.map_map]
    exact map_modAt_keeps _ _ _ _ fun _ => rfl
  unfold Fleet.settled State.fleet
  rw [links]
  rfl

theorem State.enterActive_fleet (s : State) (p : Nat) : (s.enterActive p).fleet.settled = s.fleet.settled := by
  unfold State.enterActive
  extract_lets x s1 narrow s2 s3
  have h1 : s1.fleet.settled = s.fleet.settled :=
    (congrArg Fleet.settled (State.modPort_fleet _ _ _ (by exact fun _ => rfl))).trans (State.setPort_settled ..)
  have h2 : s2.fleet = s1.fleet := by
    unfold s2
    split
    · rfl
    · rw [State.raise_fleet]
      unfold State.capsChanged
      split <;> rfl
  have h3 : s3.fleet = s1.fleet := (State.pump_fleet s2).trans h2
  split
  · rw [State.streamResume_fleet, h3, h1]
  · rw [h3, h1]

/-- A port that settles where no port is being reset changes nothing of what the module knows (R250). -/
theorem State.settlePort_fleet (s : State) (p : Nat) (h : s.fleet.portReset = false) :
    (s.settlePort p).fleet.settled = s.fleet.settled := by
  unfold State.settlePort
  extract_lets s1
  have h1 : s1.fleet.settled = s.fleet.settled := by
    unfold s1 State.tryActive
    dsimp only
    split
    · exact State.enterActive_fleet ..
    · rfl
  split
  · have h2 : (if p = 0 then s1.twinUp else s1).fleet = s1.fleet := by
      split
      · exact State.twinUp_fleet ..
      · rfl
    generalize (if p = 0 then s1.twinUp else s1) = v at h2 ⊢
    have same : v.fleet.settled = s.fleet.settled := (congrArg Fleet.settled h2).trans h1
    have none : (v.host.resetBusy && v.host.resetDomain == 3) = false := (congrArg Fleet.portReset same).trans h
    have still : v.portResetOver p = v := by
      unfold State.portResetOver
      refine if_neg fun hc => ?_
      simp only [Bool.and_eq_true, decide_eq_true_eq] at hc
      rw [hc.1.1.1, hc.1.1.2] at none
      exact absurd none (by decide)
    rw [still, same]
  · exact h1

end Sys2Proof.Machine
end

section
/-! CLAIMS. Packets of the Party Wall (R399 to R405, R408, R410, R413). -/

namespace Sys2Proof.Machine

/-- A change of a port that leaves something of every port leaves it of each. -/
theorem State.modPort_keeps {β : Type} (g : Port → β) (s : State) (p q : Nat) (f : Port → Port)
    (hf : ∀ x, g (f x) = g x) :
    g ((s.modPort p f).port q) = g (s.port q) := by
  by_cases hq : q = p
  · subst hq
    by_cases hp : q < s.fabric.ports.length
    · rw [State.modPort_port hp, hf]
    · have none : s.port q = {} := List.getD_eq_default _ _ (Nat.not_lt.1 hp)
      have none' : (s.modPort q f).port q = {} :=
        List.getD_eq_default _ _ (by rw [State.modPort_length]; exact Nat.not_lt.1 hp)
      rw [none, none']
  · rw [State.modPort_port_other hq]

/-- A packet that is taken leaves the receive buffer and its credits due, and the rest of the port is as it was. -/
theorem Port.take_keeps {β : Type} (g : Port → β)
    (hg : ∀ (x : Port) r c, g { x with rxStream := r, creditsDue := c } = g x) (x : Port) : g x.take = g x := by
  unfold Port.take
  split
  · rfl
  · exact hg ..

theorem State.arrived_port {β : Type} (g : Port → β)
    (hg : ∀ (x : Port) r c, g { x with rxStream := r, creditsDue := c } = g x) (s : State) (p type : Nat) (k : Packet)
    (q : Nat) : g ((s.arrived p type k).port q) = g (s.port q) := by
  rw [State.port_of_ports (State.ports_of_kept (s.arrived_kept p type k))]
  exact State.modPort_keeps g s p q _ (Port.take_keeps g hg)

section Packets
variable {s : State} {p sub : Nat} {k : Packet} {go : Packet → State → State}

theorem State.arrived_twin (s : State) (p type : Nat) (k : Packet) : (s.arrived p type k).twin = s.twin :=
  State.arrived_eq State.twin (fun _ => rfl) (fun _ => rfl) type

theorem State.arrived_linkedTo (s : State) (p type : Nat) (k : Packet) (dev : Nat) :
    (s.arrived p type k).linkedTo dev = s.linkedTo dev :=
  State.arrived_port (fun x => x.state == .active && x.neighbourDevice = dev) (fun _ _ _ => rfl) s p type k 0

theorem State.arrived_twinMay (s : State) (p type sub : Nat) (k : Packet) (dev : Nat) :
    (s.arrived p type k).twinMay sub dev = s.twinMay sub dev := by
  have variants : (s.arrived p type k).variant = s.variant :=
    State.arrived_eq State.variant (fun _ => rfl) (fun _ => rfl) type
  unfold State.twinMay
  rw [variants, State.arrived_twin, State.arrived_linkedTo]

/-! ### Who may send what (R413) -/

theorem State.twinPacket_other (h : k.operation ≠ sub) : s.twinPacket p sub k go = s := if_pos h

theorem State.twinPacket_barred (ho : k.operation = sub) (ha : Arrives s p tTwin k)
    (hm : k.ctxId ≠ 0 ∨ s.twinMay sub k.srcDevice = false) :
    s.twinPacket p sub k go = ((s.arrived p tTwin k).violation 1 p).dropUnlisted p := by
  unfold State.twinPacket
  rw [if_neg (not_not.2 ho), State.receive_arrives ha, State.arrived_twinMay,
    if_neg (by rcases hm with hm | hm <;> simp [hm])]

theorem State.twinPacket_arrives (h : TwinArrives s p sub k) :
    s.twinPacket p sub k go = (go k (s.arrived p tTwin k)).dropUnlisted p := by
  unfold State.twinPacket
  rw [if_neg (not_not.2 h.operation), State.receive_arrives h.toArrives, State.arrived_twinMay,
    if_pos (by simp [h.context, h.may])]

end Packets

/-- The packets of the twin, with their sub-operations. -/
noncomputable def twinRows : List ((Nat → Packet → Instr) × Nat) :=
  [(.pairOffer, 1), (.unpair, 2), (.snapData, 3), (.snapAck, 4), (.snapCommit, 5), (.mirrorRead, 6), (.mirrorData, 7),
    (.dirSync, 8), (.adopt, 9)]

theorem exec_twinRows (s : State) (p : Nat) (k : Packet) : ∀ e ∈ twinRows,
    ∃ go, exec (e.1 p k) s = .next (s.twinPacket p e.2 k go) :=
  List.forall_mem_cons.2 ⟨⟨_, rfl⟩, List.forall_mem_cons.2 ⟨⟨_, rfl⟩, List.forall_mem_cons.2 ⟨⟨_, rfl⟩,
    List.forall_mem_cons.2 ⟨⟨_, rfl⟩, List.forall_mem_cons.2 ⟨⟨_, rfl⟩, List.forall_mem_cons.2 ⟨⟨_, rfl⟩,
    List.forall_mem_cons.2 ⟨⟨_, rfl⟩, List.forall_mem_cons.2 ⟨⟨_, rfl⟩,
    List.forall_mem_singleton.2 ⟨_, rfl⟩⟩⟩⟩⟩⟩⟩⟩⟩

section Twin
variable {s : State} {p : Nat} {k : Packet}

/-! ### Pairing (R399, R409, R410) -/

/-- An offer, by the state of the pair (R399). -/
theorem exec_pairOffer (h : TwinArrives s p 1 k) : exec (.pairOffer p k) s = .next
    ((match (s.arrived p tTwin k).twin.state with
      | .single => ((s.arrived p tTwin k).modTwin fun w =>
          { w with received := some (k.srcDevice, field k.payload 0 2) }).tryPair
      | .adopting => if (s.arrived p tTwin k).twin.adoptRole = 2 then
          ((s.arrived p tTwin k).modTwin fun w => { w with survivorCopied := true }).settleAdoption
        else s.arrived p tTwin k
      | .paired => s.arrived p tTwin k).dropUnlisted p) :=
  congrArg Host.Outcome.next (State.twinPacket_arrives h)

theorem exec_unpair (h : TwinArrives s p 2 k) : exec (.unpair p k) s = .next
    ((if (s.arrived p tTwin k).twin.state == .single then
        (s.arrived p tTwin k).modTwin fun w => { w with received := none }
      else (s.arrived p tTwin k).unpair).dropUnlisted p) :=
  congrArg Host.Outcome.next (State.twinPacket_arrives h)

theorem exec_twinGraceExpiry (s : State) : exec .twinGraceExpiry s = .next
    (if s.twin.state != .single && s.stewardRunning && !s.linkedTo s.twin.twinDevice
      && (s.port 0).leftActive + s.lodge.settings.twinGraceS * 1000000000 ≤ s.now then s.unpair else s) := rfl

/-! ### The holder's side of a stream (R401 to R404) -/

/-- Of the two entries that a holder keeps, one is the newest. -/
theorem mem_twoEntries {es : List MirrorEntry} {e : MirrorEntry} (he : (e.state != .empty) = true) :
    e ∈ twoEntries ((liveEntries es).take 1 ++ [e]) := by
  have live : liveEntries ((liveEntries es).take 1 ++ [e]) = liveEntries ((liveEntries es).take 1) ++ [e] := by
    unfold liveEntries
    rw [List.filter_append, List.filter_cons_of_pos (p := fun e : MirrorEntry => e.state != .empty) he, List.filter_nil]
  have short : (liveEntries ((liveEntries es).take 1)).length ≤ 1 :=
    (List.length_filter_le ..).trans (List.length_take_le ..)
  unfold twoEntries
  rw [live]
  match liveEntries ((liveEntries es).take 1), short with
  | [], _ => exact .head _
  | [x], _ => exact .tail _ (.head _)

/-- The entry of a stream is there once its data has come (R401). -/
theorem State.openIncoming_fills (s : State) (dev : Nat) (ckpt : Word) (off : Nat) :
    ((s.openIncoming dev ckpt off).twin.held.any fun e => e.fills dev ckpt) = true := by
  unfold State.openIncoming
  split
  · assumption
  · rw [List.any_eq_true]
    exact ⟨_, mem_twoEntries rfl, by simp [MirrorEntry.fills]⟩

theorem State.openIncoming_memory (s : State) (dev : Nat) (ckpt : Word) (off : Nat) :
    (s.openIncoming dev ckpt off).memory = s.memory := by
  unfold State.openIncoming
  split <;> rfl

/-- A packet that leaves, or waits to, changes the fabric and records alone. -/
theorem State.emit_offSends (s : State) (o : OutPacket) : (s.emit o).offSends = s.offSends := by
  unfold State.emit
  dsimp only
  split
  · exact (State.offSends_of_ports (s.helloFirst_offPorts _) :)
  · split
    · rfl
    · next hp => exact (State.offSends_of_ports (State.portFor_offPorts hp) :)

theorem State.twinSend_kept (s : State) (sub : Nat) (ckpt : Word) (data : Bytes) (off : Nat) :
    (s.twinSend sub ckpt data off).memory = s.memory ∧ (s.twinSend sub ckpt data off).twin = s.twin :=
  have sent : (s.twinSend sub ckpt data off).offSends = s.offSends := State.emit_offSends ..
  ⟨(congrArg State.memory sent :), (congrArg State.twin sent :)⟩

theorem State.arrived_mirrorTakes (s : State) (p type : Nat) (k : Packet) (dev : Nat) (ckpt : Word) (off n : Nat) :
    (s.arrived p type k).mirrorTakes dev ckpt off n = s.mirrorTakes dev ckpt off n := by
  unfold State.mirrorTakes
  rw [State.arrived_memory, State.arrived_twin]

/-- What data of a snapshot makes of the mirror and its entries (R401). -/
def Twin.takes (w : Twin) (k : Packet) : Twin :=
  { w with
    mirror := cellsWrite w.mirror (locOf k.address) k.payload
    held := w.held.map fun e => if e.fills k.srcDevice k.operand then
      { e with bytes := max e.bytes (locOf k.address + k.payload.length - e.offset) } else e }

theorem Twin.takes_fills {w : Twin} (h : (w.held.any fun e => e.fills k.srcDevice k.operand) = true) :
    ((w.takes k).held.any fun e => e.fills k.srcDevice k.operand) = true := by
  obtain ⟨e, he, hf⟩ := List.any_eq_true.1 h
  refine List.any_eq_true.2 ⟨_, List.mem_map_of_mem he, ?_⟩
  rw [if_pos hf]
  exact hf

/-- A whole page is acknowledged (R404). -/
theorem acknowledged_kept (v : State) (n off : Nat) (ckpt : Word) (c : Prop) [Decidable c] :
    (if c then (v.count cMirrorBytesRx 0 n).twinSend 4 ckpt [] off else v.count cMirrorBytesRx 0 n).memory = v.memory ∧
      (if c then (v.count cMirrorBytesRx 0 n).twinSend 4 ckpt [] off else v.count cMirrorBytesRx 0 n).twin = v.twin := by
  have counted := State.count_kept v cMirrorBytesRx 0 n
  have memory := State.memory_of_kept counted
  have twin := State.congr_kept (g := State.twin) (fun _ => rfl) counted
  split
  · obtain ⟨hm, ht⟩ := State.twinSend_kept (v.count cMirrorBytesRx 0 n) 4 ckpt [] off
    exact ⟨hm.trans memory, ht.trans twin⟩
  · exact ⟨memory, twin⟩

/-- Data of a snapshot, where the mirror takes it and where it does not (R401, R403). -/
theorem exec_snapData (h : TwinArrives s p 3 k) :
    (s.mirrorTakes k.srcDevice k.operand (locOf k.address) k.payload.length = true →
      ∃ u : State, exec (.snapData p k) s = .next (u.dropUnlisted p) ∧
        cellsRead u.twin.mirror (locOf k.address) k.payload.length = k.payload ∧
          (u.twin.held.any fun e => e.fills k.srcDevice k.operand) = true ∧ u.memory = s.memory) ∧
    (s.mirrorTakes k.srcDevice k.operand (locOf k.address) k.payload.length = false →
      exec (.snapData p k) s = .next ((s.arrived p tTwin k).dropUnlisted p)) := by
  have e : exec (.snapData p k) s = execSnapData p k s := rfl
  rw [e]
  unfold execSnapData
  rw [State.twinPacket_arrives h]
  dsimp only
  rw [State.arrived_mirrorTakes]
  refine ⟨fun ht => ⟨_, rfl, ?_⟩, fun ht => ?_⟩
  · rw [if_neg (by rw [ht]; decide)]
    have fills := State.openIncoming_fills (s.arrived p tTwin k) k.srcDevice k.operand (locOf k.address)
    have memory := State.openIncoming_memory (s.arrived p tTwin k) k.srcDevice k.operand (locOf k.address)
    rw [State.arrived_memory] at memory
    generalize (s.arrived p tTwin k).openIncoming k.srcDevice k.operand (locOf k.address) = v at fills memory ⊢
    obtain ⟨hm, hw⟩ := acknowledged_kept (v.modTwin fun w => w.takes k) k.payload.length
      (locOf k.address + k.payload.length) k.operand ((locOf k.address + k.payload.length) % pageBytes = 0)
    refine ⟨?_, ?_, hm.trans memory⟩
    · exact (congrArg (fun w : Twin => cellsRead w.mirror (locOf k.address) k.payload.length) hw).trans
        (cellsRead_cellsWrite ..)
    · exact (congrArg (fun w : Twin => w.held.any fun e => e.fills k.srcDevice k.operand) hw).trans (Twin.takes_fills fills)
  · rw [if_pos (by rw [ht]; rfl)]

theorem exec_snapCommit (h : TwinArrives s p 5 k) : exec (.snapCommit p k) s = .next
    ((if (s.twin.held.any fun x => x.fills k.srcDevice k.operand) = true then
        ((s.arrived p tTwin k).commitIncoming k.srcDevice
          { (MirrorEntry.parse k.payload).1 with ckptId := k.operand }).twinSend 4 k.operand [] (locOf k.address)
      else if (s.twin.held.any fun x => x.state == .current && decide (x.ownerDevice = k.srcDevice) &&
          x.ckptId == k.operand && decide (x.beginTime = (MirrorEntry.parse k.payload).1.beginTime)) = true then
        (s.arrived p tTwin k).twinSend 4 k.operand [] (locOf k.address)
      else s.arrived p tTwin k).dropUnlisted p) := by
  have e : exec (.snapCommit p k) s = execSnapCommit p k s := rfl
  rw [e]
  unfold execSnapCommit
  rw [State.twinPacket_arrives h]
  dsimp only
  rw [State.arrived_twin]

/-! ### Reads of the mirror (R401, R405, R407) -/

/-- The entry that a read finds (R401). -/
def Twin.readable (w : Twin) (a : Nat) : Option MirrorEntry :=
  w.held.find? fun e => e.state == .current && decide (e.offset ≤ a) && decide (a < e.offset + e.bytes)

/-- How many bytes of an entry a read gives: to the next 4 KiB boundary or the entry's end. -/
def MirrorEntry.reach (e : MirrorEntry) (a : Nat) : Nat := min (4096 - a % 4096) (e.offset + e.bytes - a)

/-- The answer to a read of the mirror, by the entry found and the loan that keeps it from the reader (R401, R427). -/
def State.mirrorAnswer (v : State) (k : Packet) (hit : Option MirrorEntry) (loan : Option Word) : State :=
  let n := (hit.map fun e => e.reach (locOf k.address)).getD 0
  let ok := hit.isSome && loan.isNone
  let s := match loan with
    | some id => v.countSuppressed id n
    | none => v
  let data := if ok then cellsRead s.twin.mirror (locOf k.address) n else []
  let r : Packet := { s.packet tTwin k.srcDevice 0 (globalAddr k.srcDevice (locOf k.address)) data.length k.tag k.operand
                        data 7 (b2n !ok) with dstIncarnation := k.srcIncarnation }
  s.emit { type := tTwin, packet := r }

theorem exec_mirrorRead (h : TwinArrives s p 6 k) : exec (.mirrorRead p k) s = .next
    (((s.arrived p tTwin k).mirrorAnswer k ((s.arrived p tTwin k).twin.readable (locOf k.address))
      (((s.arrived p tTwin k).twin.readable (locOf k.address)).bind fun e =>
        (s.arrived p tTwin k).entryLoan e k.srcDevice)).dropUnlisted p) :=
  congrArg Host.Outcome.next (State.twinPacket_arrives h)

/-- A packet answers a read of the mirror (R405). -/
structure AnswersRead (k r : Packet) (status : Nat) (payload : Bytes) : Prop where
  device : r.dstDevice = k.srcDevice
  tag : r.tag = k.tag
  operation : r.operation = 7
  status : r.status = status
  payload : r.payload = payload

theorem State.mirrorAnswer_given (v : State) (k : Packet) (e : MirrorEntry) : ∃ r : Packet,
    AnswersRead k r 0 (cellsRead v.twin.mirror (locOf k.address) (e.reach (locOf k.address))) ∧
      v.mirrorAnswer k (some e) none = v.emit { type := tTwin, packet := r } := by
  refine ⟨_, ?_, rfl⟩
  exact ⟨rfl, rfl, rfl, rfl, rfl⟩

theorem State.mirrorAnswer_kept (v : State) (k : Packet) (e : MirrorEntry) (id : Word) : ∃ r : Packet,
    AnswersRead k r 1 [] ∧ v.mirrorAnswer k (some e) (some id) =
      (v.countSuppressed id (e.reach (locOf k.address))).emit { type := tTwin, packet := r } := by
  refine ⟨_, ?_, rfl⟩
  exact ⟨rfl, rfl, rfl, rfl, rfl⟩

theorem State.mirrorAnswer_refused (v : State) (k : Packet) : ∃ r : Packet,
    AnswersRead k r 1 [] ∧ v.mirrorAnswer k none none = v.emit { type := tTwin, packet := r } := by
  refine ⟨_, ?_, rfl⟩
  exact ⟨rfl, rfl, rfl, rfl, rfl⟩

/-! ### Directories (R399 to R401, R408 to R411) -/

theorem State.syncHeld_fleet (s : State) (dev : Nat) (theirs : List MirrorEntry) (gone : Word) :
    (s.syncHeld dev theirs gone).fleet = s.fleet := rfl

theorem State.syncOwn_fleet (s : State) (theirs : List MirrorEntry) : (s.syncOwn theirs).fleet = s.fleet := rfl

/-- What a directory says of the twin's progress stands once the directories agree (R411). -/
theorem dirSync_peer (h : TwinArrives s p 8 k) : ∃ u : State,
    exec (.dirSync p k) s = .next (u.settleAdoption.dropUnlisted p) ∧
    u.twin.peerDrained = (BitVec.ofNat 64 (field k.payload 8 8), field k.payload 16 8) ∧
      u.twin.peerReady = (field k.payload 7 1 == 1) := by
  have e : exec (.dirSync p k) s = execDirSync p k s := rfl
  rw [e]
  unfold execDirSync
  rw [State.twinPacket_arrives h]
  extract_lets b all theirs ours unknown s1 s2 s3
  have drained : s1.twin.peerDrained = (BitVec.ofNat 64 (field k.payload 8 8), field k.payload 16 8) := rfl
  have ready : s1.twin.peerReady = (field k.payload 7 1 == 1) := rfl
  have h2 : s2.fleet = s1.fleet := by
    unfold s2
    rw [State.mirrorLost_fleet, State.syncOwn_fleet, State.syncHeld_fleet]
  have h3 : s3.fleet = s2.fleet := by
    unfold s3
    split
    · rfl
    · split
      · rw [State.twinSend_fleet, State.sendAdopt_fleet]
      · rw [State.sendAdopt_fleet]
  have h4 : (if k.operand = 0 then s3 else s3.dirSync).fleet = s1.fleet := by
    split
    · exact h3.trans h2
    · rw [State.dirSync_fleet, h3, h2]
  clear_value s1
  exact ⟨_, rfl, (congrArg Fleet.peerDrained h4).trans drained, (congrArg Fleet.peerReady h4).trans ready⟩

end Twin

/-- Settles O53: what arrives of the twin is checked once, and then each packet has its own rule; the directories' exchange
leaves the progress that a directory carries. -/
theorem twinPacketsKeepThePair : Obligations.TwinPacketsKeepThePair := by
  unfold Obligations.TwinPacketsKeepThePair
  intro s p k v a rows
  have twin : v.twin = s.twin := State.arrived_twin ..
  refine ⟨?_, ?_, ?_, ?_, ?_, ?_, ?_, ?_, fun h => (exec_snapData h).1, fun h => (exec_snapData h).2, ?_, ?_, ?_, ?_, ?_,
    ?_, dirSync_peer, ?_, ?_, ?_, ?_⟩
  · intro e he ho
    obtain ⟨go, hgo⟩ := exec_twinRows s p k e he
    rw [hgo, State.twinPacket_other ho]
  · intro e he ho ha hm
    obtain ⟨go, hgo⟩ := exec_twinRows s p k e he
    rw [hgo, State.twinPacket_barred ho ha hm]
  · intro h hs
    rw [exec_pairOffer h, twin, hs]
  · intro h hs
    rw [exec_pairOffer h, twin, hs]
  · intro h hs hr
    rw [exec_pairOffer h, twin, hs]
    dsimp only
    rw [if_pos hr]
  · intro h hs hr
    rw [exec_pairOffer h, twin, hs]
    dsimp only
    rw [if_neg hr]
  · intro h hs
    rw [exec_unpair h, twin, if_pos (by rw [hs]; rfl)]
  · intro h hs
    rw [exec_unpair h, twin, if_neg (by simpa using hs)]
  · intro h
    exact congrArg Host.Outcome.next (State.twinPacket_arrives h)
  · intro h hf
    rw [exec_snapCommit h, if_pos hf]
  · intro h hf
    rw [exec_snapCommit h, if_neg (by rw [hf]; decide)]
  · intro e h he n
    have hit : (s.arrived p tTwin k).twin.readable (locOf k.address) = some e :=
      (congrArg (fun w : Twin => w.readable (locOf k.address)) twin).trans he
    have loans : (s.arrived p tTwin k).entryLoan e k.srcDevice = s.entryLoan e k.srcDevice :=
      State.arrived_eq (fun u => u.entryLoan e k.srcDevice) (fun _ => rfl) (fun _ => rfl) tTwin
    have x := exec_mirrorRead h
    rw [hit, Option.bind_some, loans] at x
    cases hl : s.entryLoan e k.srcDevice with
    | none =>
      obtain ⟨r, hr, hv⟩ := State.mirrorAnswer_given v k e
      refine ⟨r, hr.device, hr.tag, hr.operation, fun _ => ⟨hr.status, ?_, ?_⟩, fun id hi => nomatch hi⟩
      · rw [hr.payload, twin]
        rfl
      · rw [x, hl, hv]
    | some id =>
      obtain ⟨r, hr, hv⟩ := State.mirrorAnswer_kept v k e id
      refine ⟨r, hr.device, hr.tag, hr.operation, (nomatch ·), fun id' hi =>
        ⟨hr.status, hr.payload, ?_⟩⟩
      cases hi
      rw [x, hl, hv]
      rfl
  · intro h he
    have hit : (s.arrived p tTwin k).twin.readable (locOf k.address) = none :=
      (congrArg (fun w : Twin => w.readable (locOf k.address)) twin).trans he
    have x := exec_mirrorRead h
    rw [hit, Option.bind_none] at x
    obtain ⟨r, hr, hv⟩ := State.mirrorAnswer_refused v k
    exact ⟨r, by rw [x, hv], hr.device, hr.tag, hr.operation, hr.status, hr.payload⟩
  · intro h
    exact congrArg Host.Outcome.next (State.twinPacket_arrives h)
  · intro h hs hr
    have e : exec (.adopt p k) s = execAdopt p k s := rfl
    unfold execAdopt at e
    rw [State.twinPacket_arrives h] at e
    dsimp only at e
    rw [State.arrived_twin, if_neg (by simp [hs, hr])] at e
    exact ⟨_, e, rfl, rfl, State.arrived_memory ..⟩
  · intro h hn
    have e : exec (.adopt p k) s = execAdopt p k s := rfl
    unfold execAdopt at e
    rw [State.twinPacket_arrives h] at e
    dsimp only at e
    rw [State.arrived_twin, if_pos (by rcases hn with hn | hn <;> simp [hn])] at e
    exact e
  · intro hs hw hl
    rw [exec_twinGraceExpiry]
    refine ⟨fun hn => ?_, fun hn => ?_⟩
    · rw [if_pos (by rw [hw, hl, decide_eq_true hn]; simpa using hs)]
    · rw [if_neg (by rw [decide_eq_false (Nat.not_le.2 hn), Bool.and_false]; decide)]
  · intro hs
    rw [exec_twinGraceExpiry, hs]
    rfl

end Sys2Proof.Machine
end

section
/-! CLAIMS. Control packets, the exchange of time and the servo (R268, R270, R279, R451 to R454). -/

namespace Sys2Proof.Machine

/-! ### What a port knows, read off what is unchanged -/

theorem State.ports_length_of_fleet {s u : State} (h : u.fleet = s.fleet) :
    u.fabric.ports.length = s.fabric.ports.length := by
  have links := congrArg (fun f : Fleet => f.links.length) h
  exact (List.length_map ..).symm.trans (links.trans (List.length_map ..))

theorem State.link_getD (s : State) (p : Nat) : (s.port p).link = s.fleet.links.getD p ({} : Port).link := by
  rw [show s.fleet.links = s.fabric.ports.map Port.link from rfl, List.getD_map]
  rfl

theorem State.link_of_fleet {s u : State} (h : u.fleet = s.fleet) (p : Nat) : (u.port p).link = (s.port p).link := by
  rw [State.link_getD, State.link_getD, h]

theorem State.link_of_settled {s u : State} (h : u.fleet.settled = s.fleet.settled) (p : Nat) :
    { (u.port p).link with state := .down } = { (s.port p).link with state := .down } := by
  have each : ∀ v : State, { (v.port p).link with state := .down } =
      v.fleet.settled.links.getD p { ({} : Port).link with state := .down } := fun v => by
    rw [State.link_getD]
    exact (List.getD_map (f := fun l : Link => { l with state := .down }) ..).symm
  rw [each, each, h]

/-! ### Incarnations (R268) -/

/-- A sender's incarnation is recorded, and what waited for it goes on (R268). -/
theorem State.recordIncarnation_fleet (s : State) (dev inc : Nat) :
    (s.recordIncarnation dev inc).fleet = { s.fleet with incarnations := Map.put s.fabric.incarnations dev inc } := by
  unfold State.recordIncarnation
  dsimp only
  split
  · rw [State.streamResume_fleet]
    rfl
  · rfl

section Hello
variable {s : State} {p : Nat} {k : Packet}

/-- What a port knows once a `HELLO` or its answer has been recorded (R268). -/
structure Recorded (s v : State) (p : Nat) (k : Packet) : Prop where
  incarnation : Map.get? v.fabric.incarnations k.srcDevice = some k.srcIncarnation
  length : v.fabric.ports.length = s.fabric.ports.length
  state : (v.port p).state = (s.port p).state
  portReset : v.fleet.portReset = s.fleet.portReset
  neighbour : (s.port p).state ≠ .active → k.hops = 0 →
    (v.port p).neighbourDevice = k.srcDevice ∧ (v.port p).neighbourIncarnation = k.srcIncarnation

theorem recorded (hp : p < s.fabric.ports.length) :
    Recorded s ((s.recordIncarnation k.srcDevice k.srcIncarnation).recordNeighbour p k) p k := by
  have known := State.recordIncarnation_fleet s k.srcDevice k.srcIncarnation
  have length : (s.recordIncarnation k.srcDevice k.srcIncarnation).fabric.ports.length = s.fabric.ports.length := by
    have links := congrArg (fun f : Fleet => f.links.length) known
    exact (List.length_map ..).symm.trans (links.trans (List.length_map ..))
  have state : ((s.recordIncarnation k.srcDevice k.srcIncarnation).port p).state = (s.port p).state := by
    have link : ((s.recordIncarnation k.srcDevice k.srcIncarnation).port p).link = (s.port p).link := by
      rw [State.link_getD, State.link_getD, known]
    exact congrArg Link.state link
  have incarnation : Map.get? (s.recordIncarnation k.srcDevice k.srcIncarnation).fabric.incarnations k.srcDevice =
      some k.srcIncarnation :=
    (congrArg (fun f : Fleet => Map.get? f.incarnations k.srcDevice) known).trans ((Map.get?_put ..).trans (if_pos rfl))
  have reset := congrArg Fleet.portReset known
  generalize s.recordIncarnation k.srcDevice k.srcIncarnation = v at *
  unfold State.recordNeighbour
  split
  · have port := State.modPort_port (length ▸ hp) fun x =>
      { x with neighbourDevice := k.srcDevice, neighbourIncarnation := k.srcIncarnation }
    refine ⟨incarnation, (State.modPort_length ..).trans length, ?_, reset, fun _ _ => ?_⟩
    · rw [port]
      exact state
    · rw [port]
      exact ⟨rfl, rfl⟩
  · next h => exact ⟨incarnation, length, state, reset, fun ha hh => absurd (by simp [state, ha, hh]) h⟩

/-- What is sent after it changes nothing of that. -/
theorem Recorded.of_fleet {v u : State} (h : Recorded s v p k) (hu : u.fleet.settled = v.fleet.settled) :
    Map.get? u.fabric.incarnations k.srcDevice = some k.srcIncarnation ∧
      ((s.port p).state ≠ .active → k.hops = 0 →
        (u.port p).neighbourDevice = k.srcDevice ∧ (u.port p).neighbourIncarnation = k.srcIncarnation) := by
  have link := State.link_of_settled hu p
  refine ⟨?_, fun ha hh => ?_⟩
  · exact (congrArg (fun f : Fleet => Map.get? f.incarnations k.srcDevice) hu :).trans h.incarnation
  · obtain ⟨device, incarnation⟩ := h.neighbour ha hh
    exact ⟨(congrArg Link.device link :).trans device, (congrArg Link.incarnation link :).trans incarnation⟩

theorem hello_records (hp : p < s.fabric.ports.length) (ha : Arrives s p tHello k) :
    ∃ u : State, exec (.hello p k) s = .next (u.dropUnlisted p) ∧
      Map.get? u.fabric.incarnations k.srcDevice = some k.srcIncarnation ∧
        ((s.port p).state ≠ .active → k.hops = 0 →
          (u.port p).neighbourDevice = k.srcDevice ∧ (u.port p).neighbourIncarnation = k.srcIncarnation) := by
  have e : exec (.hello p k) s = execHello p k s := rfl
  unfold execHello at e
  rw [State.receive_arrives ha] at e
  refine ⟨_, e, ?_⟩
  have state : ((s.arrived p tHello k).port p).state = (s.port p).state :=
    State.arrived_port Port.state (fun _ _ _ => rfl) s p tHello k p
  have hp' : p < (s.arrived p tHello k).fabric.ports.length := by
    rw [State.ports_of_kept (s.arrived_kept p tHello k), State.modPort_length]
    exact hp
  have known := recorded (k := k) hp'
  rw [← state]
  refine known.of_fleet (congrArg Fleet.settled ?_)
  rw [State.twinHello_fleet, State.pump_fleet]
  split
  · exact State.emit_fleet ..
  · exact State.enqueue_fleet ..

theorem State.sendTimeSync_port (hp : p < s.fabric.ports.length) : ∃ o, o.type = tTimeSync ∧
    (s.sendTimeSync p).port p = { s.port p with queue := (s.port p).queue ++ [o] } :=
  ⟨_, rfl, State.modPort_port hp _⟩

theorem State.arrived_length (s : State) (p type : Nat) (k : Packet) :
    (s.arrived p type k).fabric.ports.length = s.fabric.ports.length := by
  rw [State.ports_of_kept (s.arrived_kept p type k), State.modPort_length]

theorem State.arrived_portReset (s : State) (p type : Nat) (k : Packet) (h : s.host.resetBusy = false) :
    (s.arrived p type k).fleet.portReset = false := by
  have busy : (s.arrived p type k).host = s.host := State.arrived_eq State.host (fun _ => rfl) (fun _ => rfl) type
  unfold State.fleet
  rw [busy, h]
  rfl

/-- An answer to `HELLO` is recorded, and its port has been greeted (R250, R268). -/
theorem helloRsp_records (hp : p < s.fabric.ports.length) (hb : s.host.resetBusy = false) (ha : Arrives s p tHelloRsp k) :
    ∃ u : State, exec (.helloRsp p k) s = .next (u.dropUnlisted p) ∧
      Map.get? u.fabric.incarnations k.srcDevice = some k.srcIncarnation ∧
        ((s.port p).state ≠ .active → k.hops = 0 →
          (u.port p).neighbourDevice = k.srcDevice ∧ (u.port p).neighbourIncarnation = k.srcIncarnation) ∧
        ((s.port p).state ≠ .active → (u.port p).helloDone = true) := by
  have e : exec (.helloRsp p k) s = execHelloRsp p k s := rfl
  unfold execHelloRsp at e
  rw [State.receive_arrives ha] at e
  have state : ((s.arrived p tHelloRsp k).port p).state = (s.port p).state :=
    State.arrived_port Port.state (fun _ _ _ => rfl) s p tHelloRsp k p
  have known := recorded (k := k) ((s.arrived_length p tHelloRsp k).symm ▸ hp)
  have reset := s.arrived_portReset p tHelloRsp k hb
  have length := s.arrived_length p tHelloRsp k
  generalize s.arrived p tHelloRsp k = v at *
  extract_lets s1 s3 s2 at e
  replace known : Recorded v s1 p k := known
  clear_value s1
  have hlen : p < s1.fabric.ports.length := known.length.symm ▸ length.symm ▸ hp
  have hport : s3.port p = { s1.port p with helloDone := true } := State.modPort_port hlen _
  have greeted : s2.fleet.incarnations = s1.fleet.incarnations ∧ s2.fleet.portReset = s1.fleet.portReset ∧
      (s2.port p).neighbourDevice = (s1.port p).neighbourDevice ∧
      (s2.port p).neighbourIncarnation = (s1.port p).neighbourIncarnation ∧
      ((s1.port p).state ≠ .active → (s2.port p).helloDone = true) := by
    unfold s2
    split
    · next hact =>
      have link := State.link_of_fleet (s1.twinHello_fleet p k.srcDevice) p
      refine ⟨?_, ?_, (congrArg Link.device link :), (congrArg Link.incarnation link :), fun h => absurd ?_ h⟩
      · rw [State.twinHello_fleet]
      · rw [State.twinHello_fleet]
      · exact beq_iff_eq.1 hact
    · split
      · obtain ⟨o, -, sent⟩ := State.sendTimeSync_port (s := s3) (p := p) ((State.modPort_length ..).symm ▸ hlen)
        rw [sent, hport]
        exact ⟨rfl, rfl, rfl, rfl, fun _ => rfl⟩
      · rw [hport]
        exact ⟨rfl, rfl, rfl, rfl, fun _ => rfl⟩
  clear_value s2
  obtain ⟨incarnations, resets, device, incarnation, done⟩ := greeted
  have settled := (s2.pump.settlePort_fleet p (by rw [State.pump_fleet, resets, known.portReset]; exact reset)).trans
    (congrArg Fleet.settled (State.pump_fleet s2))
  generalize s2.pump.settlePort p = w at e settled
  have link := State.link_of_settled settled p
  have kept : w.fabric.incarnations = s1.fabric.incarnations := (congrArg Fleet.incarnations settled :).trans incarnations
  refine ⟨w, e, ?_, fun ha hh => ?_, fun ha => ?_⟩
  · rw [kept]
    exact known.incarnation
  · obtain ⟨hd, hi⟩ := known.neighbour (state ▸ ha) hh
    exact ⟨(congrArg Link.device link :).trans (device.trans hd),
      (congrArg Link.incarnation link :).trans (incarnation.trans hi)⟩
  · exact (congrArg Link.helloDone link :).trans (done (known.state ▸ state ▸ ha))

end Hello

/-- A pair that is retired is remembered (R270). -/
theorem genRetire_remembers {s : State} {p : Nat} {k : Packet} (ha : Arrives s p tGenRetire k) :
    ∃ u : State, exec (.genRetire p k) s = .next (u.dropUnlisted p) ∧
      u.isRetired k.srcDevice k.ctxId k.ctxGeneration = true ∧ u.memory = s.memory := by
  have e : exec (.genRetire p k) s = execGenRetire p k s := rfl
  unfold execGenRetire at e
  rw [State.receive_arrives ha] at e
  refine ⟨_, e, ?_, State.arrived_memory ..⟩
  unfold State.isRetired
  rw [State.modFabric_fabric]
  dsimp only
  rw [Map.getD_put_self]
  simp

/-! ### The exchange of time (R279) -/

/-- The first and the third number of an answer's four. -/
theorem field_first (a b : Nat) : field (le 8 a ++ zeros 8 ++ le 8 b ++ zeros 8) 0 8 = a % 2 ^ 64 := by
  unfold field
  rw [List.drop_zero, List.append_assoc, List.append_assoc, List.take_append_of_le_length (by rw [length_le]),
    List.take_of_length_le (by rw [length_le]), leNat_le]

theorem field_third (a b : Nat) : field (le 8 a ++ zeros 8 ++ le 8 b ++ zeros 8) 16 8 = b % 2 ^ 64 := by
  unfold field
  have front : (le 8 a ++ zeros 8).length = 16 := by
    rw [List.length_append, length_le]
    rfl
  rw [List.append_assoc _ (le 8 b), List.drop_append_of_le_length (Nat.le_of_eq front.symm),
    List.drop_of_length_le (Nat.le_of_eq front), List.nil_append, List.take_append_of_le_length (by rw [length_le]),
    List.take_of_length_le (by rw [length_le]), leNat_le]

theorem timeSync_answers {s : State} {p : Nat} {k : Packet} (hp : p < s.fabric.ports.length) (ha : Arrives s p tTimeSync k) :
    ∃ u : State, exec (.timeSync p k) s = .next (u.dropUnlisted p) ∧
      ∃ o, (u.port p).queue = (s.port p).queue ++ [o] ∧ o.type = tTimeRsp ∧ o.packet.tag = k.tag ∧
        o.packet.dstDevice = k.srcDevice ∧ field o.packet.payload 0 8 = s.lodge.time16 % 2 ^ 64 ∧
        field o.packet.payload 16 8 = k.operand.toNat := by
  have e : exec (.timeSync p k) s = execTimeSync p k s := rfl
  unfold execTimeSync at e
  rw [State.receive_arrives ha] at e
  have queue : ((s.arrived p tTimeSync k).port p).queue = (s.port p).queue :=
    State.arrived_port Port.queue (fun _ _ _ => rfl) s p tTimeSync k p
  have time : (s.arrived p tTimeSync k).lodge.time16 = s.lodge.time16 :=
    State.arrived_eq (fun u => u.lodge.time16) (fun _ => rfl) (fun _ => rfl) tTimeSync
  refine ⟨_, e, ?_⟩
  unfold State.enqueue
  rw [State.modPort_port ((s.arrived_length p tTimeSync k).symm ▸ hp)]
  refine ⟨_, congrArg (· ++ _) queue, rfl, rfl, rfl, ?_, ?_⟩
  · change field (le 8 (s.arrived p tTimeSync k).lodge.time16 ++ zeros 8 ++ le 8 k.operand.toNat ++ zeros 8) 0 8 = _
    rw [time, field_first]
  · change field (le 8 (s.arrived p tTimeSync k).lodge.time16 ++ zeros 8 ++ le 8 k.operand.toNat ++ zeros 8) 16 8 = _
    rw [field_third, Nat.mod_eq_of_lt k.operand.isLt]

/-- What an exchange says of the servo is the Lodge's (R452). -/
theorem State.measured_fleet (s : State) (off : Int) (ptp : Bool) : (s.measured off ptp).fleet = s.fleet := by
  have steered : (s.steer off ptp).fleet = s.fleet := by
    unfold State.steer
    split
    · unfold State.stepTime
      exact (State.fleet_of_kept (State.catalogue_kept ..)).trans rfl
    · split <;> rfl
  unfold State.measured
  extract_lets l follows s1
  have h1 : s1.fleet = s.fleet := by
    unfold s1
    split
    · exact steered
    · rfl
  exact h1

theorem timeRsp_records {s : State} {p : Nat} {k : Packet} (hp : p < s.fabric.ports.length) (hb : s.host.resetBusy = false)
    (ha : Arrives s p tTimeRsp k) : ∃ u : State, exec (.timeRsp p k) s = .next (u.dropUnlisted p) ∧
      ((u.port p).lastDelay, (u.port p).lastOffset) = exchange (s.port p).syncSent (field k.payload 0 8)
        (field k.payload 8 8) s.lodge.time16 (field k.payload 16 8) k.operand.toNat ∧ (u.port p).syncDone = true := by
  have e : exec (.timeRsp p k) s = execTimeRsp p k s := rfl
  unfold execTimeRsp at e
  rw [State.receive_arrives ha] at e
  have sent : ((s.arrived p tTimeRsp k).port p).syncSent = (s.port p).syncSent :=
    State.arrived_port Port.syncSent (fun _ _ _ => rfl) s p tTimeRsp k p
  have time : (s.arrived p tTimeRsp k).lodge.time16 = s.lodge.time16 :=
    State.arrived_eq (fun u => u.lodge.time16) (fun _ => rfl) (fun _ => rfl) tTimeRsp
  have reset := s.arrived_portReset p tTimeRsp k hb
  have length := s.arrived_length p tTimeRsp k
  generalize s.arrived p tTimeRsp k = v at *
  rw [sent, time] at e
  dsimp -zeta only at e
  extract_lets s1 at e
  refine ⟨_, e, ?_⟩
  have port : s1.port p = { v.port p with
      lastDelay := (exchange (s.port p).syncSent (field k.payload 0 8) (field k.payload 8 8) s.lodge.time16
        (field k.payload 16 8) k.operand.toNat).1
      lastOffset := (exchange (s.port p).syncSent (field k.payload 0 8) (field k.payload 8 8) s.lodge.time16
        (field k.payload 16 8) k.operand.toNat).2
      syncDone := true } := State.modPort_port (length.symm ▸ hp) _
  have reset1 : s1.fleet.portReset = false := reset
  clear_value s1
  have measured : (if s1.parentPort = some p then s1.measured (exchange (s.port p).syncSent (field k.payload 0 8)
      (field k.payload 8 8) s.lodge.time16 (field k.payload 16 8) k.operand.toNat).2 false else s1).fleet = s1.fleet := by
    split
    · exact State.measured_fleet ..
    · rfl
  generalize (if s1.parentPort = some p then s1.measured (exchange (s.port p).syncSent (field k.payload 0 8)
    (field k.payload 8 8) s.lodge.time16 (field k.payload 16 8) k.operand.toNat).2 false else s1) = v1 at measured ⊢
  have link := State.link_of_settled ((v1.settlePort_fleet p (by rw [measured]; exact reset1)).trans
    (congrArg Fleet.settled measured)) p
  rw [port] at link
  exact ⟨congrArg₂ Prod.mk (congrArg Link.delay link :) (congrArg Link.offset link :), (congrArg Link.syncDone link :)⟩

/-- Each port of a list without repeats is sent one packet, and no other (R279). -/
theorem sendTimeSyncs_other {ps : List Nat} {p : Nat} (h : p ∉ ps) (s : State) :
    (ps.foldl State.sendTimeSync s).port p = s.port p := by
  induction ps generalizing s with
  | nil => rfl
  | cons q ps ih =>
    rw [List.foldl_cons, ih fun hq => h (List.mem_cons_of_mem _ hq)]
    exact State.modPort_port_other (List.ne_of_not_mem_cons h) ..

theorem sendTimeSyncs_port {ps : List Nat} {p : Nat} (hn : ps.Nodup) (h : p ∈ ps) (s : State)
    (hp : p < s.fabric.ports.length) :
    ∃ o, ((ps.foldl State.sendTimeSync s).port p).queue = (s.port p).queue ++ [o] ∧ o.type = tTimeSync := by
  induction ps generalizing s with
  | nil => exact absurd h List.not_mem_nil
  | cons q ps ih =>
    obtain ⟨hq, hps⟩ := List.nodup_cons.1 hn
    rw [List.foldl_cons]
    by_cases e : p = q
    · subst e
      obtain ⟨o, ho, hport⟩ := State.sendTimeSync_port hp
      exact ⟨o, by rw [sendTimeSyncs_other hq, hport], ho⟩
    · obtain ⟨o, hqueue, ho⟩ := ih hps (List.mem_of_ne_of_mem e h) (s.sendTimeSync q)
        ((State.modPort_length ..).symm ▸ hp)
      have same : (s.sendTimeSync q).port p = s.port p := State.modPort_port_other e ..
      exact ⟨o, by rw [hqueue, same], ho⟩

/-- What is sent for time changes neither a port's state nor the settings (R454). -/
theorem sendTimeSyncs_parentPort (ps : List Nat) (s : State) :
    (ps.foldl State.sendTimeSync s).parentPort = s.parentPort := by
  refine foldl_keeps State.parentPort _ (fun v q => ?_) _ _
  have states : ∀ r, ((v.sendTimeSync q).port r).state = (v.port r).state := fun r =>
    State.modPort_keeps Port.state v q r _ fun _ => rfl
  unfold State.parentPort
  simp only [states]
  rfl

theorem timeSyncTimer_sends (s : State) (p : Nat) : Completes .timeSyncTimer s fun u =>
    (p < s.fabric.ports.length → p < s.variant.ports → (s.port p).state = .active →
      ∃ o, (u.port p).queue = (s.port p).queue ++ [o] ∧ o.type = tTimeSync) ∧
    (s.parentPort = none → u.lodge.locked = false) := by
  have fabric : ∀ v : State, v.checkParents.fabric = v.fabric := fun v => by
    unfold State.checkParents
    split <;> rfl
  refine ⟨_, rfl, fun hp hv ha => ?_, fun hn => ?_⟩
  · rw [State.port_of_ports (congrArg Fabric.ports (fabric _))]
    refine sendTimeSyncs_port (List.Nodup.filter _ List.nodup_range) ?_ s hp
    exact List.mem_filter.2 ⟨List.mem_range.2 hv, (congrArg (· == PortState.active) ha :)⟩
  · unfold State.checkParents
    rw [sendTimeSyncs_parentPort, hn]
    rfl

/-! ### The servo (R451, R452, R454) -/

theorem timeSave_saves {s : State} (hp : s.lodge.phase ≠ .off) :
    exec .timeSave s = .next { s with lodge := { s.lodge with timeSaved := s.now } } := by
  have e : exec .timeSave s = execTimeSave s := rfl
  unfold execTimeSave at e
  rw [if_neg (by simpa using hp)] at e
  exact e

theorem time_off {s : State} (hp : s.lodge.phase = .off) :
    exec .timeSave s = .next s ∧ ∀ off, exec (.ptpMessage off) s = .next s := by
  have e : exec .timeSave s = execTimeSave s := rfl
  have e' : ∀ off, exec (.ptpMessage off) s = execPtpMessage off s := fun _ => rfl
  unfold execTimeSave at e
  unfold execPtpMessage at e'
  rw [if_pos (by rw [hp]; rfl)] at e
  exact ⟨e, fun off => (e' off).trans (by rw [if_pos (by rw [hp]; rfl)])⟩

theorem State.measured_ptp {s : State} (ht : s.lodge.settings.timeSource = 1) (off : Int) :
    s.measured off true = (s.steer off true).reportSync := by
  unfold State.measured
  dsimp only
  rw [ht]
  rfl

/-- What is reported of the locks leaves the rate, and shows no lock while the source lags (R452). -/
theorem State.reportSync_lodge (s : State) : s.reportSync.lodge.rate16 = s.lodge.rate16 ∧
    s.reportSync.lodge.sourceBehind = s.lodge.sourceBehind ∧
    (s.lodge.sourceBehind = true → s.reportSync.lodge.syncState = 0) := by
  unfold State.reportSync
  rw [State.modLodge_lodge]
  split
  · exact ⟨rfl, rfl, fun _ => rfl⟩
  · next h =>
    split
    · exact ⟨rfl, rfl, fun hb => absurd hb h⟩
    · exact ⟨rfl, rfl, fun hb => absurd hb h⟩

/-- A message of the master that the module follows steers its rate, or shows that the source lags (R451, R452). -/
theorem ptpMessage_steers {s : State} (off : Int) (hp : s.lodge.phase ≠ .off) (ht : s.lodge.settings.timeSource = 1)
    (he : s.lodge.everLocked = true) :
    (-(10000000000 * 65536) ≤ off → Completes (.ptpMessage off) s fun u =>
      u.lodge.rate16 = max (-524) (min 524 (off.tdiv 100000)) ∧ u.lodge.sourceBehind = false) ∧
    (off < -(10000000000 * 65536) → Completes (.ptpMessage off) s fun u =>
      u.lodge.sourceBehind = true ∧ u.lodge.rate16 = s.lodge.rate16 ∧ u.lodge.syncState = 0) := by
  have e : exec (.ptpMessage off) s = execPtpMessage off s := rfl
  unfold execPtpMessage at e
  rw [if_neg (by simpa using hp), State.measured_ptp ht] at e
  obtain ⟨rate, behind, shown⟩ := (s.steer off true).reportSync_lodge
  have steered : s.steer off true = if off < -(10000000000 * 65536) then _ else _ :=
    if_neg (by rw [he]; exact Bool.false_ne_true)
  refine ⟨fun ho => ?_, fun ho => ?_⟩
  · rw [if_neg (Int.not_lt.2 ho)] at steered
    refine ⟨_, e, ?_, ?_⟩
    · rw [rate, steered]
      rfl
    · rw [behind, steered]
      rfl
  · rw [if_pos ho] at steered
    refine ⟨_, e, ?_, ?_, shown ?_⟩
    · rw [behind, steered]
      rfl
    · rw [rate, steered]
      rfl
    · rw [steered]
      rfl

/-- A lock over Palex that goes leaves no lock where there was none (R452, R454). -/
theorem Lodge.syncNow_unlocked (l : Lodge) (n : Nat) (h : l.syncNow = 0) :
    ({ l with locked := false, goodExchanges := n } : Lodge).syncNow = 0 := by
  unfold Lodge.syncNow at h ⊢
  dsimp only
  split at h
  · next hb => rw [if_pos hb]
  · next hb =>
    rw [if_neg hb]
    split at h
    · cases h
    · next hp => rw [if_neg hp, Bool.false_and, if_neg Bool.false_ne_true]

theorem State.checkParents_lodge (s : State) : s.checkParents.lodge = s.lodge ∨
    s.checkParents.lodge = { s.lodge with locked := false, goodExchanges := 0 } := by
  unfold State.checkParents
  split
  · exact .inr rfl
  · exact .inl rfl

/-- A lock that is lost shows after 1 s, and the rate stays (R452). -/
theorem syncLoss_shows {s : State} (hs : s.lodge.syncNow = 0) (hl : s.lodge.lastLocked + 1000000000 ≤ s.now) :
    Completes .syncLoss s fun u => u.lodge.syncState = 0 ∧ u.lodge.rate16 = s.lodge.rate16 := by
  have e : exec .syncLoss s = execSyncLoss s := rfl
  unfold execSyncLoss at e
  have none : s.checkParents.lodge.syncNow = 0 := by
    rcases s.checkParents_lodge with h | h
    · rw [h, hs]
    · rw [h, Lodge.syncNow_unlocked _ _ hs]
  have old : s.checkParents.lodge.lastLocked + 1000000000 ≤ s.checkParents.now := by
    unfold State.now at hl ⊢
    rcases s.checkParents_lodge with h | h <;> rwa [h]
  dsimp only at e
  rw [if_pos (by rw [none, decide_eq_true old]; rfl)] at e
  refine ⟨_, e, rfl, ?_⟩
  rw [State.modLodge_lodge]
  rcases s.checkParents_lodge with h | h <;> rw [h]

theorem sourceBehindEntry_records {s : State} (hb : s.lodge.sourceBehind = true) (hn : s.lodge.behindAt ≤ s.now) :
    Completes .sourceBehindEntry s fun u =>
      u.lodge.behindAt = s.now + 60000000000 ∧ u.lodge.nextAccession = s.lodge.nextAccession + 1 := by
  have e : exec .sourceBehindEntry s = execSourceBehindEntry s := rfl
  unfold execSourceBehindEntry at e
  rw [if_pos (by rw [hb, decide_eq_true hn]; rfl)] at e
  refine ⟨_, e, rfl, ?_⟩
  rw [State.modLodge_lodge]
  exact (State.catalogue_numbers ..).1

theorem sourceBehindEntry_none {s : State} (h : s.lodge.sourceBehind = false ∨ s.now < s.lodge.behindAt) :
    exec .sourceBehindEntry s = .next s := by
  have e : exec .sourceBehindEntry s = execSourceBehindEntry s := rfl
  unfold execSourceBehindEntry at e
  rw [if_neg (by rcases h with h | h <;> simp [h])] at e
  exact e

/-- Settles O51: what a port knows of its neighbour is unchanged by all that goes on once it has been recorded, and the
servo's rules are the Lodge's. -/
theorem controlPacketsAndTime : Obligations.ControlPacketsAndTime := by
  unfold Obligations.ControlPacketsAndTime
  intro s p k
  refine ⟨fun hp hb => List.forall_mem_cons.2 ⟨fun ha => ?_, List.forall_mem_singleton.2 fun ha => ?_⟩,
    genRetire_remembers, timeSync_answers, timeRsp_records, timeSyncTimer_sends s p, timeSave_saves, time_off,
    fun off hp ht he => ptpMessage_steers off hp ht he, syncLoss_shows, sourceBehindEntry_records, sourceBehindEntry_none⟩
  · obtain ⟨u, hu, known, neighbour⟩ := hello_records hp ha
    exact ⟨u, hu, known, neighbour, fun h => absurd h (by decide)⟩
  · obtain ⟨u, hu, known, neighbour, done⟩ := helloRsp_records hp hb ha
    exact ⟨u, hu, known, neighbour, fun _ => done⟩

end Sys2Proof.Machine
end

section
/-! CLAIMS. The commands of devices, contexts, rings and memory where their rules let them (R334, R341 to R352). -/

namespace Sys2Proof.Machine

/-! ### A command of a row that completes, and one that starts -/

/-- A command whose rules answer a final reply completes with it. -/
theorem finishes_row {e : (CmdHeader → Bytes → Instr) × Nat × (State → Nat → OutCmd → Bytes → Answer)} (he : e ∈ hostRows)
    {pre : State → OutCmd → Bytes → Prop} {post : State → OutCmd → Bytes → Reply → State → Prop}
    (answers : ∀ v g k q, pre v k q →
      ∃ r u, e.2.2 v g k q = (some r, u) ∧ r.code = Code.done ∧ post v k q r u) :
    Finishes e.2.1 e.1 pre post := by
  intro s h p hr b q hp
  obtain ⟨r, u, ha, hc, hpost⟩ := answers b.2.2 b.1 b.2.1 q hp
  exact ⟨r, u, hc, (exec_runs he hr).trans (congrArg (fun a => Host.Outcome.next (answered b.1 a)) ha), hpost⟩

/-- A command whose rules answer no reply stays under way. -/
theorem starts_row {e : (CmdHeader → Bytes → Instr) × Nat × (State → Nat → OutCmd → Bytes → Answer)} (he : e ∈ hostRows)
    {pre : State → OutCmd → Bytes → Prop} {post : State → Nat → OutCmd → Bytes → State → Prop}
    (answers : ∀ v g k q, pre v k q → ∃ u, e.2.2 v g k q = (none, u) ∧ post v g k q u) :
    Starts e.2.1 e.1 pre post := by
  intro s h p hr b q hp
  obtain ⟨u, ha, hpost⟩ := answers b.2.2 b.1 b.2.1 q hp
  exact ⟨u, (exec_runs he hr).trans (congrArg (fun a => Host.Outcome.next (answered b.1 a)) ha), hpost⟩

/-- A row of the table by its place. -/
theorem hostRows_get_mem (i : Fin 60) : hostRows[i] ∈ hostRows := List.getElem_mem _

/-! ### Device commands -/

theorem length_descriptor (s : State) : s.descriptor.length = 64 := by
  unfold State.descriptor
  simp only [List.length_append, length_le, length_zeros]

theorem length_attnBytes (e : AttnEvent) : e.bytes.length = 32 := by
  unfold AttnEvent.bytes
  simp only [List.length_append, length_le, length_zeros]

theorem length_faultBytes (e : FaultRec) : e.bytes.length = 64 := by
  unfold FaultRec.bytes
  simp only [List.length_append, length_le, length_zeros]

/-- Records of one length laid one after another: their length, and that the first stands in front. -/
theorem length_flatMap_records {n m : Nat} {f : Nat → Bytes} (hf : ∀ i, (f i).length = m) :
    ((List.range n).flatMap f).length = n * m := by
  simp only [List.length_flatMap, hf, List.map_const', List.length_range, List.sum_replicate_nat]

theorem take_flatMap_records {n m : Nat} {f : Nat → Bytes} (hn : 1 ≤ n) (hf : (f 0).length = m) :
    ((List.range n).flatMap f).take m = f 0 := by
  obtain ⟨k, rfl⟩ := Nat.exists_eq_add_of_le' hn
  rw [List.range_succ_eq_map, List.flatMap_cons]
  exact List.take_left' hf

/-- A record of a log, or zeros past its end (R342). -/
theorem length_logRecord {α : Type} {m : Nat} {f : α → Bytes} (hf : ∀ e, (f e).length = m) (o : Option α) :
    ((o.map f).getD (zeros m)).length = m := by
  cases o with
  | none => exact length_zeros m
  | some e => exact hf e

/-- What a query of the attention log answers. -/
theorem State.cmdQueryFault_attention {s : State} {k : OutCmd} {q : Bytes} (hsel : field q 0 1 = 0) (hpos : 1 ≤ field q 8 4)
    (hmax : field q 8 4 ≤ 256) (hout : k.outOk (field q 16 8) = true) :
    s.cmdQueryFault k q = (some { code := .done, outAddr := field q 16 8, data :=
      (List.range (field q 8 4)).flatMap fun i =>
        ((s.attnLog[field q 4 4 + i]?).map AttnEvent.bytes).getD (zeros 32) }, s) := by
  unfold State.cmdQueryFault
  simp [hsel, hout, Nat.not_lt.2 hmax, Nat.pos_iff_ne_zero.1 hpos]

/-- What a query of the fault mailbox answers. -/
theorem State.cmdQueryFault_mailbox {s : State} {k : OutCmd} {q : Bytes} (hsel : field q 0 1 = 1) (hpos : 1 ≤ field q 8 4)
    (hmax : field q 8 4 ≤ 256) (hout : k.outOk (field q 16 8) = true) :
    s.cmdQueryFault k q = (some { code := .done, outAddr := field q 16 8, data :=
      (List.range (field q 8 4)).flatMap fun i =>
        ((s.lodge.faults[field q 4 4 + i]?).map FaultRec.bytes).getD (zeros 64) }, s) := by
  unfold State.cmdQueryFault
  simp [hsel, hout, Nat.not_lt.2 hmax, Nat.pos_iff_ne_zero.1 hpos]

theorem take_front {a b c : Bytes} {n : Nat} (h : a.length = n) : (a ++ b ++ c).take n = a := by
  rw [List.append_assoc, List.take_left' h]

/-! ### Contexts and rings -/

/-- A created context, once the pages of its save area are found and the quotas fit (R349). -/
theorem State.cmdCtxCreate_done {s w : State} {q : Bytes} (g : Nat) (hid : 1 ≤ field q 0 2 ∧ field q 0 2 ≤ 16383)
    (hun : (s.ctx (field q 0 2)).state = .unused) (hcls : field q 2 1 ≤ 3) (harr : 1 ≤ field q 3 1 ∧ field q 3 1 ≤ 64)
    (hthr : 1 ≤ field q 4 1 ∧ field q 4 1 ≤ 64) (hmodel : field q 8 8 ≠ 0)
    (hunits : (Quota.read (q.drop 16)).unitsOk = true) (hprob : s.lodge.probation ≠ 1) (hnone : s.memory.model = .none)
    (hw : s.allocate 3 (savePagesOf (field q 3 1) (field q 4 1)) = some w) {x : Ctx}
    (hx : x = { state := .active, generation := (w.ctx (field q 0 2)).generation, priority := field q 2 1
                maxArrays := field q 3 1, maxThreads := field q 4 1, model := BitVec.ofNat 64 (field q 8 8)
                quota := Quota.read (q.drop 16), savePages := savePagesOf (field q 3 1) (field q 4 1) })
    (hfit : (w.modCtx (field q 0 2) fun _ => x).claimsFit = true) :
    ∃ r u, s.cmdCtxCreate g q = (some r, u) ∧ r.code = Code.done ∧ u.ctx (field q 0 2) = x ∧
      r.result.take 2 = le 2 (field q 0 2) := by
  have bad : (decide (16383 < field q 0 2) || decide (3 < field q 2 1) || decide (field q 3 1 < 1) ||
      decide (64 < field q 3 1) || decide (field q 4 1 < 1) || decide (64 < field q 4 1) || decide (field q 8 8 = 0) ||
      !(Quota.read (q.drop 16)).unitsOk || (decide (field q 0 2 ≠ 0) && ((s.ctx (field q 0 2)).state == .active ||
        (s.ctx (field q 0 2)).state == .suspending || (s.ctx (field q 0 2)).state == .suspended))) = false := by
    simp [hid.2, hcls, harr.2, hthr.2, hmodel, hunits, hun, Nat.pos_iff_ne_zero.1 harr.1, Nat.pos_iff_ne_zero.1 hthr.1]
  have busy : (decide (field q 0 2 ≠ 0) && (s.ctx (field q 0 2)).state == .draining ||
      (s.memory.model == .loading && decide (s.memory.modelId.toNat = field q 8 8)) || decide (s.lodge.probation = 1)) =
      false := by
    simp [hun, hnone, hprob]
  have other : (s.memory.model != .none && decide (s.memory.modelId.toNat ≠ field q 8 8)) = false := by simp [hnone]
  have same : (w.modCtx (field q 0 2) fun y =>
      { state := .active, generation := y.generation, priority := field q 2 1, maxArrays := field q 3 1
        maxThreads := field q 4 1, model := BitVec.ofNat 64 (field q 8 8), quota := Quota.read (q.drop 16)
        savePages := savePagesOf (field q 3 1) (field q 4 1) }) = w.modCtx (field q 0 2) fun _ => x := by rw [hx]; rfl
  have ctx : (w.modCtx (field q 0 2) fun _ => x).ctx (field q 0 2) = x := State.modCtx_ctx ..
  unfold State.cmdCtxCreate
  dsimp only
  rw [bad, if_neg Bool.false_ne_true, busy, if_neg Bool.false_ne_true, if_neg (Nat.pos_iff_ne_zero.1 hid.1)]
  dsimp only
  rw [other, if_neg Bool.false_ne_true, hw]
  dsimp only
  rw [same, hfit, Bool.not_true, if_neg Bool.false_ne_true]
  generalize (w.modCtx (field q 0 2) fun _ => x) = w' at ctx ⊢
  refine ⟨_, _, rfl, rfl, ?_, ?_⟩
  · split
    all_goals exact ctx
  · exact take_front (length_le 2 _)

/-! ### Pages -/

/-- What the mapping of one page leaves: the page, resident and with what was asked for, in a frame. -/
theorem State.mapPages_spec {owner : Owner} {cls : Nat} {rw : Bool} {st : PageState} (ps : List Nat) (s : State) :
    (s.mapPages ps owner cls rw st).ctxs = s.ctxs ∧
      ∀ i, i ∈ ps ∨ (∃ g, Map.get? s.memory.pages i = some g ∧ g.owner = owner ∧ g.cls = cls ∧ g.rw = rw ∧ g.state = st) →
        ∃ g, Map.get? (s.mapPages ps owner cls rw st).memory.pages i = some g ∧ g.owner = owner ∧ g.cls = cls ∧
          g.rw = rw ∧ g.state = st := by
  induction ps generalizing s with
  | nil => exact ⟨rfl, fun i hi => hi.resolve_left (List.not_mem_nil)⟩
  | cons j ps ih =>
    obtain ⟨ctxs, pages⟩ := ih (((s.forgetLost j).freshFrame s.takeFrame).modMem fun m =>
      { m with pages := Map.put m.pages j
                 { owner := owner, cls := cls, rw := rw, state := st, frame := s.takeFrame
                   hint := ((Map.get? s.memory.pages j).map (·.hint)).getD 0 } })
    refine ⟨ctxs, fun i hi => pages i ?_⟩
    rcases eq_or_ne i j with rfl | hne
    · exact .inr ⟨_, (Map.get?_put ..).trans (if_pos rfl), rfl, rfl, rfl, rfl⟩
    · refine (hi.imp (fun h => (List.mem_cons.1 h).resolve_left hne) fun ⟨g, hg, rest⟩ => ⟨g, ?_, rest⟩)
      exact ((Map.get?_put ..).trans (if_neg hne)).trans hg

theorem State.modPage_page {s : State} {j : Nat} {f : Page → Page} (i : Nat) :
    Map.get? (s.modPage j f).memory.pages i =
      if i = j then (Map.get? s.memory.pages j).map f else Map.get? s.memory.pages i :=
  Map.get?_modify ..

/-- A hint that names what is kept warm is recorded at each of its pages, and nothing else of memory changes (R226). -/
theorem State.hintPages_spec {c : Nat} (ps : List Nat) (s : State) (hp : ∀ i ∈ ps, s.pinnable c i = true) :
    (ps.foldl (fun s i => s.hintPage c 3 i) s).memory.bytes = s.memory.bytes ∧
      ∀ i, i ∈ ps ∨ (Map.get? s.memory.pages i).map Page.hint = some 3 →
        (Map.get? (ps.foldl (fun s i => s.hintPage c 3 i) s).memory.pages i).map Page.hint = some 3 := by
  induction ps generalizing s with
  | nil => exact ⟨rfl, fun i hi => hi.resolve_left (List.not_mem_nil)⟩
  | cons j ps ih =>
    have here : s.hintPage c 3 j = s.modPage j fun q => { q with hint := 3 } := by
      unfold State.hintPage
      rw [hp j (List.mem_cons_self ..)]
      rfl
    have stays : ∀ i, (s.modPage j fun q => { q with hint := 3 }).pinnable c i = s.pinnable c i := fun i => by
      unfold State.pinnable
      rw [State.modPage_page]
      split
      · next h => subst h; cases Map.get? s.memory.pages i <;> rfl
      · rfl
    obtain ⟨bytes, hints⟩ := ih (s.modPage j fun q => { q with hint := 3 }) fun i hi =>
      (stays i).trans (hp i (List.mem_cons_of_mem _ hi))
    rw [List.foldl_cons, here]
    refine ⟨bytes, fun i hi => hints i ?_⟩
    rw [State.modPage_page]
    split
    · next h =>
      obtain ⟨p, mapped, _⟩ := (Option.any_eq_true ..).1 (hp j (List.mem_cons_self ..))
      exact .inr (by rw [mapped]; rfl)
    · next h => exact hi.imp_left fun hi => (List.mem_cons.1 hi).resolve_left h

/-- A granule that a context lets go. -/
def unpinned (c : Nat) (x : Granule) : Granule :=
  { x with pins := x.pins.filter (· ≠ c), home := if (x.pins.filter (· ≠ c)).isEmpty then none else x.home }

/-- A granule that a context has let go holds none of its pins (R225). -/
theorem State.unpin_spec {c : Nat} (gs : List Nat) (s : State) (i : Nat)
    (hi : i ∈ gs ∨ (Map.getD s.memory.granules i {}).pins.contains c = false) :
    (Map.getD (gs.foldl (fun s g => s.modGranule g (unpinned c)) s).memory.granules i {}).pins.contains c = false := by
  induction gs generalizing s with
  | nil => exact hi.resolve_left (List.not_mem_nil)
  | cons j gs ih =>
    refine ih (s.modGranule j (unpinned c)) ?_
    rcases eq_or_ne i j with rfl | hne
    · refine .inr (Eq.trans (congrArg (fun g : Granule => g.pins.contains c) (Map.getD_put_self ..)) ?_)
      simp [unpinned]
    · exact hi.imp (fun h => (List.mem_cons.1 h).resolve_left hne)
        ((congrArg (fun g : Granule => g.pins.contains c) (Map.getD_put_other _ _ _ _ _ hne)).trans ·)

/-! ### The commands -/

theorem State.cmdMemMap_done {s w : State} {k : OutCmd} {q : Bytes}
    (hwhole : wholePages (field q 0 8) (field q 8 8) = true) (hcls : field q 16 1 ≤ 2) (hacc : field q 17 1 ≤ 1)
    (hfree : ∀ i ∈ pagesOf (field q 0 8) (field q 8 8), Map.get? s.memory.pages i = none)
    (hw : s.ctxAllocate k.ctx (pagesOf (field q 0 8) (field q 8 8)).length = some w) :
    s.cmdMemMap k q = (some (Reply.of .done), w.mapPages (pagesOf (field q 0 8) (field q 8 8)) (.ctx k.ctx) (field q 16 1)
      (field q 17 1 = 1) .resident) := by
  have taken : ((pagesOf (field q 0 8) (field q 8 8)).any fun i =>
      (Map.get? s.memory.pages i).any fun g => g.state != .dropped || g.owner != .ctx k.ctx) = false :=
    List.any_eq_false.2 fun i hi => by rw [hfree i hi]; exact Bool.false_ne_true
  unfold State.cmdMemMap
  dsimp only
  rw [hwhole, taken, decide_eq_false (Nat.not_lt.2 hcls), decide_eq_false (Nat.not_lt.2 hacc), if_neg (by decide), hw]
  rfl

theorem State.cmdMemPin_unpins {s : State} {k : OutCmd} {q : Bytes} (hb : field q 0 8 % granuleBytes = 0)
    (hl : field q 8 8 % granuleBytes = 0) (hmask : field q 16 8 = 0) (hflags : field q 24 1 = 1)
    (hall : ((unitsOf granuleBytes (field q 0 8) (field q 8 8)).all fun g => s.pinnable k.ctx (g / 32)) = true) :
    s.cmdMemPin k q = (some (Reply.of .done),
      (unitsOf granuleBytes (field q 0 8) (field q 8 8)).foldl (fun s g => s.modGranule g (unpinned k.ctx)) s) := by
  have named : ((List.range 64).filter fun a => bitOf 0 a) = [] := by decide
  unfold State.cmdMemPin
  simp only [hmask, named, hb, hl, hflags, hall]
  rfl

theorem State.cmdMemPin_pins {s w : State} {k : OutCmd} {q : Bytes} (hb : field q 0 8 % granuleBytes = 0)
    (hl : field q 8 8 % granuleBytes = 0) (hmask : field q 16 8 = 0) (hflags : field q 24 1 = 0)
    (hall : ((unitsOf granuleBytes (field q 0 8) (field q 8 8)).all fun g => s.pinnable k.ctx (g / 32)) = true)
    {fresh : List Nat} (hfresh : fresh = (unitsOf granuleBytes (field q 0 8) (field q 8 8)).filter fun g =>
      !(Map.getD s.memory.granules g {}).pins.contains k.ctx)
    (hroom : s.pinsOf k.ctx + fresh.length ≤ (s.ctx k.ctx).quota.cellarPinLimit)
    (hw : s.pinAll k.ctx fresh s.arraysInService = some w) : s.cmdMemPin k q = (some (Reply.of .done), w) := by
  have named : ((List.range 64).filter fun a => bitOf 0 a) = [] := by decide
  subst hfresh
  unfold State.cmdMemPin
  simp only [hmask, named, hb, hl, hflags, hall, if_true, Nat.not_lt.2 hroom, if_false, hw]
  rfl

theorem State.cmdMemHint_done {s : State} {k : OutCmd} {q : Bytes}
    (hwhole : wholePages (field q 0 8) (field q 8 8) = true) (hhint : field q 16 1 = 3) :
    s.cmdMemHint k q = (some (Reply.of .done),
      (pagesOf (field q 0 8) (field q 8 8)).foldl (fun s i => s.hintPage k.ctx 3 i) s) := by
  unfold State.cmdMemHint
  simp only [hwhole, hhint]
  rfl

theorem State.cmdMemCopy_local {s w : State} (g : Nat) {k : OutCmd} {q : Bytes} (hflags : field q 24 1 = 0)
    (hlen : field q 16 8 % 16 = 0) (hmax : field q 16 8 ≤ 1073741824) (hsrc : field q 0 8 % 16 = 0)
    (hdst : field q 8 8 % 16 = 0) (hmeet : rangesMeet (field q 0 8, field q 16 8) (field q 8 8, field q 16 8) = false)
    (hread : s.canRead k.ctx (field q 0 8) (field q 16 8) = true)
    (hwrite : s.canWrite k.ctx (field q 8 8) (field q 16 8) = true)
    (hw : s.returnRanges k.ctx [(field q 0 8, field q 16 8), (field q 8 8, field q 16 8)] = some w) :
    s.cmdMemCopy g k q = w.waits g (.copy (field q 0 8) (field q 8 8) (field q 16 8) false) := by
  have bit0 : bitOf 0 0 = false := by decide
  have bit1 : bitOf 0 1 = false := by decide
  unfold State.cmdMemCopy
  simp [hflags, hlen, Nat.not_lt.2 hmax, hsrc, hdst, hmeet, hread, hwrite, bit0, bit1, hw]

theorem State.cmdMemFill_starts {s w : State} (g : Nat) {k : OutCmd} {q : Bytes} (hlen : field q 8 8 % 16 = 0)
    (hmax : field q 8 8 ≤ 1073741824) (hdst : field q 0 8 % 16 = 0)
    (hwrite : s.canWrite k.ctx (field q 0 8) (field q 8 8) = true)
    (hw : s.returnRanges k.ctx [(field q 0 8, field q 8 8)] = some w) :
    s.cmdMemFill g k q = w.waits g (.fill (field q 0 8) (field q 8 8) (BitVec.ofNat 64 (field q 16 8))) := by
  unfold State.cmdMemFill
  simp [hlen, Nat.not_lt.2 hmax, hdst, hwrite, hw]

theorem State.cmdPoolQuota_done {s w : State} {q : Bytes} (hctx : s.noCtx (field q 0 2) = false) (hmask : field q 4 4 ≤ 127)
    (hunits : (Quota.select {} (Quota.read (q.drop 8)) (field q 4 4)).unitsOk = true)
    (hw : w = s.modCtx (field q 0 2) fun x => { x with quota := x.quota.select (Quota.read (q.drop 8)) (field q 4 4) })
    (hpool : w.poolClaims ≤ s.poolClaims) (hcellar : w.cellarClaims ≤ s.cellarClaims) :
    s.cmdPoolQuota q = (some (Reply.of .done), w) := by
  subst hw
  unfold State.cmdPoolQuota
  dsimp only
  rw [if_neg (Nat.not_lt.2 hmask), hctx, if_neg Bool.false_ne_true, hunits, Bool.not_true, if_neg Bool.false_ne_true,
    decide_eq_false (Nat.not_lt.2 hpool), decide_eq_false (Nat.not_lt.2 hcellar), Bool.false_and, Bool.false_and,
    Bool.or_false, if_neg Bool.false_ne_true]
  rfl

/-- The records of provenance once a range has been taken out of them (R239). -/
def provenanceOutside (s : State) (q : Bytes) : List Provenance :=
  s.memory.provenance.flatMap fun r =>
    if rangesMeet (r.base, r.length) (field q 0 8, field q 8 8) then r.outside (field q 0 8) (field q 8 8) else [r]

theorem State.cmdProvenance_clears {s : State} {k : OutCmd} {q : Bytes} (hb : field q 0 8 % granuleBytes = 0)
    (hl : field q 8 8 % granuleBytes = 0) (hn : field q 0x10 1 = 0) (htrack : field q 0x11 1 = 0)
    (hregion : field q 0x12 2 = 0) (hread : s.canRead k.ctx (field q 0 8) (field q 8 8) = true)
    (hroom : (provenanceOutside s q).length ≤ 16384) :
    s.cmdProvenance k q =
      (some (Reply.of .done), s.modMem fun m => { m with provenance := provenanceOutside s q }) := by
  unfold State.cmdProvenance
  simp only [hn, hb, hl, htrack, hregion, hread, List.range_zero, List.map_nil, List.take_nil, List.any_nil]
  unfold provenanceOutside at hroom ⊢
  simp [-List.length_flatMap, Nat.not_lt.2 hroom]
  rfl

theorem State.cmdRingBind_done {s : State} {q : Bytes} (hun : (s.ring (field q 0 2)).state = .unbound)
    (hvalid : (s.ring (field q 0 2)).valid = true)
    (hctx : field q 2 2 = 0 ∨ (field q 0 2 ≠ 0 ∧ s.noCtx (field q 2 2) = false ∧ (s.ctx (field q 2 2)).state ≠ .draining)) :
    s.cmdRingBind q = (some (Reply.of .done), s.modRing (field q 0 2) fun r => r.bindTo (field q 2 2)) := by
  unfold State.cmdRingBind
  rcases hctx with h0 | ⟨hn, hno, hst⟩
  · simp [h0, hun, hvalid]
    rfl
  · simp [hn, hno, hst, hun, hvalid]
    rfl

theorem State.cmdRingUnbind_done {s : State} {k : OutCmd} {q : Bytes} (hn : field q 0 2 ≠ 0)
    (hother : k.header.session ≠ 0 ∨ field q 0 2 ≠ k.header.ring)
    (hst : (s.ring (field q 0 2)).state = .bound ∨ (s.ring (field q 0 2)).state = .stopped) :
    s.cmdRingUnbind k q = (some (Reply.of .done), s.modRing (field q 0 2) fun r => { r with state := .draining }) := by
  have own : (decide (k.header.session = 0) && decide (field q 0 2 = k.header.ring)) = false := by
    rcases hother with h | h
    · rw [decide_eq_false h, Bool.false_and]
    · rw [decide_eq_false h, Bool.and_false]
  unfold State.cmdRingUnbind
  rcases hst with h | h <;> simp [hn, own, h] <;> rfl

/-- What a heartbeat answers: sixteen bytes, the arrays idle over the period in front (R341). -/
theorem State.cmdHeartbeat_done {s : State} {q : Bytes} (hmin : 1000 ≤ field q 0 4) (hmax : field q 0 4 ≤ 1000000) :
    ∃ r, s.cmdHeartbeat q = (some r, s) ∧ r.code = Code.done ∧
      r.result.take 8 = le 8 (s.idleArrays (s.now - 2000 * field q 0 4)) ∧ r.result.length = 16 := by
  unfold State.cmdHeartbeat
  dsimp only
  rw [decide_eq_false (Nat.not_lt.2 hmin), decide_eq_false (Nat.not_lt.2 hmax), if_neg (by decide)]
  refine ⟨_, rfl, rfl, ?_, ?_⟩
  · simp only [List.append_assoc]
    exact List.take_left' (length_le 8 _)
  · simp only [List.length_append, length_le, length_zeros]

/-- What a query of the fault records answers, of either log. -/
theorem State.cmdQueryFault_done {s : State} {k : OutCmd} {q : Bytes} (hsel : field q 0 1 ≤ 1) (hpos : 1 ≤ field q 8 4)
    (hmax : field q 8 4 ≤ 256) (hout : k.outOk (field q 16 8) = true) :
    ∃ r, s.cmdQueryFault k q = (some r, s) ∧ r.code = Code.done ∧ r.outAddr = field q 16 8 ∧
      r.data.length = field q 8 4 * (if field q 0 1 = 0 then 32 else 64) ∧
      (field q 0 1 = 0 → ∀ e, s.attnLog[field q 4 4]? = some e → r.data.take 32 = e.bytes) ∧
      (field q 0 1 = 1 → ∀ e, s.lodge.faults[field q 4 4]? = some e → r.data.take 64 = e.bytes) := by
  rcases Nat.le_one_iff_eq_zero_or_eq_one.1 hsel with h | h
  · refine ⟨_, State.cmdQueryFault_attention h hpos hmax hout, rfl, rfl, ?_, fun _ e he => ?_, fun h1 => ?_⟩
    · rw [if_pos h]
      exact length_flatMap_records fun i => length_logRecord length_attnBytes _
    · refine (take_flatMap_records hpos (length_logRecord length_attnBytes _)).trans ?_
      rw [Nat.add_zero, he]
      rfl
    · exact absurd (h.symm.trans h1) (by decide)
  · refine ⟨_, State.cmdQueryFault_mailbox h hpos hmax hout, rfl, rfl, ?_, fun h0 => ?_, fun _ e he => ?_⟩
    · rw [if_neg (by rw [h]; decide)]
      exact length_flatMap_records fun i => length_logRecord length_faultBytes _
    · exact absurd (h.symm.trans h0) (by decide)
    · refine (take_flatMap_records hpos (length_logRecord length_faultBytes _)).trans ?_
      rw [Nat.add_zero, he]
      rfl

theorem State.cmdReadCounters_done {s : State} {k : OutCmd} {q : Bytes}
    (hmay : k.ctx = 0 ∨ (field q 0 1 = 0x08 ∧ field q 2 2 = k.ctx))
    (hex : s.countersExist (field q 0 1) (field q 2 2) (field q 4 2) (field q 6 2) = true)
    (hout : k.outOk (field q 8 8) = true) :
    s.cmdReadCounters k q = (some { code := .done, outAddr := field q 8 8, data :=
      (countUp (field q 4 2) 1 (field q 6 2)).flatMap fun i => (s.counter (field q 0 1, i) (field q 2 2)).bytes }, s) := by
  have may : (decide (k.ctx ≠ 0) && !(decide (field q 0 1 = 0x08) && decide (field q 2 2 = k.ctx))) = false := by
    rcases hmay with h | ⟨hu, hi⟩
    · rw [h]; rfl
    · rw [decide_eq_true hu, decide_eq_true hi]; exact Bool.and_false _
  unfold State.cmdReadCounters
  dsimp only
  rw [may, if_neg Bool.false_ne_true, hex, hout, if_neg (by decide)]

theorem State.cmdCtxQuery_done {s : State} {k : OutCmd} {q : Bytes} (hmay : k.ctx = 0 ∨ k.ctx = field q 0 2)
    (hno : s.noCtx (field q 0 2) = false) (hout : k.outOk (field q 8 8) = true) :
    s.cmdCtxQuery k q = (some { code := .done, outAddr := field q 8 8, data := s.ctxRecord (field q 0 2) }, s) := by
  have may : (decide (k.ctx ≠ 0) && decide (k.ctx ≠ field q 0 2)) = false := by
    rcases hmay with h | h
    · rw [h]; rfl
    · rw [← h, decide_eq_false (not_not.2 rfl : ¬k.ctx ≠ k.ctx), Bool.and_false]
  unfold State.cmdCtxQuery
  dsimp only
  rw [may, if_neg Bool.false_ne_true, hno, if_neg Bool.false_ne_true, hout, if_neg (by decide)]

theorem State.cmdDrain_starts {s : State} (g : Nat) {q : Bytes} (destroy : Bool) (hno : s.noCtx (field q 0 2) = false)
    (hst : (s.ctx (field q 0 2)).state ≠ .draining) :
    s.cmdDrain g q destroy = (s.startDrain (field q 0 2) g destroy).waits g (.drain (field q 0 2)) := by
  unfold State.cmdDrain
  dsimp only
  rw [hno, if_neg Bool.false_ne_true, if_neg (by simpa using hst)]

theorem State.cmdCtxSuspend_starts {s : State} (g : Nat) {q : Bytes} (hno : s.noCtx (field q 0 2) = false)
    (hst : (s.ctx (field q 0 2)).state = .active) :
    s.cmdCtxSuspend g q = (s.suspendCtx (field q 0 2) .host 0).waits g (.suspend (field q 0 2)) := by
  unfold State.cmdCtxSuspend
  dsimp only
  rw [hno, if_neg Bool.false_ne_true, hst]

theorem State.cmdCtxResume_active {s : State} (g : Nat) {q : Bytes} (hno : s.noCtx (field q 0 2) = false)
    (hst : (s.ctx (field q 0 2)).state = .active)
    (hnotice : (s.ctx (field q 0 2)).notice.spilled + (s.ctx (field q 0 2)).notice.dropped = 0) :
    s.cmdCtxResume g q = (some (Reply.of .done), s) := by
  unfold State.cmdCtxResume
  dsimp only
  rw [hno, if_neg Bool.false_ne_true, hst, if_neg (by decide), if_neg (not_not.2 hnotice), if_pos (by decide)]
  rfl

/-- The state in which a suspended context whose resumption was asked for looks whether it can be put back (R351). -/
def resumeAsked (s : State) (g c : Nat) : State :=
  ((s.modCtx c fun x => { x with resumeCmd := some (x.resumeCmd.getD g)
                                 resumeAt := if x.resumeCmd.isSome then x.resumeAt else s.now }).modCmd g
    fun k => { k with work := .resume c }).readmit c

theorem State.cmdCtxResume_suspended {s : State} (g : Nat) {q : Bytes} (hno : s.noCtx (field q 0 2) = false)
    (hst : (s.ctx (field q 0 2)).state = .suspended)
    (hnotice : (s.ctx (field q 0 2)).notice.spilled + (s.ctx (field q 0 2)).notice.dropped = 0) :
    s.cmdCtxResume g q = (none, if ((resumeAsked s g (field q 0 2)).ctx (field q 0 2)).restoring then
        resumeAsked s g (field q 0 2)
      else (resumeAsked s g (field q 0 2)).interim g .queued ((resumeAsked s g (field q 0 2)).admitRecord 1 0 0
        ((resumeAsked s g (field q 0 2)).waitItems.idxOf (.context (field q 0 2))) 0)) := by
  unfold State.cmdCtxResume
  dsimp only
  rw [hno, if_neg Bool.false_ne_true, hst, if_neg (by decide), if_neg (not_not.2 hnotice), if_neg (by decide)]
  exact (apply_ite (fun u => ((none, u) : Answer)) ..).symm

theorem State.cmdMemUnmap_done {s : State} (g : Nat) {k : OutCmd} {q : Bytes}
    (hwhole : wholePages (field q 0 8) (field q 8 8) = true)
    (hmine : ∀ i ∈ pagesOf (field q 0 8) (field q 8 8), (Map.get? s.memory.pages i).map Page.owner = some (.ctx k.ctx))
    (hrep : s.repairingIn (field q 0 8) (field q 8 8) = []) :
    s.cmdMemUnmap g k q = (some (Reply.of .done), s.unmapRange (field q 0 8) (field q 8 8)) := by
  have mine : ((pagesOf (field q 0 8) (field q 8 8)).all fun i =>
      (Map.get? s.memory.pages i).any fun g => g.owner == .ctx k.ctx) = true := List.all_eq_true.2 fun i hi => by
    obtain ⟨p, hp, ho⟩ := Option.map_eq_some_iff.1 (hmine i hi)
    rw [hp]
    exact beq_iff_eq.2 ho
  unfold State.cmdMemUnmap
  dsimp only
  rw [hwhole, mine, if_neg (by decide), hrep, if_pos (by decide)]
  rfl

/-- Settles O59: each command runs the rules of its row of the table, and these answer as stated. -/
theorem deviceContextAndMemoryCommandsAct : Obligations.DeviceContextAndMemoryCommandsAct := by
  refine ⟨?nop, ?heartbeat, ?caps, ?ack, ?fault, ?counters, ?time, ?create, ?destroy, ?reset, ?suspend, ?resumed, ?resume,
    ?query, ?bind, ?unbind, ?map, ?unmap, ?unpin, ?pin, ?hint, ?copy, ?fill, ?quota, ?provenance⟩
  case nop => exact finishes_row (hostRows_get_mem 0) fun v _ _ _ _ => ⟨_, _, rfl, rfl, rfl, rfl⟩
  case heartbeat =>
    refine finishes_row (hostRows_get_mem 1) fun v _ _ q ⟨hmin, hmax⟩ => ?_
    obtain ⟨r, e, code, front, length⟩ := State.cmdHeartbeat_done (s := v) hmin hmax
    exact ⟨r, v, e, code, rfl, front, length⟩
  case caps =>
    refine finishes_row (hostRows_get_mem 2) fun v _ k q hout => ?_
    have e : v.cmdQueryCaps k q = (some { code := .done, outAddr := field q 0 8, data := v.descriptor }, v) :=
      if_neg (by rw [hout]; decide)
    exact ⟨_, _, e, rfl, rfl, rfl, rfl, length_descriptor v⟩
  case ack => exact finishes_row (hostRows_get_mem 3) fun v _ _ q _ => ⟨_, _, rfl, rfl, rfl, rfl, rfl⟩
  case fault =>
    refine finishes_row (hostRows_get_mem 4) fun v _ k q ⟨hsel, hpos, hmax, hout⟩ => ?_
    obtain ⟨r, e, code, rest⟩ := State.cmdQueryFault_done (s := v) hsel hpos hmax hout
    exact ⟨r, v, e, code, rfl, rest⟩
  case counters =>
    refine finishes_row (hostRows_get_mem 5) fun v _ k q ⟨hmay, hex, hout⟩ => ?_
    exact ⟨_, _, State.cmdReadCounters_done hmay hex hout, rfl, rfl, rfl, rfl⟩
  case time => exact finishes_row (hostRows_get_mem 6) fun v _ _ _ _ => ⟨_, _, rfl, rfl, rfl, rfl⟩
  case create =>
    refine finishes_row (hostRows_get_mem 7) fun v g _ q hp => ?_
    obtain ⟨hmin, hmax, hun, hcls, ha1, ha2, ht1, ht2, hmodel, hunits, hprob, hnone, w, hw, hfit, hsame⟩ := hp
    obtain ⟨r, u, e, code, ctx, front⟩ := State.cmdCtxCreate_done g ⟨hmin, hmax⟩ hun hcls ⟨ha1, ha2⟩ ⟨ht1, ht2⟩ hmodel hunits
      hprob hnone hw (by rw [hsame]) hfit
    refine ⟨r, u, e, code, ?_⟩
    rw [ctx]
    exact ⟨rfl, rfl, rfl, rfl, rfl, rfl, front⟩
  case destroy =>
    exact starts_row (hostRows_get_mem 8) fun v g _ q ⟨hno, hst⟩ => ⟨_, State.cmdDrain_starts g true hno hst, rfl⟩
  case reset =>
    exact starts_row (hostRows_get_mem 9) fun v g _ q ⟨hno, hst⟩ => ⟨_, State.cmdDrain_starts g false hno hst, rfl⟩
  case suspend =>
    exact starts_row (hostRows_get_mem 10) fun v g _ q ⟨hno, hst⟩ => ⟨_, State.cmdCtxSuspend_starts g hno hst, rfl⟩
  case resumed =>
    refine finishes_row (hostRows_get_mem 11) fun v g _ q ⟨hno, hst, hnotice⟩ => ?_
    exact ⟨_, _, State.cmdCtxResume_active g hno hst hnotice, rfl, rfl⟩
  case resume =>
    refine starts_row (hostRows_get_mem 11) fun v g _ q ⟨hno, hst, hnotice⟩ => ?_
    exact ⟨_, State.cmdCtxResume_suspended g hno hst hnotice, rfl⟩
  case query =>
    refine finishes_row (hostRows_get_mem 12) fun v _ k q ⟨hmay, hno, hout⟩ => ?_
    exact ⟨_, _, State.cmdCtxQuery_done hmay hno hout, rfl, rfl, rfl, rfl⟩
  case bind =>
    refine finishes_row (hostRows_get_mem 13) fun v _ _ q ⟨hun, hvalid, hctx⟩ => ?_
    exact ⟨_, _, State.cmdRingBind_done hun hvalid hctx, rfl, State.modRing_ring .., rfl⟩
  case unbind =>
    refine finishes_row (hostRows_get_mem 14) fun v _ k q ⟨hn, hother, hst⟩ => ?_
    exact ⟨_, _, State.cmdRingUnbind_done hn hother hst, rfl, State.modRing_ring .., rfl⟩
  case map =>
    refine finishes_row (hostRows_get_mem 15) fun v _ k q ⟨hwhole, hcls, hacc, hfree, hsome⟩ => ?_
    obtain ⟨w, hw⟩ := Option.isSome_iff_exists.1 hsome
    obtain ⟨ctxs, pages⟩ := State.mapPages_spec (owner := .ctx k.ctx) (cls := field q 16 1)
      (rw := decide (field q 17 1 = 1)) (st := .resident) (pagesOf (field q 0 8) (field q 8 8)) w
    refine ⟨_, _, State.cmdMemMap_done hwhole hcls hacc hfree hw, rfl, ?_, fun i hi => pages i (.inl hi)⟩
    rw [hw]
    exact ctxs
  case unmap =>
    refine finishes_row (hostRows_get_mem 16) fun v g k q ⟨hwhole, hmine, hrep⟩ => ?_
    exact ⟨_, _, State.cmdMemUnmap_done g hwhole hmine hrep, rfl, rfl⟩
  case unpin =>
    refine finishes_row (hostRows_get_mem 17) fun v _ k q ⟨hb, hl, hmask, hflags, hall⟩ => ?_
    exact ⟨_, _, State.cmdMemPin_unpins hb hl hmask hflags hall, rfl, fun g hg => State.unpin_spec _ v g (.inl hg)⟩
  case pin =>
    refine finishes_row (hostRows_get_mem 17) fun v _ k q ⟨hb, hl, hmask, hflags, hall, hroom, hsome⟩ => ?_
    obtain ⟨w, hw⟩ := Option.isSome_iff_exists.1 hsome
    exact ⟨_, _, State.cmdMemPin_pins hb hl hmask hflags hall rfl hroom hw, rfl, hw⟩
  case hint =>
    refine finishes_row (hostRows_get_mem 18) fun v _ k q ⟨hwhole, hhint, hp⟩ => ?_
    obtain ⟨bytes, hints⟩ := State.hintPages_spec (c := k.ctx) (pagesOf (field q 0 8) (field q 8 8)) v hp
    exact ⟨_, _, State.cmdMemHint_done hwhole hhint, rfl, bytes, fun i hi => hints i (.inl hi)⟩
  case copy =>
    refine starts_row (hostRows_get_mem 19) fun v g k q ⟨hflags, hlen, hmax, hsrc, hdst, hmeet, hread, hwrite, hsome⟩ => ?_
    obtain ⟨w, hw⟩ := Option.isSome_iff_exists.1 hsome
    exact ⟨_, State.cmdMemCopy_local g hflags hlen hmax hsrc hdst hmeet hread hwrite hw, w, hw, rfl⟩
  case fill =>
    refine starts_row (hostRows_get_mem 20) fun v g k q ⟨hlen, hmax, hdst, hwrite, hsome⟩ => ?_
    obtain ⟨w, hw⟩ := Option.isSome_iff_exists.1 hsome
    exact ⟨_, State.cmdMemFill_starts g hlen hmax hdst hwrite hw, w, hw, rfl⟩
  case quota =>
    refine finishes_row (hostRows_get_mem 21) fun v _ _ q ⟨hno, hmask, hunits, hpool, hcellar⟩ => ?_
    refine ⟨_, _, State.cmdPoolQuota_done hno hmask hunits rfl hpool hcellar, rfl, ?_, rfl⟩
    exact congrArg Ctx.quota (State.modCtx_ctx ..)
  case provenance =>
    refine finishes_row (hostRows_get_mem 22) fun v _ k q ⟨hb, hl, hn, htrack, hregion, hread, hroom⟩ => ?_
    exact ⟨_, _, State.cmdProvenance_clears hb hl hn htrack hregion hread hroom, rfl, rfl, rfl, rfl⟩

end Sys2Proof.Machine
end

section
/-! CLAIMS. Sleep, wake, landing, front and passes of the arrays (R24 to R26, R39, R54, R463). -/

namespace Sys2Proof.Machine

/-! ### What reads that are counted leave as it was -/

/-- A state with where granules stand, what their moves take and the records taken out: what the counting of a touch and the
granules that it promotes leave, where memory holds no error (R222, R223). -/
def State.uncached (s : State) : State :=
  { s.kept with memory := { s.memory with granules := [], migrateUntil := 0 } }

theorem State.uncached_of_kept {s u : State} (h : u.kept = s.kept) : u.uncached = s.uncached :=
  congrArg (fun v : State =>
    ({ v with memory := { v.memory with granules := [], migrateUntil := 0 } } : State)) h

theorem State.arrays_of_uncached {s u : State} (h : u.uncached = s.uncached) : u.arrays = s.arrays :=
  (congrArg State.arrays h :)

/-- Memory holds no error (R232). -/
def Errorless (s : State) : Prop := s.memory.eccErrors = [] ∧ s.memory.cellarErrors = []

theorem Errorless.of_uncached {s u : State} (h : Errorless s) (e : u.uncached = s.uncached) : Errorless u :=
  ⟨(congrArg (fun v : State => v.memory.eccErrors) e).trans h.1,
    (congrArg (fun v : State => v.memory.cellarErrors) e).trans h.2⟩

theorem State.modGranule_uncached (s : State) (g : Nat) (f : Granule → Granule) :
    (s.modGranule g f).uncached = s.uncached := rfl

theorem State.count_uncached (s : State) (c : CtrId) (i n : Nat) : (s.count c i n).uncached = s.uncached :=
  State.uncached_of_kept (s.count_kept ..)

theorem State.evictGranule_uncached {s : State} (h : Errorless s) (g : Nat) : (s.evictGranule g).uncached = s.uncached := by
  have none : ∀ dirty, s.forgetErrors g dirty = s := fun dirty => by
    unfold State.forgetErrors
    rw [h.1, h.2]
    rfl
  unfold State.evictGranule
  dsimp only
  rw [none, State.uncached_of_kept (State.trace_kept ..), State.count_uncached, State.modGranule_uncached]

theorem State.freeGranule_uncached {s : State} (h : Errorless s) (g : Nat) : (s.freeGranule g).2.uncached = s.uncached := by
  unfold State.freeGranule
  dsimp only
  rw [State.checkRead_clean _ _ _ h.1 h.2, ite_self]
  split
  · exact State.evictGranule_uncached h g
  · rfl

theorem State.promote_uncached {s : State} (h : Errorless s) (g a : Nat) : (s.promote g a).uncached = s.uncached := by
  unfold State.promote
  extract_lets x room victim back
  have made : (if room then (true, s) else (victim.map s.freeGranule).getD (false, s)).2.uncached = s.uncached := by
    split
    · rfl
    · cases victim with
      | none => rfl
      | some v => exact State.freeGranule_uncached h v
  split
  · rfl
  · split
    · exact State.count_uncached ..
    · split
      · next e => rw [e] at made; exact made
      · next e => rw [e] at made; exact (State.uncached_of_kept (State.trace_kept ..)).trans made

/-- What is kept by each step from an errorless state is kept by a fold. -/
theorem foldl_uncached {α : Type} {f : State → α → State} (hf : ∀ v x, Errorless v → (f v x).uncached = v.uncached)
    (l : List α) {s : State} (h : Errorless s) : (l.foldl f s).uncached = s.uncached :=
  foldl_inv (fun v => v.uncached = s.uncached) f (fun v x hv => (hf v x (h.of_uncached hv)).trans hv) l s rfl

theorem State.countedTouch_uncached {s : State} (h : Errorless s) (a n array : Nat) :
    (s.countedTouch a n array).uncached = s.uncached := by
  have touched : (s.touch a n).uncached = s.uncached := 
    foldl_uncached (f := fun s g => s.modGranule g fun x => { x with lastTouch := s.now / 1000 }) (fun _ _ _ => rfl) _ h
  refine Eq.trans (foldl_uncached (fun v g hv => ?_) _ (h.of_uncached touched)) touched
  dsimp only
  split
  · rfl
  · split
    · exact State.promote_uncached (hv.of_uncached (State.modGranule_uncached ..)) g array
    · rfl

theorem State.arrayReads_uncached {s : State} (h : Errorless s) (a : Nat) (rs : List (Nat × Nat)) :
    (s.arrayReads a rs).uncached = s.uncached :=
  foldl_uncached (fun _ _ hv => (State.count_uncached ..).trans (State.countedTouch_uncached hv ..)) rs h

/-! ### An array and its landing halves -/

theorem State.modArray_array {s : State} {a : Nat} (ha : a < s.arrays.length) (f : ArrayState → ArrayState) :
    (s.modArray a f).array a = f (s.array a) := by
  unfold State.array State.modArray modAt
  simp [List.getD_eq_getElem?_getD, ha]

theorem State.array_of_arrays {s u : State} (h : u.arrays = s.arrays) (a : Nat) : u.array a = s.array a :=
  congrArg (fun l : List ArrayState => l.getD a {}) h

theorem State.arrays_of_kept {s u : State} (h : u.kept = s.kept) : u.arrays = s.arrays :=
  State.congr_kept (g := State.arrays) (fun _ => rfl) h

/-- A landing half that is changed under its owner's name is the changed one. -/
theorem ArrayState.halfOf_modHalf (x : ArrayState) (p : ThreadId × Nat × Nat) {f : LandingHalf → LandingHalf}
    (hf : ∀ h, (f h).owner = h.owner) : (x.modHalf p f).halfOf p = (x.halfOf p).map f := by
  unfold ArrayState.modHalf ArrayState.halfOf
  by_cases hA : (x.halfA.owner == some p) = true
  · simp [hA, hf]
  · by_cases hB : (x.halfB.owner == some p) = true
    · simp [hA, hB, hf]
    · simp [hA, hB]

theorem ArrayState.landed_half {x : ArrayState} {p : ThreadId × Nat × Nat} {h : LandingHalf} (hh : x.halfOf p = some h)
    {f : LandingHalf → LandingHalf} (hf : ∀ h, (f h).owner = h.owner) (hstate : ∀ h, (f h).state = .landed) (n : Nat) :
    (({ x.modHalf p f with lastProgress := n } : ArrayState).halfOf p).map (·.state) = some .landed := by
  change ((x.modHalf p f).halfOf p).map (·.state) = _
  rw [ArrayState.halfOf_modHalf x p hf, hh]
  exact congrArg some (hstate h)

/-- A block whose bytes have all come lands in its half (R54). -/
theorem State.landFill_lands {s : State} {a : Nat} {t : ThreadId} {o : TileOp} {p : Nat} {h : LandingHalf}
    (hc : MemoryClean s) (haw : h.awaited = []) (hbound : o.unbound = false) (ht : t.array = a) (ha : a < s.arrays.length)
    (hh : (s.array a).halfOf (t, o.id, p) = some h) :
    (((s.landFill a t o p h).array a).halfOf (t, o.id, p)).map (·.state) = some .landed := by
  unfold State.landFill
  extract_lets aux sh full
  have own : decide aux = false := decide_eq_false (not_not.2 ht)
  have room : full = false := by simp only [full, own, Bool.false_and]
  rcases hd : o.stationary aux with ⟨d, swap⟩
  dsimp only
  rw [sourcesReady_clean hc]
  dsimp only
  rw [haw, hbound, room, Bool.and_false, if_neg (by decide), if_neg (of_decide_eq_false own)]
  generalize (if d.dev = s.lodge.deviceId then s.fillRanges t o aux p else []) = rs
  generalize b2n _ = n
  have arrays : ((s.arrayReads a rs).count cPoisonedLoads a n).arrays = s.arrays :=
    State.arrays_of_uncached ((State.count_uncached ..).trans (State.arrayReads_uncached ⟨hc.ecc, hc.cellar⟩ a rs))
  rw [State.modArray_array (by rw [arrays]; exact ha), State.array_of_arrays arrays]
  exact ArrayState.landed_half hh (by exact fun _ => rfl) (by exact fun _ => rfl) _

/-! ### The front and the passes -/

/-- An instruction that is found after a state has been changed elsewhere is the one found before. -/
theorem State.op?_of_threads {s u : State} (h : u.threads = s.threads) (t : ThreadId) (id : Nat) : u.op? t id = s.op? t id :=
  congrArg (fun m : Map Thread => (Map.getD m (threadKey t) {}).ops.find? fun o : TileOp => o.id == id) h

/-- What the sums of a drained pass leave behind in its instruction (R26, R39). -/
theorem State.modFold_drained {s : State} {t : ThreadId} {id : Nat} {o : TileOp} (ho : s.op? t id = some o) {f : Fold → Fold}
    (hf : (f o.fold).drained = o.fold.drained + 1) :
    ((s.modFold t id f).op? t id).map (fun o => o.fold.drained) = some (o.fold.drained + 1) := by
  refine (congrArg _ (State.op?_modOp s t id (fun o => { o with fold := f o.fold }) fun _ => rfl)).trans ?_
  rw [ho]
  exact congrArg some hf

/-- Whether the front that enters leaves epoch 1 for epoch 0; the first after a resumption takes epoch 0 (R25, R31). -/
def frontEpoch (x : ArrayState) (a : Nat) (t : ThreadId) (o : TileOp) : Bool :=
  x.epoch && !(if t.array ≠ a then o.fold.auxResumed else o.fold.resumed)

/-- The array once a front has entered: its half's block is in the store that is not in use (R24, R25). -/
def frontedArray (e : Bool) (t : ThreadId) (o : TileOp) (p : Nat) (h : LandingHalf) (x : ArrayState) : ArrayState :=
  let y := { x.modHalf (t, o.id, p) (fun _ => {}) with epoch := !e, fronted := some (t, o.id, p) }
  if e then { y with stationary1 := h.block, scales1 := h.scales }
  else { y with stationary0 := h.block, scales0 := h.scales }

/-- The state once a front has entered an array. -/
def frontedState (s : State) (a cycles : Nat) (t : ThreadId) (o : TileOp) (p : Nat) (h : LandingHalf) : State :=
  (((s.modArray a (frontedArray (frontEpoch (s.array a) a t o) t o p h)).modFold t o.id fun f =>
    if t.array ≠ a then { f with auxResumed := false } else { f with resumed := false }).count cFrontWait a cycles).count
      cTransposedLoads a (if o.transposed (decide (t.array ≠ a)) then o.fronts else 0)

theorem frontEntry_enters {s : State} {a : Nat} (cycles : Nat) {t : ThreadId} {o : TileOp} {p : Nat}
    {rest : List (ThreadId × TileOp × Nat)} {h : LandingHalf} (hnext : s.nextPasses a = (t, o, p) :: rest)
    (hneed : needFronts (s.array a).fronted [(t, o, p)] ≠ []) (hh : (s.array a).halfOf (t, o.id, p) = some h)
    (hst : h.state = .landed) (hawake : s.arrayAwake a = true) :
    exec (.frontEntry a cycles) s = .next ((frontedState s a cycles t o p h).sequence t.array) := by
  obtain ⟨q, qs, hq⟩ := List.exists_cons_of_ne_nil hneed
  have e : exec (.frontEntry a cycles) s = execFrontEntry a cycles s := rfl
  have stays : ¬(decide (h.state ≠ .landed) || !s.arrayAwake a) = true := by rw [hst, hawake]; decide
  unfold execFrontEntry at e
  rw [hnext] at e
  dsimp only at e
  rw [hq, hh] at e
  dsimp only at e
  rw [if_neg stays] at e
  exact e

/-- What the entry of a front leaves: the array with its block, and memory as it was. -/
theorem frontedState_spec {s : State} {a : Nat} (ha : a < s.arrays.length) (cycles : Nat) (t : ThreadId) (o : TileOp)
    (p : Nat) (h : LandingHalf) :
    (frontedState s a cycles t o p h).array a = frontedArray (frontEpoch (s.array a) a t o) t o p h (s.array a) ∧
      (frontedState s a cycles t o p h).memory = s.memory := by
  generalize hf : frontedArray (frontEpoch (s.array a) a t o) t o p h = f
  have arrays : (frontedState s a cycles t o p h).arrays = (s.modArray a f).arrays := by
    unfold frontedState
    rw [hf]
    exact (State.arrays_of_kept ((State.count_kept ..).trans (State.count_kept ..))).trans rfl
  have memory : (frontedState s a cycles t o p h).memory = (s.modArray a f).memory := by
    unfold frontedState
    rw [hf]
    exact (State.memory_of_kept ((State.count_kept ..).trans (State.count_kept ..))).trans rfl
  exact ⟨(State.array_of_arrays arrays a).trans (State.modArray_array ha f), memory⟩

theorem ArrayState.modHalf_stationary (x : ArrayState) (p : ThreadId × Nat × Nat) (f : LandingHalf → LandingHalf) :
    (x.modHalf p f).stationary0 = x.stationary0 ∧ (x.modHalf p f).stationary1 = x.stationary1 := by
  unfold ArrayState.modHalf
  split
  · exact ⟨rfl, rfl⟩
  · split
    · exact ⟨rfl, rfl⟩
    · exact ⟨rfl, rfl⟩

theorem passStart_starts {s : State} {a : Nat} (cycles : Nat) {t : ThreadId} {o : TileOp} {p : Nat}
    {rest : List (ThreadId × TileOp × Nat)} {rows : List (List Num)} {rs : List (Nat × Nat)}
    (hnext : s.nextPasses a = (t, o, p) :: rest) (hawake : s.arrayAwake a = true)
    (hneed : needFronts (s.array a).fronted [(t, o, p)] = []) (hpair : o.pairReady (decide (t.array ≠ a)) = true)
    (hrows : s.streamRows t o (decide (t.array ≠ a)) p = some (rows, rs)) (hc : MemoryClean s) :
    exec (.passStart a cycles) s = .next (s.startPass a cycles t o p rows rs) := by
  have e : exec (.passStart a cycles) s = execPassStart a cycles s := rfl
  unfold execPassStart at e
  rw [hnext] at e
  dsimp only at e
  rw [hawake, hneed, hpair, if_neg (by decide), hrows] at e
  dsimp only at e
  rw [sourcesReady_clean hc] at e
  dsimp only at e
  rw [if_pos rfl] at e
  exact e

/-- The state in which a drained pass has been added to the sums of its block (R26, R39, R91). -/
def drainedState (s : State) (a : Nat) (q : Pass) (qs : List Pass) (o : TileOp) : State :=
  let sh := o.shape false q.number
  let carry := pushNodes o.acc sh o.fold.carry (passNodes o.acc q.rows q.block sh.cols)
  (s.modArray a fun x => { x with passes := qs, lastProgress := s.now }).modFold q.owner q.op fun f =>
    { f with drained := f.drained + 1, carry := if sh.last then dropBlock carry sh else carry }

theorem drainedState_spec {s : State} {a : Nat} {q : Pass} {o : TileOp} (qs : List Pass) (ho : s.op? q.owner q.op = some o)
    (ha : a < s.arrays.length) :
    ((drainedState s a q qs o).array a).passes = qs ∧ (drainedState s a q qs o).memory = s.memory ∧
      ((drainedState s a q qs o).op? q.owner q.op).map (fun o => o.fold.drained) = some (o.fold.drained + 1) := by
  refine ⟨congrArg ArrayState.passes (State.modArray_array ha _), rfl, ?_⟩
  exact State.modFold_drained (s := s.modArray a fun x => { x with passes := qs, lastProgress := s.now }) ho rfl

/-- A pass of an array's own instruction drains: the last of its block writes the block's roots where it may (R26, R91). -/
theorem passDrain_drains {s : State} {a : Nat} {q : Pass} {qs : List Pass} {o : TileOp}
    (hp : (s.array a).passes = q :: qs) (ho : s.op? q.owner q.op = some o) (ha : a = q.owner.array)
    (hwrite : (o.shape false q.number).last = true → s.writable (o.matrixDest false).ranges = true) :
    let sh := o.shape false q.number
    let roots := carryRoots o.acc sh (pushNodes o.acc sh o.fold.carry (passNodes o.acc q.rows q.block sh.cols))
    let v := drainedState s a q qs o
    exec (.passDrain a) s = .next
      (((if sh.last then v.finalBlock q.owner o false sh roots else v).finishFold q.owner q.op).stopMatrix
        q.owner q.op) := by
  intro sh roots v
  have own : decide (q.owner.array ≠ a) = false := decide_eq_false (not_not.2 ha.symm)
  have may : ((o.shape false q.number).last && !s.writable (o.matrixDest false).ranges) = false := by
    cases hl : (o.shape false q.number).last with
    | false => rfl
    | true => rw [hwrite hl]; rfl
  have e : exec (.passDrain a) s = execPassDrain a s := rfl
  unfold execPassDrain at e
  rw [hp] at e
  dsimp only at e
  rw [ho] at e
  dsimp only at e
  rw [own, may, if_neg Bool.false_ne_true] at e
  simp only [if_neg (not_not.2 ha.symm)] at e
  exact e

/-- Settles O42: each clause is the branch of its arm that its conditions choose, and the reads of clean memory move nothing
but the placement of granules. -/
theorem arraysSleepWakeFrontAndPass : Obligations.ArraysSleepWakeFrontAndPass := by
  intro s a cycles
  refine ⟨?gate, ?busy, ?wake, ?pair, ?awake, ?nothing, ?lands, ?front, ?start, ?none, ?drained, ?gone, ?drain, ?last⟩
  case gate =>
    intro hawake hbusy hidle
    have e : exec (.arrayPowerGate a) s = execArrayPowerGate a s := rfl
    unfold execArrayPowerGate at e
    rw [hawake, hbusy, decide_eq_false (Nat.not_lt.2 hidle), if_neg (by decide)] at e
    exact e
  case busy =>
    intro hbusy
    have e : exec (.arrayPowerGate a) s = execArrayPowerGate a s := rfl
    unfold execArrayPowerGate at e
    rw [hbusy, Bool.or_true, Bool.true_or, if_pos rfl] at e
    exact e
  case wake =>
    intro hasleep hown
    have e : exec (.arrayWake a cycles) s = execArrayWake a cycles s := rfl
    unfold execArrayWake at e
    dsimp only at e
    rw [hasleep, hown, Bool.true_or, if_neg (by decide)] at e
    exact e
  case pair =>
    intro hasleep hown hpair
    have e : exec (.arrayWake a cycles) s = execArrayWake a cycles s := rfl
    unfold execArrayWake at e
    dsimp only at e
    rw [hasleep, hown, hpair, if_neg (by decide)] at e
    exact e
  case awake =>
    intro hawake
    have e : exec (.arrayWake a cycles) s = execArrayWake a cycles s := rfl
    unfold execArrayWake at e
    dsimp only at e
    rw [hawake, Bool.not_false, Bool.true_or, if_pos rfl] at e
    exact e
  case nothing =>
    intro hnone
    have e : exec (.landingFillComplete a) s = execLandingFillComplete a s := rfl
    unfold execLandingFillComplete at e
    dsimp only at e
    rw [hnone] at e
    exact e
  case lands =>
    intro t o p h htarget hh
    have e : exec (.landingFillComplete a) s = execLandingFillComplete a s := rfl
    unfold execLandingFillComplete at e
    dsimp only at e
    rw [htarget] at e
    dsimp only at e
    rw [hh] at e
    exact ⟨e, fun hc haw hbound ht ha => ⟨_, e, State.landFill_lands hc haw hbound ht ha hh⟩⟩
  case front =>
    intro t o p rest h hnext _ hh hst hawake ha hneed e
    refine ⟨frontedState s a cycles t o p h, frontEntry_enters cycles hnext hneed hh hst hawake, ?_⟩
    obtain ⟨array, memory⟩ := frontedState_spec ha cycles t o p h
    obtain ⟨st0, st1⟩ := (s.array a).modHalf_stationary (t, o.id, p) fun _ => {}
    rw [array, memory, show frontEpoch (s.array a) a t o = e from rfl]
    unfold frontedArray
    dsimp only
    cases e with
    | true => exact ⟨rfl, rfl, ⟨rfl, rfl, st0⟩, rfl⟩
    | false => exact ⟨rfl, rfl, ⟨rfl, rfl, st1⟩, rfl⟩
  case start =>
    intro t o p rest rows rs hnext hawake hneed hpair hrows hc
    exact passStart_starts cycles hnext hawake hneed hpair hrows hc
  case none =>
    intro hnone
    have e1 : exec (.frontEntry a cycles) s = execFrontEntry a cycles s := rfl
    have e2 : exec (.passStart a cycles) s = execPassStart a cycles s := rfl
    unfold execFrontEntry at e1
    unfold execPassStart at e2
    rw [hnone] at e1 e2
    exact ⟨e1, e2⟩
  case drained =>
    intro hnone
    have e : exec (.passDrain a) s = execPassDrain a s := rfl
    unfold execPassDrain at e
    rw [hnone] at e
    exact e
  case gone =>
    intro q qs hp hnone
    have e : exec (.passDrain a) s = execPassDrain a s := rfl
    unfold execPassDrain at e
    rw [hp] at e
    dsimp only at e
    rw [hnone] at e
    exact e
  case drain =>
    intro q qs o hp ho hown hlast ha
    obtain ⟨passes, memory, drained⟩ := drainedState_spec qs ho ha
    have e := passDrain_drains hp ho hown fun h => absurd (hlast.symm.trans h) Bool.false_ne_true
    dsimp only at e
    rw [hlast, if_neg Bool.false_ne_true] at e
    exact ⟨_, e, _, rfl, passes, congrArg Memory.bytes memory, drained⟩
  case last =>
    intro q qs o hp ho hown hlast hwrite ha sh roots
    obtain ⟨passes, memory, drained⟩ := drainedState_spec qs ho ha
    have e := passDrain_drains hp ho hown fun _ => hwrite
    dsimp only at e
    rw [hlast, if_pos rfl] at e
    exact ⟨_, e, passes, memory, drained⟩

end Sys2Proof.Machine
end

section
/-! CLAIMS. Where a page's return is not what O45 says of it. The granule that is pinned in the page takes the place of a
dirty one, a line of which is checked before it leaves the cellar; the line's repair ends at once without a source, and the
write that waited for it is done, beyond the line's end too. -/

namespace Sys2Proof.Machine

/-- What the memory does once it is ready keeps the shelter of line 256. -/
theorem memoryReady_sheltered (s : State) (h : s.memory.sheltered) : s.memoryReady.memory.sheltered := by
  have whole : Whole ⟨s, .whole true⟩ := { noLine := nofun, whole := ⟨true, rfl⟩ }
  exact (Keeps.refl (q := .whole true)).memoryReady.scope (fun _ => h) rfl

/-- Page 1 returns with a granule to pin. Granule 0 is in its place and dirty, with an uncorrectable error in line 255, for
which a write waits that reaches into line 256. -/
def returningState : State :=
  { State.reset with memory := { State.reset.memory with
      pages := [(1, { owner := .pool, state := .returning })]
      granules := [(0, { slice := some 0, dirty := true }), (32, { home := some 0, pins := [1] })]
      cellarErrors := [(255 * 32, [0, 1])]
      repairing := [(256, { since := 0, tag := some 0, hostRead := true, retireRow := some 0 })]
      deferred := [.write 65535 [1, 1, 1, 1, 1, 1]] } }

/-- The state after the return: granule 0 has left the cellar, and the write that waited is done. -/
def returnedState : State :=
  (((returningState.modPage 1 fun q => { q with state := .resident }).count cPagesReturned 0).placePins 1).memoryReady

theorem returnedState_memory : cellRead returnedState.memory.bytes 65540 = 1 ∧
    (Map.getD returnedState.memory.granules 0 {}).slice = none ∧ returnedState.memory.channelErrors = [] ∧
      returnedState.memory.repairing = returningState.memory.repairing := by decide +kernel

/-- Line 256 is under repair as before, and the write has met its cell. -/
theorem returnedState_not_sheltered : ¬ returnedState.memory.sheltered := by
  obtain ⟨cell, slice, errors, repairing⟩ := returnedState_memory
  intro h
  have marked : returnedState.memory.marked := by
    unfold Memory.marked
    rw [repairing]
    exact ⟨_, List.mem_singleton_self _, rfl, nofun⟩
  obtain (h | h) | h := h marked
  · rw [slice] at h
    cases h
  · exact h errors
  · rw [cell] at h
    cases h

/-- Refutes O45: the return of page 1 of `returningState` writes memory before the memory is ready, so the state after it is
none that memory of no bytes comes to. -/
theorem not_pagesAndGranulesMove : ¬ Obligations.PagesAndGranulesMove := by
  intro h
  obtain ⟨-, -, -, -, -, -, returns, -⟩ := h returningState 1
  obtain ⟨u, hu, v, rfl, -, bytes⟩ := returns _ rfl rfl
  have after : returnedState = v.memoryReady := Host.Outcome.next.inj hu
  have empty : v.memory.bytes = [] := bytes
  refine returnedState_not_sheltered (after ▸ memoryReady_sheltered v fun _ => .inr ?_)
  rw [empty]
  rfl

end Sys2Proof.Machine
end
